-- ==== Sys2Proof/Word.lean ====
section
/-!
DEFINITION. The word and byte types, and the sparse-table type that the whole model uses.
A value is a bit vector only where the manual treats it as bits (register words, command words, memory bytes);
amounts, times, identifiers and indexes are natural numbers.
-/
namespace Sys2Proof

/-- A register or command word (R8). -/
abbrev Word := BitVec 32

/-- One byte of memory (R8). -/
abbrev Byte := BitVec 8

/-- A sparse table, in rising key order; an absent key stands for the default record that a read is given. -/
abbrev Tbl (α : Type) := List (Nat × α)

end Sys2Proof
end

