-- ==== Sys2Proof/Machine/Crypto.lean ====
section
/-!
DEFINITION. The ciphers and key derivations that chapters 05 and 17 name: AES (FIPS 197), HMAC-SHA1, GHASH, the SRTP key derivation and
transforms (RFC 3711, RFC 6188, RFC 7714), key wrapping (RFC 3394), and the counter-mode KDF on AES-256-CMAC (SP 800-108, SP 800-38B).
A string of octets is a number, its first octet the most significant, beside its length in octets (log 180).
-/
namespace Sys2Proof.Machine
open Sys2Proof

/-- The octets of a number of `n` octets, the most significant first. -/
def octetsOf (n x : Nat) : List Byte := (List.range n).map (fun i => BitVec.ofNat 8 (x / 256 ^ (n - 1 - i)))

def ofOctets (l : List Byte) : Nat := l.foldl (fun a b => a * 256 + b.toNat) 0

/-! AES. -/

/-- Entry 0 is the least significant octet of each table. -/
def sboxTable : Nat :=
  0x16bb54b00f2d99416842e6bf0d89a18cdf2855cee9871e9b948ed9691198f8e19e1dc186b95735610ef6034866b53e708a8bbd4b1f74dde8c6b4a61c2e2578ba08ae7a65eaf4566ca94ed58d6d37c8e779e4959162acd3c25c2406490a3a32e0db0b5ede14b8ee4688902a22dc4f816073195d643d7ea7c41744975fec130ccdd2f3ff1021dab6bcf5389d928f40a351a89f3c507f02f94585334d43fbaaefd0cf584c4a39becb6a5bb1fc20ed00d153842fe329b3d63b52a05a6e1b1a2c830975b227ebe28012079a059618c323c7041531d871f1e5a534ccf73f362693fdb7c072a49cafa2d4adf04759fa7dc982ca76abd7fe2b670130c56f6bf27b777c63

def invSboxTable : Nat :=
  0x7d0c2155631469e126d677ba7e042b17619953833cbbebc8b0f52aae4d3be0a0ef9cc9939f7ae52d0d4ab519a97f51605fec8027591012b131c7078833a8dd1ff45acd78fec0db9a2079d2c64b3e56fc1bbe18aa0e62b76f89c5291d711af1476edf751ce837f9e28535ade72274ac9673e6b4f0cecff297eadc674f4111913a6b8a130103bdafc1020f3fca8f1e2cd00645b3b80558e4f70ad3bc8c00abd890849d8da75746155edab9edfd5048706c92b6655dcc5ca4d41698688664f6f87225d18b6d49a25b76b224d92866a12e084ec3fa420b954cee3d23c2a632947b54cbe9dec444438e3487ff2f9b8239e37cfbd7f3819ea340bf38a53630d56a0952

def subByte (table : Nat) (b : Byte) : Byte := BitVec.ofNat 8 (table >>> (8 * b.toNat))

/-- Multiplication by x in the field of AES. -/
def xtime (b : Byte) : Byte := (b <<< 1) ^^^ (if b.getLsbD 7 then 0x1B else 0)

def gfMul (n : Nat) (b : Byte) : Byte :=
  let b2 := xtime b
  let b4 := xtime b2
  (if n.testBit 0 then b else 0) ^^^ (if n.testBit 1 then b2 else 0) ^^^ (if n.testBit 2 then b4 else 0) ^^^
    (if n.testBit 3 then xtime b4 else 0)

def xorOctets (a b : List Byte) : List Byte := List.zipWith (· ^^^ ·) a b

/-- Row r of the state moves by `d` r places. -/
def shiftRows (d : Nat) (s : List Byte) : List Byte := (List.range 16).map (fun i => s.getD ((i + 4 * d * (i % 4)) % 16) 0)

/-- Each column is multiplied by the circulant matrix of a first row. -/
def mixColumns (row : List Nat) (s : List Byte) : List Byte :=
  (List.range 16).map (fun i => (List.range 4).foldl (fun a k =>
    a ^^^ gfMul (row.getD ((k + 4 - i % 4) % 4) 0) (s.getD (4 * (i / 4) + k) 0)) 0)

def rcon : Nat → Byte
  | 0 => 1
  | n + 1 => xtime (rcon n)

def subWord (w : Word) : Word :=
  (List.range 4).foldl (fun a i => a ||| ((subByte sboxTable (w.extractLsb' (8 * i) 8)).setWidth 32 <<< (8 * i))) 0

/-- The words of the key schedule, newest first, from word `i` on. -/
def schedule (nk : Nat) : Nat → Nat → List Word → List Word
  | 0, _, w => w
  | f + 1, i, w =>
    let prev := w.getD 0 0
    let t := if i % nk = 0 then subWord (prev.rotateLeft 8) ^^^ ((rcon (i / nk - 1)).setWidth 32 <<< 24)
      else if 6 < nk ∧ i % nk = 4 then subWord prev else prev
    schedule nk f (i + 1) ((w.getD (nk - 1) 0 ^^^ t) :: w)

/-- Round keys of a key of 16 or 32 octets. -/
def roundKeys (bytes key : Nat) : List (List Byte) :=
  let nk := bytes / 4
  let first := (List.range nk).map (fun i => BitVec.ofNat 32 (key / 2 ^ (32 * i)))
  let w := (schedule nk (3 * nk + 28) nk first).reverse
  (List.range (nk + 7)).map (fun r => (List.range 4).flatMap (fun j => octetsOf 4 (w.getD (4 * r + j) 0).toNat))

def encRounds : List Byte → List (List Byte) → List Byte
  | s, [] => s
  | s, [k] => xorOctets (shiftRows 1 (s.map (subByte sboxTable))) k
  | s, k :: l => encRounds (xorOctets (mixColumns [2, 3, 1, 1] (shiftRows 1 (s.map (subByte sboxTable)))) k) l

def decRounds : List Byte → List (List Byte) → List Byte
  | s, [] => s
  | s, [k] => xorOctets ((shiftRows 3 s).map (subByte invSboxTable)) k
  | s, k :: l => decRounds (mixColumns [14, 11, 13, 9] (xorOctets ((shiftRows 3 s).map (subByte invSboxTable)) k)) l

/-- Encrypt and decrypt one block of 16 octets. -/
def aesEnc (keys : List (List Byte)) (block : Nat) : Nat :=
  match keys with
  | [] => block
  | k :: l => ofOctets (encRounds (xorOctets (octetsOf 16 block) k) l)

def aesDec (keys : List (List Byte)) (block : Nat) : Nat :=
  match keys.reverse with
  | [] => block
  | k :: l => ofOctets (decRounds (xorOctets (octetsOf 16 block) k) l)

/-- Blocks of the key stream of counter mode, from a first counter block. -/
def ctrBlocks (keys : List (List Byte)) : Nat → Nat → Nat → Nat
  | 0, _, a => a
  | n + 1, iv, a => ctrBlocks keys n (iv + 1) (a * 2 ^ 128 + aesEnc keys (iv % 2 ^ 128))

/-- The first `bytes` octets of the key stream. -/
def keyStream (keys : List (List Byte)) (iv bytes : Nat) : Nat :=
  let n := (bytes + 15) / 16
  ctrBlocks keys n iv 0 / 256 ^ (16 * n - bytes)

/-! HMAC-SHA1. -/

/-- The 80 words of a block, newest first. -/
def sha1Words : Nat → List Word → List Word
  | 0, w => w
  | f + 1, w => sha1Words f ((w.getD 2 0 ^^^ w.getD 7 0 ^^^ w.getD 13 0 ^^^ w.getD 15 0).rotateLeft 1 :: w)

structure Sha1 where
  a : Word
  b : Word
  c : Word
  d : Word
  e : Word
  deriving DecidableEq, Repr

def Sha1.step (s : Sha1) (t : Nat) (w : Word) : Sha1 :=
  let f := if t < 20 then ((s.b &&& s.c) ||| (~~~s.b &&& s.d)) + 0x5A827999
    else if t < 40 then (s.b ^^^ s.c ^^^ s.d) + 0x6ED9EBA1
    else if t < 60 then ((s.b &&& s.c) ||| (s.b &&& s.d) ||| (s.c &&& s.d)) + 0x8F1BBCDC
    else (s.b ^^^ s.c ^^^ s.d) + 0xCA62C1D6
  { a := s.a.rotateLeft 5 + f + s.e + w, b := s.a, c := s.b.rotateLeft 30, d := s.c, e := s.d }

def sha1Rounds : List Word → Nat → Sha1 → Sha1
  | [], _, s => s
  | w :: l, t, s => sha1Rounds l (t + 1) (s.step t w)

/-- One block of 64 octets. -/
def sha1Block (h : Sha1) (block : Nat) : Sha1 :=
  let w := (sha1Words 64 ((List.range 16).map (fun i => BitVec.ofNat 32 (block / 2 ^ (32 * i))))).reverse
  let r := sha1Rounds w 0 h
  { a := h.a + r.a, b := h.b + r.b, c := h.c + r.c, d := h.d + r.d, e := h.e + r.e }

/-- SHA-1 of `bytes` octets. -/
def sha1 (bytes x : Nat) : Nat :=
  let n := (bytes + 8) / 64 + 1
  let p := (x * 256 + 128) * 256 ^ (64 * n - bytes - 1) + 8 * bytes
  let r := (List.range n).foldl (fun h j => sha1Block h (p / 2 ^ (512 * (n - 1 - j)) % 2 ^ 512))
    { a := 0x67452301, b := 0xEFCDAB89, c := 0x98BADCFE, d := 0x10325476, e := 0xC3D2E1F0 }
  ofOctets (octetsOf 4 r.a.toNat ++ octetsOf 4 r.b.toNat ++ octetsOf 4 r.c.toNat ++ octetsOf 4 r.d.toNat ++ octetsOf 4 r.e.toNat)

/-- An octet 64 times. -/
def pad64 (b : Nat) : Nat := b * ((256 ^ 64 - 1) / 255)

/-- HMAC-SHA1 under a key of 20 octets. -/
def hmacSha1 (key bytes x : Nat) : Nat :=
  let k := key * 256 ^ 44
  sha1 84 ((k ^^^ pad64 0x5C) * 2 ^ 160 + sha1 (64 + bytes) ((k ^^^ pad64 0x36) * 256 ^ bytes + x))

/-! GHASH. -/

def ghashMul : Nat → BitVec 128 → BitVec 128 → BitVec 128 → BitVec 128
  | 0, _, _, z => z
  | n + 1, x, v, z =>
    ghashMul n x (if v.getLsbD 0 then (v >>> 1) ^^^ 0xE1000000000000000000000000000000 else v >>> 1) (if x.getLsbD n then z ^^^ v else z)

/-- GHASH of whole blocks, of which there are `n`. -/
def ghash (h : Nat) (n x : Nat) : Nat :=
  ((List.range n).foldl (fun y j => ghashMul 128 (y ^^^ BitVec.ofNat 128 (x / 2 ^ (128 * (n - 1 - j)))) (BitVec.ofNat 128 h) 0)
    (0 : BitVec 128)).toNat

/-- A string filled with zeros to whole blocks: the number of blocks and the string. -/
def padded (bytes x : Nat) : Nat × Nat := let n := (bytes + 15) / 16; (n, x * 256 ^ (16 * n - bytes))

/-- Tag of AES-GCM with a nonce of 12 octets over authenticated data and ciphertext. -/
def gcmTag (keys : List (List Byte)) (nonce aadBytes aad bytes data : Nat) : Nat :=
  let a := padded aadBytes aad
  let d := padded bytes data
  let x := (a.2 * 2 ^ (128 * d.1) + d.2) * 2 ^ 128 + 8 * aadBytes * 2 ^ 64 + 8 * bytes
  ghash (aesEnc keys 0) (a.1 + d.1 + 1) x ^^^ aesEnc keys (nonce * 2 ^ 32 + 1)

/-! SRTP (R167, R187). -/

/-- Octets of the master key and master salt of a suite, and of its tag. -/
def suiteKeyBytes (s : Nat) : Nat := if s = 1 ∨ s = 2 ∨ s = 5 then 16 else 32
def suiteSaltBytes (s : Nat) : Nat := if 5 ≤ s then 12 else 14
def suiteTagBytes (s : Nat) (rtcp : Bool) : Nat := if 5 ≤ s then 16 else if (s = 2 ∨ s = 4) ∧ !rtcp then 4 else 10

/-- A derived set: session cipher key, authentication key and salt of one slot for one packet class. -/
structure Derived where
  suite : Nat
  cipher : Nat
  auth : Nat
  salt : Nat
  deriving DecidableEq, Repr

/-- `bytes` octets for a label. The AES-GCM suites fill the master salt with zeros to 14 octets (RFC 7714). -/
def srtpKdf (s key salt label bytes : Nat) : Nat :=
  let x := (salt * 256 ^ (14 - suiteSaltBytes s)) ^^^ (label * 2 ^ 48)
  keyStream (roundKeys (suiteKeyBytes s) key) (x * 2 ^ 16) bytes

/-- The derived set of a master key and salt: labels 0x00 to 0x02 for SRTP, 0x03 to 0x05 for SRTCP. -/
def deriveSet (s key salt : Nat) (rtcp : Bool) : Derived :=
  let l := if rtcp then 3 else 0
  { suite := s, cipher := srtpKdf s key salt l (suiteKeyBytes s), auth := if 5 ≤ s then 0 else srtpKdf s key salt (l + 1) 20,
    salt := srtpKdf s key salt (l + 2) (suiteSaltBytes s) }

/-- Initialisation vector of a packet: a counter block, or the nonce of AES-GCM. -/
def Derived.iv (d : Derived) (ssrc index : Nat) : Nat :=
  if 5 ≤ d.suite then d.salt ^^^ (ssrc * 2 ^ 48 + index) else (d.salt * 2 ^ 16) ^^^ (ssrc * 2 ^ 64) ^^^ (index * 2 ^ 16)

/-- Encrypt or decrypt the payload of a packet. -/
def Derived.crypt (d : Derived) (ssrc index bytes data : Nat) : Nat :=
  let iv := d.iv ssrc index
  data ^^^ keyStream (roundKeys (suiteKeyBytes d.suite) d.cipher) (if 5 ≤ d.suite then iv * 2 ^ 32 + 2 else iv) bytes

/-- Authentication tag of a packet: header, payload as sent, and after them the rollover counter, or for SRTCP the word with the E bit and
the index. -/
def Derived.tag (d : Derived) (rtcp eBit : Bool) (ssrc index headBytes head bytes data : Nat) : Nat :=
  let last := if rtcp then (if eBit then 2 ^ 31 else 0) + index else index / 65536
  if 5 ≤ d.suite then
    let keys := roundKeys (suiteKeyBytes d.suite) d.cipher
    if !rtcp then gcmTag keys (d.iv ssrc index) headBytes head bytes data
    else if eBit then gcmTag keys (d.iv ssrc index) (headBytes + 4) (head * 2 ^ 32 + last) bytes data
    else gcmTag keys (d.iv ssrc index) (headBytes + bytes + 4) ((head * 256 ^ bytes + data) * 2 ^ 32 + last) 0 0
  else
    hmacSha1 d.auth (headBytes + bytes + 4) ((head * 256 ^ bytes + data) * 2 ^ 32 + last) / 256 ^ (20 - suiteTagBytes d.suite rtcp)

/-! Key wrapping (RFC 3394, default initial value), here of 48 octets under a key of 32. -/

def wrapIv : Nat := 0xA6A6A6A6A6A6A6A6

def wrapSteps (keys : List (List Byte)) (n : Nat) : Nat → Nat → Nat × List Nat → Nat × List Nat
  | 0, _, s => s
  | f + 1, t, s =>
    let i := (t - 1) % n
    let b := aesEnc keys (s.1 * 2 ^ 64 + s.2.getD i 0)
    wrapSteps keys n f (t + 1) ((b / 2 ^ 64) ^^^ t, s.2.set i (b % 2 ^ 64))

def unwrapSteps (keys : List (List Byte)) (n : Nat) : Nat → Nat × List Nat → Nat × List Nat
  | 0, s => s
  | t + 1, s =>
    let i := t % n
    let b := aesDec keys ((s.1 ^^^ (t + 1)) * 2 ^ 64 + s.2.getD i 0)
    unwrapSteps keys n t (b / 2 ^ 64, s.2.set i (b % 2 ^ 64))

def parts64 (n x : Nat) : List Nat := (List.range n).map (fun i => x / 2 ^ (64 * (n - 1 - i)) % 2 ^ 64)
def joined64 (l : List Nat) : Nat := l.foldl (fun a x => a * 2 ^ 64 + x) 0

/-- The 56 octets that wrap 48. -/
def wrap48 (key x : Nat) : Nat :=
  let r := wrapSteps (roundKeys 32 key) 6 36 1 (wrapIv, parts64 6 x)
  r.1 * 2 ^ 384 + joined64 r.2

/-- The 48 octets within 56, none where the check fails. -/
def unwrap48 (key x : Nat) : Option Nat :=
  let r := unwrapSteps (roundKeys 32 key) 6 36 (x / 2 ^ 384 % 2 ^ 64, parts64 6 x)
  if r.1 = wrapIv then some (joined64 r.2) else none

/-! AES-256-CMAC and the counter-mode KDF (R193). -/

/-- Multiplication by x in the field of CMAC. -/
def cmacDouble (x : Nat) : Nat := (x * 2 % 2 ^ 128) ^^^ (if x.testBit 127 then 0x87 else 0)

def cmac (key bytes x : Nat) : Nat :=
  let keys := roundKeys 32 key
  let k1 := cmacDouble (aesEnc keys 0)
  let n := max 1 ((bytes + 15) / 16)
  let whole := bytes = 16 * n
  let last := if whole then x ^^^ k1 else ((x * 256 + 128) * 256 ^ (16 * n - bytes - 1)) ^^^ cmacDouble k1
  (List.range n).foldl (fun c j => aesEnc keys (c ^^^ (last / 2 ^ (128 * (n - 1 - j)) % 2 ^ 128))) 0

/-- 256 bits for a label and a context: two blocks of PRF(counter, label, a zero octet, context, length in bits). -/
def kdf256 (key labelBytes label contextBytes context : Nat) : Nat :=
  let block := fun (i : Nat) =>
    cmac key (4 + labelBytes + 1 + contextBytes + 4) ((((i * 256 ^ labelBytes + label) * 256) * 256 ^ contextBytes + context) * 2 ^ 32 + 256)
  block 1 * 2 ^ 128 + block 2

/-- The octets of an ASCII label. -/
def labelOf (s : String) : Nat × Nat := (s.length, s.toList.foldl (fun a c => a * 256 + c.toNat) 0)

end Sys2Proof.Machine
end

