-- ==== Sys2Proof/Machine/StateNet.lean ====
section
/-!
DEFINITION. State of the media ports, the forwarder pipelines, the cipher engines and the forwarding graph
(chapters 04, 05 and 06), with the packet records that travel through them.
-/
namespace Sys2Proof.Machine
open Sys2Proof

/-! Packets as the parser sees them. -/

/-- One template of an AV1 template structure: its layers, the decode targets of which its frames are Switch points, and whether
it is a key-frame template. -/
structure Av1Template where
  spatial : Nat
  temporal : Nat
  switchDts : Nat
  key : Bool
  deriving DecidableEq, Repr

/-- A template structure: the number of its first template, and its templates in order. -/
structure Av1Structure where
  offset : Nat
  templates : List Av1Template
  deriving DecidableEq, Repr

/-- The data of one RTP header extension (R157). -/
inductive ExtData where
  /-- AV1 dependency descriptor: first and last packet of the frame, the frame's template number, the template structure and the
  frame's own Switch indications where it carries them -/
  | av1 (start last : Bool) (template : Nat) (fresh : Option Av1Structure) (switchDts : Option Nat)
  /-- RFC 6464 level and voice-activity bit -/
  | level (dbov : Nat) (vad : Bool)
  | other
  deriving DecidableEq, Repr

/-- RTP payload descriptor of one packet, by payload kind (R157). -/
inductive Desc where
  /-- no descriptor that can be parsed for the payload kind, or a kind that has none in its payload -/
  | none
  /-- VP8 (RFC 7741): S, P, T with TID and Y, PictureID with its width in bits, TL0PICIDX where it is present -/
  | vp8 (s p t : Bool) (tid : Nat) (y : Bool) (pid pidBits : Nat) (tl0 : Option Nat)
  /-- H.264: temporal_id of the prefix NAL unit when present, IDR, first and last packet of the picture -/
  | h264 (prefixTid : Option Nat) (idr start last : Bool)
  | hevc (irap start last : Bool)
  deriving DecidableEq, Repr

/-- An RTP packet (RFC 3550) with what the cipher engine can tell of its protection. -/
structure Rtp where
  ssrc : Nat
  seq : Nat
  ts : Nat
  pt : Nat
  marker : Bool
  /-- payload bytes -/
  bytes : Nat
  /-- bytes of the RTP header with its extensions (R149); its first octet, and its octets beyond the twelfth as one number -/
  hdrEnd : Nat
  b0 : Nat
  tail : Nat
  /-- the header extensions stand in the two-byte form of RFC 8285 -/
  extTwo : Bool
  /-- header extensions by ID -/
  exts : List (Nat × ExtData)
  desc : Desc
  mki : Option Nat
  /-- authentication tag -/
  tag : Nat
  /-- the payload as it arrives, encrypted, its octets as one number -/
  payload : Nat
  deriving DecidableEq, Repr

/-- One report block of an SR or RR. -/
structure ReportBlock where
  ssrc : Nat
  fractionLost : Nat
  cumLost : Nat
  extHigh : Nat
  jitter : Nat
  lsr : Nat
  dlsr : Nat
  deriving DecidableEq, Repr

/-- One packet report of RFC 8888 feedback. -/
structure CcfbItem where
  seq : Nat
  received : Bool
  /-- arrival time in ns, in the receiver's clock -/
  arrivalNs : Nat
  ecn : Nat
  deriving DecidableEq, Repr

/-- One RTCP packet of a compound (R228). -/
inductive Rtcp where
  | sr (ssrc ntp rtp packets octets : Nat) (blocks : List ReportBlock)
  | rr (blocks : List ReportBlock)
  | nack (media : Nat) (seqs : List Nat)
  | pli (media : Nat)
  | fir (media : Nat)
  /-- RFC 8888 feedback on an SSRC, with its report timestamp in ns -/
  | ccfb (ssrc stampNs : Nat) (items : List CcfbItem)
  /-- SDES CNAME: its length in octets and its words -/
  | sdes (len : Nat) (cname : List Word)
  | other
  deriving DecidableEq, Repr

/-- An SRTCP packet. -/
structure Srtcp where
  eBit : Bool
  index : Nat
  ssrc : Nat
  mki : Option Nat
  tag : Nat
  /-- the first four octets; how many octets follow the SSRC, and these as they arrive, as one number -/
  head : Nat
  bytes : Nat
  data : Nat
  /-- what the packet says once it is decrypted -/
  items : List Rtcp
  deriving DecidableEq, Repr

/-- A STUN message (R153 to R156). -/
structure Stun where
  request : Bool
  binding : Bool
  /-- "local:remote", each as one number of its octets -/
  username : Option (Nat × Nat)
  /-- the password under which MESSAGE-INTEGRITY was made, when that attribute is present -/
  integrity : Option Nat
  fingerprintOk : Bool
  priority : Bool
  controlled : Bool
  useCandidate : Bool
  /-- unknown comprehension-required attributes -/
  unknown : List Nat
  deriving DecidableEq, Repr

/-- What the first byte of a UDP payload leads to, or the payload of an unknown kind (R148). -/
inductive UdpBody where
  | stun (m : Stun)
  /-- the record's bytes, as words, and its length in bytes -/
  | dtls (bytes : Nat) (data : List Word)
  | srtcp (m : Srtcp)
  | srtp (m : Rtp)
  | other
  deriving DecidableEq, Repr

/-- What an IP packet carries. -/
inductive IpBody where
  | udp (csumZero csumOk : Bool) (sport dport : Nat) (first second : Nat) (body : UdpBody)
  | echo (ident : Nat)
  | icmpError (data : List Word)
  | neighbourSol (target : Nat)
  /-- PTP over UDP: to port 319 (event) or 320, its source port, UDP payload bytes and words (R535) -/
  | ptp (event : Bool) (sport bytes : Nat) (data : List Word)
  | other
  deriving DecidableEq, Repr

/-- The layer above Ethernet and its VLAN tags. -/
inductive Net where
  /-- `hdr` is the length of the IP header in bytes, IPv4 options included -/
  | ip (v6 : Bool) (hdr src dst : Nat) (fragment extHdr csumOk lengthsOk : Bool) (ecn : Nat) (body : IpBody)
  | arp (target : Nat)
  /-- a MAC control frame -/
  | macControl
  | other
  deriving DecidableEq, Repr

/-- An Ethernet frame as it arrives at a logical port. -/
structure Frame where
  /-- frame bytes without preamble -/
  len : Nat
  /-- destination MAC address -/
  dst : Nat
  srcMac : Nat
  fcsOk : Bool
  /-- it overlaps an uncorrectable codeword (R138) -/
  fecBad : Bool
  /-- TPID and VID of each tag, outermost first -/
  vlans : List (Nat × Nat)
  net : Net
  deriving DecidableEq, Repr

/-- A frame in a pipeline's input FIFO (R145). -/
structure FifoFrame where
  lport : Nat
  /-- service address index that steering found, 4,096 for none -/
  addr : Nat
  /-- arrival stamp in service ns -/
  stampNs : Nat
  /-- stamps in domains A and B, in units of 2^-32 ns (R536) -/
  stampA : Int
  stampB : Int
  frame : Frame
  /-- it reads back poisoned (R160) -/
  poison : Bool
  deriving DecidableEq, Repr

/-- A media packet admitted to the forwarder, or made inside the device (R30). -/
structure Pkt where
  /-- source index -/
  source : Nat
  /-- classification word of R158 -/
  desc : BitVec 64
  seq : Nat
  ts : Nat
  pt : Nat
  marker : Bool
  bytes : Nat
  /-- bytes of the RTP header with its extensions -/
  hdrBytes : Nat
  /-- first octet of the RTP header, and its octets beyond the twelfth as one number -/
  b0 : Nat
  tail : Nat
  frameBytes : Nat
  /-- number of its entry in the retransmission cache + 1, 0 for none (R225) -/
  cacheRef : Nat
  /-- VP8 PictureID, its width (0 for none) and TL0PICIDX, and whether the packet carries the latter -/
  pid : Nat
  pidBits : Nat
  tl0 : Nat
  hasTl0 : Bool
  stampNs : Nat
  payload : Nat
  /-- buffer handle in the pools, 0 for none -/
  buf : Nat
  /-- epoch fixed at the start of replication, 0 before (R35) -/
  epoch : Nat
  /-- edges of the walk not yet done, by edge index; only while replication runs -/
  walk : List Nat
  /-- repaired upstream or unwrapped from RTX: follows R217 as a late packet -/
  late : Bool
  /-- earliest departure in service ns, 0 for none (R264) -/
  launchNs : Nat
  deriving DecidableEq, Repr

/-! Media ports (chapter 04). -/

/-- A window of one second of local time, with the count in it: the form of every "at most n per second". -/
structure RateWin where
  /-- start of the window, local ns -/
  start : Nat
  count : Nat
  deriving DecidableEq, Repr

def RateWin.zero : RateWin := { start := 0, count := 0 }

/-- STATE of a logical port (GX_PORT_STATUS). -/
inductive PortSt where
  | disabled | negotiating | training | up | waiting | upFallback
  deriving DecidableEq, Repr

/-- A logical port (R132 to R140). -/
structure LPort where
  enabled : Bool
  st : PortSt
  mac : Nat
  /-- training has converged or was left out, and FEC alignment is awaited (step 4) -/
  aligning : Bool
  /-- the fallback preset is applied -/
  onFallback : Bool
  /-- local ns at which the present step's limit or wait ends -/
  deadline : Nat
  /-- retry waits taken since the last success: 1, 2, 4, 8, 16 s (R137) -/
  retries : Nat
  trainFails : Nat
  failLanes : Nat
  fecDegraded : Bool
  /-- seconds for which the ratio has stayed below the re-arm value -/
  fecGoodS : Nat
  localFault : Bool
  remoteFault : Bool
  corrCw : Nat
  uncorrCw : Nat
  corrSym : Nat
  framesRx : Nat
  framesTx : Nat
  framesDropped : Nat
  linkDowns : Nat
  /-- the reference clock of its port is lost (R638) -/
  clockLost : Bool
  stunWin : RateWin
  echoWin : RateWin
  icmpWin : RateWin
  deriving DecidableEq, Repr

def LPort.zero : LPort :=
  { enabled := false, st := .disabled, mac := 0, aligning := false, onFallback := false, deadline := 0, retries := 0,
    trainFails := 0, failLanes := 0, fecDegraded := false, fecGoodS := 0, localFault := false, remoteFault := false,
    corrCw := 0, uncorrCw := 0, corrSym := 0, framesRx := 0, framesTx := 0, framesDropped := 0, linkDowns := 0,
    clockLost := false, stunWin := .zero, echoWin := .zero, icmpWin := .zero }

/-- The settings of one media port (GX_PORT_CONFIG). -/
structure PortCfg where
  split : Nat
  media : Nat
  tsCorr : Bool
  mtu : Nat
  fallback : Nat
  stunRate : Nat
  deriving DecidableEq, Repr

def PortCfg.zero : PortCfg := { split := 0, media := 0, tsCorr := false, mtu := 1522, fallback := 0, stunRate := 200000 }

/-- A ring in host memory: DTLS tunnel, PTP, twin event and canvas frame rings share this form (R162, R163). -/
structure HostRing where
  base : Nat
  headAddr : Nat
  tailAddr : Nat
  /-- number of entries, 0 while the ring is disabled -/
  entries : Nat
  vec : Nat
  /-- the device's cached copy of the host's head -/
  head : Nat
  tail : Nat
  dropped : Nat
  /-- limits the overflow event to one a second -/
  win : RateWin
  deriving DecidableEq, Repr

def HostRing.zero : HostRing :=
  { base := 0, headAddr := 0, tailAddr := 0, entries := 0, vec := 0, head := 0, tail := 0, dropped := 0, win := .zero }

/-! Cipher engines (chapter 05). -/

/-- Run-time state of one key slot: usage counters and limits reached (R183, R184, R192). -/
structure KeySlot where
  srtp : Nat
  srtcp : Nat
  dueRaised : Bool
  limited : Bool
  unusable : Bool
  deriving DecidableEq, Repr

def KeySlot.zero : KeySlot := { srtp := 0, srtcp := 0, dueRaised := false, limited := false, unusable := false }

/-- Run-time state of a receive key set: the alternate of R175. -/
structure RxSet where
  /-- words of the former current key, held in NEXT after a promotion; none when there is no alternate -/
  alt : List Word
  /-- service ns at which the alternate is erased -/
  altEnd : Nat
  deriving DecidableEq, Repr

def RxSet.zero : RxSet := { alt := [], altEnd := 0 }

/-- Replay window of one SSRC under one receive set (R170). -/
structure Replay where
  /-- highest index verified -/
  high : Nat
  /-- indices verified within the window -/
  seen : List Nat
  valid : Bool
  deriving DecidableEq, Repr

def Replay.zero : Replay := { high := 0, seen := [], valid := false }

/-- Send index state of one SSRC of a leg (R176 to R181). -/
structure TxSsrc where
  ssrc : Nat
  next : Nat
  nextRtcp : Nat
  /-- token buckets of R180, in packets × 10^9, with the local ns of the last refill -/
  tok : Nat
  tokRtcp : Nat
  refillNs : Nat
  /-- REKEY_REQUIRED reason 4 has been raised for it -/
  exhausted : Bool
  /-- indices sent within the last 128, so that none is used twice (R177) -/
  sent : List Nat
  deriving DecidableEq, Repr

/-! Forwarding (chapter 06). -/

/-- Run-time word of an edge record (R200). -/
structure EdgeRun where
  curS : Nat
  curT : Nat
  tgtS : Nat
  tgtT : Nat
  /-- SWITCH_STATE: 0 steady, 1 up pending, 2 waiting for a keyframe, 3 dormant -/
  st : Nat
  pliAsked : Bool
  waitStart : Nat
  /-- state held before it became dormant, for packets of the draining epoch (R209) -/
  was : Nat
  /-- lower layer + 1 that a simulcast member has been asked for, 0 for none (R212) -/
  down : Nat
  poison : Bool
  deriving DecidableEq, Repr

def EdgeRun.zero : EdgeRun :=
  { curS := 0, curT := 0, tgtS := 0, tgtT := 0, st := 2, pliAsked := false, waitStart := 0, was := 2, down := 0, poison := false }

/-- Rewrite state of an out-slot (R201). -/
structure SlotRun where
  seqNext : Nat
  seqDelta : Nat
  tsOffset : Nat
  lastTsOut : Nat
  highSrcSeq : Nat
  pidOffset : Nat
  haveSrc : Bool
  lastStamp : Nat
  tl0Offset : Nat
  curSource : Nat
  switchPending : Bool
  rtxSeqNext : Nat
  histHead : Nat
  /-- delta history: SRC_SEQ and DELTA, newest first, at most 14 -/
  hist : List (Nat × Nat)
  srPackets : Nat
  srOctets : Nat
  /-- PictureID and TL0PICIDX of the last forwarded packet -/
  lastPid : Nat
  lastTl0 : Nat
  /-- the SSRC and RTX SSRC that the two sequence counters belong to (R218), each + 1, 0 for none -/
  ssrc : Nat
  rtxSsrc : Nat
  /-- it has sent since the leg's last report (R229) -/
  sentSince : Bool
  poison : Bool
  /-- occupant of a speaker slot: source index + 1, 0 when empty (R222) -/
  speaker : Nat
  /-- service ns of the placement -/
  placedNs : Nat
  /-- SPK_RANK + 1 that the slot had at the last speaker task, 0 when it was no speaker slot -/
  spkRank : Nat
  deriving DecidableEq, Repr

def SlotRun.zero : SlotRun :=
  { seqNext := 0, seqDelta := 0, tsOffset := 0, lastTsOut := 0, highSrcSeq := 0, pidOffset := 0, haveSrc := false,
    lastStamp := 0, tl0Offset := 0, curSource := 0, switchPending := false, rtxSeqNext := 0, histHead := 0, hist := [],
    srPackets := 0, srOctets := 0, lastPid := 0, lastTl0 := 0, ssrc := 0, rtxSsrc := 0, sentSince := false,
    poison := false, speaker := 0, placedNs := 0, spkRank := 0 }

/-- An entry of the history ring of an out-slot (R225). -/
structure HistEntry where
  valid : Bool
  seqOut : Nat
  tsOut : Nat
  pid : Nat
  tl0 : Nat
  marker : Bool
  /-- index and generation of the cache entry -/
  cache : Nat
  gen : Nat
  /-- service ns at which this number was last answered + 1, 0 for never (R226) -/
  answeredNs : Nat
  poison : Bool
  deriving DecidableEq, Repr

def HistEntry.zero : HistEntry :=
  { valid := false, seqOut := 0, tsOut := 0, pid := 0, tl0 := 0, marker := false, cache := 0, gen := 0, answeredNs := 0,
    poison := false }

/-- A packet held by the retransmission cache (R224). -/
structure CacheEntry where
  idx : Nat
  gen : Nat
  pkt : Pkt
  /-- service ns at which its depth ends -/
  endNs : Nat
  /-- bytes of the whole buffer it holds -/
  bytes : Nat
  pipeline : Nat
  poison : Bool
  deriving DecidableEq, Repr

/-- A gap that awaits upstream repair (R227). -/
structure Gap where
  source : Nat
  missing : List Nat
  /-- service ns at which the next NACK is due -/
  dueNs : Nat
  /-- the first NACK has been sent -/
  asked : Bool
  deriving DecidableEq, Repr

/-- Run-time state of a source. -/
structure SourceRun where
  /-- ingress allowance: bytes × 8 × 10^6 held, and service ns of the last refill -/
  tokens : Nat
  refillNs : Nat
  /-- speaker score in 1/256 steps (R220) -/
  score : Nat
  /-- a packet has been seen; its highest sequence number with cycles -/
  heard : Bool
  highSeq : Nat
  /-- service ns of the last keyframe request sent + 1, 0 for none (R214) -/
  lastPli : Nat
  /-- kept SR: NTP, RTP and the service ns of its arrival (R228) -/
  srNtp : Nat
  srRtp : Nat
  srNs : Nat
  haveSr : Bool
  /-- report-block statistics (RFC 3550): base, received, expected and received at the last report, jitter × 16 -/
  baseSeq : Nat
  received : Nat
  expPrior : Nat
  recvPrior : Nat
  jitter16 : Nat
  transit : Nat
  lastStamp : Nat
  lastTs : Nat
  /-- packets admitted since the feedback leg's previous report -/
  sinceReport : Nat
  /-- arrivals for RFC 8888 feedback: sequence number, arrival stamp and ECN, oldest first -/
  ccfb : List (Nat × Nat × Nat)
  /-- service ns of the next RFC 8888 report -/
  ccfbDue : Nat
  /-- AV1 template structure in force (R157) -/
  av1 : Option Av1Structure
  poison : Bool
  deriving DecidableEq, Repr

def SourceRun.zero : SourceRun :=
  { tokens := 0, refillNs := 0, score := 0, heard := false, highSeq := 0, lastPli := 0, srNtp := 0, srRtp := 0, srNs := 0,
    haveSr := false, baseSeq := 0, received := 0, expPrior := 0, recvPrior := 0, jitter16 := 0, transit := 0,
    lastStamp := 0, lastTs := 0, sinceReport := 0, ccfb := [], ccfbDue := 0, av1 := none, poison := false }

/-- One forwarder pipeline. -/
structure Pipe where
  fifo : List FifoFrame
  /-- replication queue, and the packets that wait for room in it (R206) -/
  repl : List Pkt
  entry : List Pkt
  /-- lines of the edge cache, most recently used first, with a dirty mark -/
  edgeLines : List (Nat × Bool)
  /-- ING_UNKNOWN_SSRC limits by service address and remote transport -/
  unknownWin : Tbl RateWin
  deriving DecidableEq, Repr

def Pipe.zero : Pipe :=
  { fifo := [], repl := [], entry := [], edgeLines := [], unknownWin := [] }

/-- Media ports, pipelines and cipher engines. -/
structure Net4 where
  ports : Tbl PortCfg
  lports : Tbl LPort
  pipes : Tbl Pipe
  /-- tunnel rings by function index -/
  tunnel : Tbl HostRing
  /-- DTLS datagrams per second by service address -/
  dtlsWin : Tbl RateWin
  /-- service addresses made inactive at run time, by a takeover asked for or a hand-over (R565, R571) -/
  addrInactive : List Nat
  /-- ICE nominations: by leg, transport and the local ns of the last event -/
  iceWin : Tbl RateWin
  keySlots : Tbl KeySlot
  rxSets : Tbl RxSet
  replay : Tbl Replay
  /-- send index state by leg index -/
  tx : Tbl (List TxSsrc)
  /-- SSRC values counted under the present send key, by leg index, in the order in which they entered (R178) -/
  counted : Tbl (List Nat)
  /-- legs that send nothing until re-keyed (R186), or whose index state was poisoned (R192) -/
  txStopped : List Nat
  /-- derived sets in the cache with the slot and packet class they belong to, most recently used first (R188) -/
  dkc : List (Nat × Derived)
  /-- cache entries that read with an uncorrectable error (R190) -/
  dkcErrors : Nat
  /-- derivations in flight -/
  deriving_ : List Nat
  dkcHits : Nat
  dkcMisses : Nat
  missqPeak : Nat
  /-- CRY_UNITS (R196) -/
  cryUnits : BitVec 20
  /-- KEYTBL_STATE (R196) -/
  keyTblReady : Bool
  rootFused : Bool
  /-- pairing secret (R553) -/
  pairing : Option Nat
  /-- boot nonce of R193 -/
  bootNonce : Nat
  deriving DecidableEq, Repr

/-- The forwarder's tables and caches. -/
structure Fwd where
  edges : Tbl EdgeRun
  outslots : Tbl SlotRun
  sources : Tbl SourceRun
  hist : Tbl HistEntry
  /-- oldest first -/
  cache : List CacheEntry
  cacheNext : Nat
  cacheGib : Nat
  holdoffMs : Nat
  gaps : List Gap
  /-- service ns of the last speaker selection that fell due, by conference index -/
  spkDue : Tbl Nat
  /-- records awaiting a rewrite by firmware (R231): kind 0 edge, 1 source, 2 out-slot, with the key -/
  rewrites : List (Nat × Nat)
  deriving DecidableEq, Repr

end Sys2Proof.Machine
end

