-- ==== Sys2Proof/Machine/StateLeg.lean ====
section
/-!
DEFINITION. State of leg adaptation, the egress hierarchy and its gates (chapter 07), and of audio processing and
mixing (chapter 08).
-/
namespace Sys2Proof.Machine
open Sys2Proof

/-- What an egress packet is, with the header fields the device gives it. -/
inductive EgBody where
  /-- SRTP: SSRC, sequence number, timestamp, payload type, marker, VP8 PictureID and TL0PICIDX, payload, and the
  original sequence number for an RFC 4588 packet -/
  | srtp (ssrc seq ts pt : Nat) (marker : Bool) (pid tl0 payload : Nat) (osn : Option Nat)
  /-- SRTCP from an SSRC -/
  | srtcp (ssrc : Nat) (items : List Rtcp)
  /-- STUN answer: 0 success or an error code, with integrity or not, its unknown-attribute list and destination -/
  | stun (code : Nat) (integrity : Bool) (unknown : List Nat) (ip port : Nat)
  | dtls (bytes : Nat) (data : List Word)
  /-- ARP or neighbour advertisement for an address, solicited or gratuitous -/
  | announce (ip : Nat) (gratuitous : Bool)
  | echoReply (ident : Nat)
  | ptp (bytes : Nat) (data : List Word)
  deriving DecidableEq, Repr

/-- An SRTP or SRTCP packet as its octets: header, payload, MKI and tag, each with its length. An SRTCP packet has the word of the E bit and
the index. -/
structure Wire where
  headBytes : Nat
  head : Nat
  bytes : Nat
  data : Nat
  word : Option Nat
  mkiBytes : Nat
  mki : Nat
  tag : Nat
  deriving DecidableEq, Repr

/-- A packet queued for egress. -/
structure EgPkt where
  body : EgBody
  /-- what stands on the wire, for SRTP and SRTCP; its payload is still plain and its tag 0 until the cipher engine has taken it -/
  wire : Option Wire
  /-- frame bytes -/
  bytes : Nat
  /-- SRTP or SRTCP index that protects it -/
  index : Nat
  /-- install stamp of the send key that protects it, 0 when unprotected -/
  key : Nat
  /-- out-slot, 16 for none -/
  slot : Nat
  /-- sent on the RTX SSRC -/
  rtx : Bool
  /-- source index that fed it, for RTX copies of probes -/
  source : Nat
  launchNs : Nat
  /-- service ns of its enqueue -/
  enqNs : Nat
  /-- counted as REPAIR_CAPPED already (R251) -/
  capped : Bool
  /-- reads back poisoned (R516) -/
  poison : Bool
  buf : Nat
  /-- epoch tag of the work that made it -/
  epoch : Nat
  deriving DecidableEq, Repr

/-- A packet of a leg on its way to the cipher engine: service class, SSRC and sequence number, none for SRTCP; `answer` marks an answer
to a NACK. -/
structure TxJob where
  leg : Nat
  cls : Nat
  ssrc : Nat
  seq : Option Nat
  answer : Bool
  pkt : EgPkt
  deriving DecidableEq, Repr

/-- What waits for a derived set: a received frame, or a packet of a leg. -/
inductive MissWork where
  | rx (f : FifoFrame)
  | tx (j : TxJob)
  deriving DecidableEq, Repr

/-- A packet that waits in a pipeline's miss queue for a derived set (R189). -/
structure MissPkt where
  /-- the derived set it needs -/
  setKey : Nat
  /-- epoch at which its parsing started (R151), or that tags the packet to be sent -/
  epoch : Nat
  work : MissWork
  deriving DecidableEq, Repr

/-- An entry of a leg's send history (R236). -/
structure Sent where
  seq : Nat
  slot : Nat
  rtx : Bool
  len8 : Nat
  departNs : Nat
  poison : Bool
  deriving DecidableEq, Repr

def Sent.zero : Sent := { seq := 0, slot := 0, rtx := false, len8 := 0, departNs := 0, poison := false }

/-- Run-time state of a leg: estimator, shaper, queues and RTCP (chapters 06 and 07). -/
structure LegRun where
  /-- estimator values: A, R_recv in b/s, q in µs, p in 1/65,536, q of the previous run -/
  a : Nat
  rRecv : Nat
  q : Nat
  p : Nat
  qPrev : Nat
  /-- service ns until which increases are held -/
  holdEnd : Nat
  /-- service ns of the last feedback and of the last halving step -/
  lastFb : Nat
  lastHalve : Nat
  fbLost : Bool
  /-- one-way delay samples, and round-trip times, of the last 10 s: service ns and value in µs -/
  delays : List (Nat × Int)
  rtts : List (Nat × Int)
  /-- feedback that arrived since the last completed run -/
  reports : List (Nat × List CcfbItem)
  /-- report blocks that arrived since, each with its round-trip time in µs where it can be told -/
  rrs : List (ReportBlock × Option Nat)
  /-- bytes reported received in the last 500 ms: service ns, bytes -/
  recv : List (Nat × Nat)
  /-- bytes sent, by class group, in the last second: service ns, class, bytes -/
  sentWin : List (Nat × Nat × Nat)
  budget : Nat
  spent : Nat
  underfunded : Bool
  lastUnder : Nat
  /-- service ns of the next due run and of the last completed one -/
  runDue : Nat
  lastRun : Nat
  /-- probing: service ns of its end + 1 or 0, service ns of the last probe's start and of the last
  lowering of A; of the present probe the rate, the copies made and their bytes -/
  probeEnd : Nat
  probeRate : Nat
  probeCount : Nat
  probeBytes : Nat
  lastProbe : Nat
  lastLower : Nat
  /-- rate the last refused step needed, 0 when none was refused for the budget -/
  refused : Nat
  /-- leg and repair buckets in units of bytes × 8 × 10^9, signed, with the local ns of the last refill -/
  bucket : Int
  repair : Int
  refillNs : Nat
  /-- shaper rate in b/s -/
  rate : Nat
  /-- start tag modulo 2^64, when the leg holds one (R252, R253) -/
  tag : Option Nat
  /-- the four service queues, class 0 to 3, each oldest first -/
  q0 : List EgPkt
  q1 : List EgPkt
  q2 : List EgPkt
  q3 : List EgPkt
  /-- send history by index and the history count (R236) -/
  sent : Tbl Sent
  sentCount : Nat
  /-- service ns of the next RTCP report (R229) -/
  rtcpDue : Nat
  /-- poisoned shaper or tag state met (R266) -/
  poison : Nat
  /-- other RTCP counted and ignored -/
  ignored : Nat
  /-- it has received RFC 8888 feedback (R388) -/
  ccfbSeen : Bool
  deriving DecidableEq, Repr

def LegRun.zero : LegRun :=
  { a := 0, rRecv := 0, q := 0, p := 0, qPrev := 0, holdEnd := 0, lastFb := 0, lastHalve := 0, fbLost := false, delays := [], rtts := [],
    reports := [], rrs := [], recv := [], sentWin := [], budget := 0, spent := 0, underfunded := false, lastUnder := 0,
    runDue := 0, lastRun := 0, probeEnd := 0, probeRate := 0, probeCount := 0, probeBytes := 0, lastProbe := 0, lastLower := 0,
    refused := 0, bucket := 0, repair := 0, refillNs := 0, rate := 0, tag := none, q0 := [], q1 := [], q2 := [], q3 := [],
    sent := [], sentCount := 0, rtcpDue := 0, poison := 0, ignored := 0, ccfbSeen := false }

/-- A gate list (R258): base time in ns of service time, cycle, and entries of gates and interval. -/
structure GateList where
  base : Nat
  cycle : Nat
  entries : List (BitVec 4 × Nat)
  deriving DecidableEq, Repr

def GateList.none : GateList := { base := 0, cycle := 0, entries := [] }

/-- Egress state of a logical port. -/
structure EgPort where
  /-- EGR_PORT_CTRL, PORT_RATE in Mb/s, LATE_LIMIT in ns and the administrative list: base, cycle, length and the words of
  its entries (R267) -/
  ctrl : Word
  rateMbps : Nat
  lateLimit : Nat
  admSec : Nat
  admNs : Nat
  admCycle : Nat
  admLen : Nat
  adm : Tbl Word
  /-- V in bytes per weight unit × 2^16, modulo 2^64 -/
  v : Nat
  /-- port bucket in bytes × 8 × 10^9, signed, with the local ns of the last refill -/
  bucket : Int
  refillNs : Nat
  oper : GateList
  /-- OPER_VALID -/
  operValid : Bool
  /-- PENDING, with the latched list and its takeover time in service ns -/
  pend : Bool
  pendList : GateList
  changeNs : Nat
  /-- LATE_BASE, CONFIG_ERROR, ADMIN_BUSY -/
  lateBase : Bool
  configError : Bool
  adminBusy : Bool
  /-- the frame selected and not yet sent: leg index, class, frame -/
  sel : Option (Nat × Nat × EgPkt)
  deriving DecidableEq, Repr

def EgPort.zero : EgPort :=
  { ctrl := 0, rateMbps := 0, lateLimit := 500000, admSec := 0, admNs := 0, admCycle := 0, admLen := 0, adm := [], v := 0, bucket := 0, refillNs := 0, oper := .none, operValid := false, pend := false, pendList := .none, changeNs := 0,
    lateBase := false, configError := false, adminBusy := false, sel := none }

/-- A PTP message on its way out: logical port, command slot, event message, frame bytes, UDP payload bytes and words. -/
structure PtpOut where
  lport : Nat
  slot : Nat
  event : Bool
  frame : Nat
  bytes : Nat
  data : List Word
  deriving DecidableEq, Repr

/-- Legs and egress. -/
structure Egress where
  legs : Tbl LegRun
  ports : Tbl EgPort
  /-- bytes received per source, spatial and temporal layer in the last second: key source × 64 + s × 8 + t -/
  layerWin : Tbl (List (Nat × Nat))
  /-- PTP messages that go ahead of the service queues, oldest first (R538) -/
  ptpOut : List PtpOut
  /-- the pipelines' miss queues (R189) -/
  missq : Tbl (List MissPkt)
  deriving DecidableEq, Repr

/-! Audio (chapter 08). Grid indexes and block numbers may lie before the origin, so they are integers. -/

/-- A 10 ms block in a hand-off queue (R271, R272, R299, R483). -/
structure Block where
  num : Int
  /-- it is a gap marker that stands in the place of a block -/
  marker : Bool
  samples : List Int
  /-- epoch of its mixing (R302); 0 on the input side -/
  epoch : Nat
  /-- GAP_COUNT: blocks dropped behind it -/
  gaps : Nat
  /-- its chain was cleared at its start (R290) -/
  fresh : Bool
  deriving DecidableEq, Repr

/-- A value that moves linearly over `len` samples, `pos` of them done. -/
structure Ramp where
  start : Nat
  goal : Nat
  len : Nat
  pos : Nat
  deriving DecidableEq, Repr

def Ramp.at_ (v : Nat) : Ramp := { start := v, goal := v, len := 0, pos := 0 }

/-- A meter (R300), with the number of its block. -/
structure Meter where
  rms : Nat
  peak : Nat
  holdLeft : Nat
  block : Int
  deriving DecidableEq, Repr

def Meter.zero : Meter := { rms := 0xFFFF, peak := 0xFFFF, holdLeft := 0, block := 0 }

/-- A single-frequency detector (R291). -/
structure Detector where
  /-- the setting under which it runs: frequency, N, threshold values and counts -/
  setting : List Nat
  on : Bool
  pass : Nat
  fail : Nat
  /-- samples of the running window, newest first -/
  win : List Int
  /-- Goertzel power of the last window, in 2^-40 of a full-scale sine -/
  power : Nat
  deriving DecidableEq, Repr

def Detector.zero : Detector := { setting := [], on := false, pass := 0, fail := 0, win := [], power := 0 }

/-- A packet held by a jitter buffer. -/
structure JbPkt where
  /-- grid index at which its first sample plays out, and its samples at 48 kHz -/
  play : Int
  len : Nat
  ts : Nat
  payload : Nat
  /-- an Opus packet in stereo -/
  stereo : Bool
  /-- the codec state that decodes it, once decoding has reached it -/
  dec : Option Nat
  deriving DecidableEq, Repr

/-- An RFC 4733 event received: its code and timestamp, its samples by grid index, and whether its end has come (R284). -/
structure RxEvent where
  code : Nat
  ts : Nat
  from_ : Int
  to_ : Int
  ended : Bool
  deriving DecidableEq, Repr

/-- A fully processed audio input. -/
structure AudIn where
  anchored : Bool
  /-- grid index and timestamp of the anchor, the newest packet held -/
  anchorIdx : Int
  anchorTs : Nat
  /-- held packets by playout, and the end of the last one let go -/
  jb : List JbPkt
  lastEnd : Int
  /-- playout has begun -/
  playing : Bool
  /-- RFC 3550 jitter × 16 on the RTP clock, with the last arrival stamp and timestamp -/
  jitter16 : Nat
  lastStamp : Nat
  lastTs : Nat
  /-- playout less arrival of the newest packet, in samples -/
  delay : Int
  /-- blocks since an insertion or removal was wanted (R283) -/
  wantSince : Nat
  /-- codec state, opaque to the model, and the last samples decoded, newest first -/
  codec : Nat
  past : List Int
  /-- histories of the two stages of the input chain, newest first -/
  h1 : List Int
  h2 : List Int
  detectors : Tbl Detector
  /-- DTMF digit now on + 1, and the contribution is muted for it -/
  digit : Nat
  muted : Bool
  /-- RFC 4733 events received, newest first -/
  events : List RxEvent
  /-- blocks waiting for the fabric, oldest first, at most 2, and gaps still to be played -/
  queue : List Block
  gapLeft : Nat
  prev : List Int
  /-- the block for which the fabric has taken an item, with the samples it took (none for idle) and whether they are fresh -/
  taken : Option Int
  item : Option (List Int)
  itemFresh : Bool
  /-- block last processed -/
  done : Option Int
  meter : Meter
  meterPrev : Meter
  /-- settings of its chain, to see a change -/
  chain : List Nat
  deriving DecidableEq, Repr

def AudIn.zero : AudIn :=
  { anchored := false, anchorIdx := 0, anchorTs := 0, jb := [], lastEnd := 0, playing := false, jitter16 := 0, lastStamp := 0, lastTs := 0,
    delay := 0, wantSince := 0, codec := 0, past := [], h1 := [], h2 := [], detectors := [], digit := 0, muted := false, events := [],
    queue := [], gapLeft := 0, prev := [], taken := none, item := none,
    itemFresh := false, done := none, meter := .zero, meterPrev := .zero, chain := [] }

/-- A DTMF event being played (R285). -/
structure DtmfPlay where
  event : Nat
  volume : Nat
  blocks : Nat
  inband : Bool
  /-- blocks mixed and blocks handled by the output task so far -/
  mixed : Nat
  sent : Nat
  /-- timestamp of its first sample -/
  ts : Nat
  deriving DecidableEq, Repr

/-- A fully processed audio output: of a leg, or the master output of a mix group. -/
structure AudOut where
  queue : List Block
  gapLeft : Nat
  prev : List Int
  /-- samples at the encode rate collected for the frame being assembled, and those at 48 kHz before the chain, with the
  grid index of the first -/
  frame : List Int
  frame48 : List Int
  frameIdx : Int
  codec : Nat
  h1 : List Int
  h2 : List Int
  /-- RTP timestamp and sequence numbers of the next packets -/
  ts : Nat
  seq : Nat
  evSeq : Nat
  /-- the random timestamp base has been taken -/
  begun : Bool
  dtmf : Option DtmfPlay
  meter : Meter
  /-- OUT_GAIN in Q3.13, and the fades in after a change of group and of chain -/
  gain : Ramp
  fade : Ramp
  chainFade : Ramp
  group : Nat
  chain : List Nat
  /-- samples at 48 kHz of silence since the last packet under DTX -/
  dtx : Nat
  deriving DecidableEq, Repr

def AudOut.zero : AudOut :=
  { queue := [], gapLeft := 0, prev := [], frame := [], frame48 := [], frameIdx := 0, codec := 0, h1 := [], h2 := [], ts := 0, seq := 0,
    evSeq := 0, begun := false, dtmf := none, meter := .zero, gain := .at_ 0, fade := .at_ 0x8000, chainFade := .at_ 0x8000, group := 0, chain := [], dtx := 0 }

/-- Run-time state of a contribution: selection and route ramps (R294, R301) in Q1.15, and IN_GAIN. -/
structure Contrib where
  selected : Bool
  sel : Ramp
  route : Ramp
  gain : Ramp
  deriving DecidableEq, Repr

def Contrib.zero : Contrib := { selected := false, sel := .at_ 0, route := .at_ 0, gain := .at_ 0 }

/-- A mix group's run-time state. -/
structure MixRun where
  /-- contributors chosen, by leg index, rising, the block they were chosen for and the epoch of that choice -/
  chosen : List Nat
  selBlock : Option Int
  selEpoch : Nat
  /-- block last mixed -/
  mixed : Option Int
  deriving DecidableEq, Repr

def MixRun.zero : MixRun := { chosen := [], selBlock := none, selEpoch := 0, mixed := none }

/-- A coefficient profile (R288, R289). -/
structure Profile where
  /-- bank A and bank B: FIR taps h[0..48], half-band taps g[0..13] -/
  bankA : List Int
  bankB : List Int
  /-- bank B is active -/
  activeB : Bool
  /-- grid index of a pending swap -/
  pend : Option Int
  /-- swaps that samples still to be computed may lie before: grid index, and the bank that was active before it; the last swap last -/
  swaps : List (Int × List Int)
  deriving DecidableEq, Repr

/-- An erased profile: every coefficient is 0. -/
def Profile.zero : Profile := { bankA := [], bankB := [], activeB := false, pend := none, swaps := [] }

/-- Audio processing. -/
structure Audio where
  /-- origin O of the grid in service ns (R272) -/
  origin : Nat
  /-- an origin that takes effect under R274: new origin and cause (0 pin, 1 command, 2 time step), with the shift in samples -/
  newOrigin : Option (Nat × Nat × Int)
  /-- service ns of the start of the block that runs, and its number; the block before it is the one that tasks work on -/
  lastStart : Nat
  block : Int
  begun : Bool
  syncPinEn : Bool
  /-- service ns of the last accepted edge of AUDIO_SYNC_N + 1, 0 for none -/
  lastEdge : Nat
  ins : Tbl AudIn
  outs : Tbl AudOut
  /-- master outputs by group index -/
  masters : Tbl AudOut
  /-- by leg × 2^16 + group -/
  contribs : Tbl Contrib
  groups : Tbl MixRun
  profiles : Tbl Profile
  deriving DecidableEq, Repr

end Sys2Proof.Machine
end

