-- ==== Sys2Proof/Machine/StateTxn.lean ====
section
/-!
DEFINITION. Firmware state: objects and the two configuration banks (chapters 01 and 03), sessions, transactions,
the commit queue and ticket outcomes.
-/
namespace Sys2Proof.Machine
open Sys2Proof

/-- An object of the configuration (R89 to R95). Its settings are the words of the card body that last set it. -/
structure Obj where
  /-- owning function index (R54) -/
  owner : Nat
  /-- GEN[27:25] of its identifier (R91) -/
  gen : Nat
  /-- version (R92) -/
  version : Nat
  /-- identifier of its parent, 0 for none -/
  parent : Nat
  /-- epoch of creation -/
  epoch : Nat
  /-- settings: the body of the last committed card of this object -/
  body : List Word
  deriving DecidableEq, Repr

def Obj.none : Obj := { owner := 0, gen := 0, version := 0, parent := 0, epoch := 0, body := [] }

/-- One bank of configuration tables (R32): the objects by TYPE and INDEX, and every further card in force, keyed by
opcode, object and sub-index. -/
structure Cfg where
  /-- the epoch these tables belong to; 0 for a bank never written -/
  epoch : Nat
  /-- objects by identifier with GEN cleared -/
  objs : Tbl Obj
  /-- card bodies in force, by `cardKey` -/
  cards : Tbl (List Word)
  /-- standby copies of the twin's objects (R556), under the twin's own identifiers; `Twin.map` gives those they have here -/
  sobjs : Tbl Obj
  /-- cards of the standby copies, with the service addresses by the twin's own numbers (R146) -/
  scards : Tbl (List Word)
  deriving DecidableEq, Repr

/-- A command staged in a transaction (R112, R113). -/
structure Staged where
  op : Nat
  /-- the issuing function -/
  fn : Nat
  /-- it was issued under the operator role -/
  asOp : Bool
  /-- the identifier created or named -/
  obj : Nat
  /-- the command creates `obj` -/
  create : Bool
  /-- further reserved identifiers: output sources (R90, R278); a decode context as type 9 (GX_DECODE_SET) -/
  more : List Nat
  /-- body and extension words -/
  body : List Word
  deriving DecidableEq, Repr

/-- An open transaction (R110 to R115). -/
structure Txn where
  staged : List Staged
  /-- bytes of bodies and extensions staged (R114) -/
  bytes : Nat
  deriving DecidableEq, Repr

/-- A session (R107 to R109). -/
structure Session where
  fn : Nat
  /-- TXN_IDLE_LIMIT in seconds -/
  idleS : Nat
  /-- local time in ns of the last command received -/
  lastNs : Nat
  txn : Option Txn
  deriving DecidableEq, Repr

/-- What asked for a commit. -/
inductive CommitKind where
  /-- GX_TXN_COMMIT or AUTO_COMMIT -/
  | host
  /-- the purge of R86 -/
  | purge
  /-- the closing commit of GX_LEG_BULK_CREATE -/
  | bulk
  /-- the survivor's takeover epoch (R566) -/
  | takeover
  /-- the removal or adoption of handed-over conferences (R571) -/
  | handover
  /-- published records of the twin applied to standby copies (R558) -/
  | standby
  deriving DecidableEq, Repr

/-- How far a commit has come (R33, R120, R124): `validating` between two steps of its validation (R105). -/
inductive CommitStage where
  | queued | validating | reserve | journalled | writing
  deriving DecidableEq, Repr

/-- A commit on its way, or held in the queue (R41, R120, R121). -/
structure Commit where
  kind : CommitKind
  fn : Nat
  /-- function index × 64 + slot of the command that waits for it, when one does -/
  slot : Option Nat
  session : Nat
  /-- 0 when the commit carries no ticket -/
  ticket : Nat
  staged : List Staged
  stage : CommitStage
  /-- the configuration that validation produced -/
  next : Cfg
  /-- local time in ns at which the wait of the present stage ends -/
  deadline : Nat
  unmirrored : Bool
  /-- the command was AUTO_COMMIT: its result adds its card's own body (R111, R112) -/
  auto : Bool
  /-- protected conferences whose reserve answer is still to come; the first has been asked for (R560) -/
  asking : List Nat
  /-- journal sequence number of its entry, 0 for none -/
  journal : Nat
  /-- the result is discarded because the function was reset (R85) -/
  discard : Bool
  /-- GX_LEG_BULK_CREATE: host address of its result; the conferences of a hand-over -/
  more : List Nat
  /-- a takeover's cause (1 heartbeat, 2 request, 3 hand-over) and the service ns of its first step -/
  cause : Nat
  start : Nat
  /-- identifiers that the twin gave to what it took in a hand-over: local and the twin's -/
  ids : List (Nat × Nat)
  /-- staged commands whose steps of validation are still to come (R105) -/
  left : Nat
  /-- VALIDATE_ONLY: it ends with its validation (R125) -/
  only : Bool
  /-- number on channel 7 of the reserve request that it waits for (R560) -/
  asked : Nat
  deriving DecidableEq, Repr

/-- The outcome of a ticket (GX_TXN_STATUS): state 0 held, 1 published, 2 failed, 3 abandoned. -/
structure Outcome4 where
  ticket : Nat
  fn : Nat
  state : Nat
  status : Nat
  epoch : Nat
  deriving DecidableEq, Repr

/-- Firmware's record of epochs, sessions and commits (chapters 01 and 03). -/
structure Guxus where
  /-- configuration bank 0, for even epochs (R32) -/
  bank0 : Cfg
  /-- configuration bank 1, for odd epochs -/
  bank1 : Cfg
  /-- the current epoch (R31) -/
  current : Nat
  /-- the draining epoch, 0 for none (R40) -/
  draining : Nat
  /-- local time in ns at which the drain limit of the draining epoch runs out (R42) -/
  drainEnd : Nat
  /-- an epoch published and not yet active, 0 for none -/
  published : Nat
  /-- T_act of the published epoch: service seconds and nanoseconds -/
  tActSec : Nat
  tActNs : Nat
  /-- EPOCH_DRAIN_LIMIT in ms (R42, R127) -/
  drainLimitMs : Nat
  /-- STALE_RUNTIME_WRITES (R37) -/
  staleWrites : Nat
  /-- GEN last given by object type and index: the generation plus 1, 0 for an index never given (R91) -/
  gens : Tbl Nat
  /-- identifiers reserved by open transactions (R113), GEN cleared -/
  reserved : List Nat
  sessions : Tbl Session
  /-- the session number given out last (R107) -/
  lastSession : Nat
  /-- the commit being carried out -/
  active : Option Commit
  /-- commits with VALIDATE_ONLY that are being validated (R125) -/
  checks : List Commit
  /-- held commits, oldest first (R41) -/
  held : List Commit
  nextTicket : Nat
  /-- ticket outcomes, newest first, at most 256 for each function -/
  outcomes : List Outcome4
  /-- the function that held the operator role when the device came into service, and its quotas by kind (R96) -/
  opQuota : Option (Nat × Tbl Nat)
  deriving DecidableEq, Repr

end Sys2Proof.Machine
end

