-- ==== Sys2Proof/Machine/StatePlat.lean ====
section
/-!
DEFINITION. State of memory and its controllers (chapter 15), of the time block (chapter 16) and of the twin link
(chapter 17).
-/
namespace Sys2Proof.Machine
open Sys2Proof

/-! Memory (chapter 15). -/

/-- The addressed memory: DRAM by device address, and packet memory from `packetBase` on. `cells` is canonical: rising
addresses, no byte equal to what an unlisted address reads as. `poison` lists the poisoned 64-bit words by word address
(address ÷ 8), rising; `flips` the words stored with 1 to 3 wrong bits, with how many. -/
structure Mem where
  cells : List Host.Cell
  poison : List Nat
  flips : Tbl Nat
  deriving DecidableEq, Repr

/-- One entry of a subchannel's row table (R519). -/
structure RowEntry where
  rank : Nat
  bank : Nat
  row : Nat
  pass : Nat
  total : Nat
  lastNs : Nat
  raised : Bool
  deriving DecidableEq, Repr

/-- A command in the freeze record (R511). -/
structure DramCmd where
  first : Nat
  second : Nat
  twoCycle : Bool
  rank : Nat
  delta : Nat
  ns : Nat
  deriving DecidableEq, Repr

/-- A freeze record (R511). -/
structure FreezeRec where
  sub : Nat
  reason : Nat
  parityRanks : Nat
  stampNs : Nat
  rdq : Nat
  wrq : Nat
  refDebt : Nat
  failStep : Nat
  openBanks : Nat
  delays : List Nat
  cmds : List DramCmd
  parityCmd : Nat
  deriving DecidableEq, Repr

/-- A DDR5 subchannel. -/
structure Sub where
  /-- 0 untrained, 1 in service, 2 degraded, 3 frozen -/
  st : Nat
  selfRefresh : Bool
  double : Bool
  refsb : Bool
  srEn : Bool
  rowmatch : Bool
  srIdleUs : Nat
  intervalMs : Nat
  driftPs : Nat
  ce : Nat
  ue : Nat
  poisonReads : Nat
  postponedMax : Nat
  forcedRef : Nat
  /-- postponed refreshes, in REFsb commands -/
  debt : Nat
  /-- bank of the next REFsb -/
  refBank : Nat
  consecFails : Nat
  lastDrift : Nat
  retrains : Nat
  /-- SUB_EVENTS -/
  events : BitVec 4
  /-- start-up training: step 1 to 9, retried already, failed step -/
  step : Nat
  retried : Bool
  failStep : Nat
  /-- retraining in progress: steps left -/
  retraining : Bool
  /-- local ns of the last request, of the next interval -/
  lastReq : Nat
  /-- entries in the write queue -/
  wrq : Nat
  rows : List RowEntry
  /-- corrected errors by rank × 32 + bank -/
  bankCe : Tbl Nat
  ueWin : RateWin
  stormWin : RateWin
  /-- first uncorrectable address of the window -/
  ueAddr : Nat
  /-- soft repairs held: rank × 8 + bank group -/
  ppr : List Nat
  delays : List Nat
  cmds : List DramCmd
  deriving DecidableEq, Repr

def Sub.zero : Sub :=
  { st := 0, selfRefresh := false, double := false, refsb := true, srEn := false, rowmatch := false, srIdleUs := 16000,
    intervalMs := 100, driftPs := 8, ce := 0, ue := 0, poisonReads := 0, postponedMax := 0, forcedRef := 0, debt := 0,
    refBank := 0, consecFails := 0, lastDrift := 0, retrains := 0, events := 0, step := 0, retried := false, failStep := 0,
    retraining := false, lastReq := 0, wrq := 0, rows := [], bankCe := [], ueWin := .zero,
    stormWin := .zero, ueAddr := 0, ppr := [], delays := [], cmds := [] }

/-- Memory controllers, scrubbers and repair. -/
structure Dram where
  /-- DDR_CONFIG in force (R492): x4, density code (0 16, 1 24, 2 32 Gbit), two ranks, rate in MT/s, capacity in GiB -/
  x4 : Bool
  density : Nat
  ranks2 : Bool
  rate : Nat
  capGib : Nat
  subs : Tbl Sub
  scrubEn : Bool
  passHours : Nat
  scrubPos : Nat
  scrubPasses : Nat
  passCe : Nat
  passUe : Nat
  rowThresh : Nat
  ceStorm : Nat
  injAddr : Nat
  injMode : Nat
  injArm : Bool
  /-- newest freeze record, kept in the non-volatile store -/
  freeze : Option FreezeRec
  /-- the repair map: subchannel, rank, bank group, bank, row -/
  repairMap : List (Nat × Nat × Nat × Nat × Nat)
  /-- a repair or memory test is running -/
  busy : Bool
  /-- the bank paused by GX_MEM_PPR: subchannel, rank × 32 + bank -/
  pausedBank : Option (Nat × Nat)
  /-- SRAM scrubber: locations in error in the last pass, island × 2^20 + word; field repairs added; spares left by island -/
  sramErr : List Nat
  sramRepairs : List Nat
  sramPasses : Nat
  deriving DecidableEq, Repr

/-! Time (chapter 16). -/

/-- A PTP domain: its counter and registers (R527, R529, R539, R540). -/
structure Dom where
  /-- counter in units of 2^-32 ns since the PTP epoch -/
  t : Int
  /-- INC: nanosecond part × 2^32 + fraction -/
  inc : Nat
  stepSec : Int
  stepNs : Int
  /-- PPS_CTRL and PPS_OUT_WIDTH -/
  ppsCtrl : Word
  widthUs : Nat
  /-- a pulse is being driven until this local time in ns -/
  pulse : Bool
  pulseEnd : Nat
  /-- last second for which a pulse was made -/
  lastPulse : Int
  /-- last accepted edge: domain seconds, nanoseconds, low 32 bits of the service stamp -/
  edgeSec : Nat
  edgeNs : Nat
  edgeSvc : Nat
  /-- local ns of the last accepted edge + 1, 0 for none -/
  edgeAt : Nat
  edgesIgnored : Nat
  /-- captured counter set (R548) -/
  capSec : Nat
  capNs : Nat
  capFrac : Nat
  /-- captured set of the last edge -/
  capEdgeSec : Nat
  capEdgeNs : Nat
  capEdgeSvc : Nat
  deriving DecidableEq, Repr

/-- Nominal increment: 1.25 ns (R527). -/
def Dom.zero : Dom :=
  { t := 0, inc := 0x140000000, stepSec := 0, stepNs := 0, ppsCtrl := 0, widthUs := 0x186A0, pulse := false, pulseEnd := 0,
    lastPulse := 0, edgeSec := 0, edgeNs := 0, edgeSvc := 0, edgeAt := 0, edgesIgnored := 0, capSec := 0, capNs := 0,
    capFrac := 0, capEdgeSec := 0, capEdgeNs := 0, capEdgeSvc := 0 }

/-- The time block (R526 to R548). -/
structure TimeBase where
  /-- time-base cycles of 1.25 ns since power-on reset: the model's clock for time-outs (log 3) -/
  cyc : Nat
  a : Dom
  b : Dom
  /-- TIME_CTRL.SELECT: false domain A, true domain B -/
  selB : Bool
  /-- OFF = service − selected domain, in units of 2^-32 × 10^-9 ns (R530) -/
  off : Int
  slewPpb : Int
  /-- local ns at which the slew started -/
  slewStart : Nat
  utcOffset : Int
  stepAbsorbed : Bool
  configError : Bool
  seenA : Bool
  seenB : Bool
  capSec : Nat
  capNs : Nat
  capFrac : Nat
  ring : HostRing
  /-- PTP messages received and sent in the second, by logical port (R535, R538) -/
  rxWin : Tbl RateWin
  txWin : Tbl RateWin
  rxDrops : Nat
  deriving DecidableEq, Repr

/-! Twin (chapter 17). -/

/-- A journal record (R557). -/
inductive JRec where
  | commit (staged : List Staged)
  /-- a purge of R86, journalled like any commit -/
  | purge (fn : Nat)
  | void (seq : Nat)
  | publish (seq epoch : Nat)
  /-- a snapshot begins, with the configuration's quotas left out (R569) -/
  | snapshot (epoch : Nat)
  /-- a create record of the snapshot: an object with its cards (opcode, sub-index, words) -/
  | object (key : Nat) (o : Obj) (cards : List (Nat × Nat × List Word))
  /-- a service address of the snapshot -/
  | addr (i : Nat) (words : List Word)
  deriving DecidableEq, Repr

/-- A leg's mirror record (R562). -/
structure MirrorLeg where
  leg : Nat
  aKbps : Nat
  useSrtp : Nat
  useSrtcp : Nat
  /-- SSRC, next SRTP index, next SRTCP index -/
  ssrcs : List (Nat × Nat × Nat)
  deriving DecidableEq, Repr

/-- A mirror record of channel 4. -/
inductive MirrorRec where
  | leg (m : MirrorLeg)
  | rend (id tKbps : Nat)
  deriving DecidableEq, Repr

/-- A Fliusk frame's contents as sent (R551). -/
inductive TwinMsg where
  | hello (serial random version : Nat)
  | heartbeat
  | journal (seq : Nat) (r : JRec)
  /-- acknowledgement; `paired` says that the sender has completed catch-up, with the conferences it could not reserve (R561, R569) -/
  | ack (chan seq : Nat) (paired : Option (List Nat))
  | mirror (seq : Nat) (m : MirrorRec)
  | event (words : List Word)
  | relay (f : Frame)
  | reserveReq (conf : Nat) (usage : List (Nat × Nat))
  | reserveAnswer (ok : Bool) (kind needed available : Nat)
  | reserveRelease (conf : Nat)
  | takeoverReq
  /-- T_act of the taking device, with its identifiers for the moved objects -/
  | tActReturn (sec ns : Nat) (ids : List (Nat × Nat))
  /-- take these conferences; `eject` says that the giver is leaving (R571, R573) -/
  | handover (confs : List Nat) (eject : Bool)
  deriving DecidableEq, Repr

/-- A hand-over under way on the giver (R571, R572). -/
structure Handover where
  /-- keys of the conferences -/
  confs : List Nat
  relay : Bool
  /-- T_h in service ns and in local ns -/
  th : Nat
  thLocal : Nat
  /-- command slot + 1, 0 when the eject sequence asked -/
  cmd : Nat
  /-- the twin's T_act has arrived -/
  relaying : Bool
  /-- service addresses that move, with their cards -/
  cards : List (Nat × List Word)
  /-- local ns of the last relayed frame -/
  lastRelay : Nat
  /-- conferences that the twin has taken -/
  moved : Nat
  deriving DecidableEq, Repr

/-- A takeover under way, from its first step to TAKEOVER_DONE (R566). -/
structure TakeRun where
  /-- 1 heartbeat, 2 request, 3 hand-over -/
  cause : Nat
  /-- service ns of its first step -/
  startNs : Nat
  /-- service ns of T_act, 0 before publication -/
  tAct : Nat
  epoch : Nat
  taken : Nat
  dropped : Nat
  /-- legs that send nothing until they have a new key (R186) -/
  stale : List Nat
  deriving DecidableEq, Repr

structure Twin where
  /-- TWIN_CTRL -/
  ctrl : Word
  /-- 0 DISABLED to 5 EJECTING (R555) -/
  st : Nat
  /-- the physical link is up, and a session exists -/
  phyUp : Bool
  session : Bool
  sessionNum : Nat
  /-- own random value of this session -/
  random : Nat
  peerSerial : Nat
  /-- keys of the session, by direction (R552) -/
  txKey : Nat
  rxKey : Nat
  txSeq : Nat
  rxHigh : Nat
  rxSeen : List Nat
  tagFails : Nat
  dropped : Nat
  /-- TWIN_EVENTS -/
  events : BitVec 5
  /-- window of R564: frame seen, pin seen, and consecutive windows missed by frames and by pins -/
  hbFrame : Bool
  hbPin : Bool
  missFrame : Nat
  missPin : Nat
  hbMissed : Nat
  aliveOut : Bool
  hbStopped : Bool
  /-- it has asked its twin to take over, and sends no packet of its conferences (R565) -/
  silent : Bool
  /-- it was PAIRED when its session ended: missed windows still lead to takeover (R564) -/
  wasPaired : Bool
  /-- the twin left by eject: its silence starts no takeover -/
  twinEjected : Bool
  /-- own journal half: records with sequence number, and which the twin has acknowledged -/
  journal : List (Nat × JRec)
  jTx : Nat
  jAck : Nat
  /-- twin half: records received, the last applied -/
  twinJournal : List (Nat × JRec)
  jApplied : Nat
  /-- number of the twin's next record expected -/
  jRx : Nat
  twinNeedsFull : Bool
  /-- records awaiting acknowledgement on channels 2, 4 and 7: channel, sequence, message, local ns of the last sending -/
  unacked : List (Nat × Nat × TwinMsg × Nat)
  chanSeq : Tbl Nat
  /-- mirror records held: twin identifier, record, service ns of arrival -/
  mirrors : List (Nat × MirrorRec × Nat)
  /-- next mirror record of the pass: ordinal, and service ns of the pass start -/
  mirrorNext : Nat
  mirrorPass : Nat
  /-- identifiers: twin to local -/
  map : List (Nat × Nat)
  funcMap : Tbl Nat
  ring : HostRing
  /-- reserves held for the twin, by twin identifier of the conference × 2: usage by kind; plus 1 for the reserve that a commit still
  under way has asked for -/
  reserves : List (Nat × List (Nat × Nat))
  /-- own conferences whose reserve is not held (R561), ascending -/
  exposed : List Nat
  /-- move counts by conference key (R570) -/
  moves : Tbl Nat
  takeovers : Nat
  taking : Option TakeRun
  /-- announcements still due: address and local ns of the repeat -/
  announce : List (Nat × Nat)
  handover : Option Handover
  /-- conferences that the twin has taken and the next epoch here will remove -/
  gone : List Nat
  /-- relayed bits in the present second, and drops -/
  relayWin : RateWin
  relayDrops : Nat
  ejectBudget : Nat
  relayLimit : Nat
  relayIdle : Nat
  /-- local ns at which EJECT_BUDGET ends, 0 while no power-down is due, 1 once it has ended -/
  ejectEnd : Nat
  /-- objects created and records applied since GX_JOURNAL_REPLAY began -/
  created : Nat
  applied : Nat
  /-- local ns at which the last hello went out -/
  helloNs : Nat
  deriving DecidableEq, Repr

end Sys2Proof.Machine
end

