-- ==== Sys2Proof/Machine/StateVideo.lean ====
section
/-!
DEFINITION. State of video decoding, composition and encoding (chapters 09, 10 and 11). Samples of pictures stand in
DRAM, in the buffer that a picture's record names. What a codec finds in a bitstream arrives as an operand of the
command that reports it (log 66).
-/
namespace Sys2Proof.Machine
open Sys2Proof

/-- A frame being assembled or waiting for decoding (R312). -/
structure AsmFrame where
  /-- running number of the frame in its context -/
  num : Nat
  /-- sequence numbers of the FRAME_START and FRAME_END packets, when they have arrived -/
  firstSeq : Option Nat
  lastSeq : Option Nat
  /-- sequence numbers held -/
  seqs : List Nat
  /-- arrival stamp of its first packet -/
  firstStamp : Nat
  /-- service ns at which ASSEMBLY_MS ends -/
  deadline : Nat
  ts : Nat
  key : Bool
  spatial : Nat
  temporal : Nat
  /-- no later frame may refer to it (R313) -/
  disposable : Bool
  /-- buffers of its packets, held until it completes -/
  bufs : List Nat
  /-- it has been retried after a core fault (R316) -/
  retried : Bool
  deriving DecidableEq, Repr

/-- A picture record (R323). -/
structure PicRec where
  context : Nat
  spatial : Nat
  temporal : Nat
  key : Bool
  concealed : Bool
  poisonRegion : Bool
  mono : Bool
  bit10 : Bool
  reducedValid : Bool
  epochTag : Bool
  full : Nat
  reduced : Nat
  width : Nat
  height : Nat
  stride : Nat
  chromaOffset : Nat
  rtpTs : Nat
  outputSeq : Nat
  arrivalNs : Nat
  doneNs : Nat
  matrix : Nat
  transfer : Nat
  primaries : Nat
  fullRange : Bool
  substSeq : Nat
  source : Nat
  deriving DecidableEq, Repr

def PicRec.zero : PicRec :=
  { context := 0, spatial := 0, temporal := 0, key := false, concealed := false, poisonRegion := false, mono := false,
    bit10 := false, reducedValid := false, epochTag := false, full := 0, reduced := 0, width := 0, height := 0,
    stride := 0, chromaOffset := 0, rtpTs := 0, outputSeq := 0, arrivalNs := 0, doneNs := 0, matrix := 0, transfer := 0,
    primaries := 0, fullRange := false, substSeq := 0, source := 0 }

/-- A frame buffer of a decode context, with its marks (R321). -/
structure DecBuf where
  handle : Nat
  /-- handle of the reduced copy, 0 when there is none -/
  reduced : Nat
  short : Bool
  long : Bool
  slot : BitVec 8
  outPending : Bool
  latest : Bool
  holds : Nat
  /-- output position: picture order count or order hint -/
  pos : Int
  /-- met with poison and never used again (R328) -/
  unusable : Bool
  /-- it has been output -/
  shown : Bool
  /-- its picture record -/
  pic : PicRec
  deriving DecidableEq, Repr

/-- The four states of a decode context (R325 to R329). -/
inductive DecSt where
  | waitKey | decoding | concealed | refused
  deriving DecidableEq, Repr

/-- The frame on a decode core: frame, core, epoch, buffer and reduced copy. -/
structure DecBusy where
  frame : AsmFrame
  core : Nat
  epoch : Nat
  handle : Nat
  reduced : Nat
  task : Nat
  deriving DecidableEq, Repr

/-- A decode context's run-time state, by source index. -/
structure DecRun where
  /-- the context has run since it was set -/
  begun : Bool
  st : DecSt
  reason : Nat
  profileIdc : Nat
  levelIdc : Nat
  bit10 : Bool
  codedW : Nat
  codedH : Nat
  tap : EdgeRun
  /-- oldest first -/
  asm : List AsmFrame
  nextNum : Nat
  /-- highest sequence number of the frames completed or lost -/
  doneSeq : Option Nat
  /-- frames lost to ASSEMBLY_MS: timestamp, spatial layer, and a sequence number of theirs (R312) -/
  lost : List (Nat × Nat × Nat)
  /-- complete frames waiting, in decode order -/
  waiting : List AsmFrame
  busy : Option DecBusy
  /-- frame bucket in frames × 10^9 and the local ns of its last refill (R313) -/
  bucket : Nat
  refillNs : Nat
  bufs : List DecBuf
  outputSeq : Nat
  /-- concealed outputs of the present run -/
  concealedRun : Nat
  /-- output position at which a recovery point ends concealment -/
  recoverAt : Option Int
  /-- handle of the recovery picture whose output ends concealment -/
  recovery : Option Nat
  /-- service ns at which the keyframe request is repeated, while CONCEALED or WAIT_KEY -/
  pliAt : Nat
  newest : PicRec
  deriving DecidableEq, Repr

def DecRun.zero : DecRun :=
  { begun := false, st := .waitKey, reason := 0, profileIdc := 0, levelIdc := 0, bit10 := false, codedW := 0, codedH := 0, tap := .zero,
    asm := [], nextNum := 0, doneSeq := none, lost := [], waiting := [], busy := none, bucket := 0, refillNs := 0, bufs := [], outputSeq := 0,
    concealedRun := 0, recoverAt := none, recovery := none, pliAt := 0, newest := .zero }

/-- A reference that a frame names: the AV1 or VP8 slot, and the output position that it expects (R325). -/
structure DecRef where
  slot : Option Nat
  pos : Option Int
  deriving DecidableEq, Repr

/-- Parameters that a sequence header or keyframe carries (R306, R307, R329). -/
structure DecParams where
  /-- profile and coding tools lie within R306 -/
  supported : Bool
  profile : Nat
  level : Nat
  /-- the level lies within the highest of R306 -/
  levelOk : Bool
  width : Nat
  height : Nat
  bit10 : Bool
  /-- reference pictures needed -/
  refsNeeded : Nat
  deriving DecidableEq, Repr

/-- What a decode core finds in a frame and reports with its end. -/
structure DecReport where
  /-- the bitstream or a packet reads with poison -/
  poisonIn : Bool
  /-- the context's stored state reads with poison -/
  poisonState : Bool
  params : Option DecParams
  /-- the frame is a recovery picture of R326: IDR, IRAP, shown key frame, keyframe -/
  recovers : Bool
  /-- it clears the marks of every other buffer: keyframe, IDR, IRAP with NoRaslOutputFlag (R321) -/
  clears : Bool
  /-- it is a RASL picture of the IRAP picture that recovered -/
  rasl : Bool
  refs : List DecRef
  /-- handles of references that read with poison -/
  poisonRefs : List Nat
  /-- a recovery point: output position of its recovery picture -/
  recoveryAt : Option Int
  pos : Int
  /-- slots refreshed, marks set on the new picture, positions unmarked and made long-term -/
  slots : BitVec 8
  short : Bool
  long : Bool
  unmark : List Int
  toLong : List Int
  /-- the picture is to be output, and the positions that are output now, in order -/
  shown : Bool
  outputs : List Int
  /-- displayed size and colour -/
  width : Nat
  height : Nat
  mono : Bool
  matrix : Nat
  transfer : Nat
  primaries : Nat
  fullRange : Bool
  deriving DecidableEq, Repr

/-- Run-time state of a canvas layer (R361). -/
structure LayerRun where
  /-- 0 READY, 1 STALE, 2 SLATE, 3 absent or static -/
  st : Nat
  stale : Nat
  /-- the newest picture used, held so that it can be repeated -/
  held : Option PicRec
  /-- factors d and e of R351 while DEGRADED_SCALE -/
  degraded : Option (Nat × Nat)
  reducedInUse : Bool
  occluded : Bool
  poison : Bool
  deriving DecidableEq, Repr

def LayerRun.zero : LayerRun :=
  { st := 3, stale := 0, held := none, degraded := none, reducedInUse := false, occluded := false, poison := false }

/-- A band item of a cut-through queue (R363). -/
structure BandItem where
  frame : Nat
  firstRow : Nat
  rows : Nat
  buffer : Nat
  last : Bool
  discard : Bool
  skip : Bool
  epoch : Nat
  deriving DecidableEq, Repr

/-- A frame record of a host frame ring (R365), with what a query reports of the frame. -/
structure FrameRec where
  frame : Nat
  bit10 : Bool
  epoch : Nat
  beaconPresent : Bool
  beaconOk : Bool
  poisoned : Bool
  degraded : Bool
  anyStale : Bool
  anySlate : Bool
  poisonRegion : Bool
  deadlineNs : Nat
  width : Nat
  height : Nat
  stride : Nat
  chromaOffset : Nat
  beaconCrc : Nat
  doneNs : Nat
  matrix : Nat
  fullRange : Bool
  deriving DecidableEq, Repr

def FrameRec.zero : FrameRec :=
  { frame := 0, bit10 := false, epoch := 0, beaconPresent := false, beaconOk := false, poisoned := false,
    degraded := false, anyStale := false, anySlate := false, poisonRegion := false, deadlineNs := 0, width := 0,
    height := 0, stride := 0, chromaOffset := 0, beaconCrc := 0, doneNs := 0, matrix := 0, fullRange := false }

/-- What a layer shows in a frame (R338, R350, R351): the picture, whether it was repeated from the last frame, whether the reduced copy
is read, and cropped size read. -/
structure LayerUse where
  layer : Nat
  pic : PicRec
  repeated : Bool
  reduced : Bool
  w : Nat
  h : Nat
  deriving DecidableEq, Repr

/-- A canvas frame that is ready or being composed. -/
structure CFrame where
  num : Nat
  epoch : Nat
  buffer : Nat
  /-- next row to be composed -/
  row : Nat
  task : Nat
  compositor : Option Nat
  record : FrameRec
  uses : List LayerUse
  /-- layers of which a tile has been fetched -/
  fetched : List Nat
  poison : Bool
  deriving DecidableEq, Repr

/-- Run-time state of a canvas. -/
structure CanvasRun where
  /-- number of the next frame whose deadline is awaited -/
  next : Nat
  busy : Option CFrame
  /-- the last composed frame: whether there is one, its number and record, and the geometry of its layers: layer, x, y, w, h -/
  begun : Bool
  lastNum : Nat
  last : FrameRec
  lastPlace : List (Nat × Int × Int × Nat × Nat)
  layers : Tbl LayerRun
  ring : HostRing
  decimate : Nat
  slotStride : Nat
  ringPaused : Bool
  /-- dynamic images by layer: content now shown, and the image fetched that shows from a frame on -/
  shown : Tbl (List Word)
  spare : Tbl (Nat × List Word)
  /-- layers whose shown image stands in their spare buffer (R356) -/
  swapped : List Nat
  /-- a skip since the last report lacked a buffer (R337) -/
  skipBare : Bool
  /-- buffers of planes, slates, images, beacon and hint maps: what they hold, and the handle -/
  bufs : List (List Word × Nat)
  /-- tiles of daymark planes to be flattened again: plane and tiles (R366) -/
  rebuild : List (Nat × Nat)
  deriving DecidableEq, Repr

def CanvasRun.zero : CanvasRun :=
  { next := 0, busy := none, begun := false, lastNum := 0, last := .zero, lastPlace := [], layers := [], ring := .zero, decimate := 1,
    slotStride := 0, ringPaused := false, shown := [], spare := [], swapped := [], skipBare := false, bufs := [], rebuild := [] }

/-- A rational number: rate control computes with fractions of bits. -/
structure Frac where
  num : Int
  den : Nat
  deriving DecidableEq, Repr

/-- A part of a frame being coded (R380, R393). -/
structure EncPart where
  layer : Nat
  part : Nat
  /-- the core that runs its task, and the task's slot -/
  core : Option Nat
  task : Nat
  /-- it has begun the frame (R378) -/
  begun : Bool
  done : Bool
  /-- luma rows, coding-block rows, and coding-block rows completed -/
  luma : Nat
  rows : Nat
  rowsDone : Nat
  bits : Nat
  /-- QP of the next row -/
  qp : Nat
  /-- budget and hard cap of the part in bits, rounded up -/
  b : Nat
  h : Nat
  /-- guard steps taken, rows so counted, and the cap was reached -/
  steps : Nat
  guardRows : Nat
  capped : Bool
  /-- payload bytes of its packets, once it is done -/
  sizes : List Nat
  deriving DecidableEq, Repr

/-- The motion that the analysis chose for a 16×16 block: frame number of the reference, and the vector in quarter samples (R385). -/
structure BlockMv where
  ref : Nat
  x : Int
  y : Int
  deriving DecidableEq, Repr

/-- A rendition frame being coded. -/
structure EncFrame where
  num : Nat
  epoch : Nat
  deadlineNs : Nat
  buffer : Nat
  key : Bool
  recovery : Bool
  temporal : Nat
  /-- a spatial switch-up point (R372) -/
  spatialUp : Bool
  /-- rate control has run for it (R381) -/
  rcDone : Bool
  /-- S, base, base′, internal QP and codec index of each spatial layer (R391, R392) -/
  satd : List Nat
  base : List Frac
  baseNk : List Frac
  qps : List Nat
  codecQps : List Nat
  parts : List EncPart
  begun : Bool
  retried : Bool
  poisonIn : Bool
  overshoot : Bool
  /-- reconstruction buffer of each layer, and bitstream buffers -/
  recs : List Nat
  streams : List Nat
  /-- vectors of the blocks analysed so far, by block in raster order, and whether a follower searches for itself (R386) -/
  field : Tbl BlockMv
  fallback : Bool
  deriving DecidableEq, Repr

/-- A reconstructed picture of a spatial layer, kept as a reference (R387). -/
structure RecPic where
  layer : Nat
  handle : Nat
  frame : Nat
  short : Bool
  long : Bool
  slot : BitVec 8
  /-- crop origin of its frame (R385) -/
  inX : Nat
  inY : Nat
  deriving DecidableEq, Repr

/-- It carries a mark (R321, R387). -/
def RecPic.marked (x : RecPic) : Bool := x.short || x.long || x.slot != 0

/-- A long-term reference picture (R388). -/
structure Ltr where
  slot : Nat
  frame : Nat
  acked : Bool
  /-- service ns at which it was marked -/
  atNs : Nat
  /-- packets still to be reported: legs × sequence numbers -/
  open_ : List (Nat × Nat)
  deriving DecidableEq, Repr

/-- Run-time state of a rendition. -/
structure RendRun where
  /-- band items of the frame being coded and of the one that waits -/
  queue : List BandItem
  busy : Option EncFrame
  /-- coded frames so far, place in the temporal pattern, temporal-layer-0 units so far -/
  coded : Nat
  pattern : Nat
  units0 : Nat
  keyAsked : Bool
  recoveryAsked : Bool
  /-- the first frame of this epoch is a keyframe (R394), 0 for none -/
  keyEpoch : Nat
  /-- target T in b/s and deficit D in bits -/
  t : Frac
  d : Frac
  /-- history of each class × 4 + layer: bits, QP, S of the last four frames, newest first -/
  hist : Tbl (List (Nat × Nat × Nat))
  /-- last QP + 1 of each class × 4 + layer -/
  lastQp : Tbl Nat
  lastNum : Nat
  lastBits : Nat
  lastQpUsed : Nat
  overshoot : Bool
  lastKey : Bool
  /-- numbers of recent frames that were skipped or discarded alone (R386) -/
  gone : List Nat
  ltrs : List Ltr
  /-- newest acknowledged picture: frame, service ns of its marking, service ns of its acknowledgement -/
  newestAck : Nat
  newestAckNs : Nat
  ackNs : Nat
  ltrStale : Bool
  recs : List RecPic
  /-- vectors of the last coded frame -/
  field : Tbl BlockMv
  /-- demand table: the window being filled and the completed one (R245) -/
  votes : Tbl Nat
  votesDone : Tbl Nat
  /-- number of the window being filled: service time over 200 ms; and up to which window rate control has looked -/
  voteWin : Nat
  voteSeen : Nat
  seq : Nat
  tsBase : Nat
  pid : Nat
  tl0 : Nat
  begun : Bool
  deriving DecidableEq, Repr

def RendRun.zero : RendRun :=
  { queue := [], busy := none, coded := 0, pattern := 0, units0 := 0, keyAsked := false, recoveryAsked := false, keyEpoch := 0,
    t := { num := 0, den := 1 }, d := { num := 0, den := 1 }, hist := [], lastQp := [], lastNum := 0, lastBits := 0, lastQpUsed := 0,
    overshoot := false, lastKey := false, gone := [], ltrs := [], newestAck := 0, newestAckNs := 0, ackNs := 0, ltrStale := false,
    recs := [], field := [], votes := [], votesDone := [], voteWin := 0, voteSeen := 0, seq := 0, tsBase := 0, pid := 0, tl0 := 0, begun := false }

/-- Video: contexts by source index, canvases and renditions by index. -/
structure Video where
  decs : Tbl DecRun
  canvases : Tbl CanvasRun
  rends : Tbl RendRun
  deriving DecidableEq, Repr

end Sys2Proof.Machine
end

