-- ==== Sys2Proof/Machine/StateWork.lean ====
section
/-!
DEFINITION. State of the Urymon engines (chapter 12), the task scheduler (chapter 13), and the buffer pools, DMA
channels and their queues (chapter 14); and the engine instructions in decoded form.
-/
namespace Sys2Proof.Machine
open Sys2Proof

/-! Engine instructions (R413, R414). -/

/-- Operations of the scalar register and immediate classes. -/
inductive AluOp where
  | add | sub | addSat | subSat | and | or | xor | shl | shr | sar | rol | ror
  | eq | ne | lt | le | ltu | leu | abs | clz | min | max | minu | maxu | lui
  deriving DecidableEq, Repr

/-- Second operand of a scalar operation. -/
inductive AluSrc where
  | reg (s2 : Nat)
  /-- a 16-bit immediate, already extended as the opcode says -/
  | imm (v : Word)
  deriving DecidableEq, Repr

/-- Address form of a memory instruction (R403). -/
inductive AddrMode where
  | offset (d : Int)
  | postImm (d : Int)
  | postReg (g : Nat)
  deriving DecidableEq, Repr

/-- A decoded engine instruction. -/
inductive UIns where
  | alu (op : AluOp) (d s1 : Nat) (s2 : AluSrc)
  /-- SIZE 0 to 3 for 8 to 64 bits; SX -/
  | load (t ar : Nat) (mode : AddrMode) (size : Nat) (sx : Bool)
  | store (t ar : Nat) (mode : AddrMode) (size : Nat)
  /-- 0 add, 1 swap, 2 signed minimum, 3 signed maximum -/
  | atomic (op t ar : Nat) (mode : AddrMode)
  | xfer (s1 : Nat)
  | wait (mask : Nat)
  | fence
  /-- COND 0 to 7, S1, offset in instruction words -/
  | branch (cond s1 : Nat) (off : Int)
  | jump (s1 : Nat) (link : Bool)
  | nop
  | mfc (d cr : Nat)
  | mtc (cr s1 : Nat)
  | end_ (s1 : Nat)
  | break_ (code : Nat)
  | cmac (acc s1 s2 sh : Nat) (neg conj : Bool)
  | dmac (acc s1 s2 sh : Nat) (neg : Bool)
  | smac (acc s1 s2 sh : Nat) (neg half : Bool)
  | accClear (acc : Nat)
  | accLoad (acc s1 : Nat)
  | accShift (acc : Nat) (by_ : Int)
  /-- destination, accumulator, shift, RND, width selection 0 to 2 for 16, 24 and 32 bits -/
  | accx (d acc sh : Nat) (rnd : Bool) (width : Nat)
  | maxx (d s1 s2 : Nat) (u inc : Bool)
  | minx (d s1 s2 : Nat) (u inc : Bool)
  deriving DecidableEq, Repr

/-- A register of a set, as the destination of a result in flight (R405). -/
inductive URegName where
  | g (n : Nat) | a (n : Nat) | acc (n : Nat)
  deriving DecidableEq, Repr

/-- A result in flight: it becomes visible when bundle `due` of its set issues (R405). -/
structure InFlight where
  reg : URegName
  value : BitVec 64
  due : Nat
  /-- the result of a search, which a later search may read before it is due (R407) -/
  search : Bool
  deriving DecidableEq, Repr

/-- A transfer outstanding or failed under its tag (R416, R417). -/
structure Xfer where
  tag : Nat
  local_ : Nat
  length : Nat
  /-- engine memory to buffer -/
  out : Bool
  handle : Nat
  offset : Nat
  /-- 0 outstanding, otherwise the DETAIL of its failure -/
  failed : Nat
  deriving DecidableEq, Repr

/-- What a set is waiting for: the bundle at its pc does not issue until then (R406, R417, R419). -/
inductive UStall where
  | run
  /-- WAIT on a tag mask -/
  | wait (mask : Nat)
  | fence
  /-- END, until earlier stores and transfers are acknowledged -/
  | ending
  /-- an XFER that waits for its tag or for a place -/
  | xfer
  deriving DecidableEq, Repr

/-- The delay slots of a branch, jump or call (R408). -/
structure Delay where
  /-- bundles still to run before control transfers -/
  left : Nat
  /-- where control goes; none for a branch that is not taken -/
  target : Option Word
  /-- `g31` takes the address of the bundle after the second delay slot -/
  link : Bool
  deriving DecidableEq, Repr

/-- One register set of an engine (R401, R402, R405). -/
structure USet where
  g : Tbl Word
  a : Tbl Word
  b : Tbl Word
  l : Tbl Word
  acc : Tbl (BitVec 40)
  pc : Word
  etag : Bool
  aov : Bool
  sat : Bool
  /-- cycles of the task in this set -/
  cycles : Nat
  cycHi : Word
  timeHi : Word
  /-- bundles issued -/
  bundles : Nat
  flight : List InFlight
  branch : Option Delay
  xfers : List Xfer
  stall : UStall
  /-- task slot that runs here + 1, 0 when idle -/
  task : Nat
  program : Nat
  /-- version of the image that the task runs (R429), 0 for a Guxus program -/
  ver : Nat
  /-- pages of instruction memory the program occupies -/
  pages : Nat
  /-- status of END, and the exception word of a task that ends with error, 0 for none; while `ending` -/
  status : Nat
  exc : BitVec 64
  winBase : Nat
  winSize : Nat
  deriving DecidableEq, Repr

def USet.zero : USet :=
  { g := [], a := [], b := [], l := [], acc := [], pc := 0, etag := false, aov := false, sat := false, cycles := 0,
    cycHi := 0, timeHi := 0, bundles := 0, flight := [], branch := none, xfers := [], stall := .run, task := 0,
    program := 0, ver := 0, pages := 0, status := 0, exc := 0, winBase := 0, winSize := 0 }

/-- A 64-bit memory word with its poison mark. -/
structure PWord where
  val : BitVec 64
  poison : Bool
  deriving DecidableEq, Repr

def PWord.zero : PWord := { val := 0, poison := false }

/-- An engine, by cluster × 32 + logical number. -/
structure Engine where
  prim : USet
  shad : USet
  /-- the shadow set issues -/
  inShadow : Bool
  /-- an urgent task waits for entry: its task slot + 1 -/
  urgent : Nat
  /-- local data memory by 64-bit word -/
  mem : Tbl PWord
  /-- resident pages, most recently used first: program, image version, page -/
  pages : List (Nat × Nat × Nat)
  /-- page loads under way -/
  loading : List (Nat × Nat × Nat)
  /-- no further task: internal fault or retirement (R430, R431) -/
  stopped : Bool
  /-- local ns at which a retirement ends the task, 0 for none -/
  retireAt : Nat
  deriving DecidableEq, Repr

def Engine.zero : Engine :=
  { prim := .zero, shad := .zero, inShadow := false, urgent := 0, mem := [], pages := [], loading := [], stopped := false,
    retireAt := 0 }

/-- A cluster: clock and shared memory. -/
structure Cluster where
  shared : Tbl PWord
  /-- windows in use: task slot, base, size -/
  windows : List (Nat × Nat × Nat)
  corrected : Nat
  deriving DecidableEq, Repr

def Cluster.zero : Cluster := { shared := [], windows := [], corrected := 0 }

/-- Run-time record of a program (GX_PROGRAM_QUERY). -/
structure ProgRun where
  completed : Nat
  failed : Nat
  lastExc : BitVec 64
  /-- constant buffers, by image version: handle (R428) -/
  bufs : Tbl Nat
  deriving DecidableEq, Repr

def ProgRun.zero : ProgRun := { completed := 0, failed := 0, lastExc := 0, bufs := [] }

structure Engines where
  engines : Tbl Engine
  clusters : Tbl Cluster
  progs : Tbl ProgRun
  deriving DecidableEq, Repr

/-! Task scheduler (chapter 13). -/

/-- State of a task slot (R437). -/
inductive TaskSt where
  | free | allocated | waiting | delayed | ready | running | held | ended
  deriving DecidableEq, Repr

/-- A task descriptor (R434). -/
structure TaskDesc where
  target : Nat
  prio : Nat
  etag : Bool
  flowEn : Bool
  failProp : Bool
  noAge : Bool
  depCount : Nat
  affinity : Word
  work : Nat
  flow : Nat
  compq : Nat
  args : List Word
  succ0 : Word
  succ1 : Word
  release : Nat
  deriving DecidableEq, Repr

def TaskDesc.zero : TaskDesc :=
  { target := 0, prio := 0, etag := false, flowEn := false, failProp := false, noAge := false, depCount := 0, affinity := 0,
    work := 0, flow := 0, compq := 0, args := [], succ0 := 0, succ1 := 0, release := 0 }

/-- A task slot (R433, R437). -/
structure Task where
  st : TaskSt
  gen : Nat
  desc : TaskDesc
  /-- remaining count; while ALLOCATED, signals received -/
  count : Nat
  level : Nat
  /-- service ns at which it became READY, and promotions made since -/
  readyNs : Nat
  promos : Nat
  flowSeq : Nat
  /-- allocated by the operator, and the submitting function -/
  operator : Bool
  fn : Nat
  unit : Nat
  startNs : Nat
  ran : Bool
  status : Nat
  exc : BitVec 64
  aov : Bool
  sat : Bool
  /-- tick number at which its wait began to be timed (R450) -/
  waitTick : Nat
  /-- moved to the comparator stage (R447) -/
  comparator : Bool
  /-- taken out of use until device warm reset (R455) -/
  lost : Bool
  /-- it was allocated for a level of 0 to 3 (R436) -/
  kept : Bool
  /-- left over by a tick that had moved all it may (R447) -/
  late : Bool
  /-- the epoch current when it started, which a run of firmware takes (R35) -/
  epoch : Nat
  /-- its unit has done with it and every write is acknowledged; its ending is still to be carried out (R439) -/
  done : Bool
  deriving DecidableEq, Repr

def Task.zero : Task :=
  { st := .free, gen := 0, desc := .zero, count := 0, level := 0, readyNs := 0, promos := 0, flowSeq := 0, operator := false,
    fn := 0, unit := 0, startNs := 0, ran := false, status := 0, exc := 0, aov := false, sat := false, waitTick := 0,
    comparator := false, lost := false, kept := false, late := false, epoch := 0, done := false }

/-- A completion record (R451). -/
structure CompRec where
  queue : Nat
  task : Nat
  status : Nat
  aov : Bool
  sat : Bool
  etag : Bool
  target : Nat
  unit : Nat
  exc : BitVec 64
  startNs : Nat
  ran : Bool
  endNs : Nat
  deriving DecidableEq, Repr

structure Sched where
  tasks : Tbl Task
  /-- next flow sequence number by flow -/
  flowNext : Tbl Nat
  /-- completion records written, oldest first -/
  comps : List CompRec
  /-- MODE (R449) -/
  mode : Nat
  /-- TICK_US in force and the value waiting for the next tick -/
  tickUs : Nat
  tickNext : Nat
  /-- service ns of the last tick, and ticks counted -/
  lastTick : Nat
  ticks : Nat
  agePeriod : Nat
  ageCeiling : Nat
  ageEn : Bool
  waitTimeout : Nat
  /-- SCHED_EVENTS -/
  events : BitVec 5
  slotsWin : RateWin
  underWin : RateWin
  lostSlots : Nat
  deriving DecidableEq, Repr

/-! Buffer pools (chapter 14). -/

/-- A buffer's state word (R473). -/
structure Buf where
  owner : Nat
  refs : Nat
  gen : Nat
  used : Bool
  lost : Bool
  deriving DecidableEq, Repr

def Buf.zero : Buf := { owner := 0, refs := 0, gen := 0, used := false, lost := false }

structure Pool where
  /-- N -/
  count : Nat
  bufs : Tbl Buf
  /-- buffers allocated, and out of use -/
  used : Nat
  lost : Nat
  /-- 0 normal, 1 CAUTION, 2 WARNING, 3 CRITICAL -/
  st : Nat
  wmCaution : Nat
  wmWarning : Nat
  wmCritical : Nat
  hyst : Nat
  /-- POOL_EVENTS -/
  events : BitVec 4
  deriving DecidableEq, Repr

/-- A pool of N buffers after device warm reset, with the default thresholds of R466. -/
def Pool.ofCount (n : Nat) : Pool :=
  { count := n, bufs := [], used := 0, lost := 0, st := 0, wmCaution := n / 4, wmWarning := n / 8, wmCritical := n / 32,
    hyst := n / 256, events := 0 }

/-- Use of a pool by a requester identity, by identity × 8 + pool. -/
structure Use where
  u : Nat
  /-- explicit reserve and limit of GX_REQUESTER_SET; limit 0 means the pool's count -/
  reserve : Nat
  limit : Nat
  /-- reserve that firmware set for objects -/
  objReserve : Nat
  deriving DecidableEq, Repr

def Use.zero : Use :=
  { u := 0, reserve := 0, limit := 0, objReserve := 0 }

/-- A BAR4 page (R80, R81), by function index × 2^16 + page: the page of the window region + 1. -/
structure Pools where
  pools : Tbl Pool
  uses : Tbl Use
  windowBytes : Nat
  shares : List Nat
  /-- mapped pages: function × 65,536 + page number to window-region page -/
  pages : List (Nat × Nat)
  /-- function index + 1 to which a window-region page was last mapped -/
  lastFn : Tbl Nat
  /-- the answer of the grant point to the operation it served last: result (R473 table of R467 to R471) and handle -/
  answer : Nat × Nat
  deriving DecidableEq, Repr

/-! DMA (chapter 14). -/

/-- A DMA descriptor (R475). -/
structure DmaDesc where
  op : Nat
  srcSpace : Nat
  dstSpace : Nat
  record : Bool
  func : Nat
  length : Nat
  src : Nat
  dst : Nat
  user : Nat
  deriving DecidableEq, Repr

def DmaDesc.zero : DmaDesc :=
  { op := 0, srcSpace := 0, dstSpace := 0, record := false, func := 0, length := 0, src := 0, dst := 0, user := 0 }

/-- Outcome of a descriptor. -/
structure DmaResult where
  status : Nat
  poison : Bool
  bytes : Nat
  mismatch : Nat
  deriving DecidableEq, Repr

structure Chan where
  pause : Bool
  abort : Bool
  cqSpace : Nat
  cqLog2 : Nat
  active : Bool
  /-- the active descriptor has been checked and its epoch is fixed (R476, R477) -/
  started : Bool
  paused : Bool
  cqFull : Bool
  /-- the descriptor in the active set, and what is left of it -/
  act : DmaDesc
  actSrc : Nat
  actDst : Nat
  actLen : Nat
  /-- word +0x00 of the active descriptor -/
  actWord0 : Word
  epoch : Nat
  sh : Tbl Word
  arm : Bool
  taken : Bool
  busy : Bool
  cqBase : Nat
  cqHead : Nat
  cqTail : Nat
  /-- a write of the hand-over cycle, held: register offset and value (R481) -/
  heldWrite : Option (Nat × Word)
  /-- descriptors of the chain still to come -/
  chain : List DmaDesc
  /-- device address of the next descriptor of a task's chain, and how many are left there (R474) -/
  chainAddr : Nat
  chainLeft : Nat
  /-- the active descriptor's status once it was rejected, and what it met while it moved -/
  outcome : DmaResult
  /-- results so far, oldest first -/
  results : List DmaResult
  /-- the command slot (function × 64 + slot + 1) or task slot (+ 1) served -/
  cmd : Nat
  task : Nat
  /-- a completed descriptor whose record waits for queue space -/
  stalled : Option DmaResult
  /-- functions reset since the command or task served began: what is left of its chain no longer reaches their host memory (R85) -/
  cut : List Nat
  deriving DecidableEq, Repr

def Chan.zero : Chan :=
  { pause := false, abort := false, cqSpace := 0, cqLog2 := 0, active := false, started := false, paused := false, cqFull := false, act := .zero,
    actSrc := 0, actDst := 0, actLen := 0, actWord0 := 0, epoch := 0, sh := [], arm := false, taken := false, busy := false,
    cqBase := 0, cqHead := 0, cqTail := 0, heldWrite := none, chain := [], chainAddr := 0, chainLeft := 0,
    outcome := { status := 0, poison := false, bytes := 0, mismatch := 0 }, results := [], cmd := 0, task := 0,
    stalled := none, cut := [] }

end Sys2Proof.Machine
end

