-- ==== Sys2Proof/Syntax.lean ====
section
/-!
DEFINITION. The commands of the block: one constructor for each row of the opcode table, in the table's order, with the
operands the world around the device supplies. For every command that hosts submit (the GX_ rows) the row is "firmware
serves the command captured in this slot", so its operand names the slot and the command's body lies in the slot.
-/
namespace Sys2Proof
open Sys2Proof.Machine

/-- A command slot: function index (R53) and slot number (R59). -/
structure CmdRef where
  fn : Nat
  slot : Nat
  deriving DecidableEq, Repr

/-- A management request (R602): an SMBus block write with its PEC verdict and field words, or the request that the Keeper
mailbox holds. -/
inductive MgmtReq where
  | port (pecOk : Bool) (fields : List Word)
  | mailbox
  deriving DecidableEq, Repr

/-- What a walk finds poisoned: edges, out-slots (16 × leg + slot), legs' index states and legs' derived sets (R190, R192, R231). -/
structure BadRecs where
  edges : List Nat
  slots : List Nat
  legs : List Nat
  sets : List Nat
  deriving DecidableEq, Repr

/-- Legs whose index state, and whose derived set, a walk finds poisoned (R190, R192). -/
structure LegErrors where
  states : List Nat
  sets : List Nat
  deriving DecidableEq, Repr

/-- A line that comes into an edge cache, and what the walk that waited for it then finds poisoned (R204, R231). -/
structure LineFill where
  line : Nat
  bad : BadRecs
  deriving DecidableEq, Repr

/-- What parsing finds in error: the derived set of the packet (R190), and records that a NACK asks for, by their numbers (R231). -/
structure ParseErrors where
  set : Bool
  nack : List Nat
  deriving DecidableEq, Repr

/-- A leg or a logical port, and what of its state reads as poison (R266). -/
structure Reading where
  unit : Nat
  bad : List Nat
  deriving DecidableEq, Repr

/-- What a band finds poisoned besides pictures: planes with a tile column, and blocks of the beacon by canvas place (R366). -/
structure StillErrors where
  planes : List (Nat × Nat)
  blocks : List (Nat × Nat)
  deriving DecidableEq, Repr

/-- The commands of the block. -/
inductive Instr where
  /-- `DB_SUBMIT` (R61). A host write of a slot number to DB_SUBMIT captures an EMPTY slot as BUSY, or is ignored and sets SUBMIT_NOT_EMPTY or DISABLED_SUBMIT. -/
  | dbSubmit (fn : Nat) (v : Word)
  /-- `DB_RETIRE` (R61). A host write to DB_RETIRE returns a matching DONE slot to EMPTY and clears it, or sets RETIRE_MISS. -/
  | dbRetire (fn : Nat) (v : Word)
  /-- `DB_CANCEL` (R66). A host write to DB_CANCEL marks a BUSY or PROGRESS stepped command for cancellation, or sets CANCEL_MISS. -/
  | dbCancel (fn : Nat) (v : Word)
  /-- `SLOT_WRITE` (R65). A host write into a command slot is stored when the slot is EMPTY, and is otherwise discarded with SLOT_WRITE_NOT_EMPTY. -/
  | slotWrite (fn slot word : Nat) (v : Word)
  /-- `FN_CTRL_WRITE` (R71). A write to FN_CTRL sets the function controls, and an event-queue enable is checked and refused with EVQ_CONFIG when the queue settings are invalid. -/
  | fnCtrlWrite (fn : Nat) (v : Word)
  /-- `EVQ_HEAD_WRITE` (R71). A host write of EVQ_HEAD frees queue entries, or has no effect and sets EVQ_CONFIG when the value is out of range. -/
  | evqHeadWrite (fn : Nat) (v : Word)
  /-- `EVQ_LOST_READ` (R57). A read of the RC register EVQ_LOST returns the count of lost records and clears it. -/
  | evqLostRead (fn : Nat)
  /-- `ERR_COUNT_READ` (R58). A read of the RC register ERR_COUNT returns the count of ignored accesses and clears it. -/
  | errCountRead (fn : Nat)
  /-- `B2_DOMAIN_MISS_READ` (R77). A read of the RC register B2_DOMAIN_MISS returns the count of refused BAR2 accesses and clears it. -/
  | b2DomainMissRead (fn : Nat)
  /-- `UNALIGNED_ACCESS` (R12). A register access that is not an aligned 32-bit word completes without effect, reads 0xFFFF_FFFF and is counted in ERR_COUNT. -/
  | unalignedAccess (fn : Nat) (bar2 read : Bool)
  /-- `POISONED_WRITE_TLP` (R69). A poisoned write TLP to BAR0 or BAR2 is discarded, reported through AER and recorded in POISONED_WRITE. -/
  | poisonedWriteTlp (fn : Nat) (bar2 : Bool)
  /-- `BAR4_WRITE` (R83). A BAR4 write is acknowledged once it is in the DRAM write queue, is discarded and counted for an unmapped page, and stores poison when the TLP is poisoned. -/
  | bar4Write (fn addr : Nat) (data : List Byte) (poisoned : Bool)
  /-- `BAR4_READ` (R80). A BAR4 read returns window data, zero for an unmapped page, or a poisoned completion for a poisoned word. -/
  | bar4Read (fn addr bytes : Nat)
  /-- `REGISTER_WRITE` (R13). A write to a register that has no row of its own acts under its access code, and a write to a closed RWL field has no effect and raises a lock violation. -/
  | registerWrite (fn bar addr : Nat) (v : Word)
  /-- `B2_UNLOCK` (R78). A write to B2_UNLOCK with key 0xB2C1 opens the named BAR2 locks, and any other key raises BAR2_LOCK_VIOLATION. -/
  | b2Unlock (fn : Nat) (v : Word)
  /-- `BAR2_DOMAIN_OFF_ACCESS` (R79). An access to a BAR2 block whose domain is not granted on reads 0xFFFF_FFFF, does nothing on a write and increments B2_DOMAIN_MISS. -/
  | bar2DomainOffAccess (fn addr : Nat) (read : Bool)
  /-- `MSIX_UNMASK` (R75). Unmasking an MSI-X vector sends any message held pending on it. -/
  | msixUnmask (fn vec : Nat)
  /-- `BUS_MASTER_ENABLE` (R75). A change of a function's Bus Master Enable sends held MSI-X messages when it becomes 1, and stops event, DMA and result writes while it is 0. -/
  | busMasterEnable (fn : Nat) (enable : Bool)
  /-- `EVENT_COLLECT` (R612). An event record that arrives at the collector is appended to the log rings and queued to its function and to the twin, or is counted under LOG_OVERRUN. -/
  | eventCollect
  /-- `EVQ_COALESCE_TIMEOUT` (R74). When TIME_US has passed since the oldest unsignalled entry, the EVQ_VEC message is sent. -/
  | evqCoalesceTimeout (fn : Nat)
  /-- `PERST_ASSERT` (R84). Assertion of PERST_N[n] resets every function of link n, ends its work in flight and may queue purges. -/
  | perstAssert (link : Nat)
  /-- `PERST_RELEASE` (R85). Release of PERST_N[n] lets the link train, and its functions answer with retry status until they are set up. -/
  | perstRelease (link : Nat)
  /-- `PCIE_HOT_RESET` (R84). A hot reset on link n resets all functions of that link as PERST_N does. -/
  | pcieHotReset (link : Nat)
  /-- `PCIE_LINK_DOWN` (R84). Link down on link n resets all functions of the link and raises LINK_STATE. -/
  | pcieLinkDown (link : Nat)
  /-- `PCIE_LINK_UP` (R85). Link n reaches L0 and raises LINK_STATE. -/
  | pcieLinkUp (link speed width : Nat)
  /-- `FLR` (R84). A function-level reset of a PF or VF resets the function, ends its work in flight and may queue a purge. -/
  | flr (fn : Nat)
  /-- `FLR_COMPLETE` (R85). An FLR completes within 10 ms, and READY of the reset functions becomes 1. -/
  | flrComplete (fn : Nat)
  /-- `FUNCTION_READY` (R85). Once the device is in service and a link has reached L0, READY of its functions becomes 1 within 50 ms. -/
  | functionReady (link : Nat)
  /-- `PURGE_COMMIT` (R86). The purge is validated in its turn, removes the function's objects and their orphans, and on publication raises TXN_OUTCOME with ticket 0. -/
  | purgeCommit
  /-- `PAYLOAD_FETCH_DONE` (R100). A command's extension or image fetch from host memory completes and the command continues. -/
  | payloadFetchDone (cmd : CmdRef) (data : List Word)
  /-- `PAYLOAD_FETCH_FAIL` (R68). A payload fetch that returns an error, a poisoned completion or no completion within the time-out ends the command with GX_E_HOST_FETCH. -/
  | payloadFetchFail (cmd : CmdRef)
  /-- `COMMAND_STEP` (R105). Firmware runs the next step of a stepped command or of a stepped validation, then acts on any cancellation mark at the step boundary. -/
  | commandStep (cmd : CmdRef)
  /-- `TXN_IDLE_TIMEOUT` (R115). A transaction that has received no command for TXN_IDLE_LIMIT seconds is rolled back and TXN_EXPIRED is raised. -/
  | txnIdleTimeout (session : Nat)
  /-- `COMMIT_ACK_TIMEOUT` (R123). With no twin acknowledgement of the journal entry after 20 ms, firmware goes on to publish with UNMIRRORED set and raises COMMIT_UNMIRRORED. -/
  | commitAckTimeout
  /-- `COMMIT_TABLES_WRITTEN` (R33). When the free bank's tables and any new planes are complete, firmware publishes the epoch with T_act and ends the commit DONE. -/
  | commitTablesWritten (extra : Nat)
  /-- `EPOCH_ACTIVATE` (R34). At T_act islands adopt the new epoch as current, and the previous epoch begins to drain. -/
  | epochActivate
  /-- `HELD_COMMIT_RELEASE` (R41). After the draining epoch retires, the oldest held commit leaves the hold, is validated and raises TXN_OUTCOME. -/
  | heldCommitRelease
  /-- `EPOCH_DRAIN_LIMIT` (R42). When EPOCH_DRAIN_LIMIT expires, the remaining work tagged with the draining epoch is ended, EPOCH_DRAIN_FORCED is raised, and the epoch retires. -/
  | epochDrainLimit
  /-- `GX_NOP` (R108). The command ends DONE with GX_OK and marks completion of earlier commands of its session. -/
  | gxNop (cmd : CmdRef)
  /-- `GX_DEVICE_INFO` (R37). The command returns epochs, held commits, the DDR rate, STALE_RUNTIME_WRITES and the available capacities. -/
  | gxDeviceInfo (cmd : CmdRef)
  /-- `GX_QUOTA_SET` (R96). The command stages quota values for a function index. -/
  | gxQuotaSet (cmd : CmdRef)
  /-- `GX_QUOTA_GET` (R93). The command returns the usage and quotas of a function index. -/
  | gxQuotaGet (cmd : CmdRef)
  /-- `GX_OBJ_QUERY` (R93). The command returns an object's owner, parent, creation epoch and state. -/
  | gxObjQuery (cmd : CmdRef)
  /-- `GX_SESSION_OPEN` (R107). The command opens a session with its transaction idle limit, or fails with GX_E_SESSION_LIMIT. -/
  | gxSessionOpen (cmd : CmdRef)
  /-- `GX_SESSION_CLOSE` (R109). The command ends a session and rolls back its open transaction. -/
  | gxSessionClose (cmd : CmdRef)
  /-- `GX_TXN_BEGIN` (R110). The command opens a transaction in its session. -/
  | gxTxnBegin (cmd : CmdRef)
  /-- `GX_TXN_COMMIT` (R117). The command validates the transaction, requests the twin reserve, and journals it, or holds it behind a draining epoch with a ticket. -/
  | gxTxnCommit (cmd : CmdRef)
  /-- `GX_TXN_ROLLBACK` (R113). The command discards the staged commands and releases reserved identifiers. -/
  | gxTxnRollback (cmd : CmdRef)
  /-- `GX_TXN_STATUS` (R121). The command returns the outcome of a held-commit ticket. -/
  | gxTxnStatus (cmd : CmdRef)
  /-- `GX_OBJ_DESTROY` (R95). The command stages the removal of an object, cascading to the issuing function's children when CASCADE is set. -/
  | gxObjDestroy (cmd : CmdRef)
  /-- `GX_EPOCH_CONFIG` (R127). The command sets or reads EPOCH_DRAIN_LIMIT. -/
  | gxEpochConfig (cmd : CmdRef)
  /-- `GX_PORT_CONFIG` (R134). The command sets the port split, media, MTU, STUN rate, MACs, enables and retrains. -/
  | gxPortConfig (cmd : CmdRef)
  /-- `GX_PORT_STATUS` (R138). The command returns the link state and FEC counts of each logical port. -/
  | gxPortStatus (cmd : CmdRef)
  /-- `GX_ADDR_SET` (R143). The command stages the addition or removal of a service address. -/
  | gxAddrSet (cmd : CmdRef)
  /-- `GX_ICE_CRED_SET` (R152). The command stages a leg's ICE credential. -/
  | gxIceCredSet (cmd : CmdRef)
  /-- `GX_TUNNEL_RING_SET` (R162). The command sets or disables the function's DTLS tunnel ring. -/
  | gxTunnelRingSet (cmd : CmdRef)
  /-- `GX_TUNNEL_SEND` (R164). The command queues a DTLS datagram in a leg's control service queue. -/
  | gxTunnelSend (cmd : CmdRef)
  /-- `GX_ING_COUNTERS` (R615). The command returns a snapshot of the ingress counters of a port or pipeline and may clear them. -/
  | gxIngCounters (cmd : CmdRef)
  /-- `GX_KEY_INSTALL` (R173). The command stages the installation or removal of a master key in a key-set slot. -/
  | gxKeyInstall (cmd : CmdRef)
  /-- `GX_KEY_STATUS` (R178). The command returns slot states, usage counts and per-SSRC index state. -/
  | gxKeyStatus (cmd : CmdRef)
  /-- `GX_CRYPTO_COUNTERS` (R615). The command returns a snapshot of a pipeline's crypto counters and may clear them. -/
  | gxCryptoCounters (cmd : CmdRef)
  /-- `GX_CONF_SET` (R89). The command stages the creation or change of a conference. -/
  | gxConfSet (cmd : CmdRef)
  /-- `GX_SOURCE_SET` (R150). The command stages the creation or change of a source and its binding. -/
  | gxSourceSet (cmd : CmdRef)
  /-- `GX_LEG_SET` (R144). The command stages the creation or change of a leg. -/
  | gxLegSet (cmd : CmdRef)
  /-- `GX_OUTSLOT_SET` (R201). The command stages the configuration of one out-slot of a leg. -/
  | gxOutslotSet (cmd : CmdRef)
  /-- `GX_EDGE_SET` (R209). The command stages the creation or change of an edge. -/
  | gxEdgeSet (cmd : CmdRef)
  /-- `GX_LEG_BULK_CREATE` (R106). The stepped command prepares up to 4,096 legs and creates them by one commit, writing their identifiers to RESULT_ADDR. -/
  | gxLegBulkCreate (cmd : CmdRef)
  /-- `GX_EDGE_QUERY` (R200). The command returns an edge record and its out-slot record. -/
  | gxEdgeQuery (cmd : CmdRef)
  /-- `GX_FWD_CONFIG` (R224). The command sets the retransmission cache size and RTX_HOLDOFF. -/
  | gxFwdConfig (cmd : CmdRef)
  /-- `GX_FWD_COUNTERS` (R615). The command returns a snapshot of a pipeline's forwarding counters and may clear them. -/
  | gxFwdCounters (cmd : CmdRef)
  /-- `GX_LEG_SHAPE_SET` (R256). The command stages a leg's shaper, queue and estimator settings. -/
  | gxLegShapeSet (cmd : CmdRef)
  /-- `GX_CCFB_SET` (R238). The command stages RFC 8888 feedback settings of a source. -/
  | gxCcfbSet (cmd : CmdRef)
  /-- `GX_LEG_ADAPT_QUERY` (R239). The command returns a leg's estimate, buckets and allocation state. -/
  | gxLegAdaptQuery (cmd : CmdRef)
  /-- `GX_EGRESS_COUNTERS` (R615). The command returns a snapshot of egress counters of a port or leg and may clear them. -/
  | gxEgressCounters (cmd : CmdRef)
  /-- `GX_MIX_GROUP_SET` (R293). The command stages the creation or change of a mix group. -/
  | gxMixGroupSet (cmd : CmdRef)
  /-- `GX_AUDIO_LEG_SET` (R276). The command stages a leg's full audio processing. -/
  | gxAudioLegSet (cmd : CmdRef)
  /-- `GX_MIX_CONTRIB_SET` (R301). The command stages a leg's contribution to a mix group. -/
  | gxMixContribSet (cmd : CmdRef)
  /-- `GX_DETECTOR_SET` (R291). The command stages the single-frequency detectors of a leg. -/
  | gxDetectorSet (cmd : CmdRef)
  /-- `GX_DTMF_SEND` (R285). The command plays one DTMF event on a listening leg from the next output block. -/
  | gxDtmfSend (cmd : CmdRef)
  /-- `GX_AUDIO_COEF_LOAD` (R289). The command writes the inactive coefficient bank of a profile. -/
  | gxAudioCoefLoad (cmd : CmdRef)
  /-- `GX_AUDIO_COEF_SWAP` (R289). The command schedules a bank swap of a profile at a grid index. -/
  | gxAudioCoefSwap (cmd : CmdRef)
  /-- `GX_AUDIO_SYNC` (R275). The command enables the sync pin or sets the audio grid origin O. -/
  | gxAudioSync (cmd : CmdRef)
  /-- `GX_AUDIO_METER_READ` (R300). The command returns the input and output meters of a leg or group. -/
  | gxAudioMeterRead (cmd : CmdRef)
  /-- `GX_AUDIO_COUNTERS` (R615). The command returns a snapshot of audio counters and may clear them. -/
  | gxAudioCounters (cmd : CmdRef)
  /-- `GX_DECODE_SET` (R308). The command stages a decode context of a source. -/
  | gxDecodeSet (cmd : CmdRef)
  /-- `GX_DECODE_QUERY` (R329). The command returns a context's state, stream parameters and newest picture record. -/
  | gxDecodeQuery (cmd : CmdRef)
  /-- `GX_DECODE_COUNTERS` (R615). The command returns a snapshot of decode counters and may clear them. -/
  | gxDecodeCounters (cmd : CmdRef)
  /-- `GX_CANVAS_SET` (R332). The command stages the creation or change of a canvas. -/
  | gxCanvasSet (cmd : CmdRef)
  /-- `GX_LAYER_SET` (R342). The command stages a layer of a canvas, fetching any host image. -/
  | gxLayerSet (cmd : CmdRef)
  /-- `GX_ORDER_SET` (R346). The command stages a canvas's blend-order table. -/
  | gxOrderSet (cmd : CmdRef)
  /-- `GX_LAYER_IMAGE_UPDATE` (R356). The command fetches a new image for a dynamic-image layer into its spare buffer. -/
  | gxLayerImageUpdate (cmd : CmdRef)
  /-- `GX_BEACON_SET` (R357). The operator command stages the installation, change or removal of a beacon layer. -/
  | gxBeaconSet (cmd : CmdRef)
  /-- `GX_HOST_RING_SET` (R364). The command sets or disables a canvas's host frame ring. -/
  | gxHostRingSet (cmd : CmdRef)
  /-- `GX_CANVAS_QUERY` (R361). The command returns a canvas's last frame, beacon CRC and layer states. -/
  | gxCanvasQuery (cmd : CmdRef)
  /-- `GX_COMP_COUNTERS` (R615). The command returns a snapshot of composition counters and may clear them. -/
  | gxCompCounters (cmd : CmdRef)
  /-- `GX_RENDITION_SET` (R368). The command stages the creation or change of a rendition and its output source. -/
  | gxRenditionSet (cmd : CmdRef)
  /-- `GX_RENDITION_KEYFRAME` (R389). The command requests a keyframe at the rendition's next frame whose parts have not started. -/
  | gxRenditionKeyframe (cmd : CmdRef)
  /-- `GX_RENDITION_QUERY` (R391). The command returns a rendition's rate-control state. -/
  | gxRenditionQuery (cmd : CmdRef)
  /-- `GX_ENC_COUNTERS` (R615). The command returns a snapshot of encode counters and may clear them. -/
  | gxEncCounters (cmd : CmdRef)
  /-- `GX_PROGRAM_LOAD` (R427). The command fetches and checks a program image and stages it as a program object. -/
  | gxProgramLoad (cmd : CmdRef)
  /-- `GX_PROGRAM_QUERY` (R427). The command returns a program's header and task statistics. -/
  | gxProgramQuery (cmd : CmdRef)
  /-- `GX_ENGINE_STATUS` (R430). The command returns a cluster's clock, engine states and corrected errors. -/
  | gxEngineStatus (cmd : CmdRef)
  /-- `GX_TASK_SUBMIT` (R436). The operator command submits a task descriptor, allocating a slot when TASK is 0. -/
  | gxTaskSubmit (cmd : CmdRef)
  /-- `GX_TASK_CANCEL` (R454). The operator command cancels a task that has not been dispatched. -/
  | gxTaskCancel (cmd : CmdRef)
  /-- `GX_TASK_ALLOC` (R436). The operator command allocates 1 to 64 task slots, all or none. -/
  | gxTaskAlloc (cmd : CmdRef)
  /-- `GX_TASK_SIGNAL` (R438). The operator command applies COUNT signals to a task. -/
  | gxTaskSignal (cmd : CmdRef)
  /-- `GX_SCHED_COUNTERS` (R615). The command returns a snapshot of scheduler counters and may clear them. -/
  | gxSchedCounters (cmd : CmdRef)
  /-- `GX_POOL_LAYOUT` (R459). The command sets the window region and DRAM pool shares while the pools are unused. -/
  | gxPoolLayout (cmd : CmdRef)
  /-- `GX_REQUESTER_SET` (R464). The command stages a requester identity's reserve and limit in a pool. -/
  | gxRequesterSet (cmd : CmdRef)
  /-- `GX_DMA_SUBMIT` (R476). The command runs up to 16 DMA descriptors for the function and ends DONE after the last. -/
  | gxDmaSubmit (cmd : CmdRef)
  /-- `GX_WINDOW_MAP` (R81). The command maps or unmaps 2 MiB pages of the function's BAR4 window. -/
  | gxWindowMap (cmd : CmdRef)
  /-- `GX_POOL_COUNTERS` (R614). The command returns a snapshot of a requester identity's pool usage and results and may clear them. -/
  | gxPoolCounters (cmd : CmdRef)
  /-- `GX_MEM_STATUS` (R524). The command returns the memory configuration, scrub position and subchannel states. -/
  | gxMemStatus (cmd : CmdRef)
  /-- `GX_MEM_ERRORS` (R519). The command writes a subchannel's error counts and row table to host memory and may clear them. -/
  | gxMemErrors (cmd : CmdRef)
  /-- `GX_MEM_PPR` (R520). The stepped command applies a soft post-package repair to a row. -/
  | gxMemPpr (cmd : CmdRef)
  /-- `GX_MEM_TEST` (R106). The stepped command writes and reads back a test pattern over an operator buffer. -/
  | gxMemTest (cmd : CmdRef)
  /-- `GX_MEM_FREEZE_READ` (R511). The command writes the newest freeze record to host memory. -/
  | gxMemFreezeRead (cmd : CmdRef)
  /-- `GX_TIME_GET` (R526). The command returns service time and both domain times captured in one cycle. -/
  | gxTimeGet (cmd : CmdRef)
  /-- `GX_PTP_RING_SET` (R536). The command sets or disables the operator's PTP ring. -/
  | gxPtpRingSet (cmd : CmdRef)
  /-- `GX_PTP_SEND` (R538). The command sends one PTP message ahead of the service queues and ends DONE with its departure stamps. -/
  | gxPtpSend (cmd : CmdRef)
  /-- `GX_TWIN_SET` (R567). The command sets the twin event ring and the function map. -/
  | gxTwinSet (cmd : CmdRef)
  /-- `GX_TWIN_SECRET_SET` (R553). The command stores the pairing secret. -/
  | gxTwinSecretSet (cmd : CmdRef)
  /-- `GX_JOURNAL_REPLAY` (R569). The stepped command applies the twin's snapshot and journal records during catch-up. -/
  | gxJournalReplay (cmd : CmdRef)
  /-- `GX_TWIN_HANDOVER` (R571). The stepped command hands conferences over to the paired twin, with relay if requested. -/
  | gxTwinHandover (cmd : CmdRef)
  /-- `GX_TWIN_MAP` (R556). The command translates between twin identifiers and local standby copies. -/
  | gxTwinMap (cmd : CmdRef)
  /-- `GX_POWER_DOMAIN_SET` (R583). The stepped command requests media or interface domains to be switched on or off. -/
  | gxPowerDomainSet (cmd : CmdRef)
  /-- `GX_CLUSTER_CLOCK_SET` (R580). The command changes the clock of the named clusters if capacity allows. -/
  | gxClusterClockSet (cmd : CmdRef)
  /-- `GX_DEVICE_RESET` (R593). The command with the key schedules a device warm reset 10 ms later. -/
  | gxDeviceReset (cmd : CmdRef)
  /-- `GX_IMAGE_VERIFY` (R596). The stepped command authenticates a firmware image, writes it to the inactive flash slot and marks it active. -/
  | gxImageVerify (cmd : CmdRef)
  /-- `GX_LOG_READ` (R612). The command writes records of a log ring to host memory and returns the head and lap. -/
  | gxLogRead (cmd : CmdRef)
  /-- `GX_LIFE_STATUS` (R625). The command returns lifetime counters, drift, margin and spares. -/
  | gxLifeStatus (cmd : CmdRef)
  /-- `MAC_FRAME_RECEIVE` (R135). A frame arriving at a logical port is stamped, checked by the MAC, steered to a pipeline and put in its input FIFO, or dropped and counted. -/
  | macFrameReceive (lport : Nat) (frame : Frame)
  /-- `PACKET_PARSE` (R148). A pipeline takes a frame from its FIFO, parses it and demultiplexes it to STUN, DTLS, SRTCP, SRTP, ARP, ICMP or PTP handling. -/
  | packetParse (pipe : Nat) (poison : Bool) (bad : ParseErrors) (head : Nat)
  /-- `KEY_DERIVE_DONE` (R188). A derive unit completes a derived set, which enters the cache and releases the packets waiting on it. -/
  | keyDeriveDone (set : Nat) (bad : Bool)
  /-- `ALTERNATE_KEY_EXPIRE` (R175). When RX_OVERLAP has passed since a promotion, the alternate key in NEXT is erased. -/
  | alternateKeyExpire (obj : Nat)
  /-- `PORT_AN_COMPLETE` (R137). Clause 73 auto-negotiation completes and link training begins. -/
  | portAnComplete (lport : Nat)
  /-- `PORT_TRAINING_DONE` (R137). Link training converges on every lane and FEC alignment follows. -/
  | portTrainingDone (lport : Nat)
  /-- `PORT_TRAINING_TIMEOUT` (R137). Training not converged within 3 s raises PORT_TRAINING_FAILED and applies the fallback preset or a retry wait. -/
  | portTrainingTimeout (lport : Nat) (lanes : BitVec 4)
  /-- `PORT_RETRY_WAIT_EXPIRY` (R137). The backoff wait after a training failure ends and the port restarts bring-up. -/
  | portRetryWaitExpiry (lport : Nat)
  /-- `PORT_PCS_LOCK` (R137). FEC alignment and PCS lock are reached, the link is up and PORT_LINK is raised. -/
  | portPcsLock (lport : Nat)
  /-- `PORT_LINK_FAULT` (R139). Loss of FEC alignment or a local or remote fault takes the link down, raises PORT_LINK and restarts bring-up. -/
  | portLinkFault (lport : Nat) (localFault remoteFault : Bool)
  /-- `FEC_RATIO_WINDOW` (R138). The 1 s corrected-symbol ratio is evaluated and PORT_FEC_DEGRADED raised or re-armed. -/
  | fecRatioWindow (lport corrected uncorrectable corrSymbols symbols : Nat)
  /-- `REPLICATION` (R205). A pipeline takes an admitted packet from its replication queue and walks the edge list, making, rewriting and re-encrypting replicas. -/
  | replication (pipe : Nat) (srcBad : Bool) (edgeBad slotBad : List Nat) (legBad : LegErrors)
  /-- `EDGE_CACHE_FILL` (R204). An edge-cache miss is filled from DRAM and the stalled replication continues. -/
  | edgeCacheFill (pipe : Nat) (line : LineFill)
  /-- `NACK_UP_TIMER` (R227). NACK_UP_DELAY after a gap, or twice that after a NACK, a generic NACK for the still-missing numbers is sent upstream. -/
  | nackUpTimer (source : Nat)
  /-- `RTX_CACHE_EXPIRE` (R224). A cached packet whose RTX_DEPTH_MS has passed is released from the cache. -/
  | rtxCacheExpire
  /-- `RTCP_REPORT_TIMER` (R229). A leg's randomised RTCP period ends and it sends its compound report. -/
  | rtcpReportTimer (leg : Nat)
  /-- `SPEAKER_SELECT_DUE` (R221). Every 20 ms a speaker-selection task of each conference is made ready. -/
  | speakerSelectDue (conf : Nat)
  /-- `SPEAKER_SELECT_RUN` (R222). The speaker task ranks sources and places or keeps them on speaker slots. -/
  | speakerSelectRun (conf : Nat)
  /-- `ADAPT_RUN_DUE` (R234). A leg's 50 ms adaptation run falls due and is submitted, or skipped and counted. -/
  | adaptRunDue (leg : Nat)
  /-- `ADAPT_RUN` (R239). The run updates the estimate, shaper rate, layer targets, votes and probing. -/
  | adaptRun (leg : Reading)
  /-- `PROBE_END` (R246). A probe ends 200 ms after it started. -/
  | probeEnd (leg : Nat)
  /-- `CCFB_REPORT_TIMER` (R238). A source's CCFB_PERIOD_MS ends and RFC 8888 feedback is sent on its feedback leg. -/
  | ccfbReportTimer (source : Nat)
  /-- `EGRESS_SELECT` (R252). The scheduler selects the next frame of a logical port among active legs by weighted fair queuing under buckets, gates and launch times. -/
  | egressSelect (lport : Reading)
  /-- `FRAME_TRANSMIT` (R236). A selected frame leaves the port, is stamped and recorded in the send history, or is dropped for poison. -/
  | frameTransmit (lport : Nat) (poison : Bool)
  /-- `LAUNCH_TIME_REACHED` (R264). A queue head's launch time arrives and it becomes a candidate. -/
  | launchTimeReached (leg cls : Nat)
  /-- `LEG_BUCKET_RECOVER` (R253). A leg with queued packets whose bucket returns to zero becomes active and takes S = V. -/
  | legBucketRecover (leg : Nat)
  /-- `GATE_CONFIG_CHANGE` (R259). GATE_CMD.CONFIG_CHANGE latches the administrative list and sets PENDING with its takeover time. -/
  | gateConfigChange (fn lport : Nat)
  /-- `GATE_CANCEL` (R260). GATE_CMD.CANCEL clears a pending gate-list change. -/
  | gateCancel (fn lport : Nat)
  /-- `GATE_ADMIN_WRITE` (R260). A write to the administrative gate registers is stored, or discarded with ADMIN_BUSY while a change is pending. -/
  | gateAdminWrite (fn lport off : Nat) (v : Word)
  /-- `GATE_TAKEOVER` (R259). At the takeover time the new list becomes operating and GATE_CHANGED is raised. -/
  | gateTakeover (lport : Nat)
  /-- `GATE_ENTRY_BOUNDARY` (R258). An entry interval of the operating list ends and the gates take the next entry's states. -/
  | gateEntryBoundary (lport : Nat)
  /-- `PORT_RATE_WRITE` (R257). A write of PORT_RATE resets the port bucket and may raise PORT_RATE_OVERCOMMIT. -/
  | portRateWrite (fn lport : Nat) (v : Word)
  /-- `EGR_PORT_CTRL_WRITE` (R257). A write of EGR_PORT_CTRL sets counting mode and enables and resets the port bucket. -/
  | egrPortCtrlWrite (fn lport : Nat) (v : Word)
  /-- `AUDIO_BLOCK_START` (R272). A 10 ms block boundary of the audio grid arrives and the block's audio tasks are released. -/
  | audioBlockStart
  /-- `AUDIO_INPUT_BLOCK` (R286). An input task decodes, conceals and rate-converts one block and runs its detectors. -/
  | audioInputBlock (leg : Nat) (poison : Bool)
  /-- `MIX_SELECT` (R293). The selection task chooses the contributors summed in a group's block. -/
  | mixSelect (group : Nat)
  /-- `MIX_BLOCK` (R295). The fabric forms terms, the master sum and each listener's minus-self output for one block. -/
  | mixBlock (group : Nat) (bad : List Nat)
  /-- `AUDIO_OUTPUT_BLOCK` (R282). An output task converts and encodes a listener's block and sends its packet with a launch time. -/
  | audioOutputBlock (master : Bool) (index : Nat)
  /-- `AUDIO_SYNC_EDGE` (R275). An accepted falling edge on AUDIO_SYNC_N sets the grid origin O. -/
  | audioSyncEdge (highNs : Nat)
  /-- `COEF_SWAP_TAKE_EFFECT` (R289). At the swap index the inactive coefficient bank becomes active and AUD_SWAP_DONE is raised. -/
  | coefSwapTakeEffect (profile : Nat)
  /-- `ASSEMBLY_TIMEOUT` (R312). A frame still incomplete ASSEMBLY_MS after its first packet is declared lost. -/
  | assemblyTimeout (source : Nat)
  /-- `DECODE_DONE` (R321). A decode core finishes a frame, updates reference marks and writes the picture record. -/
  | decodeDone (source : Nat) (report : DecReport)
  /-- `DEC_CORE_FAULT` (R316). A decode core reports an internal fault, and the frame is retried once on another core. -/
  | decCoreFault (core : Nat)
  /-- `DEC_PLI_REPEAT` (R327). While a context is CONCEALED or WAIT_KEY, PLI_REPEAT_MS passes and a keyframe request is repeated. -/
  | decPliRepeat (source : Nat)
  /-- `CANVAS_FRAME_DEADLINE` (R337). At D_n a canvas frame takes its epoch and pictures and becomes ready, or is skipped. -/
  | canvasFrameDeadline (canvas : Nat)
  /-- `COMPOSE_BAND_DONE` (R363). A compositor completes a 16-row band and places band items and hint-map rows. -/
  | composeBandDone (canvas : Nat) (mvs : List (Int × Int)) (badLayers : List (Nat × Nat)) (badPlanes : StillErrors)
  /-- `COMPOSE_DONE` (R364). A canvas frame is composed, its beacon CRC checked and the host-ring write made. -/
  | composeDone (canvas fault head : Nat) (bad : Bool)
  /-- `COMP_FAULT` (R366). A compositor fault ends the frame with DISCARD items. -/
  | compFault (unit : Nat) (out : Bool)
  /-- `DAYMARK_REBUILD` (R366). Firmware re-flattens poisoned daymark tiles and raises DAYMARK_REBUILT. -/
  | daymarkRebuild (canvas : Nat)
  /-- `RATE_CONTROL_RUN` (R392). The rate-control task sets each layer frame's QP and budget. -/
  | rateControlRun (rend : Nat) (satd : List Nat)
  /-- `VOTE_WINDOW_END` (R390). A 200 ms demand window completes and voted rate control updates its target. -/
  | voteWindowEnd (rend : Nat)
  /-- `ENCODE_PART_START` (R378). An encode part begins its frame once CT_ROWS rows are present. -/
  | encodePartStart (rend layer part : Nat)
  /-- `ENCODE_ROW_DONE` (R393). A part finishes a coding-block row and applies the row guard and hard cap. -/
  | encodeRowDone (rend layer part bits : Nat) (poisonIn : Bool) (badRefs : List Nat)
  /-- `ENCODE_PART_DONE` (R375). A part completes, and when all parts of the frame are done its packets are released. -/
  | encodePartDone (rend layer part : Nat) (sizes : List Nat) (poison : Bool)
  /-- `ENC_CORE_FAULT` (R382). An encode core reports a fault and the frame is coded again once. -/
  | encCoreFault (core : Nat)
  /-- `LTR_ACK_TIMEOUT` (R388). An LTR candidate not acknowledged within LTR_ACK_MS is unmarked. -/
  | ltrAckTimeout (rend : Nat)
  /-- `SCALAR_ALU` (R414). A scalar arithmetic, logic, shift, compare or immediate instruction executes. -/
  | scalarAlu (engine : Nat) (op : AluOp) (d s1 : Nat) (src : AluSrc) (pair : Option UIns)
  /-- `LOAD` (R415). A load instruction reads engine memory, or faults. -/
  | load (engine t ar : Nat) (mode : AddrMode) (size : Nat) (sx : Bool) (pair : Option UIns)
  /-- `STORE` (R415). A store instruction writes engine memory, or faults. -/
  | store (engine t ar : Nat) (mode : AddrMode) (size : Nat) (pair : Option UIns)
  /-- `ATOMIC` (R414). An atomic add, swap, minimum or maximum on a shared-memory word executes. -/
  | atomic (engine op t ar : Nat) (mode : AddrMode) (pair : Option UIns)
  /-- `XFER` (R416). An XFER instruction starts a transfer between engine memory and a buffer. -/
  | xfer (engine s1 : Nat) (pair : Option UIns)
  /-- `WAIT` (R417). A WAIT instruction stalls until the named transfers complete. -/
  | wait (engine mask : Nat) (pair : Option UIns)
  /-- `FENCE` (R419). A FENCE instruction stalls until earlier stores and transfers are acknowledged. -/
  | fence (engine : Nat) (pair : Option UIns)
  /-- `BRANCH` (R408). A branch or call instruction transfers control after two delay slots. -/
  | branch (engine cond s1 : Nat) (off : Int) (pair : Option UIns)
  /-- `JUMP` (R414). A jump to a register, optionally linking into g31, executes. -/
  | jump (engine s1 : Nat) (link : Bool) (pair : Option UIns)
  /-- `NOP` (R414). A NOP instruction executes. -/
  | nop (engine : Nat) (pair : Option UIns)
  /-- `MFC` (R402). MFC reads a control register. -/
  | mfc (engine d cr : Nat) (pair : Option UIns)
  /-- `MTC` (R402). MTC writes a control register. -/
  | mtc (engine cr s1 : Nat) (pair : Option UIns)
  /-- `END` (R421). END completes the task with its status once writes are acknowledged. -/
  | end_ (engine s1 : Nat) (pair : Option UIns)
  /-- `BREAK` (R425). BREAK raises the BREAK exception and ends the task. -/
  | break_ (engine code : Nat) (pair : Option UIns)
  /-- `CMAC` (R409). A complex multiply-accumulate executes. -/
  | cmac (engine acc s1 s2 sh : Nat) (neg conj : Bool) (pair : Option UIns)
  /-- `DMAC` (R409). A dual 32x16 multiply-accumulate executes. -/
  | dmac (engine acc s1 s2 sh : Nat) (neg : Bool) (pair : Option UIns)
  /-- `SMAC` (R409). A single multiply-accumulate executes. -/
  | smac (engine acc s1 s2 sh : Nat) (neg high : Bool) (pair : Option UIns)
  /-- `ACC_CLEAR` (R411). An accumulator is cleared. -/
  | accClear (engine acc : Nat) (pair : Option UIns)
  /-- `ACC_LOAD` (R411). An accumulator is loaded from a g register. -/
  | accLoad (engine acc s1 : Nat) (pair : Option UIns)
  /-- `ACC_SHIFT` (R411). An accumulator is shifted by a signed amount. -/
  | accShift (engine acc : Nat) (by_ : Int) (pair : Option UIns)
  /-- `ACCX` (R411). ACCX moves a shifted, rounded and saturated accumulator to a g register. -/
  | accx (engine d acc sh : Nat) (rnd : Bool) (width : Nat) (pair : Option UIns)
  /-- `MAXX` (R412). MAXX keeps a running maximum with its index. -/
  | maxx (engine d s1 s2 : Nat) (u inc : Bool) (pair : Option UIns)
  /-- `MINX` (R412). MINX keeps a running minimum with its index. -/
  | minx (engine d s1 s2 : Nat) (u inc : Bool) (pair : Option UIns)
  /-- `URGENT_ENTRY` (R423). An urgent task enters the shadow set of an eligible engine at a bundle boundary. -/
  | urgentEntry (engine : Nat)
  /-- `XFER_COMPLETE` (R417). A transfer completes or fails, releasing its tag. -/
  | xferComplete (engine : Nat) (shadow : Bool) (tag : Nat)
  /-- `PAGE_LOAD_DONE` (R428). A program page finishes loading into instruction memory. -/
  | pageLoadDone (engine : Nat)
  /-- `ENGINE_INTERNAL_FAULT` (R431). An engine reports an internal fault, its task ends with ENGINE_FAULT and ENG_FAULT is raised. -/
  | engineInternalFault (engine : Nat)
  /-- `ENGINE_RETIRE_TIMEOUT` (R430). A task on a retiring engine not ended within 50 ms ends with ENGINE_FAULT detail 2. -/
  | engineRetireTimeout (engine : Nat)
  /-- `SCHED_TICK` (R441). At each tick ready tasks are promoted and due delayed tasks move to the comparator. -/
  | schedTick
  /-- `TASK_RELEASE` (R447). A delayed task's RELEASE time arrives and it becomes READY. -/
  | taskRelease (task : Nat)
  /-- `TASK_DISPATCH` (R440). A free unit takes the head of the most urgent ready queue it may run. -/
  | taskDispatch (target unit upset : Nat)
  /-- `TASK_END` (R439). A task ends after its writes are acknowledged, signals its successors and writes its completion. -/
  | taskEnd (task : Nat)
  /-- `TASK_WAIT_TIMEOUT` (R450). A task WAITING or HELD for WAIT_TIMEOUT ticks outside SERVICE ends with TASK_WAIT_TIMEOUT. -/
  | taskWaitTimeout (task : Nat)
  /-- `SCHED_MODE_WRITE` (R449). A write of SCHED_MODE changes the mode and restarts or cancels wait timing. -/
  | schedModeWrite (fn : Nat) (v : Word)
  /-- `SCHED_TICK_WRITE` (R448). A write of TICK_US takes effect at the next tick of the old grid. -/
  | schedTickWrite (fn : Nat) (v : Word)
  /-- `BUFFER_ALLOC` (R465). An allocation request is served at a pool's grant point from reserve or shared buffers, or refused. -/
  | bufferAlloc (ident size cls : Nat)
  /-- `BUFFER_RETAIN` (R468). A RETAIN adds one reference, or returns an error. -/
  | bufferRetain (ident handle : Nat) (ue : Bool)
  /-- `BUFFER_FREE` (R468). A FREE removes one reference and returns the buffer at zero, or returns an error. -/
  | bufferFree (ident handle : Nat) (ue : Bool)
  /-- `BUFFER_HANDOVER` (R470). A HANDOVER moves ownership and charge to another identity, or is refused. -/
  | bufferHandover (ident handle dest : Nat) (ue : Bool)
  /-- `DMA_DESCRIPTOR_START` (R476). A channel takes a descriptor, checks it and starts moving data, or rejects it. -/
  | dmaDescriptorStart (chan : Nat)
  /-- `DMA_DESCRIPTOR_DONE` (R482). A descriptor completes, writes its record and the channel takes the next or the shadow. -/
  | dmaDescriptorDone (chan : Nat) (hostSrc hostDst : List Byte)
  /-- `DMA_PAUSE` (R479). Setting PAUSE stops a channel issuing new reads. -/
  | dmaPause (fn chan : Nat)
  /-- `DMA_PAUSED` (R479). Once the last outstanding write is acknowledged, PAUSED is set and the active registers hold the remainder. -/
  | dmaPaused (chan moved : Nat) (hostSrc hostDst : List Byte)
  /-- `DMA_RESUME` (R479). Clearing PAUSE resumes the descriptor. -/
  | dmaResume (fn chan : Nat)
  /-- `DMA_ABORT` (R479). Setting ABORT while paused ends the descriptor with GX_E_DMA_ABORTED. -/
  | dmaAbort (fn chan : Nat)
  /-- `SHADOW_ARM` (R480). Setting SHADOW_ARM arms a direct channel's shadow and clears SHADOW_TAKEN. -/
  | shadowArm (fn chan : Nat) (held : Bool)
  /-- `SHADOW_DISARM` (R481). Writing SHADOW_DISARM clears SHADOW_ARM. -/
  | shadowDisarm (fn chan : Nat) (held : Bool)
  /-- `SHADOW_WORD_WRITE` (R481). A write of a shadow word is stored, or discarded with SHADOW_BUSY while armed. -/
  | shadowWordWrite (fn chan word : Nat) (v : Word) (held : Bool)
  /-- `DMA_HELD_WRITE_APPLY` (R481). A shadow or SH_CTRL write held in the hand-over cycle is applied after the copy. -/
  | dmaHeldWriteApply (chan : Nat)
  /-- `DMA_CQ_HEAD_WRITE` (R482). A write of CQ_HEAD frees completion-queue space and unstalls a full channel. -/
  | dmaCqHeadWrite (fn chan : Nat) (v : Word)
  /-- `DRAM_READ` (R499). A read request is served by its subchannel with checking and correction. -/
  | dramRead (source addr bytes : Nat) (errors : List (Nat × Nat))
  /-- `DRAM_WRITE` (R500). A write request enters the write queue and is acknowledged, with read-modify-write for partial words. -/
  | dramWrite (source addr : Nat) (data : List Byte) (poisoned : Bool)
  /-- `REFRESH_DUE` (R502). A refresh interval ends and a refresh is issued or postponed. -/
  | refreshDue (sub : Nat) (granted : Bool)
  /-- `SELF_REFRESH_IDLE` (R502). SR_IDLE_US without a request puts the subchannel into self-refresh. -/
  | selfRefreshIdle (sub : Nat)
  /-- `MR4_POLL` (R503). Every 32 ms mode register 4 is read and the refresh rate adjusted. -/
  | mr4Poll (sub : Nat) (doubled hot : Bool) (mr4 : BitVec 8)
  /-- `DRAM_TRAINING_STEP_DONE` (R505). A start-up training step completes, fails and retries, or leads to the next step. -/
  | dramTrainingStepDone (sub : Nat) (passed : Bool)
  /-- `RETRAIN_INTERVAL` (R507). INTERVAL_MS ends and the subchannel measures drift and may start retraining. -/
  | retrainInterval (sub drift : Nat)
  /-- `RETRAIN_STEP_DONE` (R508). A retraining step completes, passes or fails and may degrade the subchannel. -/
  | retrainStepDone (sub : Nat) (last passed : Bool)
  /-- `CA_PARITY_ERROR` (R509). A component reports a command/address parity error and the subchannel freezes. -/
  | caParityError (sub : Nat) (ranks : BitVec 2)
  /-- `SCRUB_BURST` (R517). The scrubber reads the next burst and corrects or poisons its words. -/
  | scrubBurst (errors : List (Nat × Nat))
  /-- `SRAM_SCRUB_PASS` (R518). The SRAM scrubber's pass step corrects words and flags repeat locations. -/
  | sramScrubPass (found : List (Nat × Nat × Bool)) (spare : Option Nat)
  /-- `INJECT_ADDR_WRITE` (R524). A write to INJECT_ADDR with ARM set stores the word with the selected error. -/
  | injectAddrWrite (fn : Nat) (lo hi : Word)
  /-- `TIME_INC_WRITE` (R529). A write of a domain's INC sets its increment, or is refused. -/
  | timeIncWrite (fn domain : Nat) (lo hi : Word)
  /-- `STEP_CMD_GO` (R532). STEP_CMD.GO adds the step to a domain and moves or absorbs service time. -/
  | stepCmdGo (fn domain : Nat) (v : Word)
  /-- `TIME_SELECT_WRITE` (R531). A change of TIME_CTRL.SELECT switches domain and captures OFF. -/
  | timeSelectWrite (fn : Nat) (v : Word)
  /-- `SLEW_PPB_WRITE` (R533). A write of SLEW_PPB starts a slew of OFF, or is refused. -/
  | slewPpbWrite (fn : Nat) (v : Word)
  /-- `TIME_OFFSET_CLEARED` (R533). The slew brings OFF to zero and ends. -/
  | timeOffsetCleared
  /-- `TIME_CAPTURE_READ` (R548). A read of the low word of SVC_SEC, CNT_SEC or PPS_IN_SEC captures the whole set. -/
  | timeCaptureRead (fn addr : Nat)
  /-- `PPS_IN_EDGE` (R539). An edge on PPS_IN is stamped, or ignored when too early. -/
  | ppsInEdge (domain : Nat) (falling : Bool)
  /-- `PPS_OUT_PULSE` (R540). A domain reaches the second less OUT_ADVANCE_NS and the pulse begins. -/
  | ppsOutPulse (domain : Nat)
  /-- `PPS_OUT_PULSE_END` (R540). WIDTH_US passes and the pulse ends. -/
  | ppsOutPulseEnd (domain : Nat)
  /-- `FLIUSK_LINK_UP` (R552). The twin link comes up and a session begins with hello frames. -/
  | fliuskLinkUp
  /-- `FLIUSK_LINK_LOSS` (R564). The twin link is lost and the session ends. -/
  | fliuskLinkLoss
  /-- `HELLO_TIMER` (R552). Every 1 ms a hello frame is sent while no session key exists. -/
  | helloTimer
  /-- `FLIUSK_HELLO` (R552). A hello frame is verified and session keys derived, or pairing is refused. -/
  | fliuskHello (serial random version num : Nat) (macOk behind theyLack : Bool) (split : List (Nat × Nat))
  /-- `HEARTBEAT_SEND` (R563). Every 100 µs a heartbeat frame is sent and TWIN_ALIVE_OUT toggles. -/
  | heartbeatSend
  /-- `FLIUSK_HEARTBEAT` (R564). A valid heartbeat frame marks its window as not missed. -/
  | fliuskHeartbeat (frameSeq : Nat) (tagOk : Bool) 
  /-- `TWIN_ALIVE_TRANSITION` (R564). A transition on TWIN_ALIVE_IN marks its window as not missed. -/
  | twinAliveTransition
  /-- `HEARTBEAT_WINDOW` (R564). A 100 µs window ends and missed windows lead to link loss or takeover. -/
  | heartbeatWindow
  /-- `TAKEOVER_REQUEST` (R565). A takeover request from the twin starts takeover at once. -/
  | takeoverRequest (frameSeq : Nat) (tagOk : Bool) (seq : Nat) (confs : Option (List Nat)) (eject : Bool)
  /-- `TAKEOVER_TABLES_WRITTEN` (R566). The takeover epoch's tables are complete and it is published. -/
  | takeoverTablesWritten (extra : Nat)
  /-- `ANNOUNCE_REPEAT` (R566). The gratuitous ARP or neighbour advertisement is repeated at 50 ms and 250 ms. -/
  | announceRepeat
  /-- `TAKEOVER_DONE` (R566). T_act plus 5 ms passes and TAKEOVER_DONE is raised. -/
  | takeoverDone
  /-- `JOURNAL_RECORD` (R558). A journal record from the twin is written to the twin half and acknowledged. -/
  | journalRecord (frameSeq : Nat) (tagOk : Bool) (seq : Nat) (rec_ : JRec)
  /-- `JOURNAL_ACK` (R557). The twin's acknowledgement arrives and the commit goes on to write its tables. -/
  | journalAck (frameSeq : Nat) (tagOk : Bool) (chan seq : Nat) (paired : Option (List Nat))
  /-- `FLIUSK_RETRANSMIT` (R554). A record unacknowledged for 1 ms is sent again. -/
  | fliuskRetransmit
  /-- `MIRROR_SEND` (R562). A leg's or rendition's mirror record is sent at its instant of the 100 ms pass. -/
  | mirrorSend
  /-- `MIRROR_RECORD` (R562). A mirror record is received and stamped with its arrival time. -/
  | mirrorRecord (frameSeq : Nat) (tagOk : Bool) (seq : Nat) (m : MirrorRec)
  /-- `TWIN_EVENT_RECORD` (R554). An event record from the twin is written to the twin event ring. -/
  | twinEventRecord (frameSeq : Nat) (tagOk : Bool) (words : List Word) (head : Nat)
  /-- `TWIN_RESERVE_REQUEST` (R560). The standby checks a reserve request and answers on channel 7. -/
  | twinReserveRequest (frameSeq : Nat) (tagOk : Bool) (seq conf : Nat) (usage : List (Nat × Nat))
  /-- `TWIN_RESERVE_ANSWER` (R560). The twin's reserve answer lets the commit pass step 3 or fail with LIMIT_KIND 16. -/
  | twinReserveAnswer (frameSeq : Nat) (tagOk : Bool) (seq : Nat) (ok : Bool) (needed avail : Nat)
  /-- `TWIN_RESERVE_TIMEOUT` (R560). No reserve answer in 20 ms lets the commit pass and exposes the conference. -/
  | twinReserveTimeout
  /-- `TWIN_RESERVE_RELEASE` (R560). A release or voiding record frees a confirmed reserve. -/
  | twinReserveRelease (frameSeq : Nat) (tagOk : Bool) (seq conf : Nat)
  /-- `HANDOVER_TACT_RETURN` (R571). The receiving twin's T_act arrives and relay begins. -/
  | handoverTactReturn (frameSeq : Nat) (tagOk : Bool) (seq sec ns : Nat) (ids : List (Nat × Nat))
  /-- `RELAY_FRAME` (R572). A relayed frame is parsed as arriving on its service address's port. -/
  | relayFrame (frameSeq : Nat) (tagOk : Bool) (frame : Frame)
  /-- `RELAY_END` (R572). RELAY_LIMIT or IDLE_MS expires, relay ends and the hand-over completes. -/
  | relayEnd
  /-- `EJECT_REQUEST` (R573). EJECT_REQ_N low for 1 ms starts the eject sequence. -/
  | ejectRequest
  /-- `EJECT_BUDGET_EXPIRY` (R573). After relay, heartbeats stop and the orderly power-down runs within EJECT_BUDGET. -/
  | ejectBudgetExpiry
  /-- `POWER_SWITCH_BEGIN` (R578). After the gap, the governor begins the next domain switch or warns on LOADSTEP_N. -/
  | powerSwitchBegin
  /-- `LOADSTEP_LEAD_EXPIRY` (R579). LEAD_US after LOADSTEP_N goes low, the ramp begins. -/
  | loadstepLeadExpiry
  /-- `POWER_RAMP_END` (R578). A domain's header ramp ends. -/
  | powerRampEnd
  /-- `LOADSTEP_RELEASE` (R579). 10 µs after the ramp ends LOADSTEP_N is released. -/
  | loadstepRelease
  /-- `POWER_DOMAIN_USABLE` (R577). The wake latency ends, the domain is usable and its capacity counts. -/
  | powerDomainUsable
  /-- `POWER_GOOD_TIMEOUT` (R586). Power good not reached within twice the ramp switches the domain off and marks it failed. -/
  | powerGoodTimeout
  /-- `UNIT_START_CREDIT` (R581). A unit waiting on start credit starts when the credit suffices. -/
  | unitStartCredit (kind : Nat)
  /-- `VCORE_STEP` (R582). The Keeper moves VDD_CORE one step toward its target. -/
  | vcoreStep
  /-- `PMB_ALERT` (R582). PMB_ALERT_N asserts, the status is read and PWR_VCORE_ALERT or the fatal alarm raised. -/
  | pmbAlert (status : BitVec 16) (fatal : Bool)
  /-- `PWRGD_LOSS` (R591). A power-good input falls while serving, raising the fatal alarm. -/
  | pwrgdLoss (rail : Nat)
  /-- `PWRGD_RESTORE` (R591). All power-good inputs high again start the device as after a warm reset. -/
  | pwrgdRestore (rail bootMode : Nat)
  /-- `POWER_ON_RESET` (R593). PWRGD_AON or PWRGD_IO low puts the device into power-on reset. -/
  | powerOnReset (rail : Nat)
  /-- `POWER_ON_RESET_RELEASE` (R597). Power-on reset is released and the Keeper begins start-up. -/
  | powerOnResetRelease (bootMode : Nat)
  /-- `BOOT_IMAGE_READ_DONE` (R596). A boot image is read and authenticated, or the other slot or source is tried. -/
  | bootImageReadDone (readOk keyOk sigOk : Bool) (version : Nat)
  /-- `STARTUP_STEP_DONE` (R597). A timed start-up step completes and the next begins, ending in service or failure. -/
  | startupStepDone (ok : Bool) (units : BitVec 20)
  /-- `DEVICE_WARM_RESET` (R593). The device warm reset begins with takeover request and orderly power-down, then start-up. -/
  | deviceWarmReset (bootMode : Nat)
  /-- `KEEPER_RESET_DONE` (R593). A Keeper reset completes after 20 ms. -/
  | keeperResetDone
  /-- `SYS_REFCLK_LOSS` (R638). Loss of SYS_REFCLK raises the fatal alarm with cause 5. -/
  | sysRefclkLoss
  /-- `NET_REFCLK_LOSS` (R638). Loss of a network reference clock takes that port's links down. -/
  | netRefclkLoss (port : Nat)
  /-- `NET_REFCLK_RETURN` (R638). The network reference clock returns and the links restart bring-up. -/
  | netRefclkReturn (port : Nat)
  /-- `TWIN_REFCLK_LOSS` (R638). Loss of TWIN_REFCLK is a twin link loss. -/
  | twinRefclkLoss
  /-- `PCIE_REFCLK_LOSS` (R638). Loss of a PCIe reference clock takes its link down. -/
  | pcieRefclkLoss (link : Nat)
  /-- `WDOG_KICK` (R616). A control processor signals the Keeper watchdog. -/
  | wdogKick (proc : Nat)
  /-- `WDOG_RESTART` (R616). A processor silent for WDOG_MS starts a control-complex restart or escalates. -/
  | wdogRestart (poison : Option Nat)
  /-- `CTRL_RESET_HOLD_END` (R616). The 1 ms reset hold ends and firmware restarts from DRAM or the boot source. -/
  | ctrlResetHoldEnd
  /-- `FW_RECOVERY_DONE` (R616). Firmware restores epochs, ends captured commands, selects SERVICE and clears FW_RESTARTING. -/
  | fwRecoveryDone
  /-- `STUCK_WORK_CHECK` (R618). Every 10 ms the Keeper ends work running beyond its limit and raises STUCK_WORK. -/
  | stuckWorkCheck
  /-- `THERMAL_SAMPLE` (R608). Every 1 ms the sensors are read and warnings, throttling or the trip applied. -/
  | thermalSample (sensor : Nat) (temp : Int)
  /-- `THERMAL_CLOCK_STEP` (R609). A throttle or restore interval ends and cluster clocks move by 50 MHz. -/
  | thermalClockStep (die : Nat)
  /-- `THERMAL_HARD_TRIP` (R643). A 115 °C comparator switches off every domain but AON and drives FOGHORN_N. -/
  | thermalHardTrip (sensor : Nat) (temp : Int)
  /-- `RAIL_SAMPLE` (R608). A rail monitor sample raises RAIL_OUT after 1 ms outside ±5 %. -/
  | railSample (rail die mv : Nat)
  /-- `AGEING_MEASURE` (R626). Every 24 h the ring oscillators are measured and the VDD_CORE target and retirements updated. -/
  | ageingMeasure (drifts : List (Nat × Nat))
  /-- `AGEING_HISTORY_STORE` (R626). Every 30 days an ageing history entry is stored per island. -/
  | ageingHistoryStore
  /-- `LIFE_COUNTER_WRITE` (R624). Every hour the lifetime counters are written to the store. -/
  | lifeCounterWrite
  /-- `UNIT_SELF_TEST_DONE` (R628). The 1 ms self-test after a first fault returns the unit to service or counts as a second fault. -/
  | unitSelfTestDone (cls unit : Nat) (passed : Bool)
  /-- `SPARE_REMAP_COMPLETE` (R629). The retiring unit's work has ended and the spare is brought in or the unit retired. -/
  | spareRemapComplete
  /-- `LAMP_OVERRIDE_EXPIRY` (R621). A LAMP_SET override's SECONDS expire and the lamp returns to its condition pattern. -/
  | lampOverrideExpiry (lamp : Nat)
  /-- `IDENTITY` (R602). The management request returns identity registers. -/
  | identity (req : MgmtReq)
  /-- `STATUS` (R602). The management request returns device state and start time. -/
  | status (req : MgmtReq)
  /-- `THERMAL` (R602). The management request returns sensor temperatures. -/
  | thermal (req : MgmtReq)
  /-- `RAILS` (R602). The management request returns rail voltages and domain power estimates. -/
  | rails (req : MgmtReq)
  /-- `CONFIG_GET` (R607). The management request returns a configuration item. -/
  | configGet (req : MgmtReq)
  /-- `CONFIG_SET` (R607). The management request sets a configuration item. -/
  | configSet (req : MgmtReq)
  /-- `LOG_READ` (R602). The management request returns log records with the head and lap. -/
  | logRead (req : MgmtReq)
  /-- `LIFE` (R602). The management request returns the lifetime status. -/
  | life (req : MgmtReq)
  /-- `SPARE_MAP` (R602). The management request returns the states of a cluster's or die's units. -/
  | spareMap (req : MgmtReq)
  /-- `AGEING` (R602). The management request returns an island's drift and history. -/
  | ageing (req : MgmtReq)
  /-- `LAMP_SET` (R621). The management request sets or releases a lamp override. -/
  | lampSet (req : MgmtReq)
  /-- `SEVERITY_SET` (R611). The management request overrides or restores a code's severity. -/
  | severitySet (req : MgmtReq)
  /-- `SPARE_RETIRE` (R628). The management request retires a unit in favour of a spare. -/
  | spareRetire (req : MgmtReq)
  /-- `DEVICE_RESET` (R603). The management request starts a device warm reset after its response. -/
  | deviceReset (req : MgmtReq)
  /-- `KEEPER_RESET` (R593). The management request resets the Keeper. -/
  | keeperReset (req : MgmtReq)
  /-- `IMAGE_CHUNK` (R606). The mailbox request copies a staged image chunk into the system cache. -/
  | imageChunk (req : MgmtReq)
  /-- `IMAGE_END` (R606). The mailbox request authenticates the staged host image and continues start-up or fails. -/
  | imageEnd (req : MgmtReq) (keyOk sigOk : Bool) (version : Nat)
  /-- `MGMT_RESPONSE_READ` (R602). A Block Read of code 0xFF returns the response, and a STATUS read releases MGMT_ALERT_N. -/
  | mgmtResponseRead
  /-- `SMBUS_ALERT_RESPONSE` (R604). The port answers the Alert Response Address while MGMT_ALERT_N is low. -/
  | smbusAlertResponse
  /-- `SMBUS_ADDRESS_RESOLUTION` (R601). The port takes part in SMBus Address Resolution with its UDID. -/
  | smbusAddressResolution (addr : Nat)
  /-- `ILLEGAL` (R425). An engine issues a bundle whose encoding is unassigned or refused, and the task ends with the ILLEGAL exception. -/
  | illegal (engine : Nat) (words : List Word) (poison : Bool)
  /-- `UNASSIGNED_OPCODE` (R103). Firmware takes a captured command whose opcode is not assigned, including an unwritten slot, and ends it with GX_E_OPCODE. -/
  | unassignedOpcode (cmd : CmdRef)
  /-- `UNKNOWN_CODE` (R602). A management or mailbox request with a code not in the request table is answered with status 2. -/
  | unknownCode (req : MgmtReq) (code : Nat)
  /-- `KEEPER_SELF_CHECK` (R593). A failed Keeper self-check starts a Keeper reset on its own. -/
  | keeperSelfCheck
  /-- `D3HOT_TRANSITION` (R50). A host moves a function between D0 and D3hot, which stops or restarts decoding of its BARs while its objects keep carrying media. -/
  | d3hotTransition (fn : Nat) (d3hot : Bool)
  /-- `VF_ENABLE_CHANGE` (R54). A host sets or clears VF Enable of a PF, which creates or removes its virtual functions while their objects survive. -/
  | vfEnableChange (pf numVfs : Nat)
  /-- `FORWARDER_RECORD_REWRITE` (R231). Firmware finishes rewriting a poisoned edge record or source entry, or rebuilding an out-slot record, within 10 ms, and the record serves again. -/
  | forwarderRecordRewrite (kind key : Nat)
  /-- `LOG_STORE_WRITE` (R613). A record buffered ahead of the non-volatile store finishes its write, which frees a place in the collector's 4,096-record buffer. -/
  | logStoreWrite
  /-- `LOW_WORD_READ` (R9). A read of the low word of a 64-bit register captures the pair so that the high word reads the same value. -/
  | lowWordRead (fn bar addr : Nat)
  deriving DecidableEq, Repr

end Sys2Proof
end

