-- ==== Sys2Proof/Decode.lean ====
section
/-!
DEFINITION. The decoder of table words. A block takes commands from outside and fetches no instruction words; the rows of
spec/opcode_table.json give no bit fields, so there is no word that spells a command.
-/
namespace Sys2Proof

/-- The command that a word spells by the table's bits: none, since no row gives bits. -/
def decodeTableWord (_nbits _w : Nat) : Option Instr := none

end Sys2Proof
end

