-- ==== Sys2Proof/Config.lean ====
section
/-!
DEFINITION. What an implementation or a part fixes, and the free values: constants without a body, so that nothing can
evaluate them or prove a value of them. Each is named in the assumption log.
-/
namespace Sys2Proof.Config
open Sys2Proof

/-! Per part. -/

/-- DEV_STEPPING (R57, "per part"). -/
opaque stepping : Word
/-- SERIAL_LO and SERIAL_HI (R57, "per part"). -/
opaque serialLo : Word
opaque serialHi : Word
/-- FW_VERSION while READY is 1 (R57). -/
opaque fwVersion : Word
/-- Fused VDD_CORE target in mV (R582). -/
opaque fusedMv : Nat
/-- Fused minimum security version of an image (R596). -/
opaque minSecurityVersion : Nat
/-- Fused root key, 256 bits (R193). -/
opaque rootKey : Nat

/-! Programs of the firmware image (R427): their properties are not given. -/

/-- URGENT, pages of code, bytes of shared window, entry and constant-buffer handle of a Guxus program (log 34). -/
opaque guxusUrgent : Nat → Bool
opaque guxusPages : Nat → Nat
opaque guxusShared : Nat → Nat
opaque guxusEntry : Nat → Nat
opaque guxusConst : Nat → Nat

/-! Encodings that the manual leaves out (R414). -/

/-- Which scalar operation, by position, a register instruction of a major and FN selects (log 35). -/
opaque aluReg : Nat → Nat → Nat
/-- Which scalar operation an immediate major selects, and whether it extends IMM16 with its sign. -/
opaque aluImm : Nat → Nat
opaque aluImmSigned : Nat → Bool
/-- The step that IMM13 of an atomic operation spells. -/
opaque atomicStep : Nat → Int

/-- Which of the 8,192 indices of the derived-key cache a derived set falls into (R188). -/
opaque dkcIndex : Nat → Nat

/-- Which of the 2,048 indices of a pipeline's edge cache a line falls into (R204). -/
opaque edgeIndex : Nat → Nat

/-- The pipeline of a mixed-audio or event source, by source index (log 59). -/
opaque outPipe : Nat → Nat

/-- Engine cycles in M cycles/s that a number of legs and sources charge beside fully processed audio (log 73). -/
opaque engineBase : Nat → Nat → Nat

/-! Audio (chapter 08): codecs and constants whose values the manual does not give (log 60). -/

/-- Octets of an AV1 dependency descriptor that the device makes, with its padding, for a payload (log 182). -/
opaque ddOctets : Nat → Nat
/-- Samples at 48 kHz of an Opus payload; a payload that the decoder of a codec can parse. -/
opaque opusSamples : Nat → Nat
opaque parses : Nat → Nat → Bool
/-- Codec state after a payload; sample of a codec, rate, state and side (0 left or mono, 1 right) at a place in its packet. -/
opaque codecNext : Nat → Nat → Nat → Nat
opaque pcm : Nat → Nat → Nat → Nat → Nat → Int
/-- Concealed sample of Opus from its state, and from the redundancy of the next payload. -/
opaque plc : Nat → Nat → Int
opaque fec : Nat → Nat → Int
/-- Pitch period, less 1, in the last samples of a codec, newest first; the Q1.15 gain of its repetition that many samples at 48 kHz into
a loss (R283). -/
opaque pitch : Nat → List Int → Nat
opaque plcGain : Nat → Nat
/-- A sample between an old and a new one, at a place of a crossfade. -/
opaque crossfade : Int → Int → Nat → Int
/-- Built-in coefficients of profile 0: FIR taps and half-band taps. -/
opaque builtIn : Nat → Int
/-- Rounding of a value on a linear ramp and of a product of gains: a choice among the neighbours. -/
opaque rampPick : Nat → Nat → Nat → Nat → Nat
opaque gainPick : Nat → Nat → Nat → Nat
/-- Phase at which a tone of a frequency begins in an event at a volume, in 1/480,000 of a turn; rounding of a tone's sample at a place. -/
opaque tonePhase : Nat → Nat → Nat → Nat
opaque tonePick : Nat → Nat → Nat → Nat
/-- Codec state after coding samples under settings; the coded payload and, for Opus in a frame of ms, its bytes. -/
opaque encNext : List Nat → Nat → List Int → Nat
opaque encoded : List Nat → Nat → List Int → Nat
opaque opusBytes : List Nat → Nat → Nat → Nat
/-- An output of a level is silent to the Opus encoder. -/
opaque opusSilent : Nat → Bool

/-! Video. -/

/-- No later frame may refer to the frame of a kind whose first packet has a payload: what its bitstream says (R313). -/
opaque disposable : Nat → Nat → Bool

/-- Further coding-block rows that a part takes beyond its least number (R380); decode targets of an output source by spatial and
temporal layers, as DT_MAP words; bytes of a dependency descriptor, with or without the template structure (R373). -/
opaque partExtra : Nat → Nat → Nat
opaque encDtMap : Nat → Nat → Nat
opaque ddBytes : Nat → Nat → Bool → Nat
/-- Polyphase scaling (R343, R376): where a sample of the output lies in the source, in 1/64 samples, a coefficient by filter, sizes, phase and
tap, and the coefficient that stands for 1. -/
opaque scalePos : Nat → Nat → Nat → Nat → Int
opaque scaleTap : Nat → Nat → Nat → Nat → Nat → Int
opaque scaleOne : Nat → Nat
/-- Conversion from or to a matrix that names no luma weights (R345). -/
opaque convertOther : List Nat → Nat → Nat
/-- Level of a corner mask of a radius at a pixel that its circle cuts, by the pixel's place from the circle's centre (R344). -/
opaque cornerLevel : Nat → Nat → Nat → Nat
/-- Samples and motion data of a decoded picture, and samples of a reconstructed one, by the picture's number among the free values. -/
opaque decoded : Nat → Nat → Nat → Nat → Nat
opaque motionByte : Nat → Nat → Nat
opaque rebuilt : Nat → Nat → Nat → Nat → Nat
/-- Luma AC step of a codec's index at a depth (R392). -/
opaque acStep : Nat → Bool → Nat → Nat
/-- Byte of a bitstream buffer, and of a daymark plane, whose layouts the spec does not give. -/
opaque streamByte : Nat → Nat → Nat
opaque planeByte : List Word → Nat → Nat
/-- Analysis (R385): the sum of absolute transformed differences of a block, the rate cost of a vector to a reference beside its neighbours'
vectors, a predicted sample at a fraction of a sample, the greatest vector of a codec and the padding of its references. -/
opaque satd : List Int → Nat
opaque rateCost : Nat → Int → Int → List (Int × Int) → Nat
opaque interpolate : Nat → Nat → Nat → List Nat → Nat
opaque vectorReach : Nat → Nat
opaque refPadding : Nat → Nat
/-- Choice between the two whole numbers on either side of a value that is not whole, or between neighbours that 64 fraction bits
do not tell apart. -/
opaque roundPick : Nat → Nat

/-! Free values: results the spec leaves open. Each is applied to what it depends on, or to the counter of free values. -/

/-- Bytes of a journal record with that many words of staged bodies (R557, R559); its layout is not given. -/
opaque journalBytes : Nat → Nat

/-- A fresh random or unstated number (log 2). -/
opaque fresh : Nat → Nat

end Sys2Proof.Config
end

