-- ==== Sys2Proof/Machine/StateHost.lean ====
section
/-!
DEFINITION. Host-interface state: PCI Express links, functions, command slots, event queues, MSI-X (chapter 02),
and the record of what the device has sent to the host.
-/
namespace Sys2Proof.Machine
open Sys2Proof

/-- The four states of a command slot (R59, R61). -/
inductive SlotSt where
  | empty | busy | progress | done
  deriving DecidableEq, Repr

/-- Where the host fetch of a command's extension or image stands (R100, R68). -/
inductive FetchSt where
  /-- no fetch has been asked for -/
  | idle
  /-- a fetch of `bytes` at host address `addr` is outstanding -/
  | waiting (addr bytes : Nat)
  /-- the fetch completed with these words -/
  | got (data : List Word)
  deriving DecidableEq, Repr

/-- A command slot of one function (R59 to R66). -/
structure Slot where
  st : SlotSt
  /-- FRACTION[15:4], in 1/4,096 -/
  fraction : Nat
  tag : Nat
  status : Nat
  resultBytes : Nat
  submitNs : Nat
  doneNs : Nat
  /-- the 128 words of the slot: host words while EMPTY, captured command while BUSY or PROGRESS, result while DONE -/
  words : Tbl Word
  /-- place in the device-wide doorbell order (R67) -/
  order : Nat
  /-- the function held the operator role at capture (R55) -/
  opAtCapture : Bool
  /-- captured while FW_RESTARTING was 1 (R84) -/
  duringRestart : Bool
  /-- firmware has taken the command (R67) -/
  taken : Bool
  /-- cancellation mark of R66 -/
  cancel : Bool
  /-- place among captured commands that a stepped command takes at the end of each of its steps (R105) -/
  turn : Nat
  fetch : FetchSt
  /-- completed steps of a stepped command (R104) -/
  steps : Nat
  /-- working values that a stepped command keeps between its steps -/
  work : List Nat
  deriving DecidableEq, Repr

/-- A slot as a reset leaves it (R57: slots reset to 0). -/
def Slot.zero : Slot :=
  { st := .empty, fraction := 0, tag := 0, status := 0, resultBytes := 0, submitNs := 0, doneNs := 0, words := [],
    order := 0, opAtCapture := false, duringRestart := false, taken := false, cancel := false, turn := 0,
    fetch := .idle, steps := 0, work := [] }

/-- Host-interface registers of one function (R57), with its PCI Express function state. -/
structure Fn where
  /-- FN_CTRL[0] -/
  enable : Bool
  /-- FN_CTRL[1] -/
  evqEnable : Bool
  /-- FN_CTRL[2] -/
  purgeOnReset : Bool
  /-- FN_CTRL[3] -/
  errIrqEn : Bool
  /-- FN_STATUS.READY -/
  ready : Bool
  /-- FN_STATUS.PURGE_PENDING -/
  purgePending : Bool
  evqBase : BitVec 64
  evqTailAddr : BitVec 64
  /-- EVQ_SIZE.LOG2_ENTRIES -/
  evqLog2 : Nat
  evqHead : Nat
  evqTail : Nat
  /-- EVQ_COALESCE.COUNT -/
  coalCount : Nat
  /-- EVQ_COALESCE.TIME_US -/
  coalUs : Nat
  evqLost : Nat
  vecMap : Word
  errStatus : Word
  errCount : Nat
  /-- entries written since the last EVQ_VEC message (R74) -/
  unsignalled : Nat
  /-- local time of the oldest unsignalled entry, in ns (R74) -/
  oldestNs : Nat
  /-- Bus Master Enable of the PCI Express command register -/
  busMaster : Bool
  /-- the function is in D3hot (R50) -/
  d3hot : Bool
  /-- an FLR is in progress (R85) -/
  flrBusy : Bool
  /-- MSI-X vectors whose Mask bit is clear, rising -/
  msixOpen : List Nat
  /-- MSI-X pending bits, rising (R75) -/
  msixPend : List Nat
  /-- other words of the MSI-X table (address and data), by byte offset in the table -/
  msixTable : Tbl Word
  /-- high words captured by a low-word read (R9), by offset -/
  rdHigh : Tbl Word
  /-- low words written and not yet committed by the high-word write (R9), by offset -/
  wrLow : Tbl Word
  deriving DecidableEq, Repr

/-- A function's registers after a function reset (R57, R84). MSI-X vectors are masked (PRESUMED, PCI Express; log 10). -/
def Fn.zero : Fn :=
  { enable := false, evqEnable := false, purgeOnReset := false, errIrqEn := false, ready := false, purgePending := false,
    evqBase := 0, evqTailAddr := 0, evqLog2 := 6, evqHead := 0, evqTail := 0, coalCount := 0, coalUs := 0, evqLost := 0,
    vecMap := 0, errStatus := 0, errCount := 0, unsignalled := 0, oldestNs := 0, busMaster := false, d3hot := false,
    flrBusy := false, msixOpen := [], msixPend := [], msixTable := [], rdHigh := [], wrLow := [] }

/-- One PCI Express link (R48 to R50, R85). -/
structure PcieLink where
  /-- PERST_N[n] is asserted (low) -/
  perst : Bool
  up : Bool
  /-- speed index 1 to 5 while up -/
  speed : Nat
  /-- lanes in use while up -/
  width : Nat
  /-- the reference clock is present -/
  refclk : Bool
  deriving DecidableEq, Repr

def PcieLink.zero : PcieLink := { perst := true, up := false, speed := 0, width := 0, refclk := true }

/-- What the configuration space of a function states of itself (R50, R52, R53). -/
structure PciConfig where
  vendorId : Nat
  deviceId : Nat
  /-- function number on its link -/
  number : Nat
  /-- the SR-IOV capability, which physical functions have: First VF Offset, VF Stride, TotalVFs -/
  sriov : Option (Nat × Nat × Nat)
  /-- largest Max_Payload_Size and Max_Read_Request_Size supported, in bytes -/
  maxPayload : Nat
  maxReadRequest : Nat
  tenBitTags : Bool
  aer : Bool
  ari : Bool
  msixVectors : Nat
  aspmL1 : Bool
  aspmL0s : Bool
  deriving DecidableEq, Repr

/-- The host interface (chapter 02). -/
structure HostIf where
  /-- the lane split in force, read from HIF_SPLIT at power-on reset (R48) -/
  split : Nat
  links : Tbl PcieLink
  fns : Tbl Fn
  /-- slots by function index × 64 + slot number -/
  slots : Tbl Slot
  /-- virtual functions enabled, by physical function; 0 while VF Enable is 0 (R54) -/
  vfs : Tbl Nat
  /-- the next place in doorbell order (R67) -/
  nextOrder : Nat
  /-- FN_STATUS.FW_RESTARTING (R57) -/
  fwRestarting : Bool
  /-- the PF that holds the operator role (R55) -/
  operatorPf : Nat
  /-- B2_LOCK.LOCK[9:1] (R77) -/
  b2Lock : BitVec 10
  b2DomainMiss : Nat
  /-- log2 of the BAR4 sizes in force, physical and virtual functions, read at power-on reset (R56, R607) -/
  pfBar4 : Nat
  vfBar4 : Nat
  deriving DecidableEq, Repr

end Sys2Proof.Machine
end

