-- ==== Sys2Proof/Machine/StateMgmt.lean ====
section
/-!
DEFINITION. State of power domains, reset and start-up (chapter 18), and of the Keeper: management port, mailbox,
events and logs, watchdog, alarms, lamps, sensors, ageing and spares (chapter 19).
-/
namespace Sys2Proof.Machine
open Sys2Proof

/-! Power, reset and start-up (chapter 18). -/

/-- Where the switch in progress stands (R578, R579, R592). -/
inductive SwitchPhase where
  /-- LOADSTEP_N is low and LEAD_US runs -/
  | lead
  /-- the header ramp runs -/
  | ramp
  /-- the ramp has ended and the wake latency runs -/
  | wake
  /-- switched off again after a power-good time-out -/
  | undo
  deriving DecidableEq, Repr

/-- The one switch the governor carries out (R578). -/
structure Switch where
  dom : Nat
  on : Bool
  phase : SwitchPhase
  /-- local ns at which the ramp began -/
  startNs : Nat
  /-- local ns at which the phase ends -/
  deadline : Nat
  deriving DecidableEq, Repr

/-- The power command being served (R583). -/
structure PowerCmd where
  /-- function index × 64 + slot + 1; 0 when start-up or power-down asked -/
  cmd : Nat
  /-- domains still to be switched on, ascending, and off, descending -/
  on : List Nat
  off : List Nat
  /-- domains whose switches are done -/
  doneOn : List Nat
  doneOff : List Nat
  /-- cancelled: nothing more is begun -/
  cancelled : Bool
  fault : Bool
  deriving DecidableEq, Repr

def PowerCmd.none : PowerCmd :=
  { cmd := 0, on := [], off := [], doneOn := [], doneOff := [], cancelled := false, fault := false }

/-- What the device as a whole is doing. -/
inductive Phase where
  /-- power-on reset is held (R593) -/
  | held
  | starting
  | service
  | startFailed
  | fatal
  | ejecting
  | ejectComplete
  /-- orderly power-down before a warm start (R592) -/
  | warmDown
  deriving DecidableEq, Repr

structure Power where
  phase : Phase
  /-- power-good inputs that are low, by rail number of R588 in table order (0 VDD_AON to 6 VDD_CORE) -/
  pgLow : List Nat
  /-- SYS_REFCLK is present -/
  refclk : Bool
  /-- PWR_ON, one bit for each domain (R599) -/
  on : BitVec 24
  leadUs : Nat
  gapUs : Nat
  switch : Option Switch
  /-- local ns from which the next switch may begin (R578) -/
  gapEnd : Nat
  /-- LOADSTEP_N is high, and the local ns at which it is to be released (R579) -/
  loadstepN : Bool
  loadstepEnd : Nat
  req : PowerCmd
  /-- domains marked failed (R586) -/
  failed : List Nat
  /-- accepted switch-offs whose capacity is withdrawn (R584) -/
  withdrawn : List Nat
  vcoreOn : Bool
  mvNow : Nat
  mvTarget : Nat
  /-- local ns of the last VDD_CORE step -/
  vcoreStepNs : Nat
  /-- PWR_EVENTS -/
  events : BitVec 3
  /-- RESET_CAUSE fields -/
  cause : Nat
  slotB : Bool
  fromHost : Bool
  fallback : Bool
  startTimeMs : Nat
  /-- MHZ and TARGET_MHZ by cluster (R580) -/
  clkNow : Tbl Nat
  clkTarget : Tbl Nat
  /-- start credit in units of 10 mA, 200 at its depth, and the cycle of its last refill (R581) -/
  credit : Nat
  creditCyc : Nat
  /-- start-up step of R597 reached, 1 to 12, 0 while held -/
  step : Nat
  /-- local ns of the release of power-on reset -/
  releaseNs : Nat
  /-- BOOT_MODE sampled -/
  bootMode : Nat
  /-- image read attempts made in this start: slots tried -/
  tried : List Nat
  /-- slot the store marks active (R596) -/
  activeB : Bool
  /-- reason of R598, 0 while none -/
  failReason : Nat
  /-- local ns at which a device warm reset begins, 0 for none; and the cause it will have -/
  resetAt : Nat
  resetCause : Nat
  ejectComplete : Bool
  deriving DecidableEq, Repr

/-! Management (chapter 19). -/

/-- An event record (R610) without its LAP. -/
structure EvRec where
  sec : Nat
  ns : Nat
  island : Nat
  iseq : Nat
  code : Nat
  severity : Nat
  /-- function index + 1, 0 for FN_VALID = 0 -/
  fn : Nat
  object : Nat
  detail : Nat
  deriving DecidableEq, Repr

/-- A log ring (R612): slots by number with the LAP they were written in, the head, the lap now being written. -/
structure LogRing where
  slots : Tbl (EvRec × Bool)
  head : Nat
  lap : Bool
  deriving DecidableEq, Repr

/-- An empty ring: the first lap writes LAP 1. -/
def LogRing.empty : LogRing := { slots := [], head := 0, lap := true }

/-- State of a physical unit in the spare map (R602 SPARE_MAP, R628). -/
inductive UnitSt where
  | inService | spare | retiring | retired | selfTest
  deriving DecidableEq, Repr

/-- A physical unit: class × 1,024 + number is its key. -/
structure UnitRec where
  st : UnitSt
  /-- logical number that it serves -/
  logical : Nat
  /-- local ns of its last internal fault + 1 (R628) -/
  faultNs : Nat
  /-- local ns at which the self-test ends -/
  testEnd : Nat
  /-- TRIGGER of its retirement -/
  trigger : Nat
  deriving DecidableEq, Repr

def UnitRec.zero : UnitRec := { st := .inService, logical := 0, faultNs := 0, testEnd := 0, trigger := 0 }

/-- The response side of one path of R602. -/
structure KeeperPort where
  /-- a request is in progress -/
  busy : Bool
  /-- code of the last request served -/
  code : Nat
  /-- status byte and response bytes of the last completed request -/
  status : Nat
  resp : List Byte
  /-- status that the next read returns instead, 0 for none: 4 discarded, 5 wrong PEC -/
  once : Nat
  deriving DecidableEq, Repr

def KeeperPort.zero : KeeperPort := { busy := false, code := 0, status := 0, resp := [], once := 0 }

/-- A lamp override (R621). -/
structure Lamp where
  on : Bool
  pattern : Nat
  n : Nat
  /-- local ns at which it ends -/
  endNs : Nat
  deriving DecidableEq, Repr

def Lamp.zero : Lamp := { on := false, pattern := 0, n := 0, endNs := 0 }

/-- Throttle state of a media die (R609). -/
structure Throttle where
  active : Bool
  /-- the hottest sensor has fallen 3 °C below and clocks are being restored -/
  restoring : Bool
  /-- local ns of the next 50 MHz step -/
  nextNs : Nat
  deriving DecidableEq, Repr

def Throttle.zero : Throttle := { active := false, restoring := false, nextNs := 0 }

/-- The statistics counters of every counter command (R614, R615), keyed by `ctrKey`, and the sticky SAT flags. -/
structure Ctrs where
  vals : Tbl Nat
  sat : List Nat
  deriving DecidableEq, Repr

structure Mgmt where
  /-- configuration items by ITEM (R607) -/
  config : Tbl Nat
  port : KeeperPort
  mailbox : KeeperPort
  /-- KMB_CMD CODE and LEN, KMB_REQ and KMB_STAGE words -/
  kmbCode : Nat
  kmbLen : Nat
  kmbReq : Tbl Word
  kmbStage : Tbl Word
  waitImage : Bool
  /-- bytes staged, and the staged image by word -/
  received : Nat
  image : Tbl Byte
  /-- MGMT_ALERT_N is low; address assigned by ARP, 0 for none -/
  alert : Bool
  arpAddr : Nat
  /-- next ISEQ by island (R543) -/
  iseq : Tbl Nat
  /-- collected records on their way: appended by islands, oldest first -/
  incoming : List EvRec
  log : LogRing
  pinned : LogRing
  /-- records buffered ahead of the store (R613) -/
  buffered : Nat
  /-- severity overrides by code (R611) -/
  severity : Tbl Nat
  /-- suppressed occurrences by code × 2^64 + object: window (R649) -/
  limits : Tbl RateWin
  /-- watchdog: local ns of the last kick of each control processor, and end of its reset hold, 0 for none -/
  kicks : Tbl Nat
  holdEnd : Nat
  /-- the processors have left reset and firmware is recovering (R616 steps 2 and 3) -/
  recovering : Bool
  /-- service times of restarts, in local ns, newest first -/
  restarts : List Nat
  /-- Keeper reset in progress: local ns of its end, 0 for none -/
  keeperReset : Nat
  fatalCause : Nat
  /-- FOGHORN_N is high -/
  foghornN : Bool
  lampA : Lamp
  lampB : Lamp
  /-- sensors: temperature in 1/8 °C -/
  temps : Tbl Int
  /-- local ns + 1 since which a sensor reads 110 °C or more (R643) -/
  tripSince : Tbl Nat
  warned : List Nat
  throttle : Tbl Throttle
  /-- rails in mV by rail × 8 + die, and local ns since when out of range + 1 -/
  rails : Tbl Nat
  railOut : Tbl Nat
  /-- drift by island in 0.01 %, history newest first -/
  drift : Tbl Nat
  history : Tbl (List (Nat × Int))
  /-- local ns of the last measurement, of the last history entry, of the last counter write -/
  ageNs : Nat
  histNs : Nat
  lifeNs : Nat
  /-- hottest temperature since the last history entry -/
  histMax : Int
  hours : Nat
  porCount : Nat
  bins : Tbl Nat
  units : Tbl UnitRec
  /-- the unit being remapped + 1 (R629) -/
  remap : Nat
  /-- entries recorded for a domain that is off: unit and trigger -/
  remapLater : List (Nat × Nat)
  retiredCount : Nat
  /-- islands whose drift is not covered, with the lowered clock in MHz (R627) -/
  lowered : Tbl Nat
  deriving DecidableEq, Repr

/-- What the device sends out of itself, newest first in `Chip.out`. -/
inductive Out where
  /-- MSI-X message of a vector of a function -/
  | msix (fn vec : Nat)
  /-- write to host memory without the Relaxed Ordering attribute (R51) -/
  | hostWrite (fn addr : Nat) (data : List Word)
  /-- DMA data written to host memory, with the Relaxed Ordering attribute (R51) -/
  | hostData (fn addr : Nat) (data : List Word)
  /-- the planes of a canvas frame are written to host memory -/
  | hostPlanes (fn addr : Nat) (data : List Byte)
  /-- a poisoned TLP for a 64-bit word of host memory (R478) -/
  | hostPoison (fn addr : Nat)
  /-- read request to host memory -/
  | hostRead (fn addr bytes : Nat)
  /-- data returned to a host register read -/
  | readData (fn : Nat) (data : List Word)
  /-- poisoned completion -/
  | readPoison (fn : Nat)
  /-- advanced error reporting: 0 poisoned TLP received -/
  | aer (fn kind : Nat)
  /-- a frame leaves a logical port; leg index + 1, 0 for none -/
  | frame (lport leg : Nat) (pkt : EgPkt)
  /-- a frame on the twin link -/
  | twin (msg : TwinMsg)
  /-- data returned to a memory source, with the addresses of its poisoned words (R499) -/
  | memData (source addr : Nat) (data : List Byte) (bad : List Nat)
  /-- an answer of the management port: status and response bytes -/
  | mgmtData (status : Nat) (data : List Byte)
  /-- retry status is answered on a link -/
  | retry (link : Nat)
  deriving DecidableEq, Repr

end Sys2Proof.Machine
end

