-- ==== Sys2Proof/Machine/State.lean ====
section
/-!
DEFINITION. The whole state of the device, the queue of waiting commands, the reasons a step can stop, and the state
right after reset: power-on reset held, before its release (R593, R597).
-/
namespace Sys2Proof.Machine
open Sys2Proof

/-- Everything of the device but its addressed memory and the queue of commands. -/
structure Chip where
  host : HostIf
  gx : Guxus
  net : Net4
  fwd : Fwd
  eg : Egress
  aud : Audio
  vid : Video
  eng : Engines
  sched : Sched
  pools : Pools
  chans : Tbl Chan
  dram : Dram
  time : TimeBase
  twin : Twin
  pwr : Power
  mgmt : Mgmt
  /-- statistics counters -/
  ctrs : Ctrs
  /-- what the device has sent out of itself, newest first -/
  out : List Out
  /-- the model's own counter of free values drawn (log 2) -/
  free : Nat
  deriving DecidableEq, Repr

/-- The state of the block. -/
structure State where
  /-- the commands that wait, first in first out -/
  pending : List Instr
  /-- DRAM and packet memory -/
  mem : Mem
  /-- every register, table, queue and counter of the device -/
  chip : Chip
  deriving DecidableEq, Repr

/-- Faults of the block: the spec names none that stops the device as a whole. -/
inductive Fault where
  /-- Raised by `DRAM_READ` and `DRAM_WRITE` for an address beyond the installed memory, where nothing answers (R493, R494). Safe. -/
  | noAddress (addr : Nat)
  deriving DecidableEq, Repr

/-- Refusals of the block. -/
inductive Refusal where
  /-- Raised by the dispatch alone, for a command whose meaning is not modelled yet. Safe: nothing is claimed of it. -/
  | notModelled (mnemonic : String)
  deriving DecidableEq, Repr

/-! The parts of the reset state. -/

def Cfg.empty : Cfg := { epoch := 0, objs := [], cards := [], sobjs := [], scards := [] }

/-- Both banks hold no object; epoch numbers start at 1 (R31); drain limit 200 ms (R42, R127). -/
def Guxus.reset : Guxus :=
  { bank0 := .empty, bank1 := .empty, current := 1, draining := 0, drainEnd := 0, published := 0, tActSec := 0, tActNs := 0,
    drainLimitMs := 200, staleWrites := 0, gens := [], reserved := [], sessions := [], lastSession := 0, active := none,
    checks := [], held := [], nextTicket := 1, outcomes := [], opQuota := none }

/-- Functions and slots at 0 (R57), links in reset, all BAR2 locks closed (R77). -/
def HostIf.reset : HostIf :=
  { split := 0, links := [], fns := [], slots := [], vfs := [], nextOrder := 0, fwRestarting := false, operatorPf := 0,
    b2Lock := 0x3FE, b2DomainMiss := 0, pfBar4 := 30, vfBar4 := 26 }

def Net4.reset : Net4 :=
  { ports := [], lports := [], pipes := [], tunnel := [], dtlsWin := [], addrInactive := [], iceWin := [], keySlots := [],
    rxSets := [], replay := [], tx := [], counted := [], txStopped := [], dkc := [], dkcErrors := 0, deriving_ := [], dkcHits := 0, dkcMisses := 0,
    missqPeak := 0, cryUnits := 0xFFFFF, keyTblReady := false, rootFused := false, pairing := none, bootNonce := 0 }

def Fwd.reset : Fwd :=
  { edges := [], outslots := [], sources := [], hist := [], cache := [], cacheNext := 0, cacheGib := 8, holdoffMs := 40,
    gaps := [], spkDue := [], rewrites := [] }

def Egress.reset : Egress := { legs := [], ports := [], layerWin := [], ptpOut := [], missq := [] }

def Audio.reset : Audio :=
  { origin := 0, newOrigin := none, lastStart := 0, block := 0, begun := false, syncPinEn := false, lastEdge := 0,
    ins := [], outs := [], masters := [], contribs := [], groups := [], profiles := [] }

def Video.reset : Video := { decs := [], canvases := [], rends := [] }

def Engines.reset : Engines := { engines := [], clusters := [], progs := [] }

def Sched.reset : Sched :=
  { tasks := [], flowNext := [], comps := [], mode := 0, tickUs := 125, tickNext := 125, lastTick := 0, ticks := 0,
    agePeriod := 16, ageCeiling := 4, ageEn := true, waitTimeout := 8000, events := 0, slotsWin := .zero,
    underWin := .zero, lostSlots := 0 }

def Pools.reset : Pools :=
  { pools := [], uses := [], windowBytes := 0, shares := [], pages := [], lastFn := [], answer := (0, 0) }

/-- No memory installed is known before DDR_CONFIG is read (R492). -/
def Dram.reset : Dram :=
  { x4 := false, density := 0, ranks2 := false, rate := 4800, capGib := 0, subs := [], scrubEn := true, passHours := 24,
    scrubPos := 0, scrubPasses := 0, passCe := 0, passUe := 0, rowThresh := 8, ceStorm := 1000, injAddr := 0, injMode := 0,
    injArm := false, freeze := none, repairMap := [], busy := false, pausedBank := none, sramErr := [], sramRepairs := [], sramPasses := 0 }

def TimeBase.reset : TimeBase :=
  { cyc := 0, a := .zero, b := .zero, selB := false, off := 0, slewPpb := 0, slewStart := 0, utcOffset := 0,
    stepAbsorbed := false, configError := false, seenA := false, seenB := false, capSec := 0, capNs := 0, capFrac := 0,
    ring := .zero, rxWin := [], txWin := [], rxDrops := 0 }

def Twin.reset : Twin :=
  { ctrl := 2, st := 0, phyUp := false, session := false, sessionNum := 0, random := 0, peerSerial := 0, txKey := 0, rxKey := 0,
    txSeq := 0, rxHigh := 0, rxSeen := [], tagFails := 0, dropped := 0, events := 0, hbFrame := false, hbPin := false,
    missFrame := 3, missPin := 3, hbMissed := 0, aliveOut := false,
    hbStopped := false, silent := false, wasPaired := false, twinEjected := false, journal := [], jTx := 0, jAck := 0, twinJournal := [], jApplied := 0, jRx := 0,
    twinNeedsFull := false, unacked := [], chanSeq := [], mirrors := [], mirrorNext := 0, mirrorPass := 0, map := [],
    funcMap := [], ring := .zero, reserves := [], exposed := [], moves := [], takeovers := 0, taking := none, announce := [],
    handover := none, gone := [], relayWin := .zero, relayDrops := 0, ejectBudget := 200, relayLimit := 2000,
    relayIdle := 50, ejectEnd := 0, created := 0, applied := 0, helloNs := 0 }

/-- Power-on reset is held: AON alone is usable (PWR_ON 0x1), LEAD_US and GAP_US 10 (R599). -/
def Power.reset : Power :=
  { phase := .held, pgLow := [], refclk := true, on := 1, leadUs := 10, gapUs := 10, switch := none,
    gapEnd := 0, loadstepN := true, loadstepEnd := 0, req := .none, failed := [], withdrawn := [], vcoreOn := false,
    mvNow := 0, mvTarget := 0, vcoreStepNs := 0, events := 0, cause := 1, slotB := false, fromHost := false,
    fallback := false, startTimeMs := 0, clkNow := [], clkTarget := [], credit := 200, creditCyc := 0,
    step := 0, releaseNs := 0, bootMode := 0, tried := [],
    activeB := false, failReason := 0, resetAt := 0, resetCause := 0, ejectComplete := false }

/-- The store is blank and the configuration items stand at their defaults (R607). -/
def Mgmt.reset : Mgmt :=
  { config := [], port := .zero, mailbox := .zero, kmbCode := 0, kmbLen := 0, kmbReq := [], kmbStage := [],
    waitImage := false, received := 0, image := [], alert := false, arpAddr := 0, iseq := [],
    incoming := [], log := .empty, pinned := .empty, buffered := 0, severity := [], limits := [],
    kicks := [], holdEnd := 0, recovering := false, restarts := [], keeperReset := 0,
    fatalCause := 0, foghornN := true, lampA := .zero, lampB := .zero, temps := [], tripSince := [], warned := [], throttle := [],
    rails := [], railOut := [], drift := [], history := [], ageNs := 0, histNs := 0, lifeNs := 0, histMax := 0, hours := 0,
    porCount := 0, bins := [], units := [], remap := 0, remapLater := [], retiredCount := 0, lowered := [] }

def Chip.reset : Chip :=
  { host := .reset, gx := .reset, net := .reset, fwd := .reset, eg := .reset, aud := .reset, vid := .reset, eng := .reset,
    sched := .reset, pools := .reset, chans := [], dram := .reset, time := .reset, twin := .reset, pwr := .reset,
    mgmt := .reset, ctrs := { vals := [], sat := [] }, out := [], free := 0 }

/-- Memory with nothing listed: every unlisted byte reads 0 (log 1). -/
def Mem.reset : Mem := { cells := [], poison := [], flips := [] }

/-- The device held in power-on reset, no command waiting. -/
def State.reset : State := { pending := [], mem := .reset, chip := .reset }

end Sys2Proof.Machine
end

