-- ==== Sys2Proof/Machine/Ops.lean ====
section
/-!
DEFINITION. The named operations over tables, memory, clocks, counters, events and messages that the meanings share,
and the two forms every meaning has: `act` on the chip alone, `actMem` on chip and memory.
-/
namespace Sys2Proof.Machine
open Sys2Proof

/-! Tables. -/

/-- The record at key `k`, or the default `d`. -/
def tget {α : Type} (d : α) : Tbl α → Nat → α
  | [], _ => d
  | (k, v) :: t, i => if k = i then v else tget d t i

/-- The record at key `k`, if there is one. -/
def tfind {α : Type} : Tbl α → Nat → Option α
  | [], _ => none
  | (k, v) :: t, i => if k = i then some v else tfind t i

/-- Insert or replace the record at key `i`, keeping rising order. -/
def tput {α : Type} : Tbl α → Nat → α → Tbl α
  | [], i, x => [(i, x)]
  | (k, v) :: t, i, x => if k = i then (i, x) :: t else if i < k then (i, x) :: (k, v) :: t else (k, v) :: tput t i x

def tdel {α : Type} (t : Tbl α) (i : Nat) : Tbl α := t.filter (fun e => e.1 != i)

def tmod {α : Type} (d : α) (t : Tbl α) (i : Nat) (f : α → α) : Tbl α := tput t i (f (tget d t i))

def thas {α : Type} (t : Tbl α) (i : Nat) : Bool := t.any (fun e => e.1 == i)

/-- Records with their keys for which `p` holds. -/
def twhere {α : Type} (t : Tbl α) (p : Nat → α → Bool) : List (Nat × α) := t.filter (fun e => p e.1 e.2)

/-- Insert into a rising list without repeats. -/
def linsert : List Nat → Nat → List Nat
  | [], x => [x]
  | y :: t, x => if y = x then y :: t else if x < y then x :: y :: t else y :: linsert t x

/-- Insertion into a list in the order of `le`, behind its equals. -/
def sortPut {α : Type} (le : α → α → Bool) (x : α) : List α → List α
  | [] => [x]
  | y :: l => if le y x then y :: sortPut le x l else x :: y :: l

/-- A list in the order of `le`; equals keep their order. -/
def sortBy {α : Type} (le : α → α → Bool) (l : List α) : List α := l.foldl (fun a x => sortPut le x a) []

def lremove (l : List Nat) (x : Nat) : List Nat := l.filter (· != x)

/-! Memory: one canonical form. An unlisted byte reads 0 (log 1). -/

/-- Write one byte, keeping the canonical form: a byte of value 0 is not listed. -/
def cellPut : List Host.Cell → Nat → Byte → List Host.Cell
  | [], a, b => if b = 0 then [] else [(a, b)]
  | (k, v) :: t, a, b =>
    if k = a then (if b = 0 then t else (a, b) :: t)
    else if a < k then (if b = 0 then (k, v) :: t else (a, b) :: (k, v) :: t)
    else (k, v) :: cellPut t a b

/-- One byte of memory. -/
def Mem.byte (m : Mem) (a : Nat) : Byte := tget 0 m.cells a

/-- A 64-bit word is poisoned (R512 to R515). -/
def Mem.bad (m : Mem) (a : Nat) : Bool := m.poison.contains (a / 8)

/-- `n` bytes from address `a`. -/
def Mem.bytes (m : Mem) (a n : Nat) : List Byte := (List.range n).map (fun i => m.byte (a + i))

/-- Some word of the `n` bytes from `a` is poisoned. -/
def Mem.anyBad (m : Mem) (a n : Nat) : Bool := m.poison.any (fun w => decide (a / 8 ≤ w ∧ w * 8 < a + n))

/-- What a meaning does to memory. -/
inductive MemOp where
  /-- write bytes from an address on -/
  | write (a : Nat) (l : List Byte)
  /-- fill a range with zero bytes -/
  | zero (a n : Nat)
  /-- fill every granule of a DRAM subchannel, below `top`, with zero bytes (R493, R505) -/
  | zeroSub (sub top : Nat)
  /-- set or clear the poison mark of the word of an address -/
  | poison (a : Nat) (on : Bool)
  /-- set the number of wrong bits stored in the word of an address -/
  | flip (a n : Nat)
  deriving DecidableEq, Repr

def Mem.writeBytes (cells : List Host.Cell) (a : Nat) : List Byte → List Host.Cell
  | [] => cells
  | b :: l => Mem.writeBytes (cellPut cells a b) (a + 1) l

/-- Words of a table set, a value of 0 not being listed. -/
def flipPut (t : Tbl Nat) (w n : Nat) : Tbl Nat := if n = 0 then tdel t w else tput t w n

/-- A full-word write clears the poison mark and the wrong bits of the words it covers whole (R515). -/
def Mem.applyOp (m : Mem) : MemOp → Mem
  | .write a l => { m with cells := Mem.writeBytes m.cells a l }
  | .zero a n => { cells := m.cells.filter (fun e => decide (e.1 < a ∨ a + n ≤ e.1)),
                   poison := m.poison.filter (fun w => decide (w * 8 < a ∨ a + n ≤ w * 8)),
                   flips := m.flips.filter (fun e => decide (e.1 * 8 < a ∨ a + n ≤ e.1 * 8)) }
  | .zeroSub s top =>
    let other := fun a => decide (top ≤ a ∨ a / 256 % 24 ≠ s)
    { cells := m.cells.filter (fun e => other e.1), poison := m.poison.filter (fun w => other (w * 8)),
      flips := m.flips.filter (fun e => other (e.1 * 8)) }
  | .poison a on => { m with poison := if on then linsert m.poison (a / 8) else lremove m.poison (a / 8) }
  | .flip a n => { m with flips := flipPut m.flips (a / 8) n }

def Mem.apply (m : Mem) (ops : List MemOp) : Mem := ops.foldl Mem.applyOp m

/-- Strictly rising keys from a bound on. -/
def risingFrom : Nat → List Nat → Bool
  | _, [] => true
  | lo, k :: t => decide (lo ≤ k) && risingFrom (k + 1) t

/-- The canonical form of memory: rising addresses, no listed zero byte, rising poison marks, rising non-zero flips. -/
def Mem.wf (m : Mem) : Bool :=
  risingFrom 0 (m.cells.map Prod.fst) && m.cells.all (fun e => e.2 != 0) && risingFrom 0 m.poison &&
    risingFrom 0 (m.flips.map Prod.fst) && m.flips.all (fun e => e.2 != 0)

/-! The two forms of a meaning. -/

/-- A command that changes the chip alone. -/
def act (s : State) (f : Chip → Chip) : Host.Outcome State Fault Refusal := .next { s with chip := f s.chip }

/-- A command that changes the chip and memory. -/
def actMem (s : State) (f : Chip → Mem → Chip × List MemOp) : Host.Outcome State Fault Refusal :=
  .next { s with chip := (f s.chip s.mem).1, mem := s.mem.apply (f s.chip s.mem).2 }

/-! Words and bit fields. -/

/-- Bits `lo` to `lo + n − 1` of a number (R7). -/
def bits (v lo n : Nat) : Nat := v / 2 ^ lo % 2 ^ n

def bit (v i : Nat) : Bool := v / 2 ^ i % 2 == 1

def b2n (b : Bool) : Nat := if b then 1 else 0

def wd (n : Nat) : Word := BitVec.ofNat 32 n

/-- A 64-bit value as two words, low word first (R9). -/
def wd2 (n : Nat) : List Word := [wd n, wd (n / 2 ^ 32)]

/-- Word at byte offset `off` of a body; a missing word reads 0 (log 4). -/
def bw (b : List Word) (off : Nat) : Nat := (b.getD (off / 4) 0).toNat

/-- Field of a body word. -/
def bf (b : List Word) (off lo n : Nat) : Nat := bits (bw b off) lo n

def bd (b : List Word) (off : Nat) : Nat := bw b off + 2 ^ 32 * bw b (off + 4)

def bq (b : List Word) (off : Nat) : Nat := bd b off + 2 ^ 64 * bd b (off + 8)

/-- The bytes of a word, little-endian (R8). -/
def wordBytes (w : Word) : List Byte :=
  [w.extractLsb' 0 8, w.extractLsb' 8 8, w.extractLsb' 16 8, w.extractLsb' 24 8]

def bytesOf (l : List Word) : List Byte := l.flatMap wordBytes

/-- Four bytes at a time as words, missing bytes being 0. -/
def wordsOf : List Byte → List Word
  | [] => []
  | a :: [] => [(0#24 : BitVec 24) ++ a]
  | a :: b :: [] => [(0#16 : BitVec 16) ++ b ++ a]
  | a :: b :: c :: [] => [(0#8 : BitVec 8) ++ c ++ b ++ a]
  | a :: b :: c :: d :: l => (d ++ c ++ b ++ a) :: wordsOf l

def setBit (v i : Nat) (on : Bool) : Nat := v - (if bit v i then 2 ^ i else 0) + (if on then 2 ^ i else 0)

/-- Two's complement of an `n`-bit field as an integer. -/
def signed (n v : Nat) : Int := if v < 2 ^ (n - 1) then (v : Int) else (v : Int) - 2 ^ n

/-- An integer as an `n`-bit two's complement field. -/
def unsigned (n : Nat) (v : Int) : Nat := (v % 2 ^ n).toNat

/-- Words `l` into a table of words from index `i` on. -/
def wordsPut (t : Tbl Word) (i : Nat) : List Word → Tbl Word
  | [] => t
  | w :: l => wordsPut (tput t i w) (i + 1) l

def wordsGet (t : Tbl Word) (i n : Nat) : List Word := (List.range n).map (fun j => tget 0 t (i + j))

/-! Free values. -/

/-- Draw a free value (log 2). -/
def draw (c : Chip) : Nat × Chip := (Config.fresh c.free, { c with free := c.free + 1 })

/-! Clocks (R526 to R533). The model's local clock counts time-base cycles of 1.25 ns (log 3). -/

/-- Local time in ns. -/
def localNs (c : Chip) : Nat := c.time.cyc * 5 / 4

/-- The counter of the selected domain and its increment. -/
def TimeBase.selDom (t : TimeBase) : Dom := if t.selB then t.b else t.a

/-- Service time in units of 2^-32 × 10^-9 ns (R530). -/
def TimeBase.svcFine (t : TimeBase) : Int := t.selDom.t * 1000000000 + t.off

/-- Service time in whole ns since the PTP epoch. -/
def TimeBase.svcNs (t : TimeBase) : Nat := (t.svcFine / (1000000000 * 4294967296)).toNat

def svc (c : Chip) : Nat := c.time.svcNs

def svcSec (c : Chip) : Nat := svc c / 1000000000

def svcNano (c : Chip) : Nat := svc c % 1000000000

/-- OFF after `n` cycles of slewing: it moves toward 0 and stops there (R530, R533). -/
def TimeBase.offAfter (t : TimeBase) (n : Nat) : Int :=
  let o := t.off + t.selDom.inc * t.slewPpb * n
  if t.slewPpb = 0 then t.off
  else if t.slewPpb < 0 then (if o < 0 then 0 else o) else (if o > 0 then 0 else o)

/-- `n` cycles of the time-base clock (R527). -/
def TimeBase.cycles (t : TimeBase) (n : Nat) : TimeBase :=
  { t with cyc := t.cyc + n, a := { t.a with t := t.a.t + t.a.inc * n }, b := { t.b with t := t.b.t + t.b.inc * n },
           off := t.offAfter n }

/-- Advance every clock until the local time has reached `ns` (log 5). -/
def waitLocal (ns : Nat) (c : Chip) : Chip :=
  { c with time := c.time.cycles ((ns * 4 + 4) / 5 - c.time.cyc) }

/-- Advance every clock by the cycles that service time needs to reach `ns` at the present rate (log 5). -/
def waitSvc (ns : Nat) (c : Chip) : Chip :=
  let t := c.time
  let per : Nat := t.selDom.inc * (1000000000 + t.slewPpb).toNat
  let need : Int := (ns : Int) * (1000000000 * 4294967296) - t.svcFine
  if per = 0 then c else { c with time := t.cycles ((need + per - 1) / per).toNat }

/-! Counters (R614). -/

/-- Key of a statistics counter: opcode of its counter command, scope index and position. -/
def ctrKey (op scope pos : Nat) : Nat := op * 2 ^ 48 + scope * 2 ^ 8 + pos

def ctrMax : Nat := 2 ^ 64 - 1

/-- Scope index of the second kind of a counter command with two kinds of scope. -/
def scope2 (i : Nat) : Nat := 2 ^ 32 + i

/-- The device-wide scope. -/
def scopeDev : Nat := 2 ^ 33

/-! Events (R20, R610 to R613, R649). -/

/-- Default severity of an event code (R611). -/
def defaultSeverity (code : Nat) : Nat :=
  if code == 0xF01 then 5
  else if [0xB02, 0xD04, 0xE05, 0xE02, 0xF02, 0xF0B, 0xF05].contains code then 4
  else if [0x101, 0x910, 0x5, 0x201, 0xD03, 0xE04, 0x404, 0xE01, 0xF09, 0x212, 0xB06, 0xB07, 0x505, 0x502, 0x503,
           0x504].contains code then 1
  else if [0x202, 0x214, 0x606, 0x706, 0x803, 0x902, 0xB03, 0xB09, 0x211, 0x105, 0x703, 0xF03].contains code then 3
  else 2

/-- An island writes an event record; it travels to the collector (R20, R543, R610). `fn` is the function named. -/
def raise (island code : Nat) (fn : Option Nat) (object detail : Nat) (c : Chip) : Chip :=
  let m := c.mgmt
  let r : EvRec :=
    { sec := svcSec c, ns := svcNano c, island := island, iseq := tget 0 m.iseq island % 2 ^ 24, code := code,
      severity := (tfind m.severity code).getD (defaultSeverity code),
      fn := match fn with | some f => f + 1 | none => 0,
      object := object % 2 ^ 32, detail := detail % 2 ^ 64 }
  { c with mgmt := { m with iseq := tput m.iseq island ((tget 0 m.iseq island + 1) % 2 ^ 24), incoming := m.incoming ++ [r] } }

/-- An event of an object may be raised now (R649). -/
def rateOpen (code object : Nat) (c : Chip) : Bool :=
  let w := tget RateWin.zero c.mgmt.limits (code * 2 ^ 40 + object)
  w.start == 0 || decide (w.start - 1 + 1000000000 ≤ localNs c)

/-- An event that is raised at most once a second for each object, with a count of its occurrences (R649). `mk` gives the
detail field from the count. -/
def raiseRated (island code : Nat) (fn : Option Nat) (object : Nat) (mk : Nat → Nat) (n : Nat) (c : Chip) : Chip :=
  let k := code * 2 ^ 40 + object
  let w := tget RateWin.zero c.mgmt.limits k
  let now := localNs c
  if w.start = 0 ∨ w.start - 1 + 1000000000 ≤ now then
    raise island code fn object (mk (w.count + n))
      { c with mgmt := { c.mgmt with limits := tput c.mgmt.limits k { start := now + 1, count := 0 } } }
  else { c with mgmt := { c.mgmt with limits := tput c.mgmt.limits k { w with count := w.count + n } } }

/-- Take one place in a window that admits `n` happenings in each second of local time. -/
def RateWin.take (w : RateWin) (now n : Nat) : Option RateWin :=
  if w.start + 1000000000 ≤ now ∨ w.count = 0 then some { start := now, count := 1 }
  else if w.count < n then some { w with count := w.count + 1 } else none

/-- Add `n` to a statistics counter; at 2^64 − 1 it stays, and its first saturation raises COUNTER_SATURATED (R614). -/
def bump (op scope pos n : Nat) (c : Chip) : Chip :=
  let k := ctrKey op scope pos
  let v := tget 0 c.ctrs.vals k + n
  if v < ctrMax then { c with ctrs := { c.ctrs with vals := tput c.ctrs.vals k v } }
  else if c.ctrs.sat.contains k then { c with ctrs := { c.ctrs with vals := tput c.ctrs.vals k ctrMax } }
  else raise 0 0xF07 none op (pos % 256 + 2 ^ 32 * (scope % 2 ^ 32))
    { c with ctrs := { vals := tput c.ctrs.vals k ctrMax, sat := linsert c.ctrs.sat k } }

def ctr (c : Chip) (op scope pos : Nat) : Nat := tget 0 c.ctrs.vals (ctrKey op scope pos)

/-- Counters of a group as result words. -/
def ctrWords (c : Chip) (op scope n : Nat) : List Word := (List.range n).flatMap (fun i => wd2 (ctr c op scope i))

/-- Set a counter that records a peak. -/
def peak (op scope pos v : Nat) (c : Chip) : Chip :=
  if ctr c op scope pos < v then { c with ctrs := { c.ctrs with vals := tput c.ctrs.vals (ctrKey op scope pos) (min v ctrMax) } }
  else c

/-- Restart the `n` counters of a group from 0 (R615). -/
def ctrClear (op scope n : Nat) (c : Chip) : Chip :=
  let gone := fun k => decide (ctrKey op scope 0 ≤ k ∧ k < ctrKey op scope n)
  { c with ctrs := { vals := c.ctrs.vals.filter (fun e => !gone e.1), sat := c.ctrs.sat.filter (fun k => !gone k) } }

/-! Outputs. -/

def emit (o : Out) (c : Chip) : Chip := { c with out := o :: c.out }

/-- A frame to the twin, while there is a session (R551, R552). -/
def twinSend (m : TwinMsg) (c : Chip) : Chip :=
  if c.twin.session then emit (.twin m) { c with twin := { c.twin with txSeq := c.twin.txSeq + 1 } } else c

/-! Functions and messages (R53, R75). -/

def isVf (fn : Nat) : Bool := fn % 64 != 0

def operatorFn (c : Chip) : Nat := 64 * c.host.operatorPf

def isOperator (c : Chip) (fn : Nat) : Bool := fn == operatorFn c

def getFn (c : Chip) (fn : Nat) : Fn := tget Fn.zero c.host.fns fn

def modFn (fn : Nat) (f : Fn → Fn) (c : Chip) : Chip := { c with host := { c.host with fns := tmod Fn.zero c.host.fns fn f } }

/-- Size of a function's MSI-X table. -/
def msixSize (fn : Nat) : Nat := if isVf fn then 32 else 256

/-- An MSI-X message of a vector, taken modulo the table size: sent, or held pending while the vector is masked or Bus
Master Enable is 0 (R75). -/
def msix (fn vec : Nat) (c : Chip) : Chip :=
  let v := vec % msixSize fn
  let f := getFn c fn
  if f.busMaster ∧ f.msixOpen.contains v then emit (.msix fn v) c
  else modFn fn (fun f => { f with msixPend := linsert f.msixPend v }) c

/-- Count an ignored access (R57 ERR_COUNT). -/
def errCount (fn : Nat) (c : Chip) : Chip := modFn fn (fun f => { f with errCount := min (f.errCount + 1) 0xFFFFFFFF }) c

/-- Set a bit of ERR_STATUS, with its message when ERR_IRQ_EN is 1 (R57, R75). -/
def errBit (fn i : Nat) (c : Chip) : Chip :=
  let c1 := modFn fn (fun f => { f with errStatus := f.errStatus ||| BitVec.ofNat 32 (2 ^ i) }) c
  if (getFn c fn).errIrqEn then msix fn (bits (getFn c fn).vecMap.toNat 16 8) c1 else c1

/-- An access that sets an ERR_STATUS bit and has no other effect (R58). -/
def errAccess (fn i : Nat) (c : Chip) : Chip := errCount fn (errBit fn i c)

/-- The link of a function (R48). -/
def linkOf (split fn : Nat) : Nat :=
  let pf := fn / 64
  match split with
  | 0 => 0
  | 1 => if pf < 2 then 0 else 2
  | 2 => if pf < 2 then 0 else pf
  | _ => pf

def getLink (c : Chip) (n : Nat) : PcieLink := tget PcieLink.zero c.host.links n

/-- Host memory of the function can be reached: Bus Master Enable is 1 and its link is up (R648, R68). -/
def hostReach (c : Chip) (fn : Nat) : Bool := (getFn c fn).busMaster && (getLink c (linkOf c.host.split fn)).up

/-- The device is in service. -/
def inService (c : Chip) : Bool := c.pwr.phase == .service || c.pwr.phase == .ejecting

/-- A power domain is usable (R599 PWR_ON). -/
def domOn (c : Chip) (d : Nat) : Bool := c.pwr.on.getLsbD d

/-! Configuration items (R607). -/

def configDefault (item : Nat) : Nat :=
  match item with
  | 1 => 0 | 2 => 0 | 3 => 30 | 4 => 26 | 5 => 0 | 6 => 0x00FFF838 | 7 => 0x5C | 8 => 100 | 9 => 8 | 10 => 20 | 11 => 100
  | 12 => 2000 | 13 => 100 | 14 => 104 | 15 => 4 | _ => 0

def config (c : Chip) (item : Nat) : Nat := (tfind c.mgmt.config item).getD (configDefault item)

/-! Configuration tables and objects (R31 to R41, R89 to R95). -/

/-- The bank of an epoch (R32). -/
def Guxus.bank (g : Guxus) (epoch : Nat) : Cfg := if epoch % 2 == 0 then g.bank0 else g.bank1

/-- Configuration of the current epoch. -/
def cfg (c : Chip) : Cfg := c.gx.bank c.gx.current

def idType (id : Nat) : Nat := id / 2 ^ 28 % 16
def idGen (id : Nat) : Nat := id / 2 ^ 25 % 8
def idIndex (id : Nat) : Nat := id % 2 ^ 25

/-- Identifier with GEN cleared: the key of an object. -/
def idKey (id : Nat) : Nat := idType id * 2 ^ 28 + idIndex id

def mkId (ty gen idx : Nat) : Nat := ty * 2 ^ 28 + gen * 2 ^ 25 + idx

def mkKey (ty idx : Nat) : Nat := ty * 2 ^ 28 + idx

/-- The object that an identifier names in a configuration: present, with the same GEN (R91). -/
def Cfg.obj (g : Cfg) (id : Nat) : Option Obj :=
  match tfind g.objs (idKey id) with
  | some o => if o.gen = idGen id then some o else none
  | none => none

/-- The object of a type at an index. -/
def Cfg.at (g : Cfg) (ty idx : Nat) : Option Obj := tfind g.objs (mkKey ty idx)

def Cfg.has (g : Cfg) (ty idx : Nat) : Bool := (g.at ty idx).isSome

/-- Identifier of the object of a type at an index, 0 when there is none. -/
def Cfg.idAt (g : Cfg) (ty idx : Nat) : Nat := match g.at ty idx with | some o => mkId ty o.gen idx | none => 0

/-- Settings of the object of a type at an index: no words when it does not exist. -/
def Cfg.body (g : Cfg) (ty idx : Nat) : List Word := match g.at ty idx with | some o => o.body | none => []

/-- Owner of the object of a type at an index. -/
def Cfg.owner (g : Cfg) (ty idx : Nat) : Option Nat := (g.at ty idx).map (·.owner)

/-- Key of a card: opcode, object key and sub-index. -/
def cardKey (op obj idx : Nat) : Nat := op * 2 ^ 64 + obj * 2 ^ 32 + idx

/-- A card in force, no words when there is none. -/
def Cfg.card (g : Cfg) (op obj idx : Nat) : List Word := (tfind g.cards (cardKey op obj idx)).getD []

def Cfg.hasCard (g : Cfg) (op obj idx : Nat) : Bool := thas g.cards (cardKey op obj idx)

/-- Indexes of the objects of a type, rising. -/
def Cfg.indexes (g : Cfg) (ty : Nat) : List Nat :=
  (g.objs.filter (fun e => e.1 / 2 ^ 28 == ty)).map (fun e => e.1 % 2 ^ 28)

/-- Cards of an opcode: object key, sub-index and words. -/
def Cfg.cardsOf (g : Cfg) (op : Nat) : List (Nat × Nat × List Word) :=
  (g.cards.filter (fun e => e.1 / 2 ^ 64 == op)).map (fun e => (e.1 / 2 ^ 32 % 2 ^ 32, e.1 % 2 ^ 32, e.2))

def tConf : Nat := 1
def tSource : Nat := 2
def tLeg : Nat := 3
def tEdge : Nat := 4
def tGroup : Nat := 5
def tCanvas : Nat := 6
def tRend : Nat := 7
def tProgram : Nat := 8

end Sys2Proof.Machine
end

