-- ==== Sys2Proof/Machine/Serve.lean ====
section
/-!
DEFINITION. How firmware serves a captured command slot (R61, R67, R99 to R103, R108): its turn, the checks made before
any command acts, the fetch of its extension, and the ending of a command with its result.
-/
namespace Sys2Proof.Machine
open Sys2Proof

/-! Reach of a host access. -/

/-- The function exists: a physical function of the part, or a virtual function that is enabled (R51 to R54). -/
def fnExists (c : Chip) (fn : Nat) : Bool :=
  decide (fn < 256) && (!isVf fn || decide (fn % 64 ≤ tget 0 c.host.vfs (fn / 64)))

/-- A host access reaches a BAR of the function: the host interface is powered, the link is up, the function decodes its
BARs (R50). -/
def barReach (c : Chip) (fn : Nat) : Bool :=
  domOn c 2 && (getLink c (linkOf c.host.split fn)).up && fnExists c fn && !(getFn c fn).d3hot

/-- A host access reaches BAR2, which the operator PF alone decodes (R56). -/
def bar2Reach (c : Chip) (fn : Nat) : Bool := barReach c fn && isOperator c fn

/-- A host access reaches BAR2 of a physical function without the operator role, which reads as unoccupied (R11, R56). -/
def bar2Blank (c : Chip) (fn : Nat) : Bool := barReach c fn && !isVf fn && !isOperator c fn

/-- The lock of a BAR2 block is closed (R77). -/
def locked (c : Chip) (i : Nat) : Bool := c.host.b2Lock.getLsbD i

/-- A write that a closed lock turns away (R13, R78). -/
def lockViolation (off : Nat) (v : Word) (c : Chip) : Chip := raise 2 0x2 none off v.toNat c

/-- Power domains of a BAR2 block's registers, all of which must be granted on (R24, R76; log 28). -/
def blockDomains (addr : Nat) : List Nat :=
  match addr / 0x100000 with
  | 0 => [2] | 1 => [0] | 2 => [6] | 3 => [0] | 4 => [7, 8] | 5 => [9] | 6 => [9] | 7 => [9] | 8 => [5] | 9 => [0] | 10 => [6]
  | _ => [2]

/-- A BAR2 address lies in a block whose power domain is off (R79). -/
def blockOff (c : Chip) (addr : Nat) : Bool := !(blockDomains addr).all (fun d => domOn c d)

/-- An access to a block whose domain is off: counted, and a read returns all ones (R79). -/
def blockMiss (fn : Nat) (read : Bool) (c : Chip) : Chip :=
  let c1 := { c with host := { c.host with b2DomainMiss := min (c.host.b2DomainMiss + 1) 0xFFFFFFFF } }
  if read then emit (.readData fn [0xFFFFFFFF]) c1 else c1

/-- What becomes of a BAR2 word write that does not get to its register: nothing answers it, its block is off (R79), or the
lock of an RWL field turns it away (R13). -/
def b2Turned (fn addr : Nat) (rwl : Bool) (v : Word) (c : Chip) : Option Chip :=
  if !bar2Reach c fn then some c
  else if blockOff c addr then some (blockMiss fn false c)
  else if rwl && locked c (addr / 0x100000) then some (lockViolation addr v c)
  else none

/-- A write of an RWL word of BAR2. -/
def b2Write (fn addr : Nat) (v : Word) (f : Chip → Chip) (c : Chip) : Chip :=
  match b2Turned fn addr true v c with
  | some c1 => c1
  | none => f c

/-- The two word writes of an RWL pair, low word first (R9), when they are turned away: each by itself (log 167). -/
def b2Pair (fn addr : Nat) (lo hi : Word) (c : Chip) : Option Chip :=
  (b2Turned fn addr true lo c).map (fun c1 => b2Write fn (addr + 4) hi id c1)

/-- A read of a BAR2 register that has a row of its own (R11, R56, R79). -/
def b2Read (fn addr : Nat) (f : Chip → Chip) (c : Chip) : Chip :=
  if bar2Reach c fn then (if blockOff c addr then blockMiss fn true c else f c)
  else if bar2Blank c fn then emit (.readData fn [0]) c
  else c

/-! Slots. -/

def slotKey (fn slot : Nat) : Nat := fn * 64 + slot

def getSlot (c : Chip) (k : Nat) : Slot := tget Slot.zero c.host.slots k

def putSlot (k : Nat) (s : Slot) (c : Chip) : Chip := { c with host := { c.host with slots := tput c.host.slots k s } }

def modSlot (k : Nat) (f : Slot → Slot) (c : Chip) : Chip := putSlot k (f (getSlot c k)) c

/-- Word `i` of a slot. -/
def Slot.word (s : Slot) (i : Nat) : Nat := (tget 0 s.words i).toNat

/-- Header fields of a captured command (R99). -/
def Slot.op (s : Slot) : Nat := bits (s.word 1) 0 16
def Slot.ext (s : Slot) : Bool := bit (s.word 1) 16
def Slot.autoCommit (s : Slot) : Bool := bit (s.word 1) 17
def Slot.validateOnly (s : Slot) : Bool := bit (s.word 1) 18
def Slot.session (s : Slot) : Nat := bits (s.word 2) 0 16
def Slot.bodyBytes (s : Slot) : Nat := bits (s.word 2) 16 16
def Slot.extBytes (s : Slot) : Nat := s.word 3
def Slot.extAddr (s : Slot) : Nat := s.word 4 + 2 ^ 32 * s.word 5

/-- The slot body, BODY_BYTES bytes, followed at the next byte by an extension (R99, R100). -/
def Slot.bodyWith (s : Slot) (ext : List Word) : List Word :=
  if s.bodyBytes % 4 = 0 then wordsGet s.words 8 (s.bodyBytes / 4) ++ ext
  else wordsOf ((bytesOf (wordsGet s.words 8 (s.bodyBytes / 4 + 1))).take s.bodyBytes ++ bytesOf ext)

/-- The body in the slot; bytes beyond BODY_BYTES are no part of it. -/
def Slot.body (s : Slot) : List Word := s.bodyWith []

/-- The words of the extension, once they are fetched. -/
def Slot.extension (s : Slot) : List Word :=
  match s.ext, s.fetch with
  | true, .got data => data
  | _, _ => []

/-- A captured command that is not DONE. -/
def Slot.open_ (s : Slot) : Bool := s.st == .busy || s.st == .progress

/-- Opcodes of the stepped commands (R104). -/
def steppedOps : List Nat := [0x0305, 0x0B02, 0x0B03, 0x0D02, 0x0D03, 0x0E00, 0x0E10]

/-- Opcodes of the transactional commands (R104) other than GX_TXN_COMMIT. -/
def txnOps : List Nat :=
  [0x0003, 0x0106, 0x0202, 0x0203, 0x0210, 0x0300, 0x0301, 0x0302, 0x0303, 0x0304, 0x0400, 0x0401, 0x0500, 0x0501, 0x0502,
   0x0503, 0x0600, 0x0700, 0x0701, 0x0702, 0x0704, 0x0800, 0x0900, 0x0A01]

/-- Opcodes that only the operator function may issue (R103). -/
def operatorOps : List Nat :=
  [0x0003, 0x0200, 0x0202, 0x0206, 0x0212, 0x0307, 0x0308, 0x0505, 0x0506, 0x0507, 0x0704, 0x0900, 0x0901, 0x0902, 0x0910,
   0x0911, 0x0912, 0x0913, 0x0914, 0x0A00, 0x0A01, 0x0B00, 0x0B01, 0x0B02, 0x0B03, 0x0B04, 0x0C01, 0x0C02, 0x0D00, 0x0D01,
   0x0D02, 0x0D03, 0x0D04, 0x0E00, 0x0E01, 0x0E02, 0x0E10, 0x0F00, 0x0F01]

/-- Opcodes that any function may issue. -/
def openOps : List Nat :=
  [0x0001, 0x0002, 0x0004, 0x0005, 0x0100, 0x0101, 0x0102, 0x0103, 0x0104, 0x0105, 0x0106, 0x0107, 0x0201, 0x0203, 0x0204,
   0x0205, 0x0210, 0x0211, 0x0300, 0x0301, 0x0302, 0x0303, 0x0304, 0x0305, 0x0306, 0x0400, 0x0401, 0x0402, 0x0403, 0x0500,
   0x0501, 0x0502, 0x0503, 0x0504, 0x0508, 0x0509, 0x0600, 0x0601, 0x0602, 0x0700, 0x0701, 0x0702, 0x0703, 0x0705, 0x0706,
   0x0707, 0x0800, 0x0801, 0x0802, 0x0803, 0x0A02, 0x0A03, 0x0A04, 0x0C00]

/-- An opcode that the manual assigns (R103). -/
def assignedOp (op : Nat) : Bool := operatorOps.contains op || openOps.contains op

/-- The session that a function holds under a number. -/
def heldSession (c : Chip) (fn n : Nat) : Option Session :=
  match tfind c.gx.sessions n with
  | some s => if s.fn = fn then some s else none
  | none => none

/-! Turns (R67, R105, R108, R583). -/

/-- An earlier command of the same session, or an earlier power command, is not DONE. -/
def slotBlocked (c : Chip) (k : Nat) (s : Slot) : Bool :=
  ((heldSession c (k / 64) s.session).isSome &&
    c.host.slots.any (fun e => e.1 / 64 == k / 64 && e.2.session == s.session && e.2.open_ && decide (e.2.order < s.order))) ||
  (s.op == 0x0E00 && c.host.slots.any (fun e => e.2.op == 0x0E00 && e.2.open_ && decide (e.2.order < s.order)))

/-- A captured command that waits for firmware. -/
def slotWaits (s : Slot) : Bool :=
  s.st == .busy && !s.taken && (match s.fetch with | .waiting _ _ => false | _ => true)

/-- Opcodes of stepped commands whose steps wait for nothing but the control processors. -/
def readyOps : List Nat := [0x0305, 0x0B02, 0x0B03, 0x0E10]

/-- A stepped command has a step to come. -/
def stepWaits (s : Slot) : Bool :=
  s.st == .progress && !s.work.isEmpty && (match s.fetch with | .waiting _ _ => false | _ => true)

def getChan (c : Chip) (ch : Nat) : Chan := tget Chan.zero c.chans ch

/-- Channels on which GX_DMA_SUBMIT may run. -/
def idleChans (c : Chip) : List Nat :=
  (List.range 56).filter (fun ch => let x := getChan c ch; x.cmd == 0 && x.task == 0 && !x.active && x.chain.isEmpty)

/-- A power request is under way. -/
def powerBusy (c : Chip) : Bool := c.pwr.switch.isSome || !c.pwr.req.on.isEmpty || !c.pwr.req.off.isEmpty

/-- A captured command that waits for something else than the control processors lets later ones pass. -/
def slotStuck (c : Chip) (k : Nat) (s : Slot) : Bool :=
  slotBlocked c k s || (s.op == 0x0E00 && powerBusy c) || (s.op == 0x0A02 && (idleChans c).isEmpty)

/-- The commit between two steps of its validation that a slot's command waits for (R105). -/
def slotCommit (c : Chip) (k : Nat) : Option Commit :=
  (c.gx.active.toList ++ c.gx.checks).find? (fun a => a.stage == .validating && a.slot == some k)

/-- No other command with an earlier place could run: captured ones in capture order, and behind those captured before the end
of its last step each stepped command and each stepped validation (R67, R105). -/
def firstInLine (c : Chip) (k place : Nat) : Bool :=
  !c.host.slots.any (fun e => e.1 != k &&
    ((slotWaits e.2 && decide (e.2.order < place) && !slotStuck c e.1 e.2) ||
     (((stepWaits e.2 && readyOps.contains e.2.op) || (slotCommit c e.1).isSome) && decide (e.2.turn < place))))

/-- It is the turn of a captured command (R67, R105, R108). -/
def slotTurn (c : Chip) (k : Nat) (s : Slot) : Bool := slotWaits s && !slotBlocked c k s && firstInLine c k s.order

/-- Firmware runs: the control complex is powered, in service or starting to be, and not restarting (R84, R616). -/
def firmwareUp (c : Chip) : Bool :=
  domOn c 1 && inService c && !c.host.fwRestarting && !c.mgmt.recovering && c.mgmt.holdEnd == 0

/-! Results. -/

/-- What a command ends with (R101). -/
structure Res where
  status : Nat
  errIndex : Nat
  errOffset : Nat
  objId : Nat
  objVersion : Nat
  body : List Word
  deriving DecidableEq, Repr

/-- No single body field is at fault (R101). -/
def noField : Nat := 0xFFFF

def Res.ok (body : List Word) : Res :=
  { status := 0, errIndex := 0, errOffset := noField, objId := 0, objVersion := 0, body := body }

def Res.err (status : Nat) : Res :=
  { status := status, errIndex := 0, errOffset := noField, objId := 0, objVersion := 0, body := [] }

/-- GX_E_FIELD with the offset of the field. -/
def Res.field (off : Nat) : Res := { Res.err 0x0007 with errOffset := off }

def Res.withObj (r : Res) (id version : Nat) : Res := { r with objId := id, objVersion := version }

/-- Valid result bytes (R102): 16 for GX_E_FW_RESTART and GX_E_HOST_FETCH, otherwise header and body. -/
def Res.bytes (r : Res) : Nat := if r.status = 0x0002 ∨ r.status = 0x0001 then 16 else 32 + 4 * r.body.length

/-- The words of a result from offset 0x10 on. -/
def Res.words (r : Res) (op session : Nat) : List Word :=
  if r.bytes = 16 then []
  else [wd (op + 2 ^ 16 * session), wd (r.errIndex + 2 ^ 16 * r.errOffset), wd r.objId, wd r.objVersion] ++ r.body

/-- The vector of a slot's completion message (R75). -/
def slotVec (f : Fn) (slot : Nat) : Nat := bits f.vecMap.toNat 0 8 + (if bit f.vecMap.toNat 24 then slot else 0)

/-- A command finishes: result bytes, zeros behind them, status, DONE_NS, state, and the slot's message (R61). -/
def finish (k : Nat) (r : Res) (c : Chip) : Chip :=
  let s := getSlot c k
  if s.open_ then
    msix (k / 64) (slotVec (getFn c (k / 64)) (k % 64))
      (putSlot k { Slot.zero with st := .done, tag := s.tag, status := r.status, resultBytes := r.bytes,
                                  submitNs := s.submitNs, doneNs := svc c % 2 ^ 32, order := s.order, taken := true,
                                  words := wordsPut [] 4 (r.words s.op s.session) } c)
  else c

/-- A command goes behind every command captured so far (R105). -/
def goBehind (k : Nat) (f : Slot → Slot) (c : Chip) : Chip :=
  modSlot k (fun s => { f s with turn := c.host.nextOrder }) { c with host := { c.host with nextOrder := c.host.nextOrder + 1 } }

/-- A stepped command has completed a step: PROGRESS with its fraction (R61). -/
def progress (k fraction : Nat) (work : List Nat) : Chip → Chip :=
  goBehind k (fun s => { s with st := .progress, fraction := fraction % 4096, steps := s.steps + 1, work := work })

/-- Result body of GX_MEM_TEST from the saved work: handle, bytes tested, words poisoned, first failing offset. -/
def memTestResult (w : List Nat) : List Word :=
  wd2 (w.getD 1 0 / 8) ++ wd2 0 ++ wd2 0 ++ wd2 (w.getD 2 0) ++ wd2 (w.getD 3 0)

/-- Firmware acts on the cancellation mark of a stepped command at a step boundary (R66, R106). Nothing that the completed steps
have done is undone. A repair whose bank is paused, a hand-over from T_h on and a bulk command in its final step go on; a power
request is withdrawn by its own rule (R583). -/
def cancelAt (k : Nat) (c : Chip) : Chip :=
  let s := getSlot c k
  if s.st = .progress ∧ s.cancel then
    match s.op with
    | 0x0B03 => finish k { Res.err 0x0003 with body := memTestResult s.work } { c with dram := { c.dram with busy := false } }
    | 0x0D02 | 0x0E10 => finish k (Res.err 0x0003) c
    | 0x0305 | 0x0D03 => if s.work.isEmpty then c else finish k (Res.err 0x0003) c
    | _ => c
  else c

/-- What a command's own part sees of its slot. -/
structure Ctx where
  k : Nat
  fn : Nat
  slot : Nat
  op : Nat
  session : Nat
  autoCommit : Bool
  validateOnly : Bool
  /-- the function held the operator role at capture (R55) -/
  operator : Bool
  /-- slot body and extension -/
  body : List Word
  deriving DecidableEq, Repr

def ctxOf (k : Nat) (s : Slot) (body : List Word) : Ctx :=
  { k := k, fn := k / 64, slot := k % 64, op := s.op, session := s.session, autoCommit := s.autoCommit,
    validateOnly := s.validateOnly, operator := s.opAtCapture, body := body }

/-- The object that a command names, as far as its function may name it (R93): the operator names every object, a tenant
its own. -/
def Ctx.names (x : Ctx) (g : Cfg) (id : Nat) : Option Obj :=
  match g.obj id with
  | some o => if x.operator ∨ o.owner = x.fn then some o else none
  | none => none

/-- Opcodes of the commands whose body begins with the object that they name. -/
def namedFirst : List Nat :=
  [0x0005, 0x0106, 0x0203, 0x0205, 0x0210, 0x0211, 0x0300, 0x0301, 0x0302, 0x0303, 0x0304, 0x0306, 0x0400, 0x0401, 0x0402] ++
    [0x0500, 0x0501, 0x0502, 0x0503, 0x0504, 0x0508, 0x0600, 0x0601, 0x0700, 0x0701, 0x0702, 0x0703, 0x0704, 0x0705, 0x0706] ++
    [0x0800, 0x0801, 0x0802, 0x0900, 0x0901]

/-- The object identifier in a command's body: at +0x00, or at +0x04 of a reading of counters behind its scope; 0 where the command names
none (R101). -/
def namedId (op : Nat) (b : List Word) : Nat :=
  let scope := bf b 0 0 2
  if namedFirst.contains op then bw b 0
  else if (op = 0x0403 ∧ scope % 2 = 1) ∨ (op = 0x0509 ∧ scope < 2) ∨ ((op = 0x0602 ∨ op = 0x0707 ∨ op = 0x0803) ∧ scope % 2 = 0) then bw b 4
  else 0

/-- A result tells the object that its command names, with its present version, where it tells none yet (R101). -/
def Ctx.naming (x : Ctx) (r : Res) (c : Chip) : Res :=
  if r.objId ≠ 0 then r
  else
    let id := namedId x.op x.body
    r.withObj id (match x.names (cfg c) id with | some o => o.version | none => 0)

/-- A header field is out of range (R103): the alignment of EXT_ADDR counts with EXT = 1 alone. -/
def headerBad (s : Slot) : Bool :=
  decide (480 < s.bodyBytes) || decide (1048576 < s.extBytes) || decide (s.extBytes % 4 ≠ 0) ||
    (s.ext && decide (s.extAddr % 8 ≠ 0))

/-- Opcodes of the commands that write a host result buffer (R648): GX_LEG_BULK_CREATE, GX_MEM_ERRORS, GX_MEM_FREEZE_READ and
GX_LOG_READ. -/
def resultOps : List Nat := [0x0305, 0x0B01, 0x0B04, 0x0F00]

/-- The result buffer of a command cannot be reached (R648). -/
def resultShut (c : Chip) (op fn : Nat) : Bool := resultOps.contains op && !hostReach c fn

/-- A command of a session keeps its transaction from idling out (R115). -/
def touchSession (fn n : Nat) (c : Chip) : Chip :=
  match heldSession c fn n with
  | some s => { c with gx := { c.gx with sessions := tput c.gx.sessions n { s with lastNs := localNs c } } }
  | none => c

/-- Start the fetch of the extension: it fails at once while host memory cannot be reached (R68). -/
def startFetch (k addr bytes : Nat) (c : Chip) : Chip :=
  if (getFn c (k / 64)).busMaster then
    emit (.hostRead (k / 64) addr bytes) (modSlot k (fun s => { s with fetch := .waiting addr bytes }) c)
  else finish k (Res.err 0x0001) (errBit (k / 64) 7 c)

/-- Firmware takes the command in a slot and acts on it. `op` is the opcode of the row; `fields` names the first body field
out of range; `run` is the command's own part, which ends the command or leaves it on its way. Where firmware does not
serve the slot now, nothing happens (log 6). -/
def serve (op : Nat) (r : CmdRef) (fields : List Word → Option Nat) (run : Ctx → Chip → Chip) (c : Chip) : Chip :=
  let k := slotKey r.fn r.slot
  let s := getSlot c k
  if !(firmwareUp c && (getFn c r.fn).ready && slotTurn c k s && s.op == op) then c
  else
    let c1 := modSlot k (fun s => { s with taken := true }) c
    if operatorOps.contains op && !s.opAtCapture then finish k (Res.err 0x0004) c1
    else if headerBad s then finish k (Res.err 0x0007) c1
    else
      let go := fun (body : List Word) =>
        match fields body with
        | some off => finish k ((ctxOf k s body).naming (Res.field off) c1) c1
        | none =>
          if resultShut c op r.fn then finish k (Res.err 0x0005) c1
          else if s.session ≠ 0 ∧ (heldSession c r.fn s.session).isNone then finish k (Res.err 0x0101) c1
          else cancelAt k (run (ctxOf k s body) (touchSession r.fn s.session c1))
      if s.ext then
        match s.fetch with
        | .got data => go (s.bodyWith data)
        | _ =>
          match (fields s.body).filter (fun off => decide (off < s.bodyBytes)) with
          | some off => finish k ((ctxOf k s s.body).naming (Res.field off) c1) c1
          | none => if resultShut c op r.fn then finish k (Res.err 0x0005) c1 else startFetch k s.extAddr s.extBytes c
      else go s.body

/-- No field of the body is checked. -/
def noFields : List Word → Option Nat := fun _ => none

/-- The first offset of a list of checks that fails. -/
def firstBad : List (Bool × Nat) → Option Nat
  | [] => none
  | (bad, off) :: l => if bad then some off else firstBad l

/-- A value lies outside a range. -/
def outside (v lo hi : Nat) : Bool := decide (v < lo) || decide (hi < v)

/-- Ends a command. -/
def Ctx.done (x : Ctx) (r : Res) (c : Chip) : Chip := finish x.k (x.naming r c) c

/-- Runs `f` on an object of a type that the command names, or ends with GX_E_NO_OBJECT. -/
def Ctx.withObj (x : Ctx) (id ty : Nat) (f : Obj → Chip → Chip) (c : Chip) : Chip :=
  match (if idType id = ty then x.names (cfg c) id else none) with
  | some o => f o c
  | none => x.done ((Res.err 0x0008).withObj id 0) c

end Sys2Proof.Machine
end

