-- ==== Sys2Proof/Machine/Tables.lean ====
section
/-!
DEFINITION. What the cards in force say: the fields of the configuration that the data plane reads, each at the offset
its card gives.
-/
namespace Sys2Proof.Machine
open Sys2Proof

/-! Service addresses (GX_ADDR_SET, opcode 0x0202). -/

def Cfg.addr (g : Cfg) (i : Nat) : Option (List Word) := tfind g.cards (cardKey 0x0202 0 i)

def addrLport (b : List Word) : Nat := bf b 4 0 3
def addrV6 (b : List Word) : Bool := bit (bw b 4) 3
def addrPipe (b : List Word) : Nat := bf b 4 4 2
def addrEcho (b : List Word) : Bool := bit (bw b 4) 6
def addrOwner (b : List Word) : Nat := bf b 4 8 8
/-- The tags of the address: presence, TPID and VID of the outer and the inner tag. -/
def addrTags (b : List Word) : List (Nat × Nat) :=
  (if bit (bw b 8) 12 then [(if bit (bw b 8) 13 then 0x88A8 else 0x8100, bf b 8 0 12)] else []) ++
    (if bit (bw b 8) 28 then [(0x8100, bf b 8 16 12)] else [])
def addrPort (b : List Word) : Nat := bf b 12 0 16
def addrIp (b : List Word) : Nat := bq b 16

/-- Service addresses: index and card. -/
def Cfg.addrs (g : Cfg) : List (Nat × List Word) := (g.cardsOf 0x0202).map (fun e => (e.2.1, e.2.2))

/-- Some service address, active or inactive, lies on a logical port. -/
def Cfg.usesLport (g : Cfg) (lp : Nat) : Bool :=
  g.addrs.any (fun e => addrLport e.2 == lp) || g.scards.any (fun e => e.1 / 2 ^ 64 == 0x0202 && addrLport e.2 == lp)

/-! Objects by key: TYPE and INDEX of an identifier with GEN cleared. -/

def keyType (k : Nat) : Nat := k / 2 ^ 28
def keyIndex (k : Nat) : Nat := k % 2 ^ 28

/-- Identifier of the object with a key, 0 when there is none. -/
def Cfg.keyId (g : Cfg) (k : Nat) : Nat := g.idAt (keyType k) (keyIndex k)
def Cfg.keyOwner (g : Cfg) (k : Nat) : Option Nat := g.owner (keyType k) (keyIndex k)

/-- The configuration that work of an epoch tag reads (R32, R35). -/
def cfgAt (c : Chip) (epoch : Nat) : Cfg := c.gx.bank epoch

/-! Conferences (GX_CONF_SET, 0x0300). -/

def confProtected (b : List Word) : Bool := bit (bw b 8) 0
def confFloor (b : List Word) : Nat := bf b 12 0 7
def confHoldMs (b : List Word) : Nat := bf b 16 0 14

/-! Sources (GX_SOURCE_SET, 0x0301). -/

def srcKind (b : List Word) : Nat := bf b 12 0 3
def srcFixedS (b : List Word) : Nat := bf b 12 3 3
def srcNackUp (b : List Word) : Bool := bit (bw b 12) 6
def srcSsrc (b : List Word) : Nat := bw b 16
def srcRtxSsrc (b : List Word) : Nat := bw b 20
def srcAddr (b : List Word) : Nat := bf b 24 0 12
def srcRemote (b : List Word) : Nat × Nat := (bq b 32, bf b 24 16 16)
def srcFeedback (b : List Word) : Nat := bw b 28
def srcSimul (b : List Word) : Nat := bw b 48
def srcClock (b : List Word) : Nat := bf b 52 0 24
def srcExtDd (b : List Word) : Nat := bf b 56 0 8
def srcExtLevel (b : List Word) : Nat := bf b 56 8 8
def srcExtTwo (b : List Word) : Bool := bit (bw b 56) 16
def srcRtxDepth (b : List Word) : Nat := bf b 60 0 12
def srcNackDelay (b : List Word) : Nat := let v := bf b 60 16 8; if v = 0 then 20 else v
def srcRate (b : List Word) : Nat := bw b 64
def srcBurst (b : List Word) : Nat := bf b 68 0 24
/-- Entry d of DT_MAP: spatial, temporal layer, when it is valid. -/
def srcDt (b : List Word) (d : Nat) : Option (Nat × Nat) :=
  let v := bits (bw b (72 + d / 4 * 4)) (8 * (d % 4)) 8
  if bit v 7 then some (v % 8, v / 8 % 8) else none
def srcPliMs (b : List Word) : Nat := let v := bf b 80 0 13; if v = 0 then 500 else v

/-- A source is made inside the device: it is the output source of a rendition or of mixed audio (R90). -/
def srcInternal (b : List Word) : Bool := bit (bw b 88) 0
/-- What an internal source carries: 0 rendition, 1 mixed audio of a leg, 2 events of a leg, 3 master of a group. -/
def srcMake (b : List Word) : Nat := bf b 88 1 3
/-- Rendition, leg or group index of an output source. -/
def srcRend (b : List Word) : Nat := bf b 88 8 24

/-- The source whose edge list a source's packets walk: the base of its simulcast group (R202). -/
def Cfg.baseOf (g : Cfg) (i : Nat) : Nat :=
  let s := srcSimul (g.body tSource i)
  if s = 0 then i else idIndex s

/-- Members of the simulcast group of a base source: the base and those that name it. -/
def Cfg.members (g : Cfg) (base : Nat) : List Nat :=
  (g.indexes tSource).filter (fun i => i == base || (srcSimul (g.body tSource i) != 0 && g.baseOf i == base))

/-- A source belongs to a simulcast group. -/
def Cfg.inSimul (g : Cfg) (i : Nat) : Bool := decide (1 < (g.members (g.baseOf i)).length)

/-! Legs (GX_LEG_SET, 0x0302). -/

def legAddr (b : List Word) : Nat := bf b 12 0 12
def legV6 (b : List Word) : Bool := bit (bw b 12) 12
def legRsize (b : List Word) : Bool := bit (bw b 12) 13
def legRemote (b : List Word) : Nat × Nat := (bq b 16, bf b 12 16 16)
def legReport (b : List Word) : Nat := bw b 32
def legPeriodMs (b : List Word) : Nat := let v := bf b 36 0 13; if v = 0 then 1000 else v
def legCnameLen (b : List Word) : Nat := bf b 36 16 8

/-- Service address of a leg: its card, when it exists. -/
def Cfg.legAddrCard (g : Cfg) (l : Nat) : List Word := (g.addr (legAddr (g.body tLeg l))).getD []
/-- Logical port and pipeline of a leg (R29, R144). -/
def Cfg.legLport (g : Cfg) (l : Nat) : Nat := addrLport (g.legAddrCard l)
def Cfg.legPipe (g : Cfg) (l : Nat) : Nat := addrPipe (g.legAddrCard l)
/-- Pipeline of a source: that of its service address, for an output source the one its rendition names (R368), and for mixed
audio one that the manual does not give (log 59). -/
def Cfg.srcPipe (g : Cfg) (i : Nat) : Nat :=
  let b := g.body tSource i
  if srcInternal b then (if srcMake b = 0 then bf (g.body tRend (srcRend b)) 12 24 2 else Config.outPipe i % 4) else addrPipe ((g.addr (srcAddr b)).getD [])
def legCname (b : List Word) : List Word := (List.range ((legCnameLen b + 3) / 4)).map (fun i => b.getD (10 + i) 0)

/-- Conference key of an object. -/
def Cfg.confOf (g : Cfg) (ty i : Nat) : Nat :=
  match g.at ty i with
  | some o => if ty = tConf then mkKey tConf i else idKey o.parent
  | none => 0

/-! Out-slots (GX_OUTSLOT_SET, 0x0303): card of the leg with the slot number, its configuration at +0x10. -/

def Cfg.slotCard (g : Cfg) (l s : Nat) : List Word := g.card 0x0303 (mkKey tLeg l) s
def osEnable (b : List Word) : Bool := bit (bw b 16) 0
def osKind (b : List Word) : Nat := bf b 16 1 2
def osRank (b : List Word) : Nat := bf b 16 3 3
def osPid (b : List Word) : Bool := bit (bw b 16) 6
def osRtx (b : List Word) : Bool := bit (bw b 16) 7
def osPt (b : List Word) : Nat := bf b 16 8 7
def osRtxPt (b : List Word) : Nat := bf b 16 15 7
def osTimeout (b : List Word) : Nat := let v := bf b 20 0 12; if v = 0 then 300 else v
def osSelect (b : List Word) : Nat := bf b 20 12 19
def osSsrc (b : List Word) : Nat := bw b 24
def osRtxSsrc (b : List Word) : Nat := bw b 28
/-- Enabled out-slots of a leg with their cards. -/
def Cfg.slotsOn (g : Cfg) (l : Nat) : List (Nat × List Word) :=
  ((List.range 16).map (fun s => (s, g.slotCard l s))).filter (fun e => osEnable e.2)
/-- Enabled speaker slots of a leg in rising rank. -/
def Cfg.speakerSlots (g : Cfg) (l : Nat) : List (Nat × List Word) :=
  sortBy (fun a b => decide (osRank a.2 ≤ osRank b.2)) ((g.slotsOn l).filter (fun e => osKind e.2 == 1))

/-- SSRC values in use of a leg, rising (R203). -/
def Cfg.ssrcsInUse (g : Cfg) (l : Nat) : List Nat :=
  (g.slotsOn l).foldl (fun a e => linsert (if osRtx e.2 then linsert a (osRtxSsrc e.2) else a) (osSsrc e.2))
    [legReport (g.body tLeg l)]

/-! Edges (GX_EDGE_SET, 0x0304). -/

def edLeg (b : List Word) : Nat := idIndex (bw b 4)
def edSource (b : List Word) : Nat := idIndex (bw b 8)
def edAudio (b : List Word) : Bool := bit (bw b 16) 0
def edMaxS (b : List Word) : Nat := bf b 16 1 3
def edMaxT (b : List Word) : Nat := bf b 16 4 3
def edSlot (b : List Word) : Nat := bf b 16 8 4
def edWeight (b : List Word) : Nat := bf b 16 12 4
/-- Edge indexes of a source's list, rising. -/
def Cfg.edgesOf (g : Cfg) (source : Nat) : List Nat :=
  (g.indexes tEdge).filter (fun e => edSource (g.body tEdge e) == source)
/-- Edge indexes of a leg, rising. -/
def Cfg.edgesTo (g : Cfg) (leg : Nat) : List Nat := (g.indexes tEdge).filter (fun e => edLeg (g.body tEdge e) == leg)

/-! Renditions (GX_RENDITION_SET, 0x0800). -/

def rendLtrMode (b : List Word) : Bool := bit (bw b 12) 26

/-! Leg shaping and adaptation (GX_LEG_SHAPE_SET, 0x0400): a leg never given the command has every default. -/

def Cfg.shape (g : Cfg) (l : Nat) : List Word := g.card 0x0400 (mkKey tLeg l) 0
/-- A value, or its default where the field is 0. -/
def orDefault (v d : Nat) : Nat := if v = 0 then d else v
def shFixed (b : List Word) : Bool := bit (bw b 8) 0
def shResetFill (b : List Word) : Bool := bit (bw b 8) 1
def shVote (b : List Word) : Bool := bit (bw b 8) 2
def shProbe (b : List Word) : Bool := bit (bw b 8) 3
def shWeight (b : List Word) : Nat := orDefault (bf b 8 8 8) 1
def shRepairPct (b : List Word) : Nat := orDefault (bf b 8 16 6) 20
def shAllocPct (b : List Word) : Nat := orDefault (bf b 8 24 7) 90
/-- Rates in kb/s. -/
def shFixedRate (b : List Word) : Nat := bf b 12 0 24
def shMin (b : List Word) : Nat := if b = [] then 64 else bf b 16 0 24
def shMax (b : List Word) : Nat := if b = [] then 20000 else bf b 20 0 24
def shStart (b : List Word) : Nat := if b = [] then 1000 else bf b 24 0 24
def shBurst (b : List Word) : Nat := orDefault (bf b 28 0 21) 32768
/-- QDELAY of a class in ms. -/
def shQDelay (b : List Word) (cls : Nat) : Nat :=
  match cls with
  | 0 => orDefault (bf b 32 0 13) 100
  | 1 => orDefault (bf b 32 16 13) 1000
  | 2 => orDefault (bf b 36 0 13) 200
  | _ => orDefault (bf b 36 16 13) 500
def shQBytes (b : List Word) : Nat := orDefault (bf b 40 0 13) 256 * 1024
def shLaunchUs (b : List Word) : Nat := bf b 44 0 20
def shQLowMs (b : List Word) : Nat := orDefault (bf b 48 0 8) 10
def shQHighMs (b : List Word) : Nat := orDefault (bf b 48 8 8) 30

/-! RFC 8888 feedback to senders (GX_CCFB_SET, 0x0401). -/

def Cfg.ccfbCard (g : Cfg) (i : Nat) : List Word := g.card 0x0401 (mkKey tSource i) 0
def ccfbEn (b : List Word) : Bool := bit (bw b 8) 0
def ccfbMs (b : List Word) : Nat := orDefault (bf b 8 16 9) 50

/-! ICE credentials (GX_ICE_CRED_SET, 0x0203): a fragment or password as one number of its octets. -/

def Cfg.ice (g : Cfg) (l : Nat) : List Word := g.card 0x0203 (mkKey tLeg l) 0
/-- `n` octets from an offset as one little-endian number. -/
def octets (b : List Word) (off n : Nat) : Nat :=
  ((List.range ((n + 3) / 4)).map (fun i => bw b (off + 4 * i) * 2 ^ (32 * i))).sum % 2 ^ (8 * n)
def iceLocal (b : List Word) : Nat := octets b 0x10 (bf b 8 0 8)
def iceRemote (b : List Word) : Nat := octets b 0x30 (bf b 8 8 8)
def icePwd (b : List Word) : Nat := octets b 0x50 (bf b 8 16 8)

/-! Keys (GX_KEY_INSTALL, 0x0210): sub-index 0 send, 1 receive CURRENT, 2 receive NEXT, 3 RX_OVERLAP. The key rests wrapped at
0x40 (R191), and the word pair at 120 is the install stamp that the commit adds. -/

def Cfg.key (g : Cfg) (obj sub : Nat) : List Word := g.card 0x0210 obj sub
def keyClear (b : List Word) : Bool := bit (bw b 4) 3
def keySuite (b : List Word) : Nat := bf b 4 4 4
def keyMkiLen (b : List Word) : Nat := bf b 4 8 3
def keyMki (b : List Word) : Nat := if keyMkiLen b = 0 then 0 else bw b 8 % 2 ^ (8 * keyMkiLen b)
def keyReplay (b : List Word) : Nat := let v := bf b 4 12 4; if v = 0 then 7 else v
def keyLimit (b : List Word) (rtcp : Bool) : Nat :=
  let v := if rtcp then bw b 0x24 else bd b 0x18
  if v = 0 then (if rtcp then 2 ^ 31 else 2 ^ 48) else v
def keyWarn (b : List Word) (rtcp : Bool) : Nat :=
  let v := if rtcp then bf b 0x20 0 31 else bd b 0x10 % 2 ^ 48
  if v = 0 then keyLimit b rtcp * 7 / 8 else v
def keyInitial (b : List Word) : Nat := bd b 0x28 % 2 ^ 48
def keyInitialRtcp (b : List Word) : Nat := bf b 0x30 0 31
def keyStamp (b : List Word) : Nat := bd b 120
def Cfg.overlapMs (g : Cfg) (obj : Nat) : Nat := match g.key obj 3 with | [] => 2000 | b => bw b 0

/-! Audio (GX_MIX_GROUP_SET 0x0500, GX_AUDIO_LEG_SET 0x0501, GX_MIX_CONTRIB_SET 0x0502, GX_DETECTOR_SET 0x0503). The words at
28 of a group, and at 44 and 48 of a leg's card, are the identifiers of the sources that the commit made. -/

def mgTopK (b : List Word) : Nat := orDefault (bf b 12 0 6) 8
def mgBiasDb (b : List Word) : Nat := bf b 12 8 4
def mgFloor (b : List Word) : Nat := orDefault (bf b 12 16 7) 70
def mgXfade (b : List Word) : Nat := if bit (bw b 12) 31 then bf b 16 0 10 else 240
def mgMaster (b : List Word) : Bool := bit (bw b 20) 0
def mgMasterSource (b : List Word) : Nat := bw b 28

def Cfg.audio (g : Cfg) (l : Nat) : List Word := g.card 0x0501 (mkKey tLeg l) 0
def auIn (b : List Word) : Bool := bit (bw b 8) 1
def auOut (b : List Word) : Bool := bit (bw b 8) 2
def auDtmfMode (b : List Word) : Bool := bit (bw b 8) 3
def auSuppress (b : List Word) : Bool := bit (bw b 8) 4
def auFec (b : List Word) : Bool := bit (bw b 8) 5
def auProfile (b : List Word) : Nat := bf b 8 8 6
def auSource (b : List Word) : Nat := idIndex (bw b 12)
def auInCodec (b : List Word) : Nat := bf b 16 0 3
def auDecRate (b : List Word) : Nat := bf b 16 4 3
def auInPt (b : List Word) : Nat := bf b 16 8 7
def auInDtmfPt (b : List Word) : Nat := bf b 16 16 7
def auJbMin (b : List Word) : Nat := orDefault (bf b 20 0 8) 20
def auJbMax (b : List Word) : Nat := orDefault (bf b 20 16 10) 200
def auGroup (b : List Word) : Nat := idIndex (bw b 24)
def auDtmfPt (b : List Word) : Nat := bf b 28 16 7
def auGain (b : List Word) : Nat := bf b 36 0 16
def auHold (b : List Word) : Nat := bf b 40 0 10
def auDecay (b : List Word) : Nat := orDefault (bf b 40 16 8) 51
def auOutSource (b : List Word) : Nat := bw b 44
def auEventSource (b : List Word) : Nat := bw b 48

/-- Settings of an audio encoder: codec, rate code, frame in ms, ID of the level extension, Opus kb/s, DTX, low-delay mode and in-band forward
error correction (R281). -/
structure EncSet where
  codec : Nat
  rate : Nat
  ms : Nat
  ext : Nat
  kbps : Nat
  dtx : Bool
  low : Bool
  fec : Bool
  deriving DecidableEq, Repr

/-- What a coder works under: codec, and for Opus its kb/s, forward error correction and low-delay mode. -/
def EncSet.coder (e : EncSet) : List Nat := if e.codec = 0 then [0, e.kbps, b2n e.fec, b2n e.low] else [e.codec]

def auEnc (b : List Word) : EncSet :=
  { codec := bf b 28 0 3, rate := bf b 28 4 3, ms := bf b 28 8 8, ext := bf b 28 24 4, kbps := orDefault (bf b 32 0 9) 32,
    dtx := bit (bw b 8) 6, low := bit (bw b 8) 7, fec := auFec b }
def mgEnc (b : List Word) : EncSet :=
  { codec := bf b 20 4 3, rate := bf b 20 8 3, ms := bf b 20 16 8, ext := bf b 20 24 4, kbps := orDefault (bf b 24 0 9) 32,
    dtx := false, low := false, fec := false }

/-- Legs that contribute to a group, with their cards, rising. -/
def Cfg.contribs (g : Cfg) (grp : Nat) : List (Nat × List Word) :=
  (g.cardsOf 0x0502).filterMap (fun e => if e.1 = mkKey tGroup grp then some (e.2.1, e.2.2) else none)
/-- Groups to which a leg contributes. -/
def Cfg.groupsOf (g : Cfg) (l : Nat) : List Nat :=
  (g.cardsOf 0x0502).filterMap (fun e => if e.2.1 = l then some (keyIndex e.1) else none)
def mcAlways (b : List Word) : Bool := bit (bw b 12) 1
def mcGain (b : List Word) : Nat := bf b 12 16 16
/-- Legs that listen to a group, rising. -/
def Cfg.listeners (g : Cfg) (grp : Nat) : List Nat :=
  (g.indexes tLeg).filter (fun l => auOut (g.audio l) && auGroup (g.audio l) == grp)
/-- Legs with an audio input, and the one that decodes a source. -/
def Cfg.audioIns (g : Cfg) : List Nat := (g.indexes tLeg).filter (fun l => auIn (g.audio l))
def Cfg.audioOuts (g : Cfg) : List Nat := (g.indexes tLeg).filter (fun l => auOut (g.audio l))
def Cfg.audioOf (g : Cfg) (source : Nat) : Option Nat := g.audioIns.find? (fun l => auSource (g.audio l) == source)
def Cfg.masters (g : Cfg) : List Nat := (g.indexes tGroup).filter (fun i => mgMaster (g.body tGroup i))

def Cfg.detCard (g : Cfg) (l : Nat) : List Word := g.card 0x0503 (mkKey tLeg l) 0

/-! Decode contexts (GX_DECODE_SET, 0x0600): the word at 24 is the context index that staging reserved. -/

def Cfg.decode (g : Cfg) (i : Nat) : List Word := g.card 0x0600 (mkKey tSource i) 0
def Cfg.hasDecode (g : Cfg) (i : Nat) : Bool := g.hasCard 0x0600 (mkKey tSource i) 0
def dc10 (b : List Word) : Bool := bit (bw b 8) 1
def dcReduced (b : List Word) : Nat := bf b 8 2 2
def dcMaxS (b : List Word) : Nat := bf b 8 4 3
def dcMaxT (b : List Word) : Nat := bf b 8 8 3
def dcExtra (b : List Word) : Nat := orDefault (bf b 8 17 3) 2
def dcW (b : List Word) : Nat := bf b 12 0 16
def dcH (b : List Word) : Nat := bf b 12 16 16
def dcFps (b : List Word) : Nat := bf b 16 0 8
def dcAssemblyMs (b : List Word) : Nat := orDefault (bf b 20 0 10) 60
def dcPliMs (b : List Word) : Nat := orDefault (bf b 20 16 13) 1000
def dcContext (b : List Word) : Nat := bw b 24
/-- DPB_BUFFERS, with the default of the source's codec (R320). -/
def dcDpb (b : List Word) (kind : Nat) : Nat := orDefault (bf b 8 12 5) (if kind = 1 then 8 else if kind = 2 then 3 else 6)
/-- A size rounded up to a multiple of 16. -/
def up16 (n : Nat) : Nat := (n + 15) / 16 * 16
/-- Stride of a width, and bytes of a buffer with motion data (R319). -/
def strideOf (w : Nat) (ten : Bool) : Nat := (up16 w * (if ten then 2 else 1) + 63) / 64 * 64
def pictureBytes (w h : Nat) (ten : Bool) : Nat := strideOf w ten * up16 h * 3 / 2 + up16 w * up16 h / 16
/-- Bytes of a reduced copy: no motion data (R323, R324). -/
def reducedSize (n mode : Nat) : Nat := let d := if mode = 1 then 2 else 4; let m := (n + d - 1) / d; m + m % 2
def reducedBytes (w h mode : Nat) (ten : Bool) : Nat :=
  strideOf (reducedSize w mode) ten * up16 (reducedSize h mode) * 3 / 2

/-! Canvases (GX_CANVAS_SET, 0x0700). -/

def cvW (b : List Word) : Nat := bf b 12 0 16
def cvH (b : List Word) : Nat := bf b 12 16 16
def cvFps (b : List Word) : Nat := bf b 16 0 8
def cv10 (b : List Word) : Bool := bit (bw b 16) 8
def cvFull (b : List Word) : Bool := bit (bw b 16) 9
def cvOrdered (b : List Word) : Bool := bit (bw b 16) 10
def cvMatrix (b : List Word) : Nat := bf b 16 16 8
def cvPhase (b : List Word) : Nat := bf b 20 0 20
def cvOutBufs (b : List Word) : Nat := orDefault (bf b 28 0 4) 3
def cvStale (b : List Word) : Nat := orDefault (bf b 28 4 12) 30
def cvReadyMs (b : List Word) : Nat := orDefault (bf b 28 16 10) 100
def cvCtRows (b : List Word) : Nat := orDefault (bf b 32 0 12) 64
/-- D_n of a canvas frame in service ns (R336). -/
def cvDeadline (b : List Word) (n : Nat) : Nat := n * 1000000000 / cvFps b + cvPhase b * 1000

/-! Renditions (GX_RENDITION_SET, 0x0800). -/

def rdCodec (b : List Word) : Nat := bf b 12 0 3
def rdProfile (b : List Word) : Nat := bf b 12 3 2
def rd10 (b : List Word) : Bool := bit (bw b 12) 5
def rdPreset (b : List Word) : Nat := bf b 12 6 2
def rdS (b : List Word) : Nat := bf b 12 8 2
def rdT (b : List Word) : Nat := bf b 12 10 2
def rdPartsAsked (b : List Word) : Nat := bf b 12 12 4
def rdWave (b : List Word) : Bool := bit (bw b 12) 16
def rdRotate (b : List Word) : Nat := bf b 12 17 2
def rdMirror (b : List Word) : Bool := bit (bw b 12) 19
def rdDiv (b : List Word) : Nat := orDefault (bf b 12 20 4) 1
def rdPipe (b : List Word) : Nat := bf b 12 24 2
def rdVoted (b : List Word) : Bool := bit (bw b 12) 27
def rdInX (b : List Word) : Nat := bf b 16 0 16
def rdInY (b : List Word) : Nat := bf b 16 16 16
def rdInW (b cv : List Word) : Nat := orDefault (bf b 20 0 16) (cvW cv)
def rdInH (b cv : List Word) : Nat := orDefault (bf b 20 16 16) (cvH cv)
def rdOutW (b : List Word) : Nat := bf b 24 0 16
def rdOutH (b : List Word) : Nat := bf b 24 16 16
def rdPctile (b : List Word) : Nat := orDefault (bf b 28 0 7) 50
def rdRowStep (b : List Word) : Nat := orDefault (bf b 28 8 3) 2
def rdCapPct (b : List Word) : Nat := orDefault (bf b 28 16 9) 150
def rdTarget (b : List Word) : Nat := bf b 32 0 24
def rdMin (b : List Word) : Nat := bf b 36 0 24
def rdMax (b : List Word) : Nat := bf b 40 0 24
def rdQpMin (b : List Word) : Nat := bf b 44 0 6
def rdQpMax (b : List Word) : Nat := orDefault (bf b 44 8 6) 51
def rdKeyWeight (b : List Word) : Nat := orDefault (bf b 44 16 4) 4
def rdKeyEvery (b : List Word) : Nat := bf b 48 0 16
def rdSpatial (b : List Word) : Nat := bf b 48 16 8
def rdRefs (b : List Word) : Nat := orDefault (bf b 48 24 3) 1
def rdLtrSlots (b : List Word) : Nat := orDefault (bf b 48 28 2) 2
def rdLtrEvery (b : List Word) : Nat := orDefault (bf b 52 0 8) 30
def rdAckMs (b : List Word) : Nat := orDefault (bf b 52 8 12) 1000
def rdSpread (b : List Word) : Nat := bf b 52 24 7
def rdMaxPayload (b : List Word) : Nat := orDefault (bf b 56 0 14) 1100
def rdExtDd (b : List Word) : Nat := bf b 56 16 8
def rdTwoByte (b : List Word) : Bool := bit (bw b 56) 24
def rdLeader (b : List Word) : Nat := bw b 60
/-- Luma rows of a coding-block row (R380). -/
def rdBlock (b : List Word) : Nat := if rdCodec b = 2 ∨ rdCodec b = 3 then 16 else 64
/-- Size of spatial layer s (R372). -/
def layerDim (n s top : Nat) : Nat := let d := 2 ^ (top - s); let m := (n + d - 1) / d; m + m % 2
def rdLayers (b : List Word) : List (Nat × Nat) :=
  (List.range (rdS b)).map (fun s => (layerDim (rdOutW b) s (rdS b - 1), layerDim (rdOutH b) s (rdS b - 1)))
/-- C of R369 with P parts, on a canvas of a frame rate. -/
def rdCharge (b : List Word) (fps p : Nat) : Nat :=
  let a := ((rdLayers b).map (fun e => up16 e.1 * up16 e.2)).sum
  let f := (if rdPreset b = 1 then 6 else if rdPreset b = 2 then 16 else 10) * (if rdLeader b = 0 then 10 else 6)
  let den := rdDiv b * 100 * 1000000
  ((a + 8192 * p) * fps * f + den - 1) / den
/-- P: PARTS, or the smallest number of parts with C ÷ P at most 200 (R380); 9 where 8 do not suffice. -/
def rdParts (b : List Word) (fps : Nat) : Nat :=
  if rdPartsAsked b ≠ 0 then rdPartsAsked b
  else (((List.range 8).map (· + 1)).find? (fun p => decide (rdCharge b fps p ≤ 200 * p))).getD 9

/-- Canvas index of a rendition, and the canvas's settings. -/
def Cfg.rendCanvas (g : Cfg) (i : Nat) : Nat := match g.at tRend i with | some o => idIndex o.parent | none => 0
def Cfg.rendCv (g : Cfg) (i : Nat) : List Word := g.body tCanvas (g.rendCanvas i)
/-- Renditions of a canvas, rising. -/
def Cfg.rendsOf (g : Cfg) (canvas : Nat) : List Nat := (g.indexes tRend).filter (fun i => g.rendCanvas i == canvas)
/-- Output source of a rendition: its index. -/
def Cfg.rendSource (g : Cfg) (i : Nat) : Option Nat :=
  (g.indexes tSource).find? (fun k => let b := g.body tSource k; srcInternal b && srcMake b == 0 && srcRend b == i)

end Sys2Proof.Machine
end

