-- ==== Sys2Proof/Machine/Pools.lean ====
section
/-!
DEFINITION. Buffer pools (R458 to R473): layout, handles, the grant rule, watermarks, references and hand-over, and the
commands that lay the pools out and report them.
-/
namespace Sys2Proof.Machine
open Sys2Proof

/-! Layout (R458, R459). Packet memory stands behind the DRAM addresses, at `packetBase` (log 20). -/

/-- Base of on-chip packet memory in the model's address space. -/
def packetBase : Nat := 2 ^ 44

/-- Buffer size of a pool (R458). -/
def poolBytes (p : Nat) : Nat :=
  match p with
  | 0 => 256 | 1 => 2048 | 2 => 2048 | 3 => 16384 | 4 => 131072 | 5 => 1048576 | 6 => 8388608 | _ => 33554432

def mib : Nat := 1048576

/-- Bytes of the tables of R191, R198, R236 and R433 and of firmware, ahead of the window region (R459). -/
def fixedBytes : Nat := (128 + 64 + 512 + 1024 + 1024 + 16 + 512) * mib

def capBytes (c : Chip) : Nat := c.dram.capGib * (1024 * mib)

/-- Default shares of the pool region in per cent, P2 to P7 (R458). -/
def defaultShares : List Nat := [25, 5, 5, 15, 30, 20]

def poolRegion (c : Chip) : Nat := capBytes c - fixedBytes - c.pools.windowBytes

/-- Buffers of a pool under the layout (R458, R459). -/
def layoutCount (c : Chip) (p : Nat) : Nat :=
  if p = 0 then 32768 else if p = 1 then 20480
  else min (c.pools.shares.getD (p - 2) 0 * poolRegion c / 100 / poolBytes p) 16777216

/-- First address of a pool. -/
def poolBase (c : Chip) (p : Nat) : Nat :=
  if p = 0 then packetBase else if p = 1 then packetBase + 32768 * 256
  else fixedBytes + c.pools.windowBytes +
    ((List.range (p - 2)).map (fun i => layoutCount c (i + 2) * poolBytes (i + 2))).sum

/-- Lay the pools out: counts, default thresholds, no buffer allocated (R459, R466, R487). -/
def layOutPools (windowBytes : Nat) (shares : List Nat) (c : Chip) : Chip :=
  let c1 := { c with pools := { c.pools with windowBytes := windowBytes, shares := shares } }
  { c1 with pools := { c1.pools with pools := (List.range 8).map (fun p => (p, Pool.ofCount (layoutCount c1 p))) } }

/-! Handles (R460). -/

def handleIndex (h : Nat) : Nat := h % 2 ^ 24
def handleGen (h : Nat) : Nat := h / 2 ^ 24 % 32
def handlePool (h : Nat) : Nat := h / 2 ^ 29 % 8
def mkHandle (p gen idx : Nat) : Nat := p * 2 ^ 29 + gen * 2 ^ 24 + idx

/-- Requester identity of a function and kind (R463): 0 host, 1 forwarder, 2 decoder, 3 compositor, 4 encoder, 5 engine,
6 audio, 7 DMA. -/
def identity (fn kind : Nat) : Nat := 16 * fn + kind

/-! A pool's accounts. -/

def getPool (c : Chip) (p : Nat) : Pool := tget (Pool.ofCount 0) c.pools.pools p

def modPool (p : Nat) (f : Pool → Pool) (c : Chip) : Chip :=
  { c with pools := { c.pools with pools := tmod (Pool.ofCount 0) c.pools.pools p f } }

def useKey (ident p : Nat) : Nat := ident * 8 + p

def getUse (c : Chip) (ident p : Nat) : Use := tget Use.zero c.pools.uses (useKey ident p)

def modUse (ident p : Nat) (f : Use → Use) (c : Chip) : Chip :=
  { c with pools := { c.pools with uses := tmod Use.zero c.pools.uses (useKey ident p) f } }

/-- r_i (R464). -/
def Use.r (x : Use) : Nat := x.reserve + x.objReserve

/-- m_i: the explicit limit, or the pool's buffer count (R464). -/
def Use.m (x : Use) (count : Nat) : Nat := if x.limit = 0 then count else x.limit

/-- F (R465). -/
def Pool.free (x : Pool) : Nat := x.count - x.used - x.lost

/-- RU (R465). -/
def unusedReserve (c : Chip) (p : Nat) : Nat :=
  ((c.pools.uses.filter (fun e => e.1 % 8 == p)).map (fun e => e.2.r - e.2.u)).sum

/-- S, which may be negative (R465). -/
def sharedFree (c : Chip) (p : Nat) : Int := ((getPool c p).free : Int) - unusedReserve c p

/-- The state that a value of S puts a pool in that was in state `x.st` (R466; log 21). -/
def Pool.stateAt (x : Pool) (s : Int) : Nat :=
  let inside := fun k wm => if k ≤ x.st then decide (s ≤ (wm : Int) + x.hyst) else decide (s ≤ (wm : Int))
  if inside 3 x.wmCritical then 3 else if inside 2 x.wmWarning then 2 else if inside 1 x.wmCaution then 1 else 0

/-- Pool of the output buffers of a canvas: the smallest of P5, P6 and P7 that holds one (R335). -/
def canvasPool (b : List Word) : Nat :=
  (([5, 6, 7] : List Nat).find? (fun p => decide (strideOf (cvW b) (cv10 b) * up16 (cvH b) * 3 / 2 ≤ poolBytes p))).getD 7

/-- A pool that holds buffers of a canvas is at WARNING or above (R364). -/
def canvasShort (c : Chip) (cv : Nat) (r : CanvasRun) : Bool :=
  (canvasPool ((cfg c).body tCanvas cv) :: r.bufs.map (fun b => handlePool b.2)).any (fun p => decide (2 ≤ (getPool c p).st))

/-- A host frame ring pauses while any pool that holds its canvas's buffers is at WARNING or above; `st` is the state that a pool has
reached (R364). -/
def ringPauses (st : Nat) (c : Chip) : Chip :=
  let g := cfg c
  (c.vid.canvases.filter (fun e => e.2.ring.entries != 0 && e.2.ringPaused != canvasShort c e.1 e.2)).foldl (fun x e =>
    raise 23 0x705 (g.owner tCanvas e.1) (g.idAt tCanvas e.1) (b2n (canvasShort c e.1 e.2) + 2 * st)
      { x with vid := { x.vid with canvases := tmod CanvasRun.zero x.vid.canvases e.1 (fun r => { r with ringPaused := canvasShort c e.1 e.2 }) } }) c

/-- Each change of a pool's state raises POOL_WATERMARK (R466). -/
def watermark (p : Nat) (c : Chip) : Chip :=
  let x := getPool c p
  let s := sharedFree c p
  let st := x.stateAt s
  if st = x.st then c
  else ringPauses st (raise 23 0xA01 none p (st + 2 ^ 32 * unsigned 32 s) (modPool p (fun x => { x with st := st }) c))

def poolSticky (p i : Nat) (c : Chip) : Chip :=
  modPool p (fun x => { x with events := x.events ||| BitVec.ofNat 4 (2 ^ i) }) c

/-- Count a result of an identity (GX_POOL_COUNTERS): EMPTY, LIMIT, DOUBLE_FREE, NOT_OWNER. -/
def countResult (ident p result : Nat) (c : Chip) : Chip :=
  if 1 ≤ result ∧ result ≤ 4 then bump 0x0A04 (useKey ident p) (result - 1) 1 c else c

/-! Allocation (R461, R465). -/

/-- The answer of the grant rule: 0 grant, 1 EMPTY, 2 LIMIT. -/
def grantRule (c : Chip) (ident p : Nat) : Nat :=
  let x := getPool c p
  let u := getUse c ident p
  if u.m x.count ≤ u.u then 2
  else if u.u < u.r ∧ 0 < x.free then 0
  else if x.st < 3 ∧ 0 < sharedFree c p ∧ 0 < x.free then 0
  else 1

/-- The n-th buffer index that is neither allocated nor lost, counted from index `i` on. -/
def nthFree : Tbl Buf → Nat → Nat → Nat
  | [], i, n => i + n
  | (k, b) :: t, i, n =>
    if n < k - i then i + n
    else if b.used || b.lost then nthFree t (k + 1) (n - (k - i))
    else if n = k - i then k else nthFree t (k + 1) (n - (k - i) - 1)

/-- GEN of the next allocation of a buffer: 1 to 31, stepping from 31 to 1 (R460). -/
def nextBufGen (g : Nat) : Nat := if g = 31 then 1 else g + 1

/-- Take a buffer of a pool for an identity, once granted. Which free buffer it is, the spec leaves open (log 22). -/
def takeBuffer (ident p : Nat) (c : Chip) : Nat × Chip :=
  let x := getPool c p
  let d := draw c
  let idx := nthFree x.bufs 0 (d.1 % (if x.free = 0 then 1 else x.free))
  let g := nextBufGen (tget Buf.zero x.bufs idx).gen
  let b : Buf := { owner := ident, refs := 1, gen := g, used := true, lost := false }
  let c1 := modPool p (fun x => { x with bufs := tput x.bufs idx b, used := x.used + 1 }) d.2
  (mkHandle p g idx, watermark p (modUse ident p (fun u => { u with u := u.u + 1 }) c1))

/-- An allocation of one pool: result, handle and the chip after it. -/
def allocIn (ident p : Nat) (c : Chip) : Nat × Nat × Chip :=
  let g := grantRule c ident p
  if g = 0 then (0, takeBuffer ident p c) else (g, 0, countResult ident p g c)

/-- The smallest pool of a list that holds a size. -/
def fitPool (l : List Nat) (size : Nat) : Option Nat := l.find? (fun p => decide (size ≤ poolBytes p))

/-- The allocation of a size and memory class (R461). -/
def alloc (ident size cls : Nat) (c : Chip) : Nat × Nat × Chip :=
  let inPools := fun (l : List Nat) (big : Nat) =>
    match fitPool l size with
    | some p => allocIn ident p c
    | none => (1, 0, countResult ident big 1 c)
  match cls with
  | 0 => inPools [0, 1] 1
  | 1 =>
    match fitPool [0, 1] size with
    | some p => if (getPool c p).st = 0 ∧ grantRule c ident p = 0 then allocIn ident p c else inPools [2, 3] 3
    | none => inPools [2, 3] 3
  | 2 => inPools [2, 3] 3
  | _ => inPools [2, 3, 4, 5, 6, 7] 7

/-- Keep the answer of the grant point. -/
def answered (result handle : Nat) (c : Chip) : Chip := { c with pools := { c.pools with answer := (result, handle) } }

/-! References (R468 to R473). -/

def getBuf (c : Chip) (h : Nat) : Buf := tget Buf.zero (getPool c (handlePool h)).bufs (handleIndex h)

def modBuf (h : Nat) (f : Buf → Buf) (c : Chip) : Chip :=
  modPool (handlePool h) (fun x => { x with bufs := tmod Buf.zero x.bufs (handleIndex h) f }) c

/-- The handle names an allocated buffer of its generation. -/
def current (c : Chip) (h : Nat) : Bool :=
  let b := getBuf c h
  decide (handleIndex h < (getPool c (handlePool h)).count) && b.used && !b.lost && b.gen == handleGen h

/-- An operation that carries a stale handle or names another's buffer (R469). -/
def refuseHandle (ident h : Nat) (c : Chip) : Nat × Chip :=
  let p := handlePool h
  if current c h then
    (4, raiseRated 23 0xA03 none ident (fun _ => h + 2 ^ 32 * (getBuf c h).owner) 1 (poolSticky p 1 (countResult ident p 4 c)))
  else
    (3, raiseRated 23 0xA02 none ident (fun n => h + 2 ^ 32 * n) 1 (poolSticky p 0 (countResult ident p 3 c)))

/-- Charge a buffer back when it returns to its pool. -/
def returnBuffer (h : Nat) (c : Chip) : Chip :=
  let p := handlePool h
  let b := getBuf c h
  watermark p (modUse b.owner p (fun u => { u with u := u.u - 1 })
    (modPool p (fun x => { x with used := x.used - 1 }) (modBuf h (fun b => { b with refs := 0, used := false }) c)))

/-- The buffer's state word has an uncorrectable error: it is out of use until device warm reset (R473). -/
def loseBuffer (h : Nat) (c : Chip) : Chip :=
  let p := handlePool h
  let b := getBuf c h
  if handleIndex h < (getPool c p).count ∧ !b.lost then
    let c1 := if b.used then modUse b.owner p (fun u => { u with u := u.u - 1 }) (modPool p (fun x => { x with used := x.used - 1 }) c) else c
    raise 23 0xA04 none p (handleIndex h)
      (watermark p (poolSticky p 2 (modPool p (fun x => { x with lost := x.lost + 1 })
        (modBuf h (fun b => { b with refs := 0, used := false, lost := true }) c1))))
  else c

/-- RETAIN (R468, R469). -/
def retain (ident h : Nat) (c : Chip) : Nat × Chip :=
  if !(current c h && (getBuf c h).owner == ident) then refuseHandle ident h c
  else if 1048575 ≤ (getBuf c h).refs then (5, c)
  else (0, modBuf h (fun b => { b with refs := b.refs + 1 }) c)

/-- FREE (R468, R469). -/
def release (ident h : Nat) (c : Chip) : Nat × Chip :=
  if !(current c h && (getBuf c h).owner == ident) then refuseHandle ident h c
  else if (getBuf c h).refs ≤ 1 then (0, returnBuffer h c)
  else (0, modBuf h (fun b => { b with refs := b.refs - 1 }) c)

/-- A block of the device frees its own reference; handle 0 names no buffer. -/
def drop (h : Nat) (c : Chip) : Chip := if h ≠ 0 ∧ current c h then (release (getBuf c h).owner h c).2 else c

/-- A block of the device takes one more reference. -/
def keep (h : Nat) (c : Chip) : Chip := if h ≠ 0 ∧ current c h then (retain (getBuf c h).owner h c).2 else c

/-- HANDOVER (R470). -/
def handover (ident h dest : Nat) (c : Chip) : Nat × Chip :=
  let p := handlePool h
  if !(current c h && (getBuf c h).owner == ident) then refuseHandle ident h c
  else
    let g := grantRule c dest p
    if g ≠ 0 then (g, countResult dest p g c)
    else
      (0, watermark p (modUse dest p (fun u => { u with u := u.u + 1 }) (modUse ident p (fun u => { u with u := u.u - 1 })
        (modBuf h (fun b => { b with owner := dest }) c))))

/-! The rows. `ue` says that the check of the buffer's state word found an uncorrectable error. -/

/-- `BUFFER_ALLOC` (R465). -/
def execBufferAlloc (ident size cls : Nat) (s : State) : Host.Outcome State Fault Refusal :=
  act s (fun c => let r := alloc ident size cls c; answered r.1 r.2.1 r.2.2)

/-- `BUFFER_RETAIN` (R468). -/
def execBufferRetain (ident handle : Nat) (ue : Bool) (s : State) : Host.Outcome State Fault Refusal :=
  act s (fun c => let r := retain ident handle (if ue then loseBuffer handle c else c); answered r.1 handle r.2)

/-- `BUFFER_FREE` (R468). -/
def execBufferFree (ident handle : Nat) (ue : Bool) (s : State) : Host.Outcome State Fault Refusal :=
  act s (fun c => let r := release ident handle (if ue then loseBuffer handle c else c); answered r.1 handle r.2)

/-- `BUFFER_HANDOVER` (R470). -/
def execBufferHandover (ident handle dest : Nat) (ue : Bool) (s : State) : Host.Outcome State Fault Refusal :=
  act s (fun c => let r := handover ident handle dest (if ue then loseBuffer handle c else c); answered r.1 handle r.2)

/-! Commands. -/

/-- Shares named by a GX_POOL_LAYOUT body. -/
def layoutShares (b : List Word) : List Nat := (List.range 6).map (fun i => bits (bw b (4 + i / 4 * 4)) (8 * (i % 4)) 8)

def poolLayoutFields (b : List Word) : Option Nat := firstBad [((layoutShares b).sum != 100, 4)]

/-- A pool of which no buffer is allocated gets a new count, with the thresholds that follow from it. Generations go on, and a buffer
whose state word was lost stays out of use until device warm reset (R460, R466, R473; log 221). -/
def Pool.relaid (n : Nat) (x : Pool) : Pool :=
  let bufs := x.bufs.filter (fun e => decide (e.1 < n))
  { Pool.ofCount n with bufs := bufs, lost := (bufs.filter (fun e => e.2.lost)).length, st := x.st, events := x.events }

/-- The command of R459: refused while a buffer of P2 to P7 is allocated or a window page is mapped. -/
def poolLayout (x : Ctx) (c : Chip) : Chip :=
  if (List.range 6).any (fun i => decide (0 < (getPool c (i + 2)).used)) || !c.pools.pages.isEmpty then
    x.done (Res.err 0x0A07) c
  else
    let w := bf x.body 0 0 10 * (1024 * mib)
    if capBytes c < fixedBytes + w then x.done (Res.field 0) c
    else
      let c1 := { c with pools := { c.pools with windowBytes := w, shares := layoutShares x.body } }
      let ps := (List.range 8).map (fun p => (p, if p < 2 then getPool c p else (getPool c p).relaid (layoutCount c1 p)))
      let c2 := (List.range 6).foldl (fun c p => watermark (p + 2) c) { c1 with pools := { c1.pools with pools := ps } }
      x.done (Res.ok ((List.range 6).map (fun i => wd (layoutCount c1 (i + 2))))) c2

def execGxPoolLayout (cmd : CmdRef) (s : State) : Host.Outcome State Fault Refusal :=
  act s (serve 0x0A00 cmd poolLayoutFields poolLayout)

/-- One block of GX_POOL_COUNTERS: 32 bytes. -/
def poolBlock (c : Chip) (ident p : Nat) : List Word :=
  let u := getUse c ident p
  let n := fun j => ctr c 0x0A04 (useKey ident p) j
  let flag := fun j => b2n (decide (0xFFFFFFFF < n j)) * 2 ^ j + b2n (c.ctrs.sat.contains (ctrKey 0x0A04 (useKey ident p) j)) * 2 ^ (4 + j)
  [wd u.u, wd u.r, wd (u.m (getPool c p).count)] ++ (List.range 4).map (fun j => wd (min (n j) 0xFFFFFFFF)) ++
    [wd ((List.range 4).map flag).sum]

def poolCounters (x : Ctx) (c : Chip) : Chip :=
  let i := bf x.body 0 0 12
  if ¬ x.operator ∧ i / 16 ≠ x.fn then x.done (Res.err 0x0004) c
  else
    let r := Res.ok ((List.range 8).flatMap (poolBlock c i))
    x.done r (if bit (bw x.body 4) 0 then (List.range 8).foldl (fun c p => ctrClear 0x0A04 (useKey i p) 4 c) c else c)

def execGxPoolCounters (cmd : CmdRef) (s : State) : Host.Outcome State Fault Refusal :=
  act s (serve 0x0A04 cmd noFields poolCounters)

end Sys2Proof.Machine
end

