-- ==== Sys2Proof/Machine/Legs.lean ====
section
/-!
DEFINITION. Legs and logical ports at egress: access to their state, their counters, and the emptying of queues
(R247, R249, R255).
-/
namespace Sys2Proof.Machine
open Sys2Proof

def modEg (f : Egress → Egress) (c : Chip) : Chip := { c with eg := f c.eg }

def getLeg (c : Chip) (l : Nat) : LegRun := tget LegRun.zero c.eg.legs l

def modLeg (l : Nat) (f : LegRun → LegRun) : Chip → Chip := modEg (fun e => { e with legs := tmod LegRun.zero e.legs l f })

def getEgPort (c : Chip) (lp : Nat) : EgPort := tget EgPort.zero c.eg.ports lp

def modEgPort (lp : Nat) (f : EgPort → EgPort) : Chip → Chip := modEg (fun e => { e with ports := tmod EgPort.zero e.ports lp f })

/-- Count an event at both scopes of GX_EGRESS_COUNTERS. -/
def countEg (lp l pos n : Nat) (c : Chip) : Chip := bump 0x0403 (scope2 l) pos n (bump 0x0403 lp pos n c)

def EgPort.compat (p : EgPort) : Bool := p.ctrl.getLsbD 0
def EgPort.gateEn (p : EgPort) : Bool := p.ctrl.getLsbD 16
def EgPort.launchEn (p : EgPort) : Bool := p.ctrl.getLsbD 17

/-- Counted length of a frame (R255). -/
def EgPort.counted (p : EgPort) (bytes : Nat) : Nat := if p.compat then bytes + bits p.ctrl.toNat 8 6 else bytes

/-! Queues. -/

def LegRun.queue (r : LegRun) (cls : Nat) : List EgPkt :=
  match cls with | 0 => r.q0 | 1 => r.q1 | 2 => r.q2 | _ => r.q3

def LegRun.putQueue (r : LegRun) (cls : Nat) (q : List EgPkt) : LegRun :=
  match cls with | 0 => { r with q0 := q } | 1 => { r with q1 := q } | 2 => { r with q2 := q } | _ => { r with q3 := q }

def LegRun.queued (r : LegRun) : List EgPkt := r.q0 ++ r.q1 ++ r.q2 ++ r.q3

def bytesIn (q : List EgPkt) : Nat := (q.map (·.bytes)).sum

/-- Drop packets: each frees its buffer. -/
def dropPkts (q : List EgPkt) (c : Chip) : Chip := q.foldl (fun c k => drop k.buf c) c

/-- The configuration that serves a leg's queues: the current one, or the draining one while only that holds the leg (R650). -/
def legCfg (c : Chip) (l : Nat) : Cfg := if (cfg c).has tLeg l then cfg c else cfgAt c c.gx.draining

/-- Legs of a logical port with something queued, in rising order. -/
def portLegs (c : Chip) (lp : Nat) : List Nat :=
  (c.eg.legs.filter (fun e => !e.2.queued.isEmpty && (legCfg c e.1).legLport e.1 == lp)).map Prod.fst

/-- Empty a leg's queues, counting each packet at a position. -/
def flushLeg (lp l pos : Nat) (c : Chip) : Chip :=
  let q := (getLeg c l).queued
  countEg lp l pos q.length (dropPkts q (modLeg l (fun r => { r with q0 := [], q1 := [], q2 := [], q3 := [], tag := none }) c))

/-- A link goes down: everything queued for the port's legs, of the draining epoch too, is dropped (R249). -/
def flushPort (lp : Nat) (c : Chip) : Chip := (portLegs c lp).foldl (fun c l => flushLeg lp l 4 c) c

end Sys2Proof.Machine
end

