-- ==== Sys2Proof/Machine/Ports.lean ====
section
/-!
DEFINITION. Media ports (R132 to R142): splits, bring-up and training of logical ports, link loss, FEC watch, and the
commands that configure and report them.
-/
namespace Sys2Proof.Machine
open Sys2Proof

def getLport (c : Chip) (lp : Nat) : LPort := tget LPort.zero c.net.lports lp

def modLport (lp : Nat) (f : LPort → LPort) (c : Chip) : Chip :=
  { c with net := { c.net with lports := tmod LPort.zero c.net.lports lp f } }

def getPort (c : Chip) (m : Nat) : PortCfg := tget PortCfg.zero c.net.ports m

/-- The split creates the logical port (R132). -/
def splitMakes (split k : Nat) : Bool := k == 0 || (split == 1 && k == 2) || split == 2

/-- Island of the media port of a logical port (R24). -/
def portIsland (lp : Nat) : Nat := 3 + lp / 4

/-- STATE of GX_PORT_STATUS. -/
def PortSt.code : PortSt → Nat
  | .disabled => 0 | .negotiating => 1 | .training => 2 | .up => 3 | .waiting => 4 | .upFallback => 5

def LPort.linkUp (p : LPort) : Bool := p.st == .up || p.st == .upFallback

/-- The link of a logical port carries frames: it is up and its power domain is on (R28, R140). -/
def lportUp (c : Chip) (lp : Nat) : Bool := (getLport c lp).linkUp && domOn c (portIsland lp)

/-- The twin link is brought up like a logical port, here number 8, of island 5 (R550). -/
def twinLport : Nat := 8

/-- MEDIA and FALLBACK_PRESET of a logical port: of GX_PORT_CONFIG, or of TWIN_CTRL for the twin link. -/
def lpMedia (c : Chip) (lp : Nat) : Nat := if lp = twinLport then bits c.twin.ctrl.toNat 2 2 else (getPort c (lp / 4)).media
def lpFallback (c : Chip) (lp : Nat) : Nat := if lp = twinLport then bits c.twin.ctrl.toNat 4 4 else (getPort c (lp / 4)).fallback

/-- The logical port may run: enabled, created by the split and clocked. -/
def lpEnabled (c : Chip) (lp : Nat) : Bool :=
  if lp = twinLport then c.twin.ctrl.getLsbD 0
  else (getLport c lp).enabled && splitMakes (getPort c (lp / 4)).split (lp % 4) && !(getLport c lp).clockLost

/-- Step 1 of bring-up, or step 2 or 4 where MEDIA leaves earlier steps out. -/
def bringUp (media now : Nat) (p : LPort) : LPort :=
  let q := { p with aligning := false, onFallback := false }
  if media = 0 then { q with st := .negotiating, deadline := now + 500000000 }
  else if media = 1 then { q with st := .training, deadline := now + 3000000000 }
  else { q with st := .training, aligning := true, deadline := now + 10000000 }

/-- Restart a logical port at step 1 if it is enabled, created and clocked; otherwise its lanes are high-impedance. -/
def restartLport (lp : Nat) (c : Chip) : Chip :=
  modLport lp (fun p =>
    if lpEnabled c lp && domOn c (portIsland lp) then bringUp (lpMedia c lp) (localNs c) p
    else { p with st := .disabled, aligning := false, onFallback := false }) c

/-- PORT_LINK of a logical port; the twin link has events of its own (R576). -/
def raisePortLink (lp : Nat) (c : Chip) : Chip :=
  let p := getLport c lp
  if lp = twinLport then c else raise (portIsland lp) 0x201 none lp (b2n p.linkUp + 2 * p.st.code) c

/-- The link of a logical port goes down: it is counted, PORT_LINK is raised, the port restarts and the packets
queued for its legs are dropped (R139, R249). -/
def linkDown (lp : Nat) (c : Chip) : Chip :=
  if (getLport c lp).linkUp then
    flushPort lp
      (raisePortLink lp (restartLport lp (modLport lp (fun p => { p with linkDowns := min (p.linkDowns + 1) ctrMax }) c)))
  else restartLport lp c

/-- `PORT_AN_COMPLETE` (R137). -/
def execPortAnComplete (lp : Nat) (s : State) : Host.Outcome State Fault Refusal :=
  act s (fun c =>
    if (getLport c lp).st = .negotiating then
      modLport lp (fun p => { p with st := .training, aligning := false, deadline := localNs c + 3000000000 }) c
    else c)

/-- `PORT_TRAINING_DONE` (R137). -/
def execPortTrainingDone (lp : Nat) (s : State) : Host.Outcome State Fault Refusal :=
  act s (fun c =>
    if (getLport c lp).st = .training ∧ ¬ (getLport c lp).aligning then
      modLport lp (fun p => { p with aligning := true, deadline := localNs c + 10000000 }) c
    else c)

/-- Wait before the next attempt: 1, 2, 4, 8 and 16 s, then every 16 s (R137). -/
def retryWaitNs (n : Nat) : Nat := 2 ^ min n 4 * 1000000000

/-- `PORT_TRAINING_TIMEOUT` (R137): 3 s pass without convergence on every lane; `lanes` are those that failed. -/
def trainingTimeout (lp : Nat) (lanes : BitVec 4) (c : Chip) : Chip :=
  let p := getLport c lp
  if ¬ (p.st = .training ∧ ¬ p.aligning) then c
  else
    let c1 := waitLocal p.deadline c
    let fails := min (p.trainFails + 1) 0xFFFF
    let p1 := { p with trainFails := fails, failLanes := lanes.toNat }
    let p2 :=
      if lpFallback c lp ≠ 0 then { p1 with aligning := true, onFallback := true, deadline := localNs c1 + 10000000 }
      else { p1 with st := .waiting, deadline := localNs c1 + retryWaitNs p.retries, retries := p.retries + 1 }
    raise (portIsland lp) 0x202 none lp (lanes.toNat + 2 ^ 16 * fails) (modLport lp (fun _ => p2) c1)

def execPortTrainingTimeout (lp : Nat) (lanes : BitVec 4) (s : State) : Host.Outcome State Fault Refusal :=
  act s (trainingTimeout lp lanes)

/-- `PORT_RETRY_WAIT_EXPIRY` (R137): the wait ends and the port restarts the sequence. -/
def execPortRetryWaitExpiry (lp : Nat) (s : State) : Host.Outcome State Fault Refusal :=
  act s (fun c => if (getLport c lp).st = .waiting then restartLport lp (waitLocal (getLport c lp).deadline c) else c)

/-- `PORT_PCS_LOCK` (R137): FEC alignment and PCS lock, the link is up. -/
def execPortPcsLock (lp : Nat) (s : State) : Host.Outcome State Fault Refusal :=
  act s (fun c =>
    if (getLport c lp).st = .training ∧ (getLport c lp).aligning then
      raisePortLink lp (modLport lp (fun p =>
        { p with st := if p.onFallback then .upFallback else .up, aligning := false, retries := 0, localFault := false,
                 remoteFault := false }) c)
    else c)

/-- `PORT_LINK_FAULT` (R139): loss of FEC alignment, or a local or remote fault. -/
def execPortLinkFault (lp : Nat) (localFault remoteFault : Bool) (s : State) : Host.Outcome State Fault Refusal :=
  act s (fun c =>
    if (getLport c lp).linkUp ∧ lp ≠ twinLport then
      linkDown lp (modLport lp (fun p => { p with localFault := localFault, remoteFault := remoteFault }) c)
    else c)

/-- `FEC_RATIO_WINDOW` (R138): the codewords and symbols of one second, and the corrected-symbol ratio averaged over it. -/
def fecWindow (lp corrected uncorrectable corrSymbols symbols : Nat) (c : Chip) : Chip :=
  let p := getLport c lp
  if ¬ p.linkUp then c
  else
    let p1 := { p with corrCw := min (p.corrCw + corrected) ctrMax, uncorrCw := min (p.uncorrCw + uncorrectable) ctrMax,
                       corrSym := min (p.corrSym + corrSymbols) ctrMax }
    if 24 * symbols < corrSymbols * 100000 then
      let c1 := modLport lp (fun _ => { p1 with fecDegraded := true, fecGoodS := 0 }) c
      if p.fecDegraded then c1 else raise (portIsland lp) 0x203 none lp corrSymbols c1
    else if corrSymbols * 100000 < 10 * symbols then
      modLport lp (fun _ => { p1 with fecGoodS := p.fecGoodS + 1, fecDegraded := p.fecDegraded && decide (p.fecGoodS + 1 < 10) }) c
    else modLport lp (fun _ => { p1 with fecGoodS := 0 }) c

def execFecRatioWindow (lp corrected uncorrectable corrSymbols symbols : Nat) (s : State) :
    Host.Outcome State Fault Refusal :=
  act s (fecWindow lp corrected uncorrectable corrSymbols symbols)

/-- Logical ports of a media port. -/
def portLports (m : Nat) : List Nat := [4 * m, 4 * m + 1, 4 * m + 2, 4 * m + 3]

/-- `NET_REFCLK_LOSS` (R638): the links of the port go down. -/
def execNetRefclkLoss (m : Nat) (s : State) : Host.Outcome State Fault Refusal :=
  act s (fun c =>
    if m < 2 then (portLports m).foldl (fun c lp => linkDown lp (modLport lp (fun p => { p with clockLost := true }) c)) c else c)

/-- `NET_REFCLK_RETURN` (R638): enabled logical ports restart bring-up. -/
def execNetRefclkReturn (m : Nat) (s : State) : Host.Outcome State Fault Refusal :=
  act s (fun c =>
    if m < 2 then
      (portLports m).foldl (fun c lp =>
        if (getLport c lp).clockLost then restartLport lp (modLport lp (fun p => { p with clockLost := false }) c) else c) c
    else c)

/-! Commands. -/

/-- Fields of GX_PORT_CONFIG out of range. -/
def portConfigFields (b : List Word) : Option Nat :=
  firstBad [(outside (bf b 0 1 2) 0 2, 0), (outside (bf b 0 3 2) 0 2, 0),
    ((List.range 4).any (fun k => bit (bw b 0) (12 + k) && !splitMakes (bf b 0 1 2) k), 0),
    (outside (bf b 4 0 14) 1518 9216, 4), (outside (bf b 8 0 4) 0 8, 8), (outside (bf b 12 0 21) 1000 2000000, 12)]

/-- One logical port takes its part of a new port configuration. -/
def configLport (m : Nat) (b : List Word) (resplit : Bool) (k : Nat) (c : Chip) : Chip :=
  let lp := 4 * m + k
  let p := getLport c lp
  let en := bit (bw b 0) (12 + k)
  let c1 := modLport lp (fun p => { p with enabled := en, mac := bd b (16 + 8 * k) % 2 ^ 48 }) c
  if !en then
    if p.linkUp then linkDown lp c1 else restartLport lp c1
  else if !p.enabled || resplit || bit (bw b 0) (8 + k) then
    if p.linkUp then linkDown lp c1 else restartLport lp (modLport lp (fun p => { p with retries := 0 }) c1)
  else c1

/-- The command of R134: settings of a media port and its logical ports, at once. -/
def portConfig (x : Ctx) (c : Chip) : Chip :=
  let b := x.body
  let m := bf b 0 0 1
  let split := bf b 0 1 2
  let old := getPort c m
  let used := fun k => (cfg c).usesLport (4 * m + k)
  if (split ≠ old.split ∧ (List.range 4).any used) ∨
      (List.range 4).any (fun k => (getLport c (4 * m + k)).enabled && !bit (bw b 0) (12 + k) && used k) then
    x.done (Res.err 0x0201) c
  else
    let pc : PortCfg :=
      { split := split, media := bf b 0 3 2, tsCorr := bit (bw b 0) 5, mtu := bf b 4 0 14, fallback := bf b 8 0 4,
        stunRate := bf b 12 0 21 }
    let c1 := { c with net := { c.net with ports := tput c.net.ports m pc } }
    x.done (Res.ok []) ((List.range 4).foldl (fun c k => configLport m b (split != old.split) k c) c1)

def execGxPortConfig (cmd : CmdRef) (s : State) : Host.Outcome State Fault Refusal :=
  act s (serve 0x0200 cmd portConfigFields portConfig)

/-- One block of GX_PORT_STATUS: 64 bytes. -/
def portBlock (p : LPort) : List Word :=
  [wd (p.st.code + 8 * b2n p.fecDegraded + 16 * b2n p.localFault + 32 * b2n p.remoteFault + 2 ^ 16 * p.trainFails),
   wd p.failLanes] ++
    wd2 p.corrCw ++ wd2 p.uncorrCw ++ wd2 p.corrSym ++ wd2 p.framesRx ++ wd2 p.framesTx ++ wd2 p.framesDropped ++
    wd2 p.linkDowns

def portStatus (x : Ctx) (c : Chip) : Chip :=
  let m := bf x.body 0 0 1
  x.done (Res.ok ((portLports m).flatMap (fun lp => portBlock (getLport c lp)))) c

def execGxPortStatus (cmd : CmdRef) (s : State) : Host.Outcome State Fault Refusal :=
  act s (serve 0x0201 cmd noFields portStatus)

end Sys2Proof.Machine
end

