-- ==== Sys2Proof/Machine/Plat.lean ====
section
/-!
DEFINITION. What memory, power, the twin link and the Keeper share: the domains and their figures (R577), pairing state
and the takeover request (R555, R565), the fatal alarm (R619), start failure (R598), the orderly power-down (R592), and
what a device warm reset leaves (R593).
-/
namespace Sys2Proof.Machine
open Sys2Proof

/-! Domains (R25, R577). -/

def isVideoDomain (d : Nat) : Bool := d == 14 || d == 17 || d == 20 || d == 23

/-- ENGnA and ENGnB. -/
def isEngineDomain (d : Nat) : Bool := decide (12 ≤ d ∧ d ≤ 22) && !isVideoDomain d

def isMediaDomain (d : Nat) : Bool := decide (11 ≤ d ∧ d ≤ 23)

def isInterfaceDomain (d : Nat) : Bool := decide (3 ≤ d ∧ d ≤ 5)

/-- Header ramp in µs. -/
def rampUs (d : Nat) : Nat :=
  if d = 1 ∨ d = 2 ∨ d = 11 then 50 else if isInterfaceDomain d then 80 else if d ≤ 10 then 100
  else if isVideoDomain d then 120 else 60

/-- Wake latency in µs. -/
def wakeUs (d : Nat) : Nat :=
  match d with
  | 1 => 400 | 2 => 200 | 3 => 300 | 4 => 300 | 5 => 300 | 6 => 500 | 7 => 500 | 8 => 500 | 9 => 400 | 10 => 600
  | 11 => 150 | _ => if isVideoDomain d then 250 else 120

/-- Step of VDD_CORE current in A. -/
def stepAmps (d : Nat) : Nat :=
  match d with
  | 1 => 3 | 2 => 2 | 3 => 6 | 4 => 6 | 5 => 4 | 6 => 8 | 7 => 9 | 8 => 9 | 9 => 7 | 10 => 6 | 11 => 2
  | _ => if isVideoDomain d then 12 else 4

/-- Media die of a media domain from 12 on. -/
def dieOf (d : Nat) : Nat := (d - 12) / 3

/-- Clusters of an engine domain: four of a die (R24). -/
def domainClusters (d : Nat) : List Nat := (List.range 4).map (fun i => 8 * dieOf d + 4 * ((d - 12) % 3) + i)

/-- Domain of a cluster. -/
def clusterDomain (cl : Nat) : Nat := 12 + 3 * (cl / 8) + cl % 8 / 4

/-- Domain of the video units of a media die. -/
def videoDomain (die : Nat) : Nat := 14 + 3 * die

/-- Islands of R24. -/
def clusterIsland (cl : Nat) : Nat := 30 + 42 * (cl / 8) + cl % 8
def decodeIsland (n : Nat) : Nat := 38 + 42 * (n / 13) + n % 13
def encodeIsland (n : Nat) : Nat := 51 + 42 * (n / 17) + n % 17
def compIsland (n : Nat) : Nat := 68 + 42 * (n / 4) + n % 4

/-- Clock in MHz to which the drift that VDD_CORE does not cover limits an island (R627; log 77). -/
def clockCap (c : Chip) (isl : Nat) : Nat := (tfind c.mgmt.lowered isl).getD 1400

def modPwr (f : Power → Power) (c : Chip) : Chip := { c with pwr := f c.pwr }
def modMgmt (f : Mgmt → Mgmt) (c : Chip) : Chip := { c with mgmt := f c.mgmt }
def modTwin (f : Twin → Twin) (c : Chip) : Chip := { c with twin := f c.twin }

/-! Pairing state. -/

/-- Every change of pairing state raises TWIN_STATE (R555). -/
def setTwinState (st : Nat) (c : Chip) : Chip :=
  if c.twin.st = st then c else raise 5 0xD03 none st c.twin.st (modTwin (fun t => { t with st := st }) c)

/-- The session with the twin ends (R552): mirroring stops, commits publish UNMIRRORED, TWIN_LINK is raised with the link cause (R564).
Missed windows still lead to takeover by a device that was PAIRED. -/
def twinSessionEnd (c : Chip) : Chip :=
  let t := c.twin
  if t.phyUp ∨ t.session then
    let was := t.wasPaired || t.st == 3
    let t1 := { t with session := false, wasPaired := was,
                       events := t.events ||| 1, unacked := [] }
    let c1 := raise 5 0xD01 none 0 2 { c with twin := t1 }
    if t.st = 2 ∨ t.st = 3 then setTwinState 1 c1 else c1
  else c

/-- The link to the twin is lost: its session ends, and bring-up starts again at step 1 while the link is enabled (R139, R564). -/
def twinLinkLoss (c : Chip) : Chip := restartLport twinLport (modTwin (fun t => { t with phyUp := false }) (twinSessionEnd c))

/-- Every queue of every leg is emptied, its buffers going back. -/
def dropAllQueues (c : Chip) : Chip :=
  let held := c.eg.legs.flatMap (fun e => e.2.q0 ++ e.2.q1 ++ e.2.q2 ++ e.2.q3)
  let legs := c.eg.legs.map (fun e => (e.1, { e.2 with q0 := [], q1 := [], q2 := [], q3 := [], tag := none }))
  held.foldl (fun c p => drop p.buf c) { c with eg := { c.eg with legs := legs } }

/-- A device about to stop serving while PAIRED asks its twin to take over, in the same instant makes the service addresses
of its conferences inactive, and sends no further packet of them (R565). -/
def requestTakeover (c : Chip) : Chip :=
  if c.twin.st = 3 then
    let addrs := (cfg c).addrs.map Prod.fst
    let n1 := { c.net with addrInactive := addrs.foldl linsert c.net.addrInactive }
    twinSend .takeoverReq (dropAllQueues { c with net := n1, twin := { c.twin with silent := true, hbStopped := true } })
  else modTwin (fun t => { t with hbStopped := true }) c

/-! Power-down and alarms. -/

/-- Domains that are on or being switched on, in descending number, but for those kept. -/
def domainsDown (c : Chip) (keep : List Nat) : List Nat :=
  ((List.range 24).reverse).filter (fun d => d != 0 && !keep.contains d &&
    (domOn c d || (match c.pwr.switch with | some w => w.dom == d && w.on | none => false)))

/-- Every domain but those kept is to be switched off in descending number (R592). -/
def powerDown (keep : List Nat) (c : Chip) : Chip :=
  modPwr (fun p => { p with req := { PowerCmd.none with off := domainsDown c keep } }) c

/-- The fatal alarm (R619): logged, takeover requested, serving stopped, powered down but for the domains of the table,
FOGHORN_N low. -/
def fatalAlarm (cause detail : Nat) (keep : List Nat) (c : Chip) : Chip :=
  let c1 := requestTakeover (raise 0 0xF01 none cause detail c)
  let c2 := modTwin (fun t => { t with aliveOut := false, handover := none, ejectEnd := 0 }) c1
  powerDown keep { c2 with host := { c2.host with fns := c2.host.fns.map (fun e => (e.1, { e.2 with ready := false })) },
                           mgmt := { c2.mgmt with fatalCause := cause, foghornN := false },
                           pwr := { c2.pwr with phase := if cause = 3 then .startFailed else .fatal } }

/-- A start that fails (R598): CTRL and HIF stay on, START_FAILED is raised and the fatal alarm asserted. -/
def startFail (reason : Nat) (c : Chip) : Chip :=
  fatalAlarm 3 reason [1, 2] (raise 0 0xE05 none reason c.pwr.step (modPwr (fun p => { p with failReason := reason }) c))

/-! Units and spares (R22, R396, R628, R629). Classes: 0 engine, 1 decode core, 2 encode core, 3 compositor. An engine's number is
cluster × 64 + physical number; a core's is its physical number. -/

def unitKey (cls n : Nat) : Nat := cls * 2 ^ 16 + n

/-- Spare at delivery (R22, R396): engines 32 and 33 of a cluster, the last core of a die (log 23). -/
def spareAtDelivery (cls n : Nat) : Bool :=
  if cls = 0 then decide (32 ≤ n % 64) else if cls = 1 then n % 13 == 12 else cls == 2 && n % 17 == 16

def getUnit (c : Chip) (cls n : Nat) : UnitRec :=
  (tfind c.mgmt.units (unitKey cls n)).getD
    { UnitRec.zero with st := if spareAtDelivery cls n then .spare else .inService, logical := n % 64 }

def putUnit (cls n : Nat) (u : UnitRec) (c : Chip) : Chip := modMgmt (fun m => { m with units := tput m.units (unitKey cls n) u }) c

/-- Unit of a core island. -/
def islandUnit (isl : Nat) : Option (Nat × Nat) :=
  if isl < 30 then none
  else
    let off := (isl - 30) % 42
    let die := (isl - 30) / 42
    if off < 8 ∨ 38 ≤ off then none else if off < 21 then some (1, 13 * die + off - 8) else some (2, 17 * die + off - 21)

/-- An island in service: it is no core that was retired or that waits as a spare (R627, R629). -/
def islandServes (c : Chip) (isl : Nat) : Bool :=
  match islandUnit isl with
  | some u => (getUnit c u.1 u.2).st != .retired && (getUnit c u.1 u.2).st != .spare
  | none => true

def unitIsland (cls n : Nat) : Nat :=
  if cls = 0 then clusterIsland (n / 64) else if cls = 1 then decodeIsland n else if cls = 2 then encodeIsland n else compIsland n

def unitDomain (cls n : Nat) : Nat :=
  if cls = 0 then clusterDomain (n / 64) else if cls = 1 then videoDomain (n / 13) else if cls = 2 then videoDomain (n / 17) else videoDomain (n / 4)

/-- Physical units that share spares with a unit: those of its cluster or die. -/
def unitPeers (cls n : Nat) : List Nat :=
  if cls = 0 then (List.range 34).map (fun i => n / 64 * 64 + i)
  else if cls = 1 then (List.range 13).map (fun i => n / 13 * 13 + i)
  else (List.range 17).map (fun i => n / 17 * 17 + i)

/-- The unit takes work: in service, and its domain on with no power-down pending. -/
def unitActive (c : Chip) (cls n : Nat) : Bool :=
  (getUnit c cls n).st == .inService && domOn c (unitDomain cls n) && !c.pwr.withdrawn.contains (unitDomain cls n)

/-- Physical number of the engine that carries a logical number of a cluster, if one is in service or on its way out. -/
def enginePhys (c : Chip) (cl l : Nat) : Option Nat :=
  (List.range 34).find? (fun i =>
    let u := getUnit c 0 (cl * 64 + i)
    u.logical == l && (u.st == .inService || u.st == .retiring || u.st == .selfTest))

/-- A trigger of R628: the unit is to give way. One unit at a time is remapped, device-wide; where another is under way, or
the unit's domain is off or has a power-down pending, the entry is recorded for later (R629). -/
def beginRetire (cls n trigger : Nat) (c : Chip) : Chip :=
  let u := getUnit c cls n
  if u.st = .retired ∨ u.st = .retiring then c
  else if u.st = .spare then putUnit cls n { u with st := .retired, trigger := trigger } c
  else if c.mgmt.remap ≠ 0 ∨ !domOn c (unitDomain cls n) ∨ c.pwr.withdrawn.contains (unitDomain cls n) then
    modMgmt (fun m => { m with remapLater := m.remapLater ++ [(unitKey cls n, trigger)] }) c
  else
    let c1 := putUnit cls n { u with st := .retiring, trigger := trigger } (modMgmt (fun m => { m with remap := unitKey cls n + 1 }) c)
    if cls = 0 then
      let e := n / 64 * 32 + u.logical
      { c1 with eng := { c1.eng with engines := tmod Engine.zero c1.eng.engines e (fun x => { x with retireAt := localNs c1 + 50000000 }) } }
    else c1

/-- An internal fault of a unit: a first one within 24 h starts a self-test of 1 ms, a second retires the unit (R628). -/
def unitFault (cls n : Nat) (c : Chip) : Chip :=
  let u := getUnit c cls n
  let now := localNs c
  if u.faultNs ≠ 0 ∧ now + 1 < u.faultNs + 86400000000000 then
    beginRetire cls n 1 (putUnit cls n { u with faultNs := now + 1 } c)
  else if u.st = .inService then putUnit cls n { u with st := .selfTest, faultNs := now + 1, testEnd := now + 1000000 } c
  else putUnit cls n { u with faultNs := now + 1 } c

/-! Device warm reset (R593): all but AON and the time base. -/

/-- Links keep their pins; every link is down. -/
def PcieLink.afterReset (l : PcieLink) : PcieLink := { PcieLink.zero with perst := l.perst, refclk := l.refclk }

/-- What a device warm reset leaves of the chip (R31, R78, R84, R127, R134, R182, R487, R523, R547, R574, R593). -/
def warmReset (c : Chip) : Chip :=
  let links := c.host.links.map (fun e => (e.1, e.2.afterReset))
  let host := { HostIf.reset with split := c.host.split, operatorPf := c.host.operatorPf, pfBar4 := c.host.pfBar4,
                                  vfBar4 := c.host.vfBar4, links := links }
  let net := { Net4.reset with rootFused := c.net.rootFused, pairing := c.net.pairing }
  let dram := { Dram.reset with x4 := c.dram.x4, density := c.dram.density, ranks2 := c.dram.ranks2, rate := c.dram.rate,
                                capGib := c.dram.capGib, freeze := c.dram.freeze, repairMap := c.dram.repairMap,
                                sramRepairs := c.dram.sramRepairs }
  let t := c.twin
  let on : Bool := t.ctrl.getLsbD 0
  let twin := { Twin.reset with ctrl := t.ctrl, st := if on then 1 else 0, sessionNum := t.sessionNum, journal := t.journal,
                                jTx := t.jTx, jAck := t.jAck, twinJournal := t.twinJournal,
                                hbStopped := true }
  let time := { c.time with ring := HostRing.zero, rxWin := [], txWin := [], rxDrops := 0 }
  let p := c.pwr
  let pwr := { p with failed := [], withdrawn := [], req := .none, creditCyc := c.time.cyc, credit := 200,
                      startTimeMs := 0, clkNow := [], clkTarget := [], resetAt := 0 }
  let m := c.mgmt
  let mgmt := { m with iseq := [], limits := [], kicks := [], holdEnd := 0, recovering := false, waitImage := false,
                       received := 0, image := [], kmbStage := [] }
  { c with host := host, gx := .reset, net := net, fwd := .reset, eg := .reset, aud := .reset, vid := .reset, eng := .reset,
           sched := .reset, pools := .reset, chans := [], dram := dram, time := time, twin := twin, pwr := pwr, mgmt := mgmt,
           ctrs := { vals := [], sat := [] } }

end Sys2Proof.Machine
end

