-- ==== Sys2Proof/Machine/Dram.lean ====
section
/-!
DEFINITION. DRAM, its check code, poison, scrubbing, training and freeze (R491 to R525): how a read and a write act on
memory, the rows of chapter 15, and the commands that report memory.
-/
namespace Sys2Proof.Machine
open Sys2Proof

/-! Address interleave (R493, R494). -/

/-- Subchannel of a device address. -/
def subOf (a : Nat) : Nat := a / 256 % 24

/-- Subchannel address SA. -/
def subAddr (a : Nat) : Nat := a / 256 / 24 * 256 + a % 256

/-- Controller island of a subchannel. -/
def subIsland (s : Nat) : Nat := 10 + s / 2

/-- Burst-column bits K of the organisation (R491). -/
def colBits (c : Chip) : Nat := if c.dram.x4 then 7 else 6

/-- Row of a device address. -/
def rowOf (c : Chip) (a : Nat) : Nat := subAddr a / 2 ^ (11 + colBits c + b2n c.dram.ranks2)

def rankOf (c : Chip) (a : Nat) : Nat := if c.dram.ranks2 then bits (subAddr a) (11 + colBits c) 1 else 0

/-- Bank group × 4 + bank of a device address. -/
def bankOf (c : Chip) (a : Nat) : Nat :=
  4 * (bits (subAddr a) 6 3 ^^^ rowOf c a % 8) + (bits (subAddr a) 9 2 ^^^ rowOf c a / 8 % 4)

def isPacket (a : Nat) : Bool := decide (packetBase ≤ a)

/-- Bits of rows of the organisation (R491). -/
def rowCount (c : Chip) : Nat := match c.dram.density with | 0 => 65536 | 1 => 98304 | _ => 131072

def getSub (c : Chip) (s : Nat) : Sub := tget Sub.zero c.dram.subs s

def modSub (s : Nat) (f : Sub → Sub) (c : Chip) : Chip :=
  { c with dram := { c.dram with subs := tmod Sub.zero c.dram.subs s f } }

def frozen (c : Chip) (a : Nat) : Bool := !isPacket a && (getSub c (subOf a)).st == 3

def anyFrozen (c : Chip) : Bool := c.dram.subs.any (fun e => e.2.st == 3)

/-! Freeze (R509 to R511). -/

/-- Freeze a subchannel: it issues nothing more, the record is captured, MEM_FROZEN raised and takeover requested. -/
def freezeSub (s reason ranks : Nat) (c : Chip) : Chip :=
  let x := getSub c s
  if x.st = 3 then c
  else
    let rec_ : FreezeRec :=
      { sub := s, reason := reason, parityRanks := ranks, stampNs := svc c % 2 ^ 48, rdq := 0, wrq := x.wrq, refDebt := x.debt,
        failStep := x.failStep, openBanks := 0, delays := x.delays, cmds := x.cmds, parityCmd := if reason = 1 then 64 else 0 }
    let c1 := modSub s (fun x => { x with st := 3, retraining := false, events := if reason = 1 then x.events ||| 2 else x.events }) c
    requestTakeover (raise (subIsland s) 0xB02 none s reason { c1 with dram := { c1.dram with freeze := some rec_ } })

/-! What a read and a write do (R500, R510 to R515, R519). -/

/-- An entry of the row table for a corrected error (R519). -/
def rowHit (rank bank row now : Nat) (l : List RowEntry) : List RowEntry :=
  if l.any (fun e => e.rank == rank && e.bank == bank && e.row == row) then
    l.map (fun e => if e.rank == rank && e.bank == bank && e.row == row then
      { e with pass := min (e.pass + 1) 0xFFFF, total := min (e.total + 1) 0xFFFFFFFF, lastNs := now } else e)
  else
    let e : RowEntry := { rank := rank, bank := bank, row := row, pass := 1, total := 1, lastNs := now, raised := false }
    if l.length < 256 then l ++ [e]
    else
      let low := (l.map (·.total)).foldl min 0xFFFFFFFF
      match l.findIdx? (fun x => x.total == low) with
      | some i => l.set i e
      | none => l

/-- A corrected error of DRAM is counted by subchannel, rank and bank, and in the row table (R513, R519). -/
def correctedAt (a : Nat) (c : Chip) : Chip :=
  let s := subOf a
  let rank := rankOf c a
  let bank := bankOf c a
  let row := rowOf c a
  let x := getSub c s
  let now := localNs c
  let rows := rowHit rank bank row (svc c % 2 ^ 32) x.rows
  let hit := rows.find? (fun e => e.rank == rank && e.bank == bank && e.row == row)
  let due := match hit with | some e => decide (c.dram.rowThresh ≤ e.pass) && !e.raised | none => false
  let rows1 := if due then rows.map (fun e => if e.rank == rank && e.bank == bank && e.row == row then { e with raised := true } else e) else rows
  let w := x.stormWin
  let w1 : RateWin := if w.start + 1000000000 ≤ now ∨ w.count = 0 then { start := now, count := 1 } else { w with count := w.count + 1 }
  let storm := w1.count == c.dram.ceStorm + 1
  let c1 := modSub s (fun x =>
    { x with ce := min (x.ce + 1) ctrMax, bankCe := tmod 0 x.bankCe (rank * 32 + bank) (fun n => min (n + 1) 0xFFFFFFFF), rows := rows1,
             stormWin := w1, events := if storm then x.events ||| 8 else x.events }) c
  let c2 := if due then
      raise (subIsland s) 0xB05 none s (rank + 2 * bank + 64 * row + 2 ^ 32 * (match hit with | some e => e.pass | none => 0)) c1 else c1
  if storm then raise (subIsland s) 0xB04 none s w1.count c2 else c2

/-- An uncorrectable word is counted and MEM_UE raised at most once a second for each subchannel, with the first address of
the second (R513); for packet memory it is SRAM_UE. -/
def uncorrectableAt (a : Nat) (c : Chip) : Chip :=
  if isPacket a then raiseRated 27 0xB09 none 27 (fun _ => (a - packetBase) / 8) 1 c
  else
    let s := subOf a
    let x := getSub c s
    let now := localNs c
    let c1 := modSub s (fun x => { x with ue := min (x.ue + 1) ctrMax }) c
    if x.ueWin.start = 0 ∨ x.ueWin.start + 1000000000 ≤ now + 1 then
      raise (subIsland s) 0xB03 none s (if x.ueAddr = 0 then a else x.ueAddr - 1)
        (modSub s (fun x => { x with ueAddr := 0, ueWin := { start := now + 1, count := 0 } }) c1)
    else modSub s (fun x => { x with ueAddr := if x.ueAddr = 0 then a + 1 else x.ueAddr }) c1

def poisonReadAt (a : Nat) (c : Chip) : Chip :=
  if isPacket a then c else modSub (subOf a) (fun x => { x with poisonReads := min (x.poisonReads + 1) ctrMax }) c

/-- Word numbers in a range that carry a poison mark or wrong bits. -/
def markedIn (m : Mem) (a n : Nat) : List Nat :=
  (m.poison.filter (fun w => decide (a / 8 ≤ w ∧ w * 8 < a + n))) ++
    ((m.flips.map Prod.fst).filter (fun w => decide (a / 8 ≤ w ∧ w * 8 < a + n) && !m.poison.contains w))

/-- Words of a range that lie on a frozen subchannel. -/
def frozenIn (c : Chip) (a n : Nat) : List Nat :=
  if anyFrozen c ∧ n ≠ 0 then
    ((List.range ((a + n - 1) / 8 - a / 8 + 1)).map (· + a / 8)).filter (fun w => frozen c (w * 8))
  else []

/-- One marked word is read: it is delivered corrected, or with a poison mark (R513, R514). -/
def readMark (m : Mem) (w : Nat) (bad : List Nat) (c : Chip) : List Nat × Chip :=
  if m.poison.contains w then (bad ++ [w], poisonReadAt (w * 8) c)
  else if 3 ≤ tget 0 m.flips w then (bad ++ [w], uncorrectableAt (w * 8) c)
  else (bad, if isPacket (w * 8) then c else correctedAt (w * 8) c)

/-- Read `n` bytes: the data, the words delivered poisoned, and the chip after it. -/
def memRead (m : Mem) (a n : Nat) (c : Chip) : List Byte × List Nat × Chip :=
  let fz := frozenIn c a n
  let r := ((markedIn m a n).filter (fun w => !fz.contains w)).foldl (fun p w => readMark m w p.1 p.2) ([], c)
  (m.bytes a n, fz ++ r.1, fz.foldl (fun c w => poisonReadAt (w * 8) c) r.2)

/-- Pieces of a write that reach memory: those of frozen subchannels are discarded (R510). -/
def livePieces (c : Chip) (a : Nat) (data : List Byte) : List MemOp :=
  if anyFrozen c ∧ data ≠ [] then
    (List.range ((a + data.length - 1) / 256 - a / 256 + 1)).filterMap (fun i =>
      let g := a / 256 + i
      let lo := max a (g * 256)
      let hi := min (a + data.length) (g * 256 + 256)
      if frozen c (g * 256) then none else some (MemOp.write lo ((data.drop (lo - a)).take (hi - lo))))
  else [.write a data]

/-- A word is covered whole by `n` bytes from `a`. -/
def whole (a n w : Nat) : Bool := decide (a ≤ w * 8 ∧ w * 8 + 8 ≤ a + n)

/-- A write (R500, R515): a full word of clean data clears poison and wrong bits; a part of a word that reads back
uncorrectable or poisoned is merged and written poisoned; poisoned data stores poison in every word it touches. -/
def memWrite (m : Mem) (a : Nat) (data : List Byte) (poisoned : Bool) (c : Chip) : List MemOp × Chip :=
  let n := data.length
  if n = 0 then ([], c)
  else if poisoned then
    let ws := ((List.range ((a + n - 1) / 8 - a / 8 + 1)).map (· + a / 8)).filter (fun w => !frozen c (w * 8))
    (livePieces c a data ++ ws.flatMap (fun w => [.flip (w * 8) 0, .poison (w * 8) true]), c)
  else
    let ws := (markedIn m a n).filter (fun w => !frozen c (w * 8))
    let part := ws.filter (fun w => !whole a n w)
    let marks := ws.flatMap (fun w =>
      if whole a n w then [MemOp.flip (w * 8) 0, .poison (w * 8) false]
      else if m.poison.contains w ∨ 3 ≤ tget 0 m.flips w then [.flip (w * 8) 0, .poison (w * 8) true]
      else [.flip (w * 8) 0])
    (livePieces c a data ++ marks, part.foldl (fun c w => (readMark m w [] c).2) c)

/-- Words of device memory that a copy stores with the poison encoding (R478, R514). -/
def poisonWords (c : Chip) (ws : List Nat) : List MemOp :=
  (ws.filter (fun w => !frozen c (w * 8))).flatMap (fun w => [.flip (w * 8) 0, .poison (w * 8) true])

/-- Clear a range. -/
def memZero (a n : Nat) (c : Chip) : List MemOp :=
  if anyFrozen c then livePieces c a (List.replicate n 0) else [.zero a n]

/-! Requests as the controllers see them. -/

/-- A subchannel issues commands: each access activates its row and closes it (R497). What the CA cycles carry, the spec
does not give (log 24). -/
def logDram (s rank : Nat) (c : Chip) : Chip :=
  let d0 := draw c
  let d1 := draw d0.2
  let now := svc c % 2 ^ 48
  let one := fun (v : Nat) (two : Bool) =>
    ({ first := v % 2 ^ 14, second := if two then v / 2 ^ 14 % 2 ^ 14 else 0, twoCycle := two, rank := rank, delta := v / 2 ^ 28 % 2 ^ 32, ns := now } : DramCmd)
  modSub s (fun x => { x with cmds := ([one d1.1 true, one d0.1 true] ++ x.cmds).take 64 }) d1.2

/-- A request reaches a subchannel: it leaves self-refresh and its idle time starts again (R502). The write queue drains to
16 entries once it holds 48 (R498). -/
def requestSub (write : Bool) (rank s : Nat) (c : Chip) : Chip :=
  logDram s rank (modSub s (fun x =>
    { x with selfRefresh := false, lastReq := localNs c,
             wrq := if write then (if 47 ≤ x.wrq then 16 else x.wrq + 1) else x.wrq }) c)

/-- Subchannels that a range touches. -/
def subsIn (a n : Nat) : List Nat :=
  if n = 0 then [] else (List.range (min 24 ((a + n - 1) / 256 - a / 256 + 1))).map (fun i => (a / 256 + i) % 24)

def requestSubs (write : Bool) (a n : Nat) (c : Chip) : Chip :=
  (subsIn a n).foldl (fun c s => if (getSub c s).st = 3 then c else requestSub write (rankOf c a) s c) c

/-- The wrong bits that the environment left in words since their last reading. -/
def upset (errors : List (Nat × Nat)) : List MemOp := errors.map (fun e => .flip e.1 (min e.2 3))

/-! Rows. `errors` names words, by address, with the number of wrong bits found in them. -/

/-- `DRAM_READ` (R499, R513): an access beyond the installed capacity has no address (R493). -/
def execDramRead (source addr bytes : Nat) (errors : List (Nat × Nat)) (s : State) : Host.Outcome State Fault Refusal :=
  if capBytes s.chip < addr + bytes then .fault (.noAddress addr)
  else actMem s (fun c m =>
    let r := memRead (m.apply (upset errors)) addr bytes (requestSubs false addr bytes c)
    (emit (.memData source addr r.1 (r.2.1.map (· * 8))) r.2.2, upset errors))

/-- `DRAM_WRITE` (R499, R500). -/
def execDramWrite (_source addr : Nat) (data : List Byte) (poisoned : Bool) (s : State) : Host.Outcome State Fault Refusal :=
  if capBytes s.chip < addr + data.length then .fault (.noAddress addr)
  else actMem s (fun c m =>
    let r := memWrite m addr data poisoned (requestSubs true addr data.length c)
    (r.2, r.1))

/-- `REFRESH_DUE` (R502, R504): issued with all postponed ones, or postponed during a grant, up to 16 REFsb; then the grant
is cut and the refresh forced. -/
def refreshDue (s : Nat) (granted : Bool) (c : Chip) : Chip :=
  let x := getSub c s
  if ¬ (s < 24) ∨ x.st = 0 ∨ x.st = 3 ∨ x.selfRefresh then c
  else
    let one := if x.refsb then 1 else 4
    let next := if x.refsb then (x.refBank + 1) % 4 else x.refBank
    if ¬ granted then logDram s 0 (modSub s (fun x => { x with debt := 0, refBank := next }) c)
    else if x.debt + one < 16 then
      modSub s (fun x => { x with debt := x.debt + one, postponedMax := max x.postponedMax (x.debt + one) }) c
    else
      logDram s 0 (modSub s (fun x => { x with debt := 16 - one, postponedMax := 16, refBank := next,
                                               forcedRef := min (x.forcedRef + 1) 0xFFFFFFFF }) c)

def execRefreshDue (sub : Nat) (granted : Bool) (s : State) : Host.Outcome State Fault Refusal := act s (refreshDue sub granted)

/-- `SELF_REFRESH_IDLE` (R502): SR_IDLE_US passes with no request to the subchannel. -/
def selfRefreshIdle (s : Nat) (c : Chip) : Chip :=
  let x := getSub c s
  if s < 24 ∧ x.srEn ∧ ¬ x.selfRefresh ∧ (x.st = 1 ∨ x.st = 2) then
    modSub s (fun x => { x with selfRefresh := true }) (waitLocal (x.lastReq + x.srIdleUs * 1000) c)
  else c

def execSelfRefreshIdle (sub : Nat) (s : State) : Host.Outcome State Fault Refusal := act s (selfRefreshIdle sub)

/-- `MR4_POLL` (R503): mode register 4 as the components report it: doubled range, or above the operating limit. -/
def mr4Poll (s : Nat) (doubled hot : Bool) (mr4 : BitVec 8) (c : Chip) : Chip :=
  if s < 24 ∧ ((getSub c s).st = 1 ∨ (getSub c s).st = 2) then
    let c1 := modSub s (fun x => { x with double := doubled || hot, events := if hot then x.events ||| 4 else x.events }) c
    if hot then raise (subIsland s) 0xB08 none s mr4.toNat c1 else c1
  else c

def execMr4Poll (sub : Nat) (doubled hot : Bool) (mr4 : BitVec 8) (s : State) : Host.Outcome State Fault Refusal :=
  act s (mr4Poll sub doubled hot mr4)

/-- The delays that training finds on the ten lanes; the spec gives no values (log 24). -/
def trainDelays (s : Nat) (c : Chip) : Chip :=
  let c1 := { c with free := c.free + 10 }
  modSub s (fun x => { x with delays := (List.range 10).map (fun i => Config.fresh (c.free + i) % 2 ^ 32) }) c1

/-- `DRAM_TRAINING_STEP_DONE` (R505, R506): a subchannel finishes a training step of start-up, with a passing setting or
without one; after step 9 every word of it is zero and it is in service. -/
def trainingStep (s : Nat) (passed : Bool) (c : Chip) : Chip × List MemOp :=
  let x := getSub c s
  if ¬ (s < 24 ∧ c.pwr.phase = .starting ∧ domOn c 7 ∧ domOn c 8 ∧ x.st = 0) then (c, [])
  else if passed then
    if x.step + 1 < 9 then
      (modSub s (fun y => { y with step := x.step + 1,
                                   ppr := if x.step + 1 = 8 then (c.dram.repairMap.filter (fun r => r.1 == s)).map (fun r => r.2.1 * 8 + r.2.2.1)
                                          else y.ppr }) c, [])
    else (trainDelays s (modSub s (fun y => { y with step := 9, st := 1, lastReq := localNs c }) c), [.zeroSub s packetBase])
  else if x.retried then
    (startFail 2 (freezeSub s 3 0 (modSub s (fun y => { y with failStep := x.step + 1 }) c)), [])
  else (modSub s (fun y => { y with step := 0, retried := true, failStep := x.step + 1 }) c, [])

def execDramTrainingStepDone (sub : Nat) (passed : Bool) (s : State) : Host.Outcome State Fault Refusal :=
  actMem s (fun c _ => trainingStep sub passed c)

/-- `RETRAIN_INTERVAL` (R507, R508): the measured drift exceeds DRIFT_PS, or the subchannel is degraded: it retrains. -/
def retrainInterval (s drift : Nat) (c : Chip) : Chip :=
  let x := getSub c s
  if s < 24 ∧ (x.st = 1 ∨ x.st = 2) ∧ ¬ x.retraining then
    modSub s (fun y => { y with lastDrift := drift, retraining := decide (x.driftPs < drift) || x.st == 2 }) c
  else c

def execRetrainInterval (sub drift : Nat) (s : State) : Host.Outcome State Fault Refusal := act s (retrainInterval sub drift)

/-- `RETRAIN_STEP_DONE` (R508, R509): a step of retraining ends; with the last one it passes, or fails and degrades the
subchannel, and a third failure in a row freezes it. -/
def retrainStep (s : Nat) (last passed : Bool) (c : Chip) : Chip :=
  let x := getSub c s
  if ¬ (s < 24 ∧ x.retraining) ∨ ¬ last then c
  else
    let n := min (x.retrains + 1) 0xFFFF
    if passed then trainDelays s (modSub s (fun y => { y with retraining := false, retrains := n, st := 1, consecFails := 0 }) c)
    else
      let f := min (x.consecFails + 1) 3
      let c1 := raise (subIsland s) 0xB01 none s (f + 256 * (x.lastDrift % 256))
        (modSub s (fun y => { y with retraining := false, retrains := n, st := 2, consecFails := f, events := y.events ||| 1 }) c)
      if f = 3 then freezeSub s 2 0 c1 else c1

def execRetrainStepDone (sub : Nat) (last passed : Bool) (s : State) : Host.Outcome State Fault Refusal :=
  act s (retrainStep sub last passed)

/-- `CA_PARITY_ERROR` (R509): a component of one or both ranks reports a command or address parity error. -/
def execCaParityError (sub : Nat) (ranks : BitVec 2) (s : State) : Host.Outcome State Fault Refusal :=
  act s (fun c => if sub < 24 ∧ (getSub c sub).st ≠ 0 then freezeSub sub 1 ranks.toNat c else c)

/-- One word met by the scrubber (R517). -/
def scrubWord (m : Mem) (w : Nat) (p : Chip × List MemOp) : Chip × List MemOp :=
  let c := p.1
  if m.poison.contains w then (poisonReadAt (w * 8) c, p.2)
  else if 3 ≤ tget 0 m.flips w then
    let c1 := uncorrectableAt (w * 8) c
    ({ c1 with dram := { c1.dram with passUe := c1.dram.passUe + 1 } }, p.2 ++ [.flip (w * 8) 0, .poison (w * 8) true])
  else
    let c1 := correctedAt (w * 8) c
    ({ c1 with dram := { c1.dram with passCe := c1.dram.passCe + 1 } }, p.2 ++ [.flip (w * 8) 0])

/-- The scrubber moves past a burst; at the end of a pass it raises MEM_SCRUB_PASS and the counts of the pass restart. -/
def scrubNext (c : Chip) : Chip :=
  let d := c.dram
  if d.scrubPos + 64 < capBytes c then { c with dram := { d with scrubPos := d.scrubPos + 64 } }
  else
    let n := d.scrubPasses + 1
    let subs := d.subs.map (fun e => (e.1, { e.2 with rows := e.2.rows.map (fun r => { r with pass := 0, raised := false }) }))
    raise (subIsland 0) 0xB06 none n (d.passCe % 2 ^ 32 + 2 ^ 32 * d.passUe)
      { c with dram := { d with scrubPos := 0, scrubPasses := n, passCe := 0, passUe := 0, subs := subs } }

/-- `SCRUB_BURST` (R517): the next 64-byte burst is read; those of a frozen subchannel are skipped. -/
def scrubBurst (errors : List (Nat × Nat)) (c : Chip) (m : Mem) : Chip × List MemOp :=
  let d := c.dram
  if ¬ (d.scrubEn ∧ inService c ∧ 0 < d.capGib) then (c, [])
  else if frozen c d.scrubPos then (scrubNext c, [])
  else
    let here := errors.filter (fun e => decide (d.scrubPos ≤ e.1 ∧ e.1 < d.scrubPos + 64))
    let m1 := m.apply (upset here)
    let r := (markedIn m1 d.scrubPos 64).foldl (fun p w => scrubWord m1 w p) (c, upset here)
    (scrubNext r.1, r.2)

def execScrubBurst (errors : List (Nat × Nat)) (s : State) : Host.Outcome State Fault Refusal := actMem s (scrubBurst errors)

/-- A location in error of an SRAM pass: island, word and whether it is uncorrectable (R518, R522). `spare` is the spare
row or column that the fuse map still leaves there. -/
def sramFound (spare : Option Nat) (old : List Nat) (e : Nat × Nat × Bool) (p : Chip × List MemOp) : Chip × List MemOp :=
  let key := e.1 * 2 ^ 20 + e.2.1
  let c1 :=
    if e.2.2 then raiseRated e.1 0xB09 none e.1 (fun _ => e.2.1) 1 p.1
    else if 30 ≤ e.1 ∧ (e.1 - 30) % 42 < 8 then
      { p.1 with eng := { p.1.eng with clusters := tmod Cluster.zero p.1.eng.clusters (8 * ((e.1 - 30) / 42) + (e.1 - 30) % 42)
                                         (fun x => { x with corrected := x.corrected + 1 }) } }
    else p.1
  let ops := if e.2.2 ∧ e.1 = 27 then p.2 ++ [.poison (packetBase + e.2.1 * 8) true] else p.2
  if old.contains key ∧ !c1.dram.sramRepairs.contains key then
    match spare with
    | some n =>
      (raise 0 0xB0A none e.1 (n % 65536) { c1 with dram := { c1.dram with sramRepairs := linsert c1.dram.sramRepairs key } }, ops)
    | none =>
      let c2 := raise 0 0xB0A none e.1 65536 c1
      (if 30 ≤ e.1 then
        let off := (e.1 - 30) % 42
        let die := (e.1 - 30) / 42
        if off < 8 then c2
        else if off < 21 then beginRetire 1 (13 * die + off - 8) 3 c2
        else if off < 38 then beginRetire 2 (17 * die + off - 21) 3 c2 else c2
       else c2, ops)
  else (c1, ops)

/-- `SRAM_SCRUB_PASS` (R518): the locations found in error in this pass; one found in two passes in a row becomes a field
repair candidate. -/
def execSramScrubPass (found : List (Nat × Nat × Bool)) (spare : Option Nat) (s : State) : Host.Outcome State Fault Refusal :=
  actMem s (fun c _ =>
    let r := found.foldl (fun p e => sramFound spare c.dram.sramErr e p) (c, [])
    ({ r.1 with dram := { r.1.dram with sramErr := (found.map (fun e => e.1 * 2 ^ 20 + e.2.1)).foldl linsert [],
                                        sramPasses := r.1.dram.sramPasses + 1 } }, r.2))

/-- `INJECT_ADDR_WRITE` (R9, R524): with ARM set, the word is stored with the error of MODE and ARM clears. -/
def injectWrite (v : Nat) (c : Chip) : Chip × List MemOp :=
  if v % 8 ≠ 0 ∨ capBytes c ≤ v then (c, [])
  else
    let d := c.dram
    let c1 := { c with dram := { d with injAddr := v, injArm := false } }
    if ¬ d.injArm then (c1, [])
    else if 1 ≤ d.injMode ∧ d.injMode ≤ 3 then (c1, [.poison v false, .flip v d.injMode])
    else if d.injMode = 4 then (c1, [.flip v 0, .poison v true])
    else (c1, [])

def execInjectAddrWrite (fn : Nat) (lo hi : Word) (s : State) : Host.Outcome State Fault Refusal :=
  actMem s (fun c _ =>
    match b2Pair fn 0x420020 lo hi c with
    | some c1 => (c1, [])
    | none => injectWrite (lo.toNat + 2 ^ 32 * hi.toNat) c)

/-! Commands. -/

/-- MEM_CONFIG (R524). -/
def memConfigWord (c : Chip) : Nat :=
  let d := c.dram
  d.rate + 2 ^ 13 * b2n d.x4 + 2 ^ 14 * d.density + 2 ^ 16 * b2n d.ranks2 + 2 ^ 20 * d.capGib

/-- Corrected errors of a subchannel in the last second. -/
def Sub.ce1s (x : Sub) (now : Nat) : Nat := if x.stormWin.start + 1000000000 ≤ now then 0 else x.stormWin.count

def subStatus (c : Chip) (s : Nat) : List Word :=
  let x := getSub c s
  [wd (x.st + 4 * b2n x.selfRefresh + 8 * b2n x.double + 16 * x.consecFails + 2 ^ 8 * x.ppr.length +
     2 ^ 16 * min (x.ce1s (localNs c)) 0xFFFF), wd x.ue]

def execGxMemStatus (cmd : CmdRef) (s : State) : Host.Outcome State Fault Refusal :=
  act s (serve 0x0B00 cmd noFields (fun x c =>
    x.done (Res.ok ([wd (memConfigWord c), wd c.dram.scrubPasses] ++ wd2 c.dram.scrubPos ++ (List.range 24).flatMap (subStatus c))) c))

/-- The 4,352 bytes of GX_MEM_ERRORS. -/
def memErrorWords (x : Sub) : List Word :=
  (List.range 64).map (fun i => wd (tget 0 x.bankCe i)) ++
    (List.range 256).flatMap (fun i =>
      match x.rows[i]? with
      | some e => [wd (e.rank + 2 * e.bank + 64 * e.row + 2 ^ 31), wd e.pass, wd e.total, wd e.lastNs]
      | none => [0, 0, 0, 0])

/-- A result address that is not a multiple of 8 (R101). -/
def unaligned8 (b : List Word) (off : Nat) : Bool := bd b off % 8 != 0

def memErrors (x : Ctx) (c : Chip) : Chip :=
  let s := bf x.body 0 0 5
  if 24 ≤ s then x.done (Res.err 0x0B03) c
  else
    let c1 := emit (.hostWrite x.fn (bd x.body 8) (memErrorWords (getSub c s))) c
    x.done (Res.ok []) (if bit (bw x.body 0) 8 then modSub s (fun y => { y with bankCe := [], rows := [] }) c1 else c1)

def execGxMemErrors (cmd : CmdRef) (s : State) : Host.Outcome State Fault Refusal :=
  act s (serve 0x0B01 cmd (fun b => firstBad [(unaligned8 b 8, 8)]) memErrors)

/-- The body of GX_MEM_PPR: subchannel, rank, bank group, bank, row. -/
def pprRange (c : Chip) (b : List Word) : Bool :=
  decide (bf b 0 0 5 < 24) && (!bit (bw b 0) 8 || c.dram.ranks2) && decide (bf b 4 0 17 < rowCount c)

/-- Start of GX_MEM_PPR (R520): the bank is paused and the row copied. -/
def memPpr (x : Ctx) (c : Chip) : Chip :=
  let s := bf x.body 0 0 5
  let rank := bf x.body 0 8 1
  let bg := bf x.body 0 12 3
  if !pprRange c x.body then x.done (Res.err 0x0B03) c
  else if c.dram.busy then x.done (Res.err 0x0B04) c
  else if (getSub c s).st = 3 then x.done (Res.err 0x0B01) c
  else if (getSub c s).ppr.contains (rank * 8 + bg) then x.done (Res.err 0x0B02) c
  else
    progress x.k 2048 [s, rank, bg, bf x.body 0 16 2, bf x.body 4 0 17]
      { c with dram := { c.dram with busy := true, pausedBank := some (s, rank * 32 + 4 * bg + bf x.body 0 16 2) } }

def execGxMemPpr (cmd : CmdRef) (s : State) : Host.Outcome State Fault Refusal := act s (serve 0x0B02 cmd noFields memPpr)

/-- The last step of GX_MEM_PPR: the repair is issued and recorded, the row written back, the bank resumed (R520, R521). -/
def memPprStep (k : Nat) (w : List Nat) (c : Chip) : Chip :=
  let s := w.getD 0 0
  let rank := w.getD 1 0
  let bg := w.getD 2 0
  let bank := w.getD 3 0
  let row := w.getD 4 0
  let c0 := { c with dram := { c.dram with busy := false, pausedBank := none } }
  if (getSub c s).st = 3 then finish k (Res.err 0x0B01) c0
  else
    let c1 := modSub s (fun x => { x with ppr := x.ppr ++ [rank * 8 + bg] })
      { c0 with dram := { c0.dram with repairMap := c0.dram.repairMap ++ [(s, rank, bg, bank, row)] } }
    finish k (Res.ok [wd (getSub c1 s).ppr.length]) (raise (subIsland s) 0xB07 none s (rank + 2 * (4 * bg + bank) + 64 * row) c1)

/-- First address and size of a buffer. -/
def bufAddr (c : Chip) (h : Nat) : Nat := poolBase c (handlePool h) + handleIndex h * poolBytes (handlePool h)

/-- GX_MEM_TEST: a buffer of pools P2 to P7 owned by the operator's host identity, no part of it on a frozen subchannel (R510). -/
def memTest (x : Ctx) (c : Chip) : Chip :=
  let h := bw x.body 0
  if !(current c h && decide (2 ≤ handlePool h) && (getBuf c h).owner == identity (operatorFn c) 0) then x.done (Res.err 0x0B03) c
  else if c.dram.busy then x.done (Res.err 0x0B04) c
  else if !(frozenIn c (bufAddr c h) (poolBytes (handlePool h))).isEmpty then x.done (Res.err 0x0B01) c
  else progress x.k 0 [h, 0, 0, 2 ^ 64 - 1] { c with dram := { c.dram with busy := true } }

def execGxMemTest (cmd : CmdRef) (s : State) : Host.Outcome State Fault Refusal := act s (serve 0x0B03 cmd noFields memTest)

/-- Bytes that one step of GX_MEM_TEST covers (log 79). -/
def memTestChunk : Nat := 65536

/-- A step of GX_MEM_TEST writes and reads back the next part of the buffer: what it leaves there depends on the pattern, whose
order of writing the spec does not give (log 25). -/
def memTestStep (k : Nat) (w : List Nat) (c : Chip) (m : Mem) : Chip × List MemOp :=
  let h := w.getD 0 0
  let off := w.getD 1 0
  let size := poolBytes (handlePool h)
  let n := min memTestChunk (size - off)
  let a := bufAddr c h + off
  let data := (List.range n).map (fun i => BitVec.ofNat 8 (Config.fresh (c.free + i)))
  let fz := frozenIn c a n
  let wr := memWrite m a data false { c with free := c.free + n }
  let first := match fz with | x :: _ => min (w.getD 3 0) (x * 8 - bufAddr c h) | [] => w.getD 3 0
  let w1 := [h, off + n, w.getD 2 0 + fz.length, first]
  (if size ≤ off + n then finish k (Res.ok (memTestResult w1)) { wr.2 with dram := { wr.2.dram with busy := false } }
   else progress k (4096 * (off + n) / size) w1 wr.2, wr.1)

/-- Words of a freeze record: 1,088 bytes (R511). -/
def freezeWords (f : FreezeRec) : List Word :=
  let cmds := f.cmds.reverse
  let pad := List.replicate (64 - cmds.length) (⟨0, 0, false, 0, 0, 0⟩ : DramCmd) ++ cmds
  [wd (f.sub + 2 ^ 5 * f.reason + 2 ^ 8 * f.parityRanks), 0] ++ wd2 f.stampNs ++
    [wd (f.rdq + 2 ^ 8 * f.wrq + 2 ^ 16 * f.refDebt + 2 ^ 24 * f.failStep), wd f.openBanks] ++
    (List.range 10).map (fun i => wd (f.delays.getD i 0)) ++
    (List.range 64).flatMap (fun i =>
      let e := pad.getD i ⟨0, 0, false, 0, 0, 0⟩
      [wd (e.first + 2 ^ 14 * e.second + 2 ^ 28 * b2n e.twoCycle + 2 ^ 29 * e.rank + 2 ^ 30 * b2n (f.parityCmd == i + 1)), wd e.delta] ++
        wd2 e.ns)

def execGxMemFreezeRead (cmd : CmdRef) (s : State) : Host.Outcome State Fault Refusal :=
  act s (serve 0x0B04 cmd (fun b => firstBad [(unaligned8 b 0, 0)]) (fun x c =>
    match c.dram.freeze with
    | some f => x.done (Res.ok [1]) (emit (.hostWrite x.fn (bd x.body 0) (freezeWords f)) c)
    | none => x.done (Res.ok [0]) c))

end Sys2Proof.Machine
end

