-- ==== Sys2Proof/Machine/Sched.lean ====
section
/-!
DEFINITION. The task scheduler's core (chapter 13): slots, allocation, submission, signals, readiness, the order of
dispatch, flows, failure, completion records and the tick.
-/
namespace Sys2Proof.Machine
open Sys2Proof

/-! Slots and identifiers (R433). -/

def schedSlots : Nat := 262144

/-- Slots kept for levels 0 to 3 (R436). -/
def keptSlots : Nat := 32768

def getTask (c : Chip) (slot : Nat) : Task := tget Task.zero c.sched.tasks slot

def modSched (f : Sched → Sched) (c : Chip) : Chip := { c with sched := f c.sched }

def putTask (slot : Nat) (t : Task) (c : Chip) : Chip := modSched (fun s => { s with tasks := tput s.tasks slot t }) c

def modTask (slot : Nat) (f : Task → Task) (c : Chip) : Chip := putTask slot (f (getTask c slot)) c

def taskId (slot gen : Nat) : Nat := slot + gen * 2 ^ 18
def taskSlot (id : Nat) : Nat := id % 2 ^ 18
def taskGen (id : Nat) : Nat := id / 2 ^ 18 % 64

/-- Number of a state in the order of R437. -/
def TaskSt.code : TaskSt → Nat
  | .free => 0 | .allocated => 1 | .waiting => 2 | .delayed => 3 | .ready => 4 | .running => 5 | .held => 6 | .ended => 7

/-- Submitted and not yet ended. -/
def TaskSt.live : TaskSt → Bool
  | .waiting | .delayed | .ready | .running | .held => true
  | _ => false

/-- The task that an identifier names: its slot in use, with the same GEN. -/
def taskNamed (c : Chip) (id : Nat) : Option Task :=
  let t := getTask c (taskSlot id)
  if t.st ≠ .free ∧ t.gen = taskGen id then some t else none

/-- Tasks not ended under an epoch tag (R455 LIVE_TAG). -/
def liveTag (c : Chip) (tag : Bool) : Nat := (c.sched.tasks.filter (fun e => e.2.st.live && e.2.desc.etag == tag)).length

/-! Counters, sticky bits and limited events. -/

/-- Counters of GX_SCHED_COUNTERS, in order. -/
def schedCount (pos n : Nat) (c : Chip) : Chip := bump 0x0912 scopeDev pos n c

def schedSticky (i : Nat) (c : Chip) : Chip := modSched (fun s => { s with events := s.events ||| BitVec.ofNat 5 (2 ^ i) }) c

/-- At most one event a second: the new window, and the number of occurrences to report when the event is raised. -/
def rateStep (w : RateWin) (now n : Nat) : RateWin × Option Nat :=
  if w.start = 0 ∨ w.start - 1 + 1000000000 ≤ now then ({ start := now + 1, count := 0 }, some (w.count + n))
  else ({ w with count := w.count + n }, none)

/-- A refusal of a slot (R436). -/
def slotRefused (c : Chip) : Chip :=
  let r := rateStep c.sched.slotsWin (localNs c) 1
  let c1 := modSched (fun s => { s with slotsWin := r.1 }) (schedSticky 3 (schedCount 4 1 c))
  match r.2 with
  | some n => raise 22 0x911 none 0 n c1
  | none => c1

/-- Signals that would take a counter below zero (R438). -/
def underflow (id n : Nat) (c : Chip) : Chip :=
  if n = 0 then c
  else
    let r := rateStep c.sched.underWin (localNs c) n
    let c1 := modSched (fun s => { s with underWin := r.1 }) (schedSticky 0 (schedCount 6 n c))
    match r.2 with
    | some m => raise 22 0x912 none id m c1
    | none => c1

def staleSignal (c : Chip) : Chip := schedSticky 1 (schedCount 5 1 c)

/-! Allocation (R436). -/

/-- The n-th slot that is free, counted from slot `i` on. -/
def nthFreeSlot : Tbl Task → Nat → Nat → Nat
  | [], i, n => i + n
  | (k, t) :: l, i, n =>
    if n < k - i then i + n
    else if t.st ≠ .free ∨ t.lost then nthFreeSlot l (k + 1) (n - (k - i))
    else if n = k - i then k else nthFreeSlot l (k + 1) (n - (k - i) - 1)

/-- Slots out of the submitters' reach: in use, or lost. -/
def slotsUsed (c : Chip) : Nat := (c.sched.tasks.filter (fun e => e.2.st != .free || e.2.lost)).length

/-- Slots in use of those that every submitter may take. -/
def sharedUsed (c : Chip) : Nat := (c.sched.tasks.filter (fun e => (e.2.st != .free && !e.2.kept) || e.2.lost)).length

/-- Slots that a submitter may take: `kept` is one whose task has a level of 0 to 3. -/
def slotsFree (c : Chip) (kept : Bool) : Nat :=
  if kept then schedSlots - slotsUsed c else min (schedSlots - slotsUsed c) (schedSlots - keptSlots - sharedUsed c)

/-- Take a free slot (R433, R436). Which one, the spec leaves open (log 22). -/
def allocTask (kept operator : Bool) (fn : Nat) (c : Chip) : Option Nat × Chip :=
  if slotsFree c kept = 0 then (none, slotRefused c)
  else
    let d := draw c
    let slot := nthFreeSlot c.sched.tasks 0 (d.1 % (schedSlots - slotsUsed c))
    let g := (getTask c slot).gen
    let gen := if thas c.sched.tasks slot then (g + 1) % 64 else 1
    (some slot, putTask slot { Task.zero with st := .allocated, gen := gen, operator := operator, fn := fn, kept := kept } d.2)

/-! Targets (R440 to R444). -/

/-- Media dies or clusters that a descriptor permits. -/
def TaskDesc.permits (d : TaskDesc) (i : Nat) : Bool := bit d.affinity.toNat i

/-- The engine of a cluster with a logical number is in service (R396, R430). -/
def engineInService (c : Chip) (e : Nat) : Bool :=
  match enginePhys c (e / 32) (e % 32) with
  | some p => unitActive c 0 (e / 32 * 64 + p)
  | none => false

/-- Some unit that a descriptor permits has not left service for good; a domain that is off counts as such (R444). -/
def targetAlive (c : Chip) (d : TaskDesc) : Bool :=
  let unit := fun (cls : Nat) (n : Nat) => domOn c (unitDomain cls n) && (getUnit c cls n).st != .retired && (getUnit c cls n).st != .spare
  match d.target with
  | 0 => (List.range 32).any (fun cl => d.permits cl && domOn c (clusterDomain cl) &&
      (List.range 32).any (fun l => (enginePhys c cl l).isSome))
  | 1 => (List.range 52).any (fun n => d.permits (n / 13) && unit 1 n)
  | 2 => (List.range 68).any (fun n => d.permits (n / 17) && unit 2 n)
  | 3 => (List.range 16).any (fun n => d.permits (n / 4) && unit 3 n)
  | _ => true

/-! Readiness, ending and signals (R437, R438, R445, R446, R451, R453). -/

/-- Work of the signal point. -/
inductive SchedItem where
  /-- signals to a task identifier -/
  | signal (id n : Nat)
  /-- a failed predecessor ends the task -/
  | fail (id : Nat)
  /-- the task's counter is zero -/
  | enter (slot : Nat)
  /-- the task became READY -/
  | ready (slot : Nat)
  /-- the task ends with a status, or is held for its flow -/
  | stop (slot status : Nat)
  /-- the task ends now -/
  | close (slot : Nat)
  deriving DecidableEq, Repr

/-- An earlier task of the same flow has not ended (R445). -/
def flowBlocked (c : Chip) (slot : Nat) : Bool :=
  let t := getTask c slot
  t.desc.flowEn && c.sched.tasks.any (fun e => e.1 != slot && e.2.desc.flowEn && e.2.st.live && e.2.desc.flow == t.desc.flow &&
    decide (e.2.flowSeq < t.flowSeq))

/-- The held task of a flow that comes first. -/
def firstHeld (c : Chip) (flow : Nat) : Option Nat :=
  ((c.sched.tasks.filter (fun e => e.2.desc.flowEn && e.2.st == .held && e.2.desc.flow == flow)).foldl
    (fun acc e => match acc with
      | some (s, q) => if e.2.flowSeq < q then some (e.1, e.2.flowSeq) else some (s, q)
      | none => some (e.1, e.2.flowSeq)) none).map Prod.fst

/-- The completion record, or the event of queue 255 (R451). -/
def complete (slot : Nat) (c : Chip) : Chip :=
  let t := getTask c slot
  let d := t.desc
  if d.compq = 0 then c
  else if d.compq = 255 then
    raise 22 0x910 (some t.fn) (taskId slot t.gen) (t.status + 2 ^ 16 * (t.exc.toNat % 2 ^ 32)) c
  else
    modSched (fun s => { s with comps := s.comps ++
      [{ queue := d.compq, task := taskId slot t.gen, status := t.status, aov := t.aov, sat := t.sat, etag := d.etag,
         target := d.target, unit := if t.ran then t.unit else 0, exc := t.exc, startNs := if t.ran then t.startNs % 2 ^ 48 else 0,
         ran := t.ran, endNs := svc c % 2 ^ 48 }] }) c

/-- What a task that ends does to a successor: it fails it, or signals it. -/
def succItem (t : Task) (w : Word) : List SchedItem :=
  if ¬ w.getLsbD 31 then []
  else if t.status ≠ 0 ∧ (t.desc.failProp ∨ t.status = 0x8007) then [.fail (w.toNat % 2 ^ 24)] else [.signal (w.toNat % 2 ^ 24) 1]

/-- ENDED: successors, record, and the slot is FREE again; the next held task of its flow follows. -/
def closeTask (slot : Nat) (c : Chip) : List SchedItem × Chip :=
  let t := getTask c slot
  let c1 := complete slot (if t.status = 0 then c else schedCount 1 1 c)
  let c2 := modTask slot (fun t => { t with st := .free, operator := false }) c1
  let next :=
    if t.desc.flowEn then
      match firstHeld c2 t.desc.flow with
      | some h => if flowBlocked c2 h then [] else [.close h]
      | none => []
    else []
  (succItem t t.desc.succ0 ++ succItem t t.desc.succ1 ++ next, c2)

/-- The task will end. One that ran, a null task among them, is held while an earlier task of its flow has not ended (R437, R445); one
that never runs ends at once (log 220). -/
def stopTask (slot status : Nat) (c : Chip) : List SchedItem × Chip :=
  let c1 := modTask slot (fun t => { t with status := status, done := false, waitTick := c.sched.ticks }) c
  if ((getTask c slot).st = .running ∨ status = 0) ∧ flowBlocked c1 slot then ([], modTask slot (fun t => { t with st := .held }) c1) else closeTask slot c1

/-- The counter is zero: DELAYED while RELEASE lies ahead, else READY. An entry due before the next tick is at the comparator
at once (log 32). -/
def enterTask (slot : Nat) (c : Chip) : List SchedItem × Chip :=
  let t := getTask c slot
  let next := c.sched.lastTick + c.sched.tickUs * 1000
  if svc c < t.desc.release then
    ([], putTask slot { t with st := .delayed, comparator := decide (t.desc.release < next) } c)
  else ([.ready slot], c)

/-- READY at a time of service. A null task completes at once (R435); a task whose target is lost ends (R444). -/
def readyAt (slot ns : Nat) (c : Chip) : List SchedItem × Chip :=
  let t := getTask c slot
  let c1 := putTask slot { t with st := .ready, readyNs := ns, level := t.desc.prio, promos := 0, comparator := false, late := false } c
  if t.desc.target = 7 then ([.stop slot 0], c1)
  else if targetAlive c t.desc then ([], c1) else ([.stop slot 0x8006], c1)

/-- Signals at the signal point (R438). -/
def signalTask (id n : Nat) (c : Chip) : List SchedItem × Chip :=
  let slot := taskSlot id
  match taskNamed c id with
  | none => ([], staleSignal c)
  | some t =>
    if t.st = .allocated then ([], putTask slot { t with count := t.count + n } c)
    else if t.st = .waiting then
      if n < t.count then ([], putTask slot { t with count := t.count - n } c)
      else ([.enter slot], underflow id (n - t.count) (putTask slot { t with count := 0 } c))
    else ([], staleSignal c)

/-- A failed predecessor ends a task that does not run yet (R453). -/
def failTask (id : Nat) (c : Chip) : List SchedItem × Chip :=
  match taskNamed c id with
  | some t =>
    if t.st = .allocated ∨ t.st = .waiting ∨ t.st = .delayed ∨ t.st = .ready then ([.stop (taskSlot id) 0x8002], c) else ([], c)
  | none => ([], c)

def schedItem (it : SchedItem) (c : Chip) : List SchedItem × Chip :=
  match it with
  | .signal id n => signalTask id n c
  | .fail id => failTask id c
  | .enter slot => enterTask slot c
  | .ready slot => readyAt slot (svc c) c
  | .stop slot status => stopTask slot status c
  | .close slot => closeTask slot c

/-- Carry out a list of work and what follows from it. -/
def schedLoop : Nat → List SchedItem → Chip → Chip
  | 0, _, c => c
  | _, [], c => c
  | n + 1, it :: l, c => let r := schedItem it c; schedLoop n (l ++ r.1) r.2

/-- Every task enters, becomes ready, stops and closes at most once, and each close signals at most two successors. -/
def schedRun (l : List SchedItem) (c : Chip) : Chip := schedLoop (l.length + 8 * c.sched.tasks.length + 8) l c

/-- A flow holds as many tasks as it may (R446). -/
def flowFull (c : Chip) (flow : Nat) : Bool :=
  decide (32768 ≤ (c.sched.tasks.filter (fun e => e.2.desc.flowEn && e.2.st.live && e.2.desc.flow == flow)).length)

/-- The service time that the 48 bits of RELEASE name: of the times with these low bits, the one nearest to now (log 219); 0 is none. -/
def releaseTime (now r : Nat) : Nat :=
  let ahead := (r % 2 ^ 48 + 2 ^ 48 - now % 2 ^ 48) % 2 ^ 48
  if r = 0 then 0 else if ahead < 2 ^ 47 then now + ahead else now - (2 ^ 48 - ahead)

/-- Submission of a descriptor into an allocated slot (R436, R438, R445). -/
def submitTask (slot : Nat) (d : TaskDesc) (c : Chip) : Chip :=
  let t := getTask c slot
  let seq := tget 0 c.sched.flowNext d.flow
  let c1 := if d.flowEn then modSched (fun s => { s with flowNext := tput s.flowNext d.flow (seq + 1) }) c else c
  let c2 := putTask slot { t with st := .waiting, desc := { d with release := releaseTime (svc c) d.release }, count := d.depCount - t.count, level := d.prio, flowSeq := seq,
                                  waitTick := c.sched.ticks } c1
  let c3 := underflow (taskId slot t.gen) (t.count - d.depCount) c2
  if d.depCount ≤ t.count then schedRun [.enter slot] c3 else c3

/-- A block of the device creates a task: the slot, or none where no slot is free (R436). -/
def createTask (fn : Nat) (d : TaskDesc) (c : Chip) : Option Nat × Chip :=
  if d.flowEn && flowFull c d.flow then (none, schedCount 8 1 c)
  else
    let r := allocTask (decide (d.prio < 4)) false fn c
    match r.1 with
    | some slot => (some slot, submitTask slot d r.2)
    | none => (none, r.2)

/-- The epoch tag of new work: bit 0 of the current epoch (R32). -/
def currentTag (c : Chip) : Bool := c.gx.current % 2 == 1

/-- The unit has done with a task and its writes are acknowledged; the ending is TASK_END's (R439). -/
def unitDone (slot status : Nat) (exc : BitVec 64) (aov sat : Bool) (c : Chip) : Chip :=
  if (getTask c slot).st = .running then
    modTask slot (fun t => { t with done := true, status := status, exc := exc, aov := aov, sat := sat }) c
  else c

/-- `TASK_END` (R439, R445, R451, R453). -/
def endTask (slot : Nat) (c : Chip) : Chip :=
  let t := getTask c slot
  if t.st = .running ∧ t.done then schedRun [.stop slot t.status] c else c

/-- READY tasks whose permitted units have all left service end (R444). -/
def endLost (c : Chip) : Chip :=
  schedRun ((c.sched.tasks.filter (fun e => e.2.st == .ready && !targetAlive c e.2.desc)).map (fun e => .stop e.1 0x8006)) c

/-- The drain limit ends the waiting tasks of a tag (R455). -/
def drainTasks (tag : Bool) (c : Chip) : Chip :=
  schedRun ((c.sched.tasks.filter (fun e => (e.2.st == .waiting || e.2.st == .delayed || e.2.st == .ready) &&
    e.2.desc.etag == tag)).map (fun e => .stop e.1 0x8004)) c

/-! Order of dispatch (R440). -/

/-- The task comes before another: level, then time of readiness, then slot. -/
def dispatchBefore (a b : Nat × Task) : Bool :=
  decide (a.2.level < b.2.level) ||
    (a.2.level == b.2.level && (decide (a.2.readyNs < b.2.readyNs) || (a.2.readyNs == b.2.readyNs && decide (a.1 < b.1))))

/-- The first of a list in the order of dispatch. -/
def firstTask (l : List (Nat × Task)) : Option (Nat × Task) :=
  l.foldl (fun acc e => match acc with
    | some a => if dispatchBefore e a then some e else some a
    | none => some e) none

/-- Heads of the ready queues of a target kind: of each level, its first task (R440). -/
def queueHeads (c : Chip) (target : Nat) : List (Nat × Task) :=
  let l := c.sched.tasks.filter (fun e => e.2.st == .ready && e.2.desc.target == target)
  (List.range 16).filterMap (fun lv => firstTask (l.filter (fun e => e.2.level == lv)))

/-- The head of the most urgent level whose head may run. -/
def headFor (c : Chip) (target : Nat) (may : Nat × Task → Bool) : Option (Nat × Task) := (queueHeads c target).find? may

/-- A task starts on a unit. -/
def startTask (slot unit : Nat) (c : Chip) : Chip :=
  schedCount 0 1 (modTask slot (fun t => { t with st := .running, ran := true, unit := unit, startNs := svc c, epoch := c.gx.current, done := false }) c)

/-! The tick (R441, R447, R448). -/

/-- Insert by release time and slot. -/
def insertDue (e : Nat × Nat) : List (Nat × Nat) → List (Nat × Nat)
  | [] => [e]
  | x :: l => if e.1 < x.1 ∨ (e.1 = x.1 ∧ e.2 < x.2) then e :: x :: l else x :: insertDue e l

/-- Promotion of a ready task at a tick: its level falls by one for each AGE_PERIOD since it became ready, and stops at
AGE_CEILING (R441). -/
def promote (s : Sched) (now : Nat) (t : Task) : Task :=
  let due := (now - t.readyNs) / (s.agePeriod * s.tickUs * 1000)
  if t.st = .ready ∧ !t.desc.noAge ∧ s.ageEn ∧ s.ageCeiling < t.level ∧ t.promos < due then
    { t with level := max s.ageCeiling (t.level - (due - t.promos)), promos := due }
  else t

/-- `SCHED_TICK`: at the next multiple of TICK_US of service time (R448), ready tasks are promoted and due delayed tasks go
to the comparator stage, at most 16,384 of them (R447). -/
def schedTick (c0 : Chip) : Chip :=
  let s0 := c0.sched
  let per := s0.tickUs * 1000
  let at_ := max ((s0.lastTick / per + 1) * per) (svc c0 / per * per)
  let c := waitSvc at_ c0
  let promoted := s0.tasks.map (fun e => (e.1, promote s0 at_ e.2))
  let gain := ((s0.tasks.zip promoted).map (fun p => p.1.2.level - p.2.2.level)).sum
  let delayed := s0.tasks.filter (fun e => e.2.st == .delayed && !e.2.comparator)
  let passed := delayed.filter (fun e => e.2.late || decide (e.2.desc.release ≤ at_))
  let due := (delayed.filter (fun e => !(e.2.late || decide (e.2.desc.release ≤ at_)) && decide (e.2.desc.release < at_ + per))).foldl
    (fun l e => insertDue (e.2.desc.release, e.1) l) []
  let now := (due.take 16384).map Prod.snd
  let rest := (due.drop 16384).map Prod.snd
  let tasks := promoted.map (fun e =>
    (e.1, if now.contains e.1 then { e.2 with comparator := true } else if rest.contains e.1 then { e.2 with late := true } else e.2))
  let lateN := (passed.filter (fun e => e.2.late)).length
  let c1 := { c with sched := { s0 with tasks := tasks, lastTick := at_, ticks := s0.ticks + 1, tickUs := s0.tickNext } }
  let c2 := if gain = 0 then c1 else schedCount 3 gain c1
  let c3 := if lateN = 0 then c2 else schedSticky 2 (schedCount 7 lateN c2)
  schedRun (passed.map (fun e => .ready e.1)) c3

/-- `TASK_RELEASE` (R447): the comparator makes a task READY at its RELEASE time. -/
def releaseTask (slot : Nat) (c : Chip) : Chip :=
  let t := getTask c slot
  if t.st = .delayed ∧ t.comparator then
    let r := readyAt slot t.desc.release (waitSvc t.desc.release c)
    schedRun r.1 r.2
  else c

/-- `TASK_WAIT_TIMEOUT` (R450). -/
def waitTimeout (slot : Nat) (c : Chip) : Chip :=
  let t := getTask c slot
  if c.sched.mode ≠ 3 ∧ (t.st = .waiting ∨ t.st = .held) ∧ t.waitTick + c.sched.waitTimeout ≤ c.sched.ticks then
    let c1 := schedCount 9 1 c
    if t.st = .held then schedRun [.close slot] (modTask slot (fun t => { t with status := 0x8003 }) c1)
    else schedRun [.stop slot 0x8003] c1
  else c

/-- A change of mode restarts the timing of every waiting task (R450). -/
def setSchedMode (mode : Nat) (c : Chip) : Chip :=
  if c.sched.mode = mode then c
  else modSched (fun s => { s with mode := mode, tasks := s.tasks.map (fun e =>
    (e.1, if e.2.st = .waiting ∨ e.2.st = .held then { e.2 with waitTick := s.ticks } else e.2)) }) c

/-! Rows. -/

/-- `SCHED_TICK`: the scheduler runs while HUB is on. -/
def execSchedTick (s : State) : Host.Outcome State Fault Refusal := act s (fun c => if domOn c 9 then schedTick c else c)

def execTaskRelease (slot : Nat) (s : State) : Host.Outcome State Fault Refusal := act s (releaseTask slot)

def execTaskWaitTimeout (slot : Nat) (s : State) : Host.Outcome State Fault Refusal := act s (waitTimeout slot)

/-- `SCHED_MODE_WRITE` (R449). -/
def execSchedModeWrite (fn : Nat) (v : Word) (s : State) : Host.Outcome State Fault Refusal :=
  act s (b2Write fn 0x700004 v (setSchedMode (v.toNat % 4)))

/-- `SCHED_TICK_WRITE` (R448): a value out of range sets CONFIG_ERROR (R456). -/
def execSchedTickWrite (fn : Nat) (v : Word) (s : State) : Host.Outcome State Fault Refusal :=
  act s (b2Write fn 0x700008 v (fun c =>
    let t := v.toNat % 1024
    if outside t 5 1000 then schedSticky 4 c else modSched (fun s => { s with tickNext := t }) c))

/-! Commands. -/

/-- A descriptor's words (R434). -/
def taskDescOf (w : List Word) : TaskDesc :=
  { target := bf w 0 0 3, prio := bf w 0 4 4, etag := bit (bw w 0) 8, flowEn := bit (bw w 0) 9, failProp := bit (bw w 0) 10,
    noAge := bit (bw w 0) 11, depCount := bf w 0 16 16, affinity := wd (bw w 4), work := bw w 8, flow := bf w 12 0 16,
    compq := bf w 12 16 8, args := (List.range 8).map (fun i => wd (bw w (16 + 4 * i))), succ0 := wd (bw w 0x30),
    succ1 := wd (bw w 0x34), release := bd w 0x38 % 2 ^ 48 }

/-- Header words of an operator program's image: its card's body is the command's 20 bytes and then the image (R427). -/
def progImage (g : Cfg) (i : Nat) : List Word := (g.body tProgram i).drop 5
def progUrgent (g : Cfg) (i : Nat) : Bool := bit (bw (progImage g i) 0x18) 0

/-- Tasks of the operator whose slots are not FREE. -/
def operatorTasks (c : Chip) : Nat := (c.sched.tasks.filter (fun e => e.2.operator && e.2.st != .free)).length

def operatorLimit : Nat := 16384

/-- A successor names a slot that the operator allocated. -/
def succOk (c : Chip) (w : Word) : Bool :=
  !w.getLsbD 31 || (match taskNamed c (w.toNat % 2 ^ 24) with | some t => t.operator | none => false)

/-- The command of R436. -/
def taskSubmit (x : Ctx) (c : Chip) : Chip :=
  let d := { taskDescOf x.body with etag := currentTag c }
  let id := bw x.body 0x40
  let slot := taskSlot id
  let prog := (cfg c).at tProgram d.work
  if d.target = 0 ∧ (1024 ≤ d.work ∨ prog.isNone) then x.done (Res.err 0x0008) c
  else if !succOk c d.succ0 ∨ !succOk c d.succ1 then x.done (Res.err 0x0008) c
  else if d.target = 0 ∧ d.prio < 4 ∧ !progUrgent (cfg c) d.work then x.done (Res.err 0x0911) c
  else if id ≠ 0 then
    match taskNamed c id with
    | some t =>
      if ¬ t.operator then x.done (Res.err 0x0008) c
      else if t.st ≠ .allocated then x.done (Res.err 0x0912) c
      else if d.flowEn && flowFull c d.flow then x.done (Res.err 0x0910) (schedCount 8 1 c)
      else x.done (Res.ok [wd (taskId slot t.gen)]) (submitTask slot d c)
    | none => x.done (Res.err 0x0008) c
  else if operatorLimit ≤ operatorTasks c then x.done (Res.err 0x0910) c
  else if d.flowEn && flowFull c d.flow then x.done (Res.err 0x0910) (schedCount 8 1 c)
  else
    let r := allocTask (decide (d.prio < 4)) true x.fn c
    match r.1 with
    | some slot => x.done (Res.ok [wd (taskId slot (getTask r.2 slot).gen)]) (submitTask slot d r.2)
    | none => x.done (Res.err 0x0910) r.2

def execGxTaskSubmit (cmd : CmdRef) (s : State) : Host.Outcome State Fault Refusal :=
  act s (serve 0x0910 cmd (fun b => firstBad [(bf b 0 0 3 != 0 && bf b 0 0 3 != 7, 0)]) taskSubmit)

/-- A task that the operator may name. -/
def operatorTask (c : Chip) (id : Nat) : Option Task :=
  match taskNamed c id with
  | some t => if t.operator then some t else none
  | none => none

/-- The command of R454: it ends a task that does not run yet. -/
def taskCancel (x : Ctx) (c : Chip) : Chip :=
  let id := bw x.body 0
  match operatorTask c id with
  | none => x.done (Res.err 0x0008) c
  | some t =>
    let can := t.st == .allocated || t.st == .waiting || t.st == .delayed || t.st == .ready
    x.done (Res.ok [wd (t.st.code + 256 * b2n can)]) (if can then schedRun [.stop (taskSlot id) 0x8005] c else c)

def execGxTaskCancel (cmd : CmdRef) (s : State) : Host.Outcome State Fault Refusal := act s (serve 0x0911 cmd noFields taskCancel)

/-- Allocate `n` slots one after another. -/
def allocMany (fn : Nat) : Nat → Chip → List Nat × Chip
  | 0, c => ([], c)
  | n + 1, c =>
    let r := allocTask false true fn c
    match r.1 with
    | some slot => let t := allocMany fn n r.2; (taskId slot (getTask r.2 slot).gen :: t.1, t.2)
    | none => ([], r.2)

def taskAlloc (x : Ctx) (c : Chip) : Chip :=
  let n := bf x.body 0 0 7
  if operatorLimit < operatorTasks c + n then x.done (Res.err 0x0910) c
  else if slotsFree c false < n then x.done (Res.err 0x0910) (slotRefused c)
  else let r := allocMany x.fn n c; x.done (Res.ok (r.1.map wd)) r.2

/-- `GX_TASK_ALLOC`: all slots or none. -/
def execGxTaskAlloc (cmd : CmdRef) (s : State) : Host.Outcome State Fault Refusal :=
  act s (serve 0x0913 cmd (fun b => firstBad [(outside (bf b 0 0 7) 1 64, 0)]) taskAlloc)

def taskSignal (x : Ctx) (c : Chip) : Chip :=
  let id := bw x.body 0
  match operatorTask c id with
  | none => x.done (Res.err 0x0008) c
  | some t =>
    if t.st ≠ .allocated ∧ t.st ≠ .waiting then x.done (Res.err 0x0912) c
    else
      let c1 := schedRun [.signal id (bf x.body 4 0 16)] c
      x.done (Res.ok [wd (getTask c1 (taskSlot id)).st.code]) c1

/-- `GX_TASK_SIGNAL` (R438). -/
def execGxTaskSignal (cmd : CmdRef) (s : State) : Host.Outcome State Fault Refusal :=
  act s (serve 0x0914 cmd (fun b => firstBad [(outside (bf b 4 0 16) 1 65535, 4)]) taskSignal)

/-- `GX_SCHED_COUNTERS`. -/
def execGxSchedCounters (cmd : CmdRef) (s : State) : Host.Outcome State Fault Refusal :=
  act s (serve 0x0912 cmd noFields (fun x c =>
    x.done (Res.ok (ctrWords c 0x0912 scopeDev 10)) (if bit (bw x.body 0) 0 then ctrClear 0x0912 scopeDev 10 c else c)))

end Sys2Proof.Machine
end

