-- ==== Sys2Proof/Machine/Dma.lean ====
section
/-!
DEFINITION. BAR4 windows (R80, R81) and DMA (R474 to R482, R489): descriptors, their checks and what they move, pause and
abort, the shadow set, completion records, and the commands GX_DMA_SUBMIT and GX_WINDOW_MAP.
-/
namespace Sys2Proof.Machine
open Sys2Proof

/-! Windows. -/

def pageBytes : Nat := 2 * mib

/-- Bytes of a function's BAR4 (R56, R607). -/
def bar4Bytes (c : Chip) (fn : Nat) : Nat := 2 ^ (if isVf fn then c.host.vfBar4 else c.host.pfBar4)

/-- The window-region page that a function's page maps to. -/
def pageOf (c : Chip) (fn page : Nat) : Option Nat :=
  (c.pools.pages.find? (fun e => e.1 == fn * 65536 + page)).map Prod.snd

/-- Device address of a byte of a function's window. -/
def windowAddr (c : Chip) (fn off : Nat) : Option Nat :=
  (pageOf c fn (off / pageBytes)).map (fun p => fixedBytes + p * pageBytes + off % pageBytes)

/-- The pieces of a window range in device memory, when every page of it is mapped. -/
def windowPieces (c : Chip) (fn off n : Nat) : Option (List (Nat × Nat)) :=
  if n = 0 then some []
  else
    (List.range ((off + n - 1) / pageBytes - off / pageBytes + 1)).foldl (fun acc i =>
      let pg := off / pageBytes + i
      let lo := max off (pg * pageBytes)
      let hi := min (off + n) (pg * pageBytes + pageBytes)
      match acc, windowAddr c fn lo with
      | some l, some a => some (l ++ [(a, hi - lo)])
      | _, _ => none) (some [])

/-- Window-region pages that no window maps. -/
def freePages (c : Chip) : List Nat :=
  (List.range (c.pools.windowBytes / pageBytes)).filter (fun p => !c.pools.pages.any (fun e => e.2 == p))

/-- Map one page of a function's window: zeroed first if it was last mapped to another function (R81). Which free page it
takes, the spec leaves open (log 22). -/
def mapPage (fn page : Nat) (p : Chip × List MemOp) : Chip × List MemOp :=
  let c := p.1
  if (pageOf c fn page).isSome then p
  else
    let l := freePages c
    let d := draw c
    match l[d.1 % (if l.length = 0 then 1 else l.length)]? with
    | none => p
    | some g =>
      let last := tget 0 c.pools.lastFn g
      let c1 := { d.2 with pools := { d.2.pools with pages := (fn * 65536 + page, g) :: d.2.pools.pages,
                                                     lastFn := tput d.2.pools.lastFn g (fn + 1) } }
      (c1, if last ≠ 0 ∧ last ≠ fn + 1 then p.2 ++ memZero (fixedBytes + g * pageBytes) pageBytes c else p.2)

/-- What is done to a slot's command and to memory at once: `serve` for commands that also write memory. -/
def serveMem (op : Nat) (r : CmdRef) (fields : List Word → Option Nat) (run : Ctx → Chip → Chip)
    (ops : Ctx → Chip → List MemOp) (c : Chip) : Chip × List MemOp :=
  let k := slotKey r.fn r.slot
  let after := serve op r fields run c
  let s := getSlot c k
  let body := s.bodyWith s.extension
  if (getSlot after k).st = .done ∧ s.open_ ∧ (getSlot after k).status = 0 then (after, ops (ctxOf k s body) c) else (after, [])

/-- GX_WINDOW_MAP: the pages of the body. -/
def windowPagesOf (b : List Word) : List Nat := (List.range (bf b 4 0 16)).map (fun i => bf b 0 0 16 + i)

def windowMapped (x : Ctx) (c : Chip) : Chip × List MemOp :=
  (windowPagesOf x.body).foldl (fun p page => mapPage x.fn page p) (c, [])

def windowMap (x : Ctx) (c : Chip) : Chip :=
  let pages := windowPagesOf x.body
  let un := bit (bw x.body 8) 0
  if pages.any (fun p => decide (bar4Bytes c x.fn < (p + 1) * pageBytes)) then x.done (Res.err 0x0A09) c
  else if un then
    x.done (Res.ok []) { c with pools := { c.pools with
      pages := c.pools.pages.filter (fun e => !(e.1 / 65536 == x.fn && pages.contains (e.1 % 65536))) } }
  else if (freePages c).length < (pages.filter (fun p => (pageOf c x.fn p).isNone)).length then x.done (Res.err 0x0A08) c
  else x.done (Res.ok []) (windowMapped x c).1

def execGxWindowMap (cmd : CmdRef) (s : State) : Host.Outcome State Fault Refusal :=
  actMem s (fun c _ => serveMem 0x0A03 cmd noFields windowMap
    (fun x c => if bit (bw x.body 8) 0 then [] else (windowMapped x c).2) c)

/-! Descriptors (R475). -/

def descOf (w : List Word) : DmaDesc :=
  { op := bf w 0 0 2, srcSpace := bf w 0 2 2, dstSpace := bf w 0 4 2, record := bit (bw w 0) 6, func := bf w 0 8 8,
    length := bw w 4, src := bd w 8, dst := bd w 16, user := bw w 24 }

/-- A descriptor as its eight words, reserved bits 0. -/
def descWords (d : DmaDesc) : List Word :=
  [wd (d.op + 4 * d.srcSpace + 16 * d.dstSpace + 64 * b2n d.record + 256 * d.func), wd d.length] ++ wd2 d.src ++ wd2 d.dst ++ [wd d.user, 0]

def modChan (ch : Nat) (f : Chan → Chan) (c : Chip) : Chip := { c with chans := tmod Chan.zero c.chans ch f }

/-- Pieces in device memory of `n` bytes at a place of a space: none for host memory, nothing where it is not valid. -/
def spacePieces (c : Chip) (space fn addr n : Nat) : Option (List (Nat × Nat)) :=
  match space with
  | 0 =>
    let h := addr % 2 ^ 32
    let off := addr / 2 ^ 32
    if current c h ∧ (getBuf c h).owner = identity fn 7 ∧ off + n ≤ poolBytes (handlePool h) then some [(bufAddr c h + off, n)] else none
  | 1 => some []
  | 2 => if addr + n ≤ bar4Bytes c fn then windowPieces c fn addr n else none
  | _ => none

/-- The place's address or offset is a multiple of 16. -/
def spaceAligned (space addr : Nat) : Bool := if space = 0 then addr / 2 ^ 32 % 16 == 0 else addr % 16 == 0

/-- Two ranges of device memory overlap. -/
def overlap (a b : Nat × Nat) : Bool := decide (a.1 < b.1 + b.2 ∧ b.1 < a.1 + a.2)

/-- The checks of R476, in order: 0, or the status with which the descriptor ends. -/
def checkDesc (c : Chip) (d : DmaDesc) : Nat :=
  let fill := d.op == 1
  let needHost := (!fill && d.srcSpace == 1) || d.dstSpace == 1
  let srcP := if fill then some [] else spacePieces c d.srcSpace d.func d.src d.length
  let dstP := spacePieces c d.dstSpace d.func d.dst d.length
  if d.length % 16 ≠ 0 ∨ (¬ fill ∧ !spaceAligned d.srcSpace d.src) ∨ !spaceAligned d.dstSpace d.dst then 0x0A01
  else if d.op = 3 ∨ (¬ fill ∧ d.srcSpace = 3) ∨ d.dstSpace = 3 ∨ srcP.isNone ∨ dstP.isNone ∨ !fnExists c d.func then 0x0A04
  else if needHost ∧ !hostReach c d.func then 0x0005
  else if ¬ fill ∧ ((srcP.getD []).any (fun a => (dstP.getD []).any (overlap a)) ∨
      (d.srcSpace = 1 ∧ d.dstSpace = 1 ∧ overlap (d.src, d.length) (d.dst, d.length))) then 0x0A02
  else 0

/-- Nothing differs. -/
def noMismatch : Nat := 2 ^ 64 - 1

/-- Move a place on by `n` bytes. -/
def spaceAdd (space addr n : Nat) : Nat := if space = 0 then addr + n * 2 ^ 32 else addr + n

/-- Bytes of a place: read from its pieces of device memory, or the data that host memory returned. The second part lists,
by offset, the words that are poisoned. -/
def readSpace (m : Mem) (c : Chip) (space fn addr n : Nat) (hostData : List Byte) : List Byte × List Nat × Chip :=
  if space = 1 then ((hostData ++ List.replicate n 0).take n, [], c)
  else
    ((spacePieces c space fn addr n).getD []).foldl (fun r p =>
      let x := memRead m p.1 p.2 r.2.2
      (r.1 ++ x.1, r.2.1 ++ x.2.1.map (fun w => r.1.length + (w * 8 - p.1)), x.2.2)) ([], [], c)

/-- Write bytes to a place, with the words given by offset stored as poison, or sent as poisoned TLPs (R478). -/
def writeSpace (m : Mem) (c : Chip) (space fn addr : Nat) (data : List Byte) (bad : List Nat) : Chip × List MemOp :=
  if space = 1 then
    (bad.foldl (fun c o => emit (.hostPoison fn (addr + o)) c) (emit (.hostData fn addr (wordsOf data)) c), [])
  else
    let r := ((spacePieces c space fn addr data.length).getD []).foldl (fun (r : Nat × Chip × List MemOp) p =>
      let w := memWrite m p.1 ((data.drop r.1).take p.2) false r.2.1
      let ps := (bad.filter (fun o => decide (r.1 ≤ o ∧ o < r.1 + p.2))).map (fun o => (p.1 + (o - r.1)) / 8)
      (r.1 + p.2, w.2, r.2.2 ++ w.1 ++ poisonWords w.2 ps)) (0, c, [])
    (r.2.1, r.2.2)

/-- Offset of the first 16-byte unit that differs. -/
def firstDiff : Nat → List Byte → List Byte → Nat
  | _, [], _ => noMismatch
  | i, a :: l, r => if r.head? = some a then firstDiff (i + 1) l r.tail else i / 16 * 16

/-- Eight bytes of the FILL constant, low byte first. -/
def fillBytes (v n : Nat) : List Byte := (List.range n).map (fun i => BitVec.ofNat 8 (v / 2 ^ (8 * (i % 8))))

/-- Move `n` bytes of the active descriptor of a channel (R477, R478). -/
def moveBytes (ch n : Nat) (hostSrc hostDst : List Byte) (c : Chip) (m : Mem) : Chip × List MemOp :=
  let x := getChan c ch
  let d := x.act
  let o := x.outcome
  let next := fun (o : DmaResult) (c : Chip) =>
    modChan ch (fun x => { x with actSrc := if d.op = 1 then x.actSrc else spaceAdd d.srcSpace x.actSrc n,
                                  actDst := spaceAdd d.dstSpace x.actDst n, actLen := x.actLen - n,
                                  outcome := { o with bytes := o.bytes + n } }) c
  if d.op = 1 then
    let w := writeSpace m c d.dstSpace d.func x.actDst (fillBytes x.actSrc n) []
    (next o w.1, w.2)
  else if d.op = 0 then
    let r := readSpace m c d.srcSpace d.func x.actSrc n hostSrc
    let w := writeSpace m r.2.2 d.dstSpace d.func x.actDst r.1 r.2.1
    let o1 := match r.2.1 with
      | [] => o
      | b :: _ => { o with poison := true, status := if d.dstSpace = 1 then 0x0A03 else o.status,
                           mismatch := if d.dstSpace = 1 ∧ o.mismatch = noMismatch then o.bytes + b else o.mismatch }
    (next o1 w.1, w.2)
  else
    let r := readSpace m c d.srcSpace d.func x.actSrc n hostSrc
    let t := readSpace m r.2.2 d.dstSpace d.func x.actDst n hostDst
    let bad := (r.2.1 ++ t.2.1).map (fun b => b / 16 * 16)
    let diff := bad.foldl min (firstDiff 0 r.1 t.1)
    let o1 := { o with poison := o.poison || !bad.isEmpty,
                       mismatch := if o.mismatch = noMismatch ∧ diff ≠ noMismatch then o.bytes + diff else o.mismatch }
    (next o1 t.2.2, [])

/-! Completion (R482) and the shadow set (R480, R481). -/

/-- Bytes of a completion record. -/
def recordWords (ch : Nat) (d : DmaDesc) (r : DmaResult) (c : Chip) : List Word :=
  [wd d.user, wd (r.status + 2 ^ 16 * ch + 2 ^ 22 * d.op + 2 ^ 24 * b2n r.poison)] ++ wd2 r.bytes ++ wd2 r.mismatch ++
    wd2 (svc c % 2 ^ 48)

/-- Word 0 of a descriptor without its reserved bits (R10, R475). -/
def descWord0 (w : Word) : Word := w &&& 0x0000FF7F#32

/-- A descriptor enters the active set, and its epoch `e` is fixed (R35, R477). -/
def Chan.load (x : Chan) (e : Nat) (d : DmaDesc) (w0 : Word) : Chan :=
  { x with active := true, started := false, epoch := e, act := d, actSrc := d.src, actDst := d.dst, actLen := d.length,
           actWord0 := descWord0 w0, outcome := { status := 0, poison := false, bytes := 0, mismatch := noMismatch } }

/-- An armed shadow is taken at a descriptor boundary: one hand-over cycle (R480). -/
def handOver (e : Nat) (x : Chan) : Chan :=
  if x.active ∨ !x.arm ∨ x.pause ∨ x.paused ∨ x.cqFull then x
  else { x.load e (descOf (wordsGet x.sh 0 8)) (tget 0 x.sh 0) with arm := false, taken := true }

/-- The channel's work for a command is done: the result holds one entry of 16 bytes for each descriptor. -/
def resultEntry (r : DmaResult) : List Word := [wd (r.status + 2 ^ 16 * b2n r.poison), wd r.bytes] ++ wd2 r.mismatch

/-- After a record: the next descriptor of a command, the end of a command or of a task (R474), or the shadow. -/
def chanNext (ch : Nat) (c : Chip) : Chip :=
  let x := getChan c ch
  if x.cmd ≠ 0 ∧ x.chain = [] then
    finish (x.cmd - 1) (Res.ok (x.results.flatMap resultEntry))
      (modChan ch (fun x => { x with cmd := 0, results := [], active := false, started := false, cut := [] }) c)
  else if x.task ≠ 0 ∧ x.chainLeft = 0 then
    let bad := (x.results.find? (fun r => r.status != 0)).map (fun r => r.status)
    unitDone (x.task - 1) (bad.getD 0) 0 false false
      (modChan ch (fun x => { x with task := 0, results := [], active := false, started := false, cut := [] }) c)
  else modChan ch (handOver c.gx.current) c

/-- Write the record of a completed descriptor, or stall the channel while its queue is full. A record for host memory that
cannot be reached is not written (R85). -/
def writeRecord (ch : Nat) (r : DmaResult) (c : Chip) (m : Mem) : Chip × List MemOp :=
  let x := getChan c ch
  let size := 2 ^ x.cqLog2
  if !x.act.record ∨ outside x.cqLog2 4 16 ∨ x.cmd ≠ 0 then (chanNext ch c, [])
  else if (x.cqTail + 1) % size = x.cqHead % size then
    (modChan ch (fun x => { x with cqFull := true, stalled := some r }) c, [])
  else
    let words := recordWords ch x.act r c
    let a := x.cqBase + 32 * x.cqTail
    let c1 := modChan ch (fun x => { x with cqTail := (x.cqTail + 1) % size, cqFull := false, stalled := none }) c
    if x.cqSpace = 1 then (chanNext ch (if hostReach c x.act.func then emit (.hostWrite x.act.func a words) c1 else c1), [])
    else
      let w := memWrite m a (bytesOf words) false c1
      (chanNext ch w.2, w.1)

/-- A descriptor completes (R476, R477, R482). What MISMATCH holds where neither COMPARE nor poison sets it, the spec does
not give (log 26). -/
def completeDesc (ch : Nat) (c : Chip) (m : Mem) : Chip × List MemOp :=
  let x := getChan c ch
  let open_ := x.outcome.mismatch = noMismatch ∧ (x.act.op ≠ 2 ∨ x.outcome.status ≠ 0)
  let d := draw c
  let r := if open_ then { x.outcome with mismatch := d.1 % 2 ^ 64 } else x.outcome
  let c1 := modChan ch (fun x => { x with active := false, started := false, actLen := x.act.length - r.bytes,
                                          results := if x.cmd ≠ 0 ∨ x.task ≠ 0 then x.results ++ [r] else x.results })
    (if open_ then d.2 else c)
  writeRecord ch r c1 m

/-! Rows. -/

/-- A descriptor that targets the host memory of a function (R85). -/
def DmaDesc.targets (d : DmaDesc) (fn : Nat) : Bool := d.func == fn && ((d.op != 1 && d.srcSpace == 1) || d.dstSpace == 1)

/-- Status with which a fetched descriptor of a chain is rejected: it was read with poison, or a reset has cut its host memory
off (R85). -/
def fetchStatus (poison : Bool) (cut : List Nat) (d : DmaDesc) : Nat :=
  if poison then 0x0A04 else if cut.any d.targets then 0x0005 else 0

/-- A fetched descriptor of a chain enters the active set through the shadow, which a scheduler channel fills from its chain (R480). -/
def loadDesc (ch : Nat) (d : DmaDesc) (poison : Bool) (c : Chip) : Chip :=
  modChan ch (fun x =>
    let y := x.load c.gx.current { d with record := d.record && !x.cut.contains d.func } ((descWords d).getD 0 0)
    { y with sh := wordsPut [] 0 (descWords d), taken := true, outcome := { y.outcome with status := fetchStatus poison x.cut d } }) c

/-- Take the next descriptor when none is active: of a command, of a task's chain in memory, or the shadow. -/
def fetchDesc (ch : Nat) (c : Chip) (m : Mem) : Chip :=
  let x := getChan c ch
  if x.active ∨ x.pause ∨ x.paused ∨ x.cqFull then c
  else
    match x.chain with
    | d :: rest =>
      loadDesc ch d false (modChan ch (fun x => { x with chain := rest }) c)
    | [] =>
      if 0 < x.chainLeft then
        let r := memRead m x.chainAddr 32 c
        let w := wordsOf r.1
        loadDesc ch (descOf w) (!r.2.1.isEmpty)
          (modChan ch (fun x => { x with chainAddr := x.chainAddr + 32, chainLeft := x.chainLeft - 1 }) r.2.2)
      else modChan ch (handOver c.gx.current) c

/-- `DMA_DESCRIPTOR_START` (R474, R476, R477): the descriptor is fetched or taken, and it is checked; one that is rejected, or
moves nothing, completes at once. -/
def descStart (ch : Nat) (c : Chip) (m : Mem) : Chip × List MemOp :=
  let c1 := fetchDesc ch c m
  let x := getChan c1 ch
  if !x.active ∨ x.started ∨ x.pause then (c1, [])
  else
    let st := if x.outcome.status ≠ 0 then x.outcome.status else checkDesc c1 x.act
    let c2 := modChan ch (fun x => { x with started := true, outcome := { x.outcome with status := st } }) c1
    if st ≠ 0 ∨ x.act.length = 0 then completeDesc ch c2 m else (c2, [])

/-- `DMA_DESCRIPTOR_DONE` (R477, R478, R482): what is left of the descriptor is moved and it completes. -/
def descDone (ch : Nat) (hostSrc hostDst : List Byte) (c : Chip) (m : Mem) : Chip × List MemOp :=
  let x := getChan c ch
  if x.active ∧ x.started ∧ ¬ x.paused then
    let r := moveBytes ch x.actLen hostSrc hostDst c m
    let t := completeDesc ch r.1 (m.apply r.2)
    (t.1, r.2 ++ t.2)
  else (c, [])

/-- Channels that the operator drives (R489). -/
def directChan (ch : Nat) : Bool := decide (56 ≤ ch ∧ ch < 64)

/-- A write of register `off` of a channel by the operator: an RWL field behind its block's domain and lock, but read-only where
`direct` asks for a direct channel and this is none (R489). -/
def dmaWrite (fn ch off : Nat) (direct : Bool) (v : Word) (f : Chip → Mem → Chip × List MemOp) (c : Chip) (m : Mem) :
    Chip × List MemOp :=
  let rw := decide (ch < 64) && (!direct || directChan ch)
  match b2Turned fn (0x500000 + 0x100 * ch + off) rw v c with
  | some c1 => (c1, [])
  | none => if rw then f c m else (c, [])

/-- `DMA_PAUSE` (R479): PAUSE is set. -/
def execDmaPause (fn chan : Nat) (s : State) : Host.Outcome State Fault Refusal :=
  actMem s (dmaWrite fn chan 0 false 1 (fun c _ =>
    (modChan chan (fun x => { x with pause := true, paused := x.paused || !x.active || !x.started }) c, [])))

/-- `DMA_PAUSED` (R479): the last write of what was read is acknowledged, `moved` bytes in all since the descriptor's present
start; the active registers state what is left. -/
def dmaPaused (ch moved : Nat) (hostSrc hostDst : List Byte) (c : Chip) (m : Mem) : Chip × List MemOp :=
  let x := getChan c ch
  if ch < 64 ∧ x.pause ∧ x.active ∧ x.started ∧ ¬ x.paused then
    let r := moveBytes ch (min (moved / 16 * 16) x.actLen) hostSrc hostDst c m
    (modChan ch (fun x => { x with paused := true }) r.1, r.2)
  else (c, [])

def execDmaPaused (chan moved : Nat) (hostSrc hostDst : List Byte) (s : State) : Host.Outcome State Fault Refusal :=
  actMem s (dmaPaused chan moved hostSrc hostDst)

/-- `DMA_RESUME` (R479): PAUSE is cleared and the descriptor goes on from the active registers. -/
def execDmaResume (fn chan : Nat) (s : State) : Host.Outcome State Fault Refusal :=
  actMem s (dmaWrite fn chan 0 false 0 (fun c _ =>
    (modChan chan (fun x => handOver c.gx.current { x with pause := false, paused := false }) c, [])))

/-- ABORT is set on a channel (R479): with PAUSED 1 the descriptor ends with GX_E_DMA_ABORTED and the bytes moved. -/
def abortChan (chan : Nat) (c : Chip) (m : Mem) : Chip × List MemOp :=
  let x := getChan c chan
  let c1 := modChan chan (fun x => { x with abort := true }) c
  if x.paused ∧ x.active ∧ x.started then
    completeDesc chan (modChan chan (fun x => { x with outcome := { x.outcome with status := 0x0A05 } }) c1) m
  else (c1, [])

/-- A shadow word without the reserved bits of its descriptor (R10, R475). -/
def shadowMask (i : Nat) (v : Word) : Word := if i = 0 then descWord0 v else if i = 7 then 0 else v

/-- A write to the shadow words or SH_CTRL takes effect. -/
def shadowApply (e off : Nat) (v : Word) (x : Chan) : Chan :=
  if off = 0x40 then
    let x1 := if v.getLsbD 3 then { x with busy := false } else x
    let x2 := if v.getLsbD 1 then { x1 with arm := false } else x1
    if v.getLsbD 0 then handOver e { x2 with arm := true, taken := false } else x2
  else if x.arm then { x with busy := true }
  else { x with sh := tput x.sh ((off - 0x20) / 4) (shadowMask ((off - 0x20) / 4) v) }

/-- A write to the shadow registers of a direct channel; one that arrives in the hand-over cycle is held (R481). -/
def shadowWrite (fn chan off : Nat) (v : Word) (held : Bool) : Chip → Mem → Chip × List MemOp :=
  dmaWrite fn chan off true v (fun c _ =>
    (modChan chan (fun x => if held then { x with heldWrite := some (off, v) } else shadowApply c.gx.current off v x) c, []))

/-- `SHADOW_ARM` (R480). -/
def execShadowArm (fn chan : Nat) (held : Bool) (s : State) : Host.Outcome State Fault Refusal :=
  actMem s (shadowWrite fn chan 0x40 1 held)

/-- `SHADOW_DISARM` (R481). -/
def execShadowDisarm (fn chan : Nat) (held : Bool) (s : State) : Host.Outcome State Fault Refusal :=
  actMem s (shadowWrite fn chan 0x40 2 held)

/-- `SHADOW_WORD_WRITE` (R481). -/
def execShadowWordWrite (fn chan word : Nat) (v : Word) (held : Bool) (s : State) : Host.Outcome State Fault Refusal :=
  actMem s (shadowWrite fn chan (0x20 + 4 * (word % 8)) v held)

/-- `DMA_HELD_WRITE_APPLY` (R481): the write held in the hand-over cycle is applied after the copy. -/
def execDmaHeldWriteApply (chan : Nat) (s : State) : Host.Outcome State Fault Refusal :=
  act s (fun c =>
    match (getChan c chan).heldWrite with
    | some w => modChan chan (fun x => shadowApply c.gx.current w.1 w.2 { x with heldWrite := none }) c
    | none => c)

/-- The operator consumes records (R482); a channel stalled on a full queue writes its record. -/
def cqHeadWrite (chan : Nat) (v : Word) (c : Chip) (m : Mem) : Chip × List MemOp :=
  let c1 := modChan chan (fun x => { x with cqHead := v.toNat }) c
  match (getChan c chan).stalled with
  | some r => writeRecord chan r (modChan chan (fun x => { x with cqFull := false }) c1) m
  | none => (c1, [])

/-- A reset of a function ends what a channel does in its host memory, without a record (R85). What a task, or a command of another
function, has not fetched yet of its chain is cut off from that memory. -/
def cutChan (fn : Nat) (x : Chan) : Chan :=
  let own := decide (x.cmd ≠ 0 ∧ (x.cmd - 1) / 64 = fn)
  let toHost := fun (d : DmaDesc) => d.targets fn || (d.record && x.cqSpace == 1 && d.func == fn)
  let x1 := { x with cmd := if own then 0 else x.cmd, results := if own then [] else x.results,
                     chain := if own then x.chain.filter (fun d => !d.targets fn) else x.chain, arm := x.arm && !toHost (descOf (wordsGet x.sh 0 8)),
                     cut := if own ∨ (x.cmd = 0 ∧ x.task = 0) then x.cut else linsert x.cut fn }
  if x1.active then (if x1.act.func = fn then { x1 with act := { x1.act with record := false } } else x1) else x1

/-- A reset of a function, for one channel (R85). -/
def endHostChan (fn ch : Nat) (c : Chip) : Chip :=
  let x := getChan c ch
  let stopped := x.active && x.act.targets fn
  let parked := x.stalled.isSome && x.cqSpace == 1 && x.act.func == fn
  let c1 := modChan ch (cutChan fn) c
  if stopped then
    let r := { x.outcome with status := 0x0005 }
    chanNext ch (modChan ch (fun x =>
      { x with active := false, started := false, results := if x.cmd ≠ 0 ∨ x.task ≠ 0 then x.results ++ [r] else x.results }) c1)
  else if parked then chanNext ch (modChan ch (fun x => { x with stalled := none, cqFull := false }) c1)
  else c1

/-- DMA of the function's commands, and descriptors that target its host memory, end without further TLPs (R85). -/
def endHostDma (fn : Nat) (c : Chip) : Chip := (c.chans.map Prod.fst).foldl (fun c ch => endHostChan fn ch c) c

/-! GX_DMA_SUBMIT. -/

/-- Descriptors of the body, with FUNC set to the issuing function but for the operator, and RECORD ignored. -/
def submitDescs (x : Ctx) : List DmaDesc :=
  (List.range (bf x.body 0 0 5)).map (fun i =>
    let d := descOf (x.body.drop (8 + 8 * i))
    { d with func := if x.operator then d.func else x.fn, record := false })

/-- The descriptors go to an idle channel; which one, the spec leaves open (log 22). With none idle the command waits. -/
def dmaSubmit (x : Ctx) (c : Chip) : Chip :=
  let l := idleChans c
  let d := draw c
  match l[d.1 % (if l.length = 0 then 1 else l.length)]? with
  | none => modSlot x.k (fun s => { s with taken := false }) c
  | some ch => modChan ch (fun y => { y with cmd := x.k + 1, chain := submitDescs x, results := [] }) d.2

def execGxDmaSubmit (cmd : CmdRef) (s : State) : Host.Outcome State Fault Refusal :=
  act s (serve 0x0A02 cmd (fun b => firstBad [(outside (bf b 0 0 5) 1 16, 0)]) dmaSubmit)

end Sys2Proof.Machine
end

