-- ==== Sys2Proof/Machine/Urymon.lean ====
section
/-!
DEFINITION. Urymon engines (chapter 12): registers, circular addressing, the exposed pipeline, every instruction class,
transfers, exceptions, urgent entry, and what a task finds when it starts.
-/
namespace Sys2Proof.Machine
open Sys2Proof

/-! Encodings (R413, R414). -/

/-- Scalar operations in the order that the manual names them. -/
def aluOps : List AluOp :=
  [.add, .sub, .addSat, .subSat, .and, .or, .xor, .shl, .shr, .sar, .rol, .ror, .eq, .ne, .lt, .le, .ltu, .leu, .abs, .clz, .min,
   .max, .minu, .maxu, .lui]

/-- Address form of a memory instruction; MODE 3 is refused (R414). -/
def modeOf (mode : Nat) (d : Int) (imm : Nat) : Option AddrMode :=
  match mode with
  | 0 => some (.offset d) | 1 => some (.postImm d) | 2 => some (.postReg (imm % 32)) | _ => none

/-- The instruction that a word spells; none where it raises ILLEGAL (R413). -/
def UIns.ofWord (w : Nat) : Option UIns :=
  let major := bits w 26 5
  let d := bits w 21 5
  let s1 := bits w 16 5
  let s2 := bits w 11 5
  let fn := bits w 0 11
  let acc := bits w 21 3
  let imm13 := bits w 0 13
  let amode := modeOf (bits w 16 2) (signed 13 imm13) imm13
  let ar := bits w 18 3
  let sh := bits w 9 2
  if major < 4 then (aluOps[Config.aluReg major fn]?).map (fun op => .alu op d s1 (.reg s2))
  else if 8 ≤ major ∧ major ≤ 0x0B then
    let v := if Config.aluImmSigned major then wd (unsigned 32 (signed 16 (w % 65536))) else wd (w % 65536)
    (aluOps[Config.aluImm major]?).map (fun op => .alu op d s1 (.imm v))
  else match major with
  | 0x10 => amode.map (fun m => .load d ar m (bits w 14 2) (bit w 13))
  | 0x11 => amode.map (fun m => .store d ar m (bits w 14 2))
  | 0x12 => (modeOf (bits w 16 2) (Config.atomicStep imm13) imm13).map (fun m => .atomic (imm13 % 4) d ar m)
  | 0x13 => if fn = 0 then some (.xfer s1) else if fn = 1 then some (.wait (d * 8 % 256 + bits w 13 3)) else if fn = 2 then some .fence else none
  | 0x14 => let cond := bits w 22 4; if cond < 8 then some (.branch cond (bits w 17 5) (signed 17 (bits w 0 17))) else none
  | 0x15 => if fn < 2 then some (.jump s1 (fn == 1)) else none
  | 0x16 =>
    if fn = 0 then some .nop else if fn = 1 then some (.mfc d s2) else if fn = 2 then some (.mtc s2 s1)
    else if fn = 3 then some (.end_ s1) else if fn = 4 then some (.break_ s2) else none
  | 0x18 =>
    let neg := bit w 8
    match w % 16 with
    | 0 => some (.cmac acc s1 s2 sh neg (bit w 5)) | 1 => some (.dmac acc s1 s2 sh neg)
    | 2 => some (.smac acc s1 s2 sh neg (bit w 6)) | _ => none
  | 0x19 =>
    match w % 16 with
    | 0 => some (.accClear acc) | 1 => some (.accLoad acc s1) | 2 => some (.accShift acc (signed 5 s2))
    | 3 => let width := bits w 6 2; if width < 3 then some (.accx d (s1 % 8) s2 (bit w 4) width) else none
    | _ => none
  | 0x1A =>
    if w % 4 = 0 then some (.maxx d s1 s2 (bit w 2) (bit w 3)) else if w % 4 = 1 then some (.minx d s1 s2 (bit w 2) (bit w 3)) else none
  | _ => none

/-- A multiply-slot instruction (R404). -/
def UIns.isMul : UIns → Bool
  | .cmac .. | .dmac .. | .smac .. | .accClear _ | .accLoad .. | .accShift .. | .accx .. | .maxx .. | .minx .. => true
  | _ => false

/-- A branch, jump or call (R408). -/
def UIns.isBranch : UIns → Bool
  | .branch .. | .jump .. => true
  | _ => false

/-- Destination registers of an instruction (R404). -/
def UIns.dests : UIns → List URegName
  | .alu _ d _ _ => [.g d]
  | .load t _ _ size _ => if size = 3 then [.g t, .g (t + 1)] else [.g t]
  | .atomic _ t _ _ => [.g t]
  | .branch cond _ _ => if cond = 7 then [.g 31] else []
  | .jump _ link => if link then [.g 31] else []
  | .mfc d _ => [.g d]
  | .cmac acc _ _ _ _ _ => [.acc acc, .acc (acc + 1)]
  | .dmac acc _ _ _ _ => [.acc acc, .acc (acc + 1)]
  | .smac acc _ _ _ _ _ => [.acc acc]
  | .accClear acc => [.acc acc]
  | .accLoad acc _ => [.acc acc]
  | .accShift acc _ => [.acc acc]
  | .accx d _ _ _ _ => [.g d]
  | .maxx d _ s2 _ inc => [.g d, .g (d + 1)] ++ (if inc then [.g s2] else [])
  | .minx d _ s2 _ inc => [.g d, .g (d + 1)] ++ (if inc then [.g s2] else [])
  | _ => []

/-- Register numbers that the instruction may not name; the odd members of pairs count among them (log 36). -/
def UIns.legal : UIns → Bool
  | .load t _ _ size _ => size != 3 || t % 2 == 0
  | .store t _ _ size => size != 3 || t % 2 == 0
  | .mfc _ cr => decide (cr ≤ 6)
  | .mtc cr _ => decide (cr ≤ 6)
  | .cmac acc .. => acc % 2 == 0
  | .dmac acc s1 .. => acc % 2 == 0 && s1 % 2 == 0
  | .maxx d .. => d % 2 == 0
  | .minx d .. => d % 2 == 0
  | _ => true

/-- A bundle that R402, R404, R408 and R414 allow: `inDelay` while it stands in a delay slot. -/
def bundleLegal (inDelay : Bool) (i : UIns) (pair : Option UIns) : Bool :=
  i.legal && !(inDelay && i.isBranch) &&
    match pair with
    | none => true
    | some j => j.legal && !(inDelay && j.isBranch) && i.isMul != j.isMul && !i.dests.any (fun r => j.dests.contains r && r != .g 0)

/-! Registers (R401, R405, R407). -/

def USet.rg (s : USet) (n : Nat) : Word := if n = 0 then 0 else tget 0 s.g n
def USet.ra (s : USet) (n : Nat) : Word := tget 0 s.a n
def USet.racc (s : USet) (n : Nat) : BitVec 40 := tget 0 s.acc n

def USet.put (s : USet) (r : URegName) (v : BitVec 64) : USet :=
  match r with
  | .g n => if n = 0 then s else { s with g := tput s.g n (v.setWidth 32) }
  | .a n => { s with a := tput s.a n (v.setWidth 32) }
  | .acc n => { s with acc := tput s.acc n (v.setWidth 40) }

/-- Results that are due become visible; of two for one register, the later-issued is kept (R407). -/
def USet.settle (s : USet) : USet :=
  let due := s.flight.filter (fun f => decide (f.due ≤ s.bundles))
  { (due.foldl (fun s f => s.put f.reg f.value) s) with flight := s.flight.filter (fun f => !decide (f.due ≤ s.bundles)) }

/-- A result of the bundle now issuing, visible `lat` bundles on. -/
def USet.result (s : USet) (r : URegName) (v : BitVec 64) (lat : Nat) (search : Bool) : USet :=
  { s with flight := s.flight ++ [{ reg := r, value := v, due := s.bundles + lat, search := search }] }

/-- The newest result in flight for a register. -/
def newest (l : List InFlight) (r : URegName) : Option InFlight :=
  l.foldl (fun acc f => if f.reg = r then some f else acc) none

/-- An accumulator as an accumulating instruction reads it, through the bypass (R407). -/
def USet.accBypass (s : USet) (n : Nat) : BitVec 40 :=
  match newest s.flight (.acc n) with
  | some f => f.value.setWidth 40
  | none => s.racc n

/-- A general register as a search reads it: its own earlier result through the bypass (R407). -/
def USet.searchBypass (s : USet) (n : Nat) : Word :=
  match newest (s.flight.filter (·.search)) (.g n) with
  | some f => if n = 0 then 0 else f.value.setWidth 32
  | none => s.rg n

/-! Scalar operations. -/

def satSigned (v : Int) : Word × Bool :=
  if v < -2147483648 then (0x80000000, true) else if 2147483647 < v then (0x7FFFFFFF, true) else (BitVec.ofInt 32 v, false)

def leadingZeros (v : Nat) : Nat := 32 - (if v = 0 then 0 else Nat.log2 v + 1)

def truth (b : Bool) : Word := if b then 1 else 0

/-- A scalar operation: value, and whether it saturated. Shifts and rotates count modulo 32, and the absolute value of the
most negative number is free (log 37). -/
def aluApply (op : AluOp) (a b : Word) (free : Nat) : Word × Bool :=
  let n := b.toNat % 32
  match op with
  | .add => (a + b, false)
  | .sub => (a - b, false)
  | .addSat => satSigned (a.toInt + b.toInt)
  | .subSat => satSigned (a.toInt - b.toInt)
  | .and => (a &&& b, false)
  | .or => (a ||| b, false)
  | .xor => (a ^^^ b, false)
  | .shl => if b.toNat < 32 then (a <<< n, false) else (wd free, false)
  | .shr => if b.toNat < 32 then (a >>> n, false) else (wd free, false)
  | .sar => if b.toNat < 32 then (a.sshiftRight n, false) else (wd free, false)
  | .rol => (a.rotateLeft n, false)
  | .ror => (a.rotateRight n, false)
  | .eq => (truth (a == b), false)
  | .ne => (truth (a != b), false)
  | .lt => (truth (a.slt b), false)
  | .le => (truth (a.sle b), false)
  | .ltu => (truth (a.ult b), false)
  | .leu => (truth (a.ule b), false)
  | .abs => if a = 0x80000000 then (wd free, false) else if a.slt 0 then (-a, false) else (a, false)
  | .clz => (wd (leadingZeros a.toNat), false)
  | .min => (if b.slt a then b else a, false)
  | .max => (if a.slt b then b else a, false)
  | .minu => (if b.ult a then b else a, false)
  | .maxu => (if a.ult b then b else a, false)
  | .lui => (b <<< 16, false)

/-! Circular addressing (R403). -/

/-- wrap(x) through address register `k`. -/
def USet.wrap (s : USet) (k : Nat) (x : Int) : Word :=
  let l := (tget 0 s.l k).toNat
  let b := (tget 0 s.b k).toNat
  if l = 0 then BitVec.ofInt 32 x else BitVec.ofInt 32 (b + (x - b) % l)

/-- Effective address and the new value of the address register, when it changes. -/
def USet.address (s : USet) (k : Nat) (mode : AddrMode) (size : Nat) : Word × Option Word :=
  let a := s.ra k
  match mode with
  | .offset d => (s.wrap k (a.toNat + d * size), none)
  | .postImm d => (a, some (s.wrap k (a.toNat + d * size)))
  | .postReg g => (a, some (s.wrap k (a.toNat + (s.rg g).toInt * size)))

/-! Engine memories (R398, R400, R415). -/

/-- Where an access of a set lies: local memory or shared memory; none raises MEM_FAULT. -/
inductive URange where
  | local_ | shared
  deriving DecidableEq, Repr

def urange (shadow : Bool) (s : USet) (a n : Nat) : Option URange :=
  if (if shadow then decide (0xE000 ≤ a ∧ a + n ≤ 0x10000) else decide (a + n ≤ 0xE000)) then some .local_
  else if s.winBase ≤ a ∧ a + n ≤ s.winBase + s.winSize then some .shared
  else none

/-- The memories that an engine sees. -/
structure UMem where
  loc : Tbl PWord
  shr : Tbl PWord
  deriving DecidableEq, Repr

def UMem.word (m : UMem) (r : URange) (a : Nat) : PWord :=
  match r with | .local_ => tget PWord.zero m.loc (a / 8) | .shared => tget PWord.zero m.shr (a / 8)

def UMem.put (m : UMem) (r : URange) (a : Nat) (w : PWord) : UMem :=
  match r with | .local_ => { m with loc := tput m.loc (a / 8) w } | .shared => { m with shr := tput m.shr (a / 8) w }

/-- `n` bytes (1, 2, 4 or 8) within a word. -/
def PWord.get (w : PWord) (a n : Nat) : Nat := w.val.toNat / 2 ^ (8 * (a % 8)) % 2 ^ (8 * n)

/-- Replace `n` bytes within a word; only a store of the whole word clears its poison. -/
def PWord.set (w : PWord) (a n v : Nat) : PWord :=
  let sh := 8 * (a % 8)
  { val := BitVec.ofNat 64 (w.val.toNat - w.get a n * 2 ^ sh + v % 2 ^ (8 * n) * 2 ^ sh), poison := w.poison && n != 8 }

/-! The effect of one instruction. -/

/-- How an instruction ends. -/
inductive UOut where
  | next
  /-- the bundle does not issue yet -/
  | stall (why : UStall)
  /-- exception: cause, detail, bad address -/
  | exc (cause detail bad : Nat)
  /-- END with a status -/
  | fin (status : Nat)
  deriving DecidableEq, Repr

structure UStep where
  out : UOut
  set : USet
  mem : UMem
  deriving DecidableEq, Repr

/-- What an instruction finds besides its set and memories: which set it is, engine number, service time, a free value. -/
structure UEnv where
  shadow : Bool
  engine : Nat
  ns : Nat
  free : Nat
  deriving DecidableEq, Repr

def memFault (s : USet) (m : UMem) (a : Nat) : UStep := { out := .exc 2 0 a, set := s, mem := m }

/-- The access of a load, store or atomic operation: its range, unless it faults. -/
def access (v : UEnv) (s : USet) (a n : Nat) : Option URange := if a % n = 0 then urange v.shadow s a n else none

def updateA (s : USet) (k : Nat) (na : Option Word) : USet :=
  match na with | some x => s.result (.a k) (x.setWidth 64) 1 false | none => s

/-- Loads (R403, R405, R414, R415). -/
def uLoad (v : UEnv) (t k : Nat) (mode : AddrMode) (size : Nat) (sx : Bool) (s : USet) (m : UMem) : UStep :=
  let n := 2 ^ size
  let a := (s.address k mode n).1.toNat
  match access v s a n with
  | none => memFault s m a
  | some r =>
    let w := m.word r a
    if w.poison then { out := .exc 3 0 a, set := s, mem := m }
    else
      let x := w.get a n
      let lo := if sx ∧ size < 2 then unsigned 32 (signed (8 * n) x) else x % 2 ^ 32
      let s1 := updateA s k (s.address k mode n).2
      let s2 := s1.result (.g t) (BitVec.ofNat 64 lo) 3 false
      { out := .next, set := if size = 3 then s2.result (.g (t + 1)) (BitVec.ofNat 64 (x / 2 ^ 32)) 3 false else s2, mem := m }

/-- Stores. -/
def uStore (v : UEnv) (t k : Nat) (mode : AddrMode) (size : Nat) (s : USet) (m : UMem) : UStep :=
  let n := 2 ^ size
  let a := (s.address k mode n).1.toNat
  match access v s a n with
  | none => memFault s m a
  | some r =>
    let x := (s.rg t).toNat + (if size = 3 then (s.rg (t + 1)).toNat * 2 ^ 32 else 0)
    { out := .next, set := updateA s k (s.address k mode n).2, mem := m.put r a ((m.word r a).set a n x) }

/-- Atomic operations on a 32-bit word of shared memory; another place faults (log 38). -/
def uAtomic (v : UEnv) (op t k : Nat) (mode : AddrMode) (s : USet) (m : UMem) : UStep :=
  let a := (s.address k mode 4).1.toNat
  match access v s a 4 with
  | some .shared =>
    let w := m.word .shared a
    if w.poison then { out := .exc 3 0 a, set := s, mem := m }
    else
      let old := wd (w.get a 4)
      let x := s.rg t
      let nw := match op with
        | 0 => old + x | 1 => x | 2 => if x.slt old then x else old | _ => if old.slt x then x else old
      { out := .next, set := (updateA s k (s.address k mode 4).2).result (.g t) (old.setWidth 64) 3 false,
        mem := m.put .shared a (w.set a 4 nw.toNat) }
  | _ => memFault s m a

/-- Transfers outstanding. -/
def USet.open_ (s : USet) : List Xfer := s.xfers.filter (fun x => x.failed == 0)

/-- `XFER` (R416, R417): the 16-byte descriptor at a local address starts a transfer. -/
def uXfer (v : UEnv) (s1 : Nat) (s : USet) (m : UMem) : UStep :=
  let a := (s.rg s1).toNat
  if a % 16 ≠ 0 ∨ urange v.shadow s a 16 ≠ some .local_ then memFault s m a
  else
    let w0 := m.word .local_ a
    let w1 := m.word .local_ (a + 8)
    if w0.poison ∨ w1.poison then { out := .exc 3 0 (if w0.poison then a else a + 8), set := s, mem := m }
    else
      let f := w0.get 4 4
      let x : Xfer := { tag := bits f 29 3, local_ := w0.get 0 4, length := bits f 0 20, out := bit f 28, handle := w1.get 0 4,
                        offset := w1.get 4 4, failed := 0 }
      if s.open_.any (fun y => y.tag == x.tag) ∨ 8 ≤ s.open_.length then { out := .stall .xfer, set := s, mem := m }
      else { out := .next, set := { s with xfers := s.xfers ++ [x] }, mem := m }

/-- `WAIT` (R417). -/
def uWait (mask : Nat) (s : USet) (m : UMem) : UStep :=
  if s.open_.any (fun x => bit mask x.tag) then { out := .stall (.wait mask), set := s, mem := m }
  else
    match s.xfers.find? (fun x => bit mask x.tag) with
    | some x => { out := .exc 5 x.failed 0, set := s, mem := m }
    | none => { out := .next, set := s, mem := m }

/-- `FENCE` (R419). -/
def uFence (s : USet) (m : UMem) : UStep :=
  if s.open_ = [] then { out := .next, set := s, mem := m } else { out := .stall .fence, set := s, mem := m }

/-- Branch conditions (R414). -/
def condHolds (cond : Nat) (v : Word) : Bool :=
  match cond with
  | 0 => true | 1 => v == 0 | 2 => v != 0 | 3 => v.slt 0 | 4 => !v.slt 0 | 5 => (0 : Word).slt v | 6 => !(0 : Word).slt v | _ => true

def uBranch (cond s1 : Nat) (off : Int) (s : USet) (m : UMem) : UStep :=
  let t := if condHolds cond (s.rg s1) then some (s.pc + BitVec.ofInt 32 (4 * off)) else none
  { out := .next, set := { s with branch := some { left := 3, target := t, link := cond == 7 } }, mem := m }

def uJump (s1 : Nat) (link : Bool) (s : USet) (m : UMem) : UStep :=
  { out := .next, set := { s with branch := some { left := 3, target := some (s.rg s1), link := link } }, mem := m }

/-- `MFC` (R402). The cycles of stalls are not derived from the model's clock: the count read is at least the bundles issued
(log 39). -/
def uMfc (v : UEnv) (d cr : Nat) (s : USet) (m : UMem) : UStep :=
  let put := fun (s : USet) (x : Nat) => ({ out := .next, set := s.result (.g d) (BitVec.ofNat 64 (x % 2 ^ 32)) 1 false, mem := m } : UStep)
  match cr with
  | 0 => put s (b2n v.shadow + 2 * b2n s.etag + 4 * b2n s.aov + 8 * b2n s.sat)
  | 1 => put s (v.engine / 32 + 32 * (v.engine % 32))
  | 2 => put s (s.task - 1)
  | 3 =>
    let n := s.cycles + v.free
    put { s with cycles := n, cycHi := wd (n / 2 ^ 32) } n
  | 4 => put s s.cycHi.toNat
  | 5 => put { s with timeHi := wd (v.ns / 2 ^ 32 % 65536) } v.ns
  | _ => put s s.timeHi.toNat

/-- `MTC`: a 0 clears AOV and SAT; the other registers are read-only. -/
def uMtc (cr s1 : Nat) (s : USet) (m : UMem) : UStep :=
  let x := (s.rg s1).toNat
  { out := .next, set := if cr = 0 then { s with aov := s.aov && bit x 2, sat := s.sat && bit x 3 } else s, mem := m }

/-- `END` (R419, R421): it waits for transfers; a failed one that no WAIT named is raised here (R417). -/
def uEnd (s1 : Nat) (s : USet) (m : UMem) : UStep := { out := .fin ((s.rg s1).toNat % 65536), set := s, mem := m }

/-! Multiply slot (R409 to R412). -/

def half (w : Word) (high : Bool) : Int := signed 16 (if high then w.toNat / 65536 else w.toNat % 65536)

def prodShift (sh : Nat) : Nat := match sh with | 0 => 1 | 1 => 256 | 2 => 32768 | _ => 65536

/-- A product after its shift, which truncates toward −∞. -/
def product (a b : Int) (sh : Nat) : Int := (a * b).fdiv (prodShift sh)

/-- Accumulate an exact sum: it wraps modulo 2^40 and a sum out of range sets AOV (R410). -/
def USet.accumulate (s : USet) (n : Nat) (v : Int) : USet :=
  let sum := (s.accBypass n).toInt + v
  let out := sum < -(2 ^ 39) ∨ 2 ^ 39 ≤ sum
  { (s.result (.acc n) ((BitVec.ofInt 40 sum).setWidth 64) 2 false) with aov := s.aov || decide out }

def negIf (neg : Bool) (v : Int) : Int := if neg then -v else v

/-- `CMAC`: the four products, each shifted, are added or subtracted. -/
def uCmac (acc s1 s2 sh : Nat) (neg conj : Bool) (s : USet) : USet :=
  let x := s.rg s1
  let y := s.rg s2
  let yi := if conj then -half y true else half y true
  let re := product (half x false) (half y false) sh - product (half x true) yi sh
  let im := product (half x false) yi sh + product (half x true) (half y false) sh
  let s1 := s.accumulate acc (negIf neg re)
  let s2 := s.accumulate (acc + 1) (negIf neg im)
  { s1 with flight := s1.flight ++ (s2.flight.drop s.flight.length), aov := s1.aov || s2.aov }

/-- `DMAC`: two products of 32 by 16 bits. -/
def uDmac (acc s1 s2 sh : Nat) (neg : Bool) (s : USet) : USet :=
  let y := s.rg s2
  let p := fun (r : Nat) (h : Bool) => negIf neg (product (s.rg r).toInt (half y h) sh)
  let t1 := s.accumulate acc (p s1 false)
  let t2 := s.accumulate (acc + 1) (p (s1 + 1) true)
  { t1 with flight := t1.flight ++ (t2.flight.drop s.flight.length), aov := t1.aov || t2.aov }

/-- `SMAC`: one product of 32 by 16 bits. -/
def uSmac (acc s1 s2 sh : Nat) (neg high : Bool) (s : USet) : USet :=
  s.accumulate acc (negIf neg (product (s.rg s1).toInt (half (s.rg s2) high) sh))

/-- A shift of an accumulator: left for a positive amount, right and arithmetic for a negative one (log 40). -/
def shiftAcc (v : BitVec 40) (n : Int) : BitVec 40 := if 0 ≤ n then v <<< n.toNat else v.sshiftRight (-n).toNat

/-- `ACCX` (R411): shift right with or without rounding, and saturate to 16, 24 or 32 bits. -/
def accExtract (v : BitVec 40) (sh : Nat) (rnd : Bool) (width : Nat) : Word × Bool :=
  let x := v.toInt + (if rnd ∧ 0 < sh then 2 ^ (sh - 1) else 0)
  let y := x.fdiv (2 ^ sh)
  let lim : Int := match width with | 0 => 2 ^ 15 | 1 => 2 ^ 23 | _ => 2 ^ 31
  if y < -lim then (BitVec.ofInt 32 (-lim), true) else if lim ≤ y then (BitVec.ofInt 32 (lim - 1), true) else (BitVec.ofInt 32 y, false)

/-- `MAXX` and `MINX` (R412). -/
def uSearch (max_ : Bool) (d s1 s2 : Nat) (u inc : Bool) (s : USet) : USet :=
  let x := s.rg s1
  let best := s.searchBypass d
  let idx := s.searchBypass s2
  let better := if max_ then (if u then best.ult x else best.slt x) else (if u then x.ult best else x.slt best)
  let t1 := s.result (.g d) ((if better then x else best).setWidth 64) 2 true
  let t2 := t1.result (.g (d + 1)) ((if better then idx else s.searchBypass (d + 1)).setWidth 64) 2 true
  if inc then t2.result (.g s2) ((idx + 1).setWidth 64) 2 true else t2

/-- What an instruction of the multiply slot does to its set. -/
def uMul (i : UIns) (s : USet) : USet :=
  match i with
  | .cmac acc s1 s2 sh neg conj => uCmac acc s1 s2 sh neg conj s
  | .dmac acc s1 s2 sh neg => uDmac acc s1 s2 sh neg s
  | .smac acc s1 s2 sh neg high => uSmac acc s1 s2 sh neg high s
  | .accClear acc => s.result (.acc acc) 0 2 false
  | .accLoad acc s1 => s.result (.acc acc) (((s.rg s1).signExtend 40).setWidth 64) 2 false
  | .accShift acc n => s.result (.acc acc) ((shiftAcc (s.accBypass acc) n).setWidth 64) 2 false
  | .accx d acc sh rnd width =>
    let r := accExtract (s.racc acc) sh rnd width
    { (s.result (.g d) (r.1.setWidth 64) 2 false) with sat := s.sat || r.2 }
  | .maxx d s1 s2 u inc => uSearch true d s1 s2 u inc s
  | .minx d s1 s2 u inc => uSearch false d s1 s2 u inc s
  | _ => s

/-- What an instruction of the scalar slot does. -/
def uScalar (v : UEnv) (i : UIns) (s : USet) (m : UMem) : UStep :=
  match i with
  | .alu op d s1 src =>
    let b := match src with | .reg r => s.rg r | .imm x => x
    let r := aluApply op (s.rg s1) b v.free
    { out := .next, set := { (s.result (.g d) (r.1.setWidth 64) 1 false) with sat := s.sat || r.2 }, mem := m }
  | .load t k mode size sx => uLoad v t k mode size sx s m
  | .store t k mode size => uStore v t k mode size s m
  | .atomic op t k mode => uAtomic v op t k mode s m
  | .xfer s1 => uXfer v s1 s m
  | .wait mask => uWait mask s m
  | .fence => uFence s m
  | .branch cond s1 off => uBranch cond s1 off s m
  | .jump s1 link => uJump s1 link s m
  | .mfc d cr => uMfc v d cr s m
  | .mtc cr s1 => uMtc cr s1 s m
  | .end_ s1 => uEnd s1 s m
  | .break_ code => { out := .exc 6 code 0, set := s, mem := m }
  | _ => { out := .next, set := s, mem := m }

/-- Both slots of a bundle read the registers as they stood at its issue. -/
def uBundle (v : UEnv) (i : UIns) (pair : Option UIns) (s : USet) (m : UMem) : UStep :=
  let sc := if i.isMul then pair else some i
  let mu := if i.isMul then some i else pair
  let r := match sc with | some j => uScalar v j s m | none => { out := .next, set := s, mem := m }
  match mu with
  | none => r
  | some j =>
    let t := uMul j s
    { r with set := { r.set with flight := r.set.flight ++ t.flight.drop s.flight.length, aov := r.set.aov || t.aov,
                                 sat := r.set.sat || t.sat } }

/-- After its effect a bundle has issued: the pc moves on, or control transfers behind the second delay slot (R408). -/
def USet.advance (s : USet) (words : Nat) : USet :=
  let seq := s.pc + BitVec.ofNat 32 (4 * words)
  let s1 := { s with bundles := s.bundles + 1, cycles := s.cycles + 1, stall := .run }
  match s.branch with
  | none => { s1 with pc := seq }
  | some b =>
    if 1 < b.left then { s1 with pc := seq, branch := some { b with left := b.left - 1 } }
    else
      let s2 := if b.link then s1.put (.g 31) (seq.setWidth 64) else s1
      { s2 with pc := b.target.getD seq, branch := none }

/-! Tasks on an engine. -/

def getEng (c : Chip) (e : Nat) : Engine := tget Engine.zero c.eng.engines e

def putEng (e : Nat) (x : Engine) (c : Chip) : Chip := { c with eng := { c.eng with engines := tput c.eng.engines e x } }

def modEng (e : Nat) (f : Engine → Engine) (c : Chip) : Chip := putEng e (f (getEng c e)) c

def getCluster (c : Chip) (cl : Nat) : Cluster := tget Cluster.zero c.eng.clusters cl

def modCluster (cl : Nat) (f : Cluster → Cluster) (c : Chip) : Chip :=
  { c with eng := { c.eng with clusters := tmod Cluster.zero c.eng.clusters cl f } }

def Engine.set (x : Engine) (shadow : Bool) : USet := if shadow then x.shad else x.prim

def Engine.putSet (x : Engine) (shadow : Bool) (s : USet) : Engine := if shadow then { x with shad := s } else { x with prim := s }

def modProg (i : Nat) (f : ProgRun → ProgRun) (c : Chip) : Chip :=
  { c with eng := { c.eng with progs := tmod ProgRun.zero c.eng.progs i f } }

/-- The task of a set is over: the set is idle, its window free, and the primary task resumes (R423). -/
def freeSet (e : Nat) (shadow : Bool) (c : Chip) : Chip :=
  let s := (getEng c e).set shadow
  modCluster (e / 32) (fun x => { x with windows := x.windows.filter (fun w => w.1 + 1 != s.task) })
    (modEng e (fun x => { (x.putSet shadow .zero) with inShadow := if shadow then false else x.inShadow }) c)

/-- The exception word of R426. -/
def excWord (cause detail bad : Nat) (dslot shadow : Bool) (pc : Word) : BitVec 64 :=
  BitVec.ofNat 64 (cause % 16 + 16 * b2n dslot + 32 * b2n shadow + 256 * (detail % 256) + 2 ^ 16 * (pc.toNat % 65536) +
    2 ^ 32 * (if 2 ≤ cause ∧ cause ≤ 4 then bad % 2 ^ 32 else 0))

/-- A task ends with an exception (R425, R432): its program's record, the event, and the failure for TASK_END. -/
def endFailed (e : Nat) (shadow : Bool) (exc : BitVec 64) (c : Chip) : Chip :=
  let s := (getEng c e).set shadow
  let own := decide (s.program < 1024)
  let c1 := unitDone (s.task - 1) 0x8001 exc s.aov s.sat (freeSet e shadow c)
  let c2 := modProg s.program (fun p => { p with failed := p.failed + 1, lastExc := exc }) c1
  raiseRated (clusterIsland (e / 32)) 0x901 (if own then some (operatorFn c) else none)
    (if own then (cfg c).idAt tProgram s.program else 0) (fun _ => exc.toNat) 1 c2

/-- The set's program has ended and nothing of it is outstanding any more. -/
def leaveSet (e : Nat) (shadow : Bool) (c : Chip) : Chip :=
  let s := (getEng c e).set shadow
  if s.stall ≠ .ending ∨ s.open_ ≠ [] then c
  else if s.exc ≠ 0 then endFailed e shadow s.exc c
  else
    match s.xfers with
    | x :: _ => endFailed e shadow (excWord 5 x.failed 0 s.branch.isSome shadow s.pc) c
    | [] =>
      modProg s.program (fun p => { p with completed := p.completed + 1 })
        (unitDone (s.task - 1) s.status 0 s.aov s.sat (freeSet e shadow c))

/-- An exception: the set runs no further bundle, and the task ends once its writes are acknowledged (R425, R439). -/
def exception (e : Nat) (shadow : Bool) (cause detail bad : Nat) (c : Chip) : Chip :=
  let s := (getEng c e).set shadow
  let w := excWord cause detail bad s.branch.isSome shadow s.pc
  leaveSet e shadow (modEng e (fun x => x.putSet shadow { s with stall := .ending, exc := w }) c)

/-- The page that a set's pc lies in, as the instruction memory names it (R428, R429). -/
def USet.page (s : USet) : Nat × Nat × Nat := (s.program, s.ver, s.pc.toNat / 8192)

/-- A page is wanted: resident pages move to the front, others are loaded. -/
def wantPage (p : Nat × Nat × Nat) (x : Engine) : Engine :=
  if x.pages.contains p then { x with pages := p :: x.pages.filter (· != p) }
  else if x.loading.contains p then x else { x with loading := x.loading ++ [p] }

/-- Words of an operator program's code from a pc on, as the image of the task's epoch has them; none for a Guxus program. What a page
holds behind the code is not given. -/
def codeAt (c : Chip) (s : USet) : Option (List Word) :=
  if 1024 ≤ s.program then none
  else
    let img := progImage (c.gx.bank (b2n s.etag)) s.program
    some (((img.drop 16).take (bw img 8 / 4)).drop (s.pc.toNat / 4))

/-- The bundle is the one that stands at the pc. -/
def bundleAt (c : Chip) (s : USet) (i : UIns) (pair : Option UIns) : Bool :=
  match codeAt c s with
  | none => true
  | some [] => true
  | some (w :: l) =>
    decide (UIns.ofWord (w.toNat % 2 ^ 31) = some i) &&
      match pair, w.getLsbD 31, l with
      | none, false, _ => true
      | some j, true, v :: _ => decide (UIns.ofWord (v.toNat % 2 ^ 31) = some j)
      | some _, true, [] => true
      | _, _, _ => false

/-- The stall that an instruction may itself be the cause of. -/
def resumes (i : UIns) (st : UStall) : Bool :=
  match st, i with
  | .run, _ => true
  | .wait _, .wait _ => true
  | .fence, .fence => true
  | .xfer, .xfer _ => true
  | _, _ => false

/-- The engine may issue the bundle now: it runs a task, its cluster is powered, the page is resident, nothing else stalls. -/
def mayIssue (c : Chip) (e : Nat) (i : UIns) (pair : Option UIns) : Bool :=
  let x := getEng c e
  let s := x.set x.inShadow
  let sc := if i.isMul then pair.getD i else i
  domOn c (clusterDomain (e / 32)) && s.task != 0 && x.pages.contains s.page && resumes sc s.stall && bundleAt c s i pair

/-- One bundle issues on an engine (R404 to R425). -/
def issue (e : Nat) (i : UIns) (pair : Option UIns) (c : Chip) : Chip :=
  let x0 := getEng c e
  let sh := x0.inShadow
  if !mayIssue c e i pair then
    if (x0.set sh).task ≠ 0 ∧ !x0.pages.contains (x0.set sh).page then modEng e (wantPage (x0.set sh).page) c else c
  else
    let d := draw c
    let x := wantPage (x0.set sh).page x0
    let s := (x.set sh).settle
    if !bundleLegal s.branch.isSome i pair then exception e sh 1 0 0 (putEng e (x.putSet sh s) c)
    else
      let v : UEnv := { shadow := sh, engine := e, ns := svc c % 2 ^ 48, free := d.1 }
      let r := uBundle v i pair s { loc := x.mem, shr := (getCluster c (e / 32)).shared }
      let commit := fun (t : USet) =>
        modCluster (e / 32) (fun cl => { cl with shared := r.mem.shr }) (putEng e { (x.putSet sh t) with mem := r.mem.loc } d.2)
      match r.out with
      | .next => commit (r.set.advance (if pair.isSome then 2 else 1))
      | .stall w => putEng e (x.putSet sh { s with stall := w }) c
      | .exc cause detail bad => exception e sh cause detail bad (putEng e (x.putSet sh s) d.2)
      | .fin st => leaveSet e sh (commit { r.set with stall := .ending, status := st, exc := 0 })

/-! Rows. -/

/-- `SCALAR_ALU`. -/
def execScalarAlu (engine : Nat) (op : AluOp) (d s1 : Nat) (src : AluSrc) (pair : Option UIns) (s : State) :
    Host.Outcome State Fault Refusal := act s (issue engine (.alu op d s1 src) pair)

/-- `LOAD`. -/
def execLoad (engine t ar : Nat) (mode : AddrMode) (size : Nat) (sx : Bool) (pair : Option UIns) (s : State) :
    Host.Outcome State Fault Refusal := act s (issue engine (.load t ar mode size sx) pair)

/-- `STORE`. -/
def execStore (engine t ar : Nat) (mode : AddrMode) (size : Nat) (pair : Option UIns) (s : State) :
    Host.Outcome State Fault Refusal := act s (issue engine (.store t ar mode size) pair)

/-- `ATOMIC`. -/
def execAtomic (engine op t ar : Nat) (mode : AddrMode) (pair : Option UIns) (s : State) :
    Host.Outcome State Fault Refusal := act s (issue engine (.atomic op t ar mode) pair)

/-- `XFER`. -/
def execXfer (engine s1 : Nat) (pair : Option UIns) (s : State) : Host.Outcome State Fault Refusal :=
  act s (issue engine (.xfer s1) pair)

/-- `WAIT`. -/
def execWait (engine mask : Nat) (pair : Option UIns) (s : State) : Host.Outcome State Fault Refusal :=
  act s (issue engine (.wait mask) pair)

/-- `FENCE`. -/
def execFence (engine : Nat) (pair : Option UIns) (s : State) : Host.Outcome State Fault Refusal := act s (issue engine .fence pair)

/-- `BRANCH`. -/
def execBranch (engine cond s1 : Nat) (off : Int) (pair : Option UIns) (s : State) : Host.Outcome State Fault Refusal :=
  act s (issue engine (.branch cond s1 off) pair)

/-- `JUMP`. -/
def execJump (engine s1 : Nat) (link : Bool) (pair : Option UIns) (s : State) : Host.Outcome State Fault Refusal :=
  act s (issue engine (.jump s1 link) pair)

/-- `NOP`. -/
def execNop (engine : Nat) (pair : Option UIns) (s : State) : Host.Outcome State Fault Refusal := act s (issue engine .nop pair)

/-- `MFC`. -/
def execMfc (engine d cr : Nat) (pair : Option UIns) (s : State) : Host.Outcome State Fault Refusal :=
  act s (issue engine (.mfc d cr) pair)

/-- `MTC`. -/
def execMtc (engine cr s1 : Nat) (pair : Option UIns) (s : State) : Host.Outcome State Fault Refusal :=
  act s (issue engine (.mtc cr s1) pair)

/-- `END`. -/
def execEnd (engine s1 : Nat) (pair : Option UIns) (s : State) : Host.Outcome State Fault Refusal :=
  act s (issue engine (.end_ s1) pair)

/-- `BREAK`. -/
def execBreak (engine code : Nat) (pair : Option UIns) (s : State) : Host.Outcome State Fault Refusal :=
  act s (issue engine (.break_ code) pair)

/-- `CMAC`. -/
def execCmac (engine acc s1 s2 sh : Nat) (neg conj : Bool) (pair : Option UIns) (s : State) : Host.Outcome State Fault Refusal :=
  act s (issue engine (.cmac acc s1 s2 sh neg conj) pair)

/-- `DMAC`. -/
def execDmac (engine acc s1 s2 sh : Nat) (neg : Bool) (pair : Option UIns) (s : State) : Host.Outcome State Fault Refusal :=
  act s (issue engine (.dmac acc s1 s2 sh neg) pair)

/-- `SMAC`. -/
def execSmac (engine acc s1 s2 sh : Nat) (neg high : Bool) (pair : Option UIns) (s : State) : Host.Outcome State Fault Refusal :=
  act s (issue engine (.smac acc s1 s2 sh neg high) pair)

/-- `ACC_CLEAR`. -/
def execAccClear (engine acc : Nat) (pair : Option UIns) (s : State) : Host.Outcome State Fault Refusal :=
  act s (issue engine (.accClear acc) pair)

/-- `ACC_LOAD`. -/
def execAccLoad (engine acc s1 : Nat) (pair : Option UIns) (s : State) : Host.Outcome State Fault Refusal :=
  act s (issue engine (.accLoad acc s1) pair)

/-- `ACC_SHIFT`. -/
def execAccShift (engine acc : Nat) (by_ : Int) (pair : Option UIns) (s : State) : Host.Outcome State Fault Refusal :=
  act s (issue engine (.accShift acc by_) pair)

/-- `ACCX`. -/
def execAccx (engine d acc sh : Nat) (rnd : Bool) (width : Nat) (pair : Option UIns) (s : State) : Host.Outcome State Fault Refusal :=
  act s (issue engine (.accx d acc sh rnd width) pair)

/-- `MAXX`. -/
def execMaxx (engine d s1 s2 : Nat) (u inc : Bool) (pair : Option UIns) (s : State) : Host.Outcome State Fault Refusal :=
  act s (issue engine (.maxx d s1 s2 u inc) pair)

/-- `MINX`. -/
def execMinx (engine d s1 s2 : Nat) (u inc : Bool) (pair : Option UIns) (s : State) : Host.Outcome State Fault Refusal :=
  act s (issue engine (.minx d s1 s2 u inc) pair)

/-- The words of a bundle spell no bundle that may issue (R413). -/
def bundleIllegal (inDelay : Bool) (ws : List Word) : Bool :=
  match ws with
  | w :: l =>
    match UIns.ofWord (w.toNat % 2 ^ 31), w.getLsbD 31, l with
    | none, _, _ => true
    | some i, false, _ => !bundleLegal inDelay i none
    | some i, true, v :: _ =>
      match UIns.ofWord (v.toNat % 2 ^ 31) with
      | some j => !bundleLegal inDelay i (some j)
      | none => true
    | some _, true, [] => false
  | [] => false

/-- The words are those that the fetch reads at the pc, as far as the code goes. -/
def fetchedAt (c : Chip) (s : USet) (ws : List Word) : Bool :=
  match codeAt c s with
  | none => true
  | some l => (ws.zip l).all (fun p => p.1 == p.2)

/-- `ILLEGAL` (R425): the words fetched at the pc spell no legal bundle, or a word of the fetch is poisoned (INSN_POISON), in
which case the page is discarded. -/
def illegal (e : Nat) (ws : List Word) (poison : Bool) (c : Chip) : Chip :=
  let x := getEng c e
  let sh := x.inShadow
  let s := x.set sh
  if s.task = 0 ∨ s.stall ≠ .run ∨ !domOn c (clusterDomain (e / 32)) then c
  else if poison then exception e sh 4 0 s.pc.toNat (modEng e (fun x => { x with pages := x.pages.filter (· != s.page) }) c)
  else if bundleIllegal s.branch.isSome ws && fetchedAt c s ws then exception e sh 1 0 0 c else c

def execIllegal (engine : Nat) (words : List Word) (poison : Bool) (s : State) : Host.Outcome State Fault Refusal :=
  act s (illegal engine words poison)

/-! Transfers (R416 to R418). -/

/-- 64-bit words of engine memory, as bytes with the offsets of the poisoned ones. -/
def umemRead (m : UMem) (r : URange) (a n : Nat) : List Byte × List Nat :=
  let ws := (List.range (n / 8)).map (fun i => m.word r (a + 8 * i))
  (ws.flatMap (fun w => (List.range 8).map (fun j => BitVec.ofNat 8 (w.val.toNat / 2 ^ (8 * j)))),
   (List.range (n / 8)).filter (fun i => (ws.getD i PWord.zero).poison))

/-- Bytes into engine memory, the words listed by number being stored poisoned. -/
def umemWrite (m : UMem) (r : URange) (a : Nat) (data : List Byte) (bad : List Nat) : UMem :=
  (List.range (data.length / 8)).foldl (fun m i =>
    let v := (List.range 8).foldl (fun acc j => acc + (data.getD (8 * i + j) 0).toNat * 2 ^ (8 * j)) 0
    m.put r (a + 8 * i) { val := BitVec.ofNat 64 v, poison := bad.contains i }) m

/-- Why a transfer fails: 0, or its DETAIL (R417, R425). The checks are made when it completes (log 41). -/
def xferCheck (c : Chip) (fn : Nat) (shadow : Bool) (s : USet) (x : Xfer) : Nat :=
  if !current c x.handle then 1
  else if x.offset % 8 ≠ 0 ∨ poolBytes (handlePool x.handle) < x.offset + x.length then 2
  else if x.local_ % 8 ≠ 0 ∨ x.length = 0 ∨ x.length % 8 ≠ 0 ∨ (urange shadow s x.local_ x.length).isNone then 3
  else if (getBuf c x.handle).owner ≠ identity fn 5 then 4
  else 0

/-- After a transfer the stall it caused may end. -/
def USet.unstall (s : USet) : USet :=
  match s.stall with
  | .wait mask => if s.open_.any (fun x => bit mask x.tag) then s else { s with stall := .run }
  | .fence => if s.open_ = [] then { s with stall := .run } else s
  | .xfer => { s with stall := .run }
  | _ => s

/-- `XFER_COMPLETE` (R417, R418): the transfer under a tag moves its data, poison with it, or fails; its tag is free. -/
def xferComplete (e : Nat) (shadow : Bool) (tag : Nat) (c : Chip) (m : Mem) : Chip × List MemOp :=
  let x := getEng c e
  let s := x.set shadow
  match s.open_.find? (fun t => t.tag == tag) with
  | none => (c, [])
  | some t =>
    let fn := (getTask c (s.task - 1)).fn
    let why := xferCheck c fn shadow s t
    let others := s.xfers.filter (fun y => !(y.failed == 0 && y.tag == tag))
    let done := fun (xs : List Xfer) (c : Chip) =>
      leaveSet e shadow (modEng e (fun x => x.putSet shadow ({ x.set shadow with xfers := xs }).unstall) c)
    if why ≠ 0 then (done (others ++ [{ t with failed := why }]) c, [])
    else
      let um : UMem := { loc := x.mem, shr := (getCluster c (e / 32)).shared }
      let r := (urange shadow s t.local_ t.length).getD .local_
      let a := bufAddr c t.handle + t.offset
      if t.out then
        let d := umemRead um r t.local_ t.length
        let w := memWrite m a d.1 false c
        (done others w.2, w.1 ++ poisonWords c (d.2.map (fun i => a / 8 + i)))
      else
        let d := memRead m a t.length c
        let um1 := umemWrite um r t.local_ d.1 (d.2.1.map (fun w => w - a / 8))
        (done others (modCluster (e / 32) (fun cl => { cl with shared := um1.shr }) (modEng e (fun x => { x with mem := um1.loc }) d.2.2)), [])

def execXferComplete (engine : Nat) (shadow : Bool) (tag : Nat) (s : State) : Host.Outcome State Fault Refusal :=
  actMem s (xferComplete engine shadow tag)

/-! Instruction pages (R428). -/

/-- Pages of the running tasks, which are not replaced. -/
def Engine.usedPages (x : Engine) (p : Nat × Nat × Nat) : Bool :=
  (x.prim.task != 0 && p.1 == x.prim.program && p.2.1 == x.prim.ver) || (x.shad.task != 0 && p.1 == x.shad.program && p.2.1 == x.shad.ver)

/-- Drop the least recently used page that no running task uses, from a list of most recently used first. -/
def evict (used : Nat × Nat × Nat → Bool) : List (Nat × Nat × Nat) → List (Nat × Nat × Nat)
  | [] => []
  | p :: l => if l.any (fun q => !used q) then p :: evict used l else if used p then p :: l else l

/-- `PAGE_LOAD_DONE`: the page now loading is resident; of four pages, the least recently used goes. -/
def pageLoaded (e : Nat) (c : Chip) : Chip :=
  modEng e (fun x =>
    match x.loading with
    | [] => x
    | p :: l =>
      let pages := if x.pages.length < 4 then x.pages else evict x.usedPages x.pages
      { x with loading := l, pages := if pages.length < 4 then p :: pages else pages }) c

def execPageLoadDone (engine : Nat) (s : State) : Host.Outcome State Fault Refusal := act s (pageLoaded engine)

/-! Starting a task (R420, R422, R423, R442, R443). -/

/-- Properties of a program under an epoch tag: urgent, pages, shared bytes, entry, version, constant buffer. -/
structure ProgInfo where
  urgent : Bool
  pages : Nat
  shared : Nat
  entry : Nat
  ver : Nat
  consts : Nat
  deriving DecidableEq, Repr

def progInfo (c : Chip) (program : Nat) (etag : Bool) : ProgInfo :=
  if 1024 ≤ program then
    { urgent := Config.guxusUrgent program, pages := Config.guxusPages program, shared := Config.guxusShared program,
      entry := Config.guxusEntry program, ver := 0, consts := Config.guxusConst program }
  else
    let g := c.gx.bank (b2n etag)
    let img := progImage g program
    let ver := match g.at tProgram program with | some o => o.version | none => 0
    { urgent := bit (bw img 0x18) 0, pages := (bw img 8 + 8191) / 8192, shared := bw img 0x14, entry := bw img 0xC, ver := ver,
      consts := tget 0 (tget ProgRun.zero c.eng.progs program).bufs ver }

/-- Shared memory kept for windows. -/
def windowSpace : Nat := 768 * 1024

/-- The lowest place of a size between the windows of a cluster (log 33). -/
def placeWindow (l : List (Nat × Nat × Nat)) (size : Nat) : Option Nat :=
  let starts := 0x100000 :: l.map (fun w => w.2.1 + w.2.2)
  let fits := fun (a : Nat) => decide (a + size ≤ 0x100000 + windowSpace) && l.all (fun w => decide (a + size ≤ w.2.1 ∨ w.2.1 + w.2.2 ≤ a))
  (starts.filter fits).foldl (fun acc a => match acc with | some b => some (min a b) | none => some a) none

/-- The set that a task finds when it starts (R420). -/
def startSet (slot : Nat) (t : Task) (i : ProgInfo) (winBase : Nat) : USet :=
  { USet.zero with
      g := wordsPut [(9, wd i.consts)] 1 t.desc.args, a := [(6, wd winBase)], b := [(6, wd winBase)], l := [(6, wd i.shared)],
      pc := wd i.entry, etag := t.desc.etag, task := slot + 1, program := t.desc.work, ver := i.ver, pages := i.pages,
      winBase := winBase, winSize := i.shared }

/-- Engines of a cluster that are in service and run nothing. -/
def idleEngines (c : Chip) (cl : Nat) : List Nat :=
  ((List.range 32).map (fun l => cl * 32 + l)).filter (fun e =>
    let x := getEng c e
    engineInService c e && x.prim.task == 0 && x.shad.task == 0 && x.urgent == 0 && !x.stopped)

def entryPage (t : Task) (i : ProgInfo) : Nat × Nat × Nat := (t.desc.work, i.ver, i.entry / 8192)

/-- Clusters that meet R442, with their idle engines. -/
def openClusters (c : Chip) (t : Task) (i : ProgInfo) : List (Nat × List Nat) :=
  ((List.range 32).filter (fun cl => t.desc.permits cl && domOn c (clusterDomain cl) && !c.pwr.withdrawn.contains (clusterDomain cl) &&
    (placeWindow (getCluster c cl).windows i.shared).isSome)).filterMap (fun cl =>
      let l := idleEngines c cl
      if l = [] then none else some (cl, l))

/-- The cluster and engine that R442 prefers. -/
def chooseEngine (c : Chip) (t : Task) (i : ProgInfo) : Option Nat :=
  let holds := fun e => (getEng c e).pages.contains (entryPage t i)
  let best := (openClusters c t i).foldl (fun (acc : Option (Nat × List Nat)) x =>
    match acc with
    | none => some x
    | some y =>
      let hx := x.2.any holds
      let hy := y.2.any holds
      if hx ≠ hy then (if hx then some x else some y) else if y.2.length < x.2.length then some x else some y) none
  match best with
  | none => none
  | some (_, l) => (l.find? holds).or l.head?

/-- Engines eligible for urgent entry (R422), of the permitted clusters. -/
def eligible (c : Chip) (t : Task) (i : ProgInfo) (e : Nat) : Bool :=
  let x := getEng c e
  t.desc.permits (e / 32) && engineInService c e && !x.stopped && x.prim.task != 0 && decide (x.prim.pages ≤ 2) && x.shad.task == 0 &&
    x.urgent == 0 && x.prim.stall != .ending && decide (t.level < (getTask c (x.prim.task - 1)).level) &&
    (placeWindow (getCluster c (e / 32)).windows i.shared).isSome

/-- The eligible engine whose primary task has the highest level number, and of those the one started earliest (R443). -/
def chooseUrgent (c : Chip) (t : Task) (i : ProgInfo) : Option Nat :=
  let key := fun e => let p := getTask c ((getEng c e).prim.task - 1); (p.level, p.startNs)
  (c.eng.engines.map Prod.fst).foldl (fun acc e =>
    if !eligible c t i e then acc
    else match acc with
      | none => some e
      | some b => if (key b).1 < (key e).1 ∨ ((key b).1 = (key e).1 ∧ (key e).2 < (key b).2) then some e else some b) none

/-- A ready engine task may run now. -/
def engineMay (c : Chip) (e : Nat × Task) : Bool :=
  let i := progInfo c e.2.desc.work e.2.desc.etag
  (chooseEngine c e.2 i).isSome || (decide (e.2.level < 4) && i.urgent && (chooseUrgent c e.2 i).isSome)

/-- Take a window of a cluster for a task. -/
def takeWindow (slot cl size : Nat) (c : Chip) : Nat × Chip :=
  let b := (placeWindow (getCluster c cl).windows size).getD 0x100000
  (b, if size = 0 then c else modCluster cl (fun x => { x with windows := x.windows ++ [(slot, b, size)] }) c)

/-- Dispatch of the head engine task: to an idle engine, or to an eligible engine's shadow set. -/
def dispatchEngine (c : Chip) : Chip :=
  match headFor c 0 (engineMay c) with
  | none => c
  | some (slot, t) =>
    let i := progInfo c t.desc.work t.desc.etag
    match chooseEngine c t i with
    | some e =>
      let w := takeWindow slot (e / 32) i.shared c
      startTask slot e (modEng e (fun x => wantPage (entryPage t i) { x with prim := startSet slot t i w.1 }) w.2)
    | none =>
      match chooseUrgent c t i with
      | some e =>
        startTask slot e (modEng e (fun x => (List.range i.pages).foldl (fun x p => wantPage (t.desc.work, i.ver, p) x) { x with urgent := slot + 1 }) c)
      | none => c

/-- At the switch the results in flight of the primary set retire while the other set runs; whether one of them is seen early
or late by a bundle inside its window, R405 leaves open (log 42). -/
def retireFlights (l : List InFlight) (now : Nat) (c : Chip) : List InFlight × Chip :=
  l.foldl (fun r f =>
    let d := draw r.2
    (r.1 ++ [if d.1 % 2 = 0 then { f with due := now } else f], d.2)) ([], c)

/-- `URGENT_ENTRY` (R422 to R424): at a bundle boundary out of a delay slot, with the urgent program's pages resident. -/
def urgentEntry (e : Nat) (c : Chip) : Chip :=
  let x := getEng c e
  if x.urgent = 0 ∨ x.shad.task ≠ 0 ∨ x.prim.branch.isSome ∨ !domOn c (clusterDomain (e / 32)) then c
  else
    let slot := x.urgent - 1
    let t := getTask c slot
    let i := progInfo c t.desc.work t.desc.etag
    if !(List.range i.pages).all (fun p => x.pages.contains (t.desc.work, i.ver, p)) then c
    else
      let w := takeWindow slot (e / 32) i.shared c
      let f := retireFlights x.prim.flight x.prim.bundles w.2
      schedCount 2 1 (modEng e (fun x => { x with urgent := 0, inShadow := true, shad := startSet slot t i w.1,
                                                  prim := { x.prim with flight := f.1 } }) f.2)

def execUrgentEntry (engine : Nat) (s : State) : Host.Outcome State Fault Refusal := act s (urgentEntry engine)

/-! Faults and retirement (R425, R430, R431). -/

/-- Every task of an engine ends with ENGINE_FAULT of a detail. -/
def faultTasks (e detail : Nat) (c : Chip) : Chip :=
  let end1 := fun (sh : Bool) (c : Chip) =>
    let s := (getEng c e).set sh
    if s.task = 0 then c
    else exception e sh 7 detail 0 (modEng e (fun x => x.putSet sh { s with xfers := s.xfers.filter (fun y => y.failed != 0) }) c)
  let c1 := end1 false (end1 true c)
  let u := (getEng c1 e).urgent
  if u = 0 then c1
  else unitDone (u - 1) 0x8001 (excWord 7 detail 0 false true 0) false false (modEng e (fun x => { x with urgent := 0 }) c1)

/-- `ENGINE_INTERNAL_FAULT`: the engine takes no further task and is reported to the Keeper. -/
def engineFault (e : Nat) (c : Chip) : Chip :=
  match enginePhys c (e / 32) (e % 32) with
  | none => c
  | some p =>
    let c1 := faultTasks e 1 c
    let c2 := raise (clusterIsland (e / 32)) 0x902 none (clusterIsland (e / 32)) (p % 64 + 64 * (e % 32)) c1
    unitFault 0 (e / 32 * 64 + p % 64) (modEng e (fun x => { x with stopped := true }) c2)

def execEngineInternalFault (engine : Nat) (s : State) : Host.Outcome State Fault Refusal :=
  act s (fun c => if domOn c (clusterDomain (engine / 32)) then engineFault engine c else c)

/-- `ENGINE_RETIRE_TIMEOUT` (R430): 50 ms after the retirement the tasks still on the engine end. -/
def retireTimeout (e : Nat) (c : Chip) : Chip :=
  let x := getEng c e
  if x.retireAt = 0 then c else faultTasks e 2 (modEng e (fun x => { x with retireAt := 0 }) (waitLocal x.retireAt c))

def execEngineRetireTimeout (engine : Nat) (s : State) : Host.Outcome State Fault Refusal := act s (retireTimeout engine)

/-! Commands. -/

/-- `GX_PROGRAM_QUERY`. -/
def programQuery (x : Ctx) (c : Chip) : Chip :=
  let id := bw x.body 0
  x.withObj id tProgram (fun _ c =>
    let img := progImage (cfg c) (idIndex id)
    let p := tget ProgRun.zero c.eng.progs (idIndex id)
    x.done (Res.ok ((List.range 8).map (fun i => if i = 7 then 0 else wd (bw img (4 + 4 * i))) ++ wd2 p.completed ++ wd2 p.failed ++
      wd2 p.lastExc.toNat)) c) c

def execGxProgramQuery (cmd : CmdRef) (s : State) : Host.Outcome State Fault Refusal :=
  act s (serve 0x0901 cmd noFields programQuery)

/-- One byte of GX_ENGINE_STATUS: an engine that retires or is being tested still carries its number. -/
def engineByte (c : Chip) (cl p : Nat) : Byte :=
  let u := getUnit c 0 (cl * 64 + p)
  let st := if !domOn c (clusterDomain cl) then 3 else match u.st with | .spare => 1 | .retired => 2 | _ => 0
  BitVec.ofNat 8 (st + 4 * (u.logical % 32))

def enginesInService (c : Chip) (cl : Nat) : Nat := ((List.range 32).filter (fun l => engineInService c (cl * 32 + l))).length

def engineStatus (x : Ctx) (c : Chip) : Chip :=
  let cl := bf x.body 0 0 5
  let errs := (getCluster c cl).corrected
  x.done (Res.ok ([wd (tget 0 c.pwr.clkNow cl + 2 ^ 16 * enginesInService c cl), 0] ++
    wordsOf ((List.range 34).map (engineByte c cl)) ++ [0] ++ wd2 errs)) c

def execGxEngineStatus (cmd : CmdRef) (s : State) : Host.Outcome State Fault Refusal :=
  act s (serve 0x0902 cmd noFields engineStatus)

end Sys2Proof.Machine
end

