-- ==== Sys2Proof/Machine/FwTask.lean ====
section
/-!
DEFINITION. Engine tasks that firmware makes for its own periodic work (R221, R233, R380, R298): found by program and object.
The program's instructions are not given, so one command of the table carries out what its whole run does (log 46).
-/
namespace Sys2Proof.Machine
open Sys2Proof

/-- Program numbers of firmware's own tasks: speaker selection, adaptation run, rate control, mix selection (log 46). -/
def fwSpeaker : Nat := 1024
def fwAdapt : Nat := 1025
def fwRate : Nat := 1026
def fwMix : Nat := 1027

/-- Program numbers of the audio input and output tasks, and of the output task of a group's master (log 46). -/
def fwAudIn : Nat := 1028
def fwAudOut : Nat := 1029
def fwMaster : Nat := 1030

/-- A task of a program for an object that has not ended. -/
def fwFind (c : Chip) (prog obj : Nat) (p : Task → Bool) : Option (Nat × Task) :=
  c.sched.tasks.find? (fun e => e.2.st.live && e.2.desc.target == 0 && e.2.desc.work == prog && e.2.desc.args == [wd obj] && p e.2)

/-- A run of the object is pending: submitted and not started. -/
def fwPending (c : Chip) (prog obj : Nat) : Bool := (fwFind c prog obj (fun t => t.st != .running)).isSome

/-- The slot of the object's task that runs now. -/
def fwRunning (c : Chip) (prog obj : Nat) : Option Nat := (fwFind c prog obj (fun t => t.st == .running && !t.done)).map Prod.fst

/-- Make the task: on any engine, at a priority level. -/
def fwCreate (prog prio fn obj : Nat) (c : Chip) : Chip :=
  (createTask fn { TaskDesc.zero with target := 0, prio := prio, etag := currentTag c, affinity := 0xFFFFFFFF, work := prog,
                                      args := [wd obj] } c).2

/-- The engine set that runs a task gives it up. -/
def leaveEngine (slot : Nat) (c : Chip) : Chip :=
  let e := (getTask c slot).unit
  let x := getEng c e
  if x.prim.task = slot + 1 then freeSet e false c else if x.shad.task = slot + 1 then freeSet e true c else c

/-- The run of a firmware task is over. -/
def fwFinish (slot : Nat) (c : Chip) : Chip := endTask slot (unitDone slot 0 0 false false (leaveEngine slot c))

end Sys2Proof.Machine
end

