-- ==== Sys2Proof/Machine/Secrets.lean ====
section
/-!
DEFINITION. Stored keys and device keys (R191, R193, R552): the keys derived from the fused root key and the pairing secret, and the form in
which a master key rests in a card, in a journal record and on the twin link.
-/
namespace Sys2Proof.Machine
open Sys2Proof

/-! Octet strings in a body. -/

/-- The octets of a number of 32 bits in the other order. -/
def swap32 (x : Nat) : Nat := x % 256 * 2 ^ 24 + x / 256 % 256 * 2 ^ 16 + x / 65536 % 256 * 256 + x / 2 ^ 24 % 256

/-- `k` words of octets at an offset, the first octet the most significant. -/
def octetsAt (b : List Word) (off k : Nat) : Nat := (List.range k).foldl (fun a i => a * 2 ^ 32 + swap32 (bw b (off + 4 * i))) 0

/-- A string of octets as `k` words. -/
def octetWords (k x : Nat) : List Word := (List.range k).map (fun i => wd (swap32 (x / 2 ^ (32 * (k - 1 - i)) % 2 ^ 32)))

/-! Device keys (R193). Serial number, boot nonce and random values count as 8 octets, a session number as 4 (log 181). -/

/-- Serial number of this device. -/
def mySerial : Nat := Config.serialLo.toNat + 2 ^ 32 * Config.serialHi.toNat

def deviceKey (from_ : Nat) (label : String) (contextBytes context : Nat) : Nat :=
  kdf256 from_ (labelOf label).1 (labelOf label).2 contextBytes context

def keyTableKey (nonce : Nat) : Nat := deviceKey Config.rootKey "TVK KEY TABLE" 16 (mySerial * 2 ^ 64 + nonce)
def journalKey : Nat := deviceKey Config.rootKey "TVK JOURNAL" 8 mySerial

/-- Twin-link key of the direction from one serial number to another. -/
def twinLinkKey (secret sender receiver : Nat) : Nat :=
  deviceKey secret (if sender < receiver then "FLIUSK LOW TO HIGH" else "FLIUSK HIGH TO LOW") 16 (min sender receiver * 2 ^ 64 + max sender receiver)

/-- Key of one direction of a session (R552). -/
def twinSessionKey (linkKey lowRandom highRandom session : Nat) : Nat :=
  deviceKey linkKey "FLIUSK SESSION" 20 ((lowRandom * 2 ^ 64 + highRandom) * 2 ^ 32 + session)

/-! Master keys at rest (R191). -/

/-- KEY and SALT of a command as the plaintext of R191: the key filled with zeros to 32 octets, the salt to 16. -/
def keyPlain (b : List Word) : Nat :=
  let k := 256 ^ (32 - suiteKeyBytes (keySuite b))
  let s := 256 ^ (16 - suiteSaltBytes (keySuite b))
  octetsAt b 0x40 8 / k * k * 2 ^ 128 + octetsAt b 0x60 4 / s * s

/-- A card of a key holds WRAPPED, 56 octets, at +0x40, and its install stamp at +0x78. -/
def keyWrapped (b : List Word) : Nat := octetsAt b 0x40 14

def keyWith (b : List Word) (w : Nat) : List Word :=
  (List.range 16).map (fun i => b.getD i 0) ++ octetWords 14 w ++ b.drop 30

/-- The body of a GX_KEY_INSTALL with its key wrapped (GX_KEY_INSTALL). -/
def keyWrap (key : Nat) (b : List Word) : List Word := keyWith (b.take 28) (wrap48 key (keyPlain b))

/-- Master key and master salt under a wrapped card; none where the check fails (R192). -/
def keyOpen (key : Nat) (b : List Word) : Option (Nat × Nat) :=
  (unwrap48 key (keyWrapped b)).map (fun p =>
    (p / 2 ^ 128 / 256 ^ (32 - suiteKeyBytes (keySuite b)), p % 2 ^ 128 / 256 ^ (16 - suiteSaltBytes (keySuite b))))

/-- The derived set of a slot for a packet class (R187). -/
def keyDerive (key : Nat) (b : List Word) (rtcp : Bool) : Option Derived :=
  (keyOpen key b).map (fun k => deriveSet (keySuite b) k.1 k.2 rtcp)

/-- The 64 octets of a key-table entry (R191). -/
def keyEntry (b : List Word) : Nat :=
  keyWrapped b * 2 ^ 64 + (keySuite b + 16 * keyMkiLen b + 128) * 2 ^ 56 + keyMki b

/-- The same body under another wrapping key; one whose check fails stays as it is. -/
def keyRewrap (from_ key : Nat) (b : List Word) : List Word :=
  match unwrap48 from_ (keyWrapped b) with
  | some p => keyWith b (wrap48 key p)
  | none => b

/-! Journal records (R193): wrapped under the journal key at rest, open inside an authenticated frame of the link. -/

def JRec.mapKeys (f : List Word → List Word) : JRec → JRec
  | .commit l => .commit (l.map (fun s => if s.op = 0x0210 then { s with body := f s.body } else s))
  | .object k o cards => .object k o (cards.map (fun e => if e.1 = 0x0210 ∧ e.2.1 ≠ 3 then (e.1, e.2.1, f e.2.2) else e))
  | r => r

/-- A body with its key open, as the link carries it, and back. -/
def keyReveal (key : Nat) (b : List Word) : List Word :=
  match unwrap48 key (keyWrapped b) with
  | some p => keyWith b (p * 2 ^ 64)
  | none => b
def keySeal (key : Nat) (b : List Word) : List Word := keyWith b (wrap48 key (keyWrapped b / 2 ^ 64))

end Sys2Proof.Machine
end

