-- ==== Sys2Proof/Machine/Cipher.lean ====
section
/-!
DEFINITION. Cipher engines (chapter 05): selection and verification of received packets, promotion and alternates, replay
windows, send indices with their limits, usage counters, and the derived-key cache.
-/
namespace Sys2Proof.Machine
open Sys2Proof

/-- Island of a forwarder pipeline (R24). -/
def pipeIsland (p : Nat) : Nat := 6 + p

/-- Positions of GX_CRYPTO_COUNTERS. -/
def countCrypto (p pos : Nat) (c : Chip) : Chip := bump 0x0212 p pos 1 c

def modNet (f : Net4 → Net4) (c : Chip) : Chip := { c with net := f c.net }

/-! Slots: run-time state by object key and install stamp (R172, R183). -/

def slotUse (obj : Nat) (b : List Word) : Nat := obj * 2 ^ 64 + keyStamp b

def getKey (c : Chip) (obj : Nat) (b : List Word) : KeySlot := tget KeySlot.zero c.net.keySlots (slotUse obj b)

def modKey (obj : Nat) (b : List Word) (f : KeySlot → KeySlot) : Chip → Chip :=
  modNet (fun n => { n with keySlots := tmod KeySlot.zero n.keySlots (slotUse obj b) f })

/-- REKEY_REQUIRED for an object, with its detail (R197). -/
def rekeyRequired (g : Cfg) (p obj detail : Nat) : Chip → Chip :=
  raise (pipeIsland p) 0x211 (g.keyOwner obj) (g.keyId obj) detail

/-- A slot becomes unusable: its entry failed the unwrap check or read as poison (R192). -/
def slotUnusable (g : Cfg) (p obj : Nat) (b : List Word) (c : Chip) : Chip :=
  if (getKey c obj b).unusable then c
  else rekeyRequired g p obj 2 (modKey obj b (fun k => { k with unusable := true }) c)

/-- What a counter of a slot causes: the warning is raised once for the slot, the limit closes it (R183, R184). `pos` is the slot number,
`send` names the send set. -/
def keyLevels (g : Cfg) (p obj : Nat) (b : List Word) (pos : Nat) (send rtcp : Bool) (c : Chip) : Chip :=
  let k := getKey c obj b
  let n := if rtcp then k.srtcp else k.srtp
  let due := decide (keyWarn b rtcp ≤ n) && !k.dueRaised
  let lim := decide (keyLimit b rtcp ≤ n) && !k.limited
  let c1 := modKey obj b (fun k => { k with dueRaised := k.dueRaised || due, limited := k.limited || lim }) c
  let c2 := if due then raise (pipeIsland p) 0x210 (g.keyOwner obj) (g.keyId obj) (b2n send + 2 * pos + 8 * b2n rtcp) c1 else c1
  if lim then rekeyRequired g p obj 1 c2 else c2

/-- Count one packet under a slot (R183). -/
def countUse (g : Cfg) (p obj : Nat) (b : List Word) (pos : Nat) (send rtcp : Bool) (c : Chip) : Chip :=
  keyLevels g p obj b pos send rtcp
    (modKey obj b (fun k => if rtcp then { k with srtcp := k.srtcp + 1 } else { k with srtp := k.srtp + 1 }) c)

/-! The derived-key cache (R188 to R190). -/

/-- A derived set: one slot and one packet class. -/
def setOf (obj : Nat) (b : List Word) (rtcp : Bool) : Nat := 2 * slotUse obj b + b2n rtcp

/-- Index of a derived set in the cache of 8,192 indexes and 16 ways (R188). -/
def dkcIndex (set : Nat) : Nat := Config.dkcIndex set % 8192

/-- A set comes in as the most recently used; of the others at its index all but the 15 most recently used leave (R188). -/
def dkcInsert (set : Nat) (d : Derived) (l : List (Nat × Derived)) : List (Nat × Derived) :=
  let same := ((l.filter (fun x => dkcIndex x.1 == dkcIndex set && x.1 != set)).take 15).map Prod.fst
  (set, d) :: l.filter (fun x => x.1 != set && (dkcIndex x.1 != dkcIndex set || same.contains x.1))

/-- Look a derived set up: a hit makes it the most recently used. `count` is false for a packet that has waited; `bad` says that the entry
reads with an uncorrectable error: it is discarded, counted, and derived again (R190). -/
def dkcLookup (p set : Nat) (count bad : Bool) (c : Chip) : Option Derived × Chip :=
  match c.net.dkc.find? (fun x => x.1 == set) with
  | some e =>
    let rest := c.net.dkc.filter (fun x => x.1 != set)
    if bad then
      (none, countCrypto p 6 (modNet (fun n =>
        { n with dkc := rest, dkcErrors := min (n.dkcErrors + 1) ctrMax, dkcMisses := min (n.dkcMisses + 1) ctrMax }) c))
    else (some e.2, modNet (fun n => { n with dkc := e :: rest, dkcHits := min (n.dkcHits + b2n count) ctrMax }) c)
  | none => (none, countCrypto p 6 (modNet (fun n => { n with dkcMisses := min (n.dkcMisses + 1) ctrMax }) c))

/-- The cards, in force or draining, and the alternate of a set that hold the key of a slot use. -/
def slotCards (c : Chip) (use : Nat) : List (List Word) :=
  let obj := use / 2 ^ 64
  (((cfg c :: if c.gx.draining = 0 then [] else [cfgAt c c.gx.draining]).flatMap (fun g => [0, 1, 2].map (fun i => g.key obj i))) ++
    [(tget RxSet.zero c.net.rxSets obj).alt]).filter (fun b => b != [] && keyStamp b == use % 2 ^ 64)

/-- Read a slot's entry from the key table, unwrap it and derive a set (R187, R188); none where the unwrap check fails. -/
def derivedOf (c : Chip) (set : Nat) : Option Derived :=
  (slotCards c (set / 2)).head?.bind (fun b => keyDerive (keyTableKey c.net.bootNonce) b (set % 2 == 1))

/-- Bulk engines of a pipeline that are in service (R194). -/
def bulkUp (c : Chip) (p : Nat) : Bool := (List.range 4).any (fun e => c.net.cryUnits.getLsbD (4 * p + e))

/-- A slot is still in force: a card of the current configuration or an alternate holds its key. -/
def slotLive (c : Chip) (use : Nat) : Bool :=
  let obj := use / 2 ^ 64
  let st := use % 2 ^ 64
  let card := fun (b : List Word) => b != [] && keyStamp b == st
  [0, 1, 2].any (fun i => card ((cfg c).key obj i)) || card (tget RxSet.zero c.net.rxSets obj).alt

/-- When an old epoch retires, cache entries and state of replaced slots go (R190). -/
def keySweep (c : Chip) : Chip :=
  modNet (fun n => { n with dkc := n.dkc.filter (fun s => slotLive c (s.1 / 2)),
                            keySlots := n.keySlots.filter (fun e => slotLive c e.1) }) c

/-! Receive (R168 to R175). -/

/-- What verification reads of a received packet. -/
structure RxIn where
  ssrc : Nat
  rtcp : Bool
  /-- SRTP sequence number, or SRTCP index -/
  num : Nat
  eBit : Bool
  mki : Option Nat
  headBytes : Nat
  head : Nat
  bytes : Nat
  data : Nat
  tag : Nat
  deriving DecidableEq, Repr

/-- An RTP header as a number: the fixed fields and what follows them (RFC 3550). -/
def rtpHead (b0 : Nat) (marker : Bool) (pt seq ts ssrc hdrBytes tail : Nat) : Nat :=
  ((((b0 % 256 * 256 + (128 * b2n marker + pt % 128)) * 65536 + seq % 65536) * 2 ^ 32 + ts % 2 ^ 32) * 2 ^ 32 + ssrc % 2 ^ 32) *
    256 ^ (hdrBytes - 12) + tail % 256 ^ (hdrBytes - 12)

def rxOfRtp (m : Rtp) : RxIn :=
  { ssrc := m.ssrc, rtcp := false, num := m.seq, eBit := true, mki := m.mki, headBytes := m.hdrEnd,
    head := rtpHead m.b0 m.marker m.pt m.seq m.ts m.ssrc m.hdrEnd m.tail, bytes := m.bytes, data := m.payload, tag := m.tag }

def rxOfRtcp (m : Srtcp) : RxIn :=
  { ssrc := m.ssrc, rtcp := true, num := m.index, eBit := m.eBit, mki := m.mki, headBytes := 8,
    head := m.head % 2 ^ 32 * 2 ^ 32 + m.ssrc % 2 ^ 32, bytes := m.bytes, data := m.data, tag := m.tag }

/-- What came of a packet: it passed, with its decrypted payload, it waits for a derived set, or it is dropped. -/
inductive RxRes where
  | pass (plain : Nat)
  | wait (set : Nat)
  | drop
  deriving DecidableEq, Repr

/-- Slots of a receive set that hold a key: slot number, whether it is the alternate, and the card (R174, R175). -/
def rxSlots (g : Cfg) (c : Chip) (obj : Nat) : List (Nat × Bool × List Word) :=
  let alt := (tget RxSet.zero c.net.rxSets obj).alt
  ([(0, false, g.key obj 1)] ++ (if alt = [] then [(1, false, g.key obj 2)] else [(1, true, alt)])).filter
    (fun e => e.2.2 != [])

/-- Window of a slot, SSRC and class (R170); `use` 0 keeps the highest index of the SSRC under the whole set. -/
def replayKey (use ssrc : Nat) (rtcp : Bool) : Nat := (use * 2 ^ 32 + ssrc) * 2 + b2n rtcp

/-- The index of a received SRTP packet, estimated as RFC 3711 does from the highest index verified so far; the rollover
counter of an SSRC never heard is 0 (log 44). -/
def rxIndex (c : Chip) (obj : Nat) (x : RxIn) : Nat :=
  if x.rtcp then x.num
  else
    let r := tget Replay.zero c.net.replay (replayKey (obj * 2 ^ 64) x.ssrc false)
    if !r.valid then x.num
    else
      let s := r.high % 65536
      let v := r.high / 65536
      let roc := if s < 32768 then (if x.num > s + 32768 then (v + 2 ^ 32 - 1) % 2 ^ 32 else v)
        else if x.num + 32768 < s then (v + 1) % 2 ^ 32 else v
      roc * 65536 + x.num

/-- The tag of the packet is the one that a derived set gives its octets at this index. -/
def authentic (d : Derived) (x : RxIn) (index : Nat) : Bool :=
  x.tag == d.tag x.rtcp x.eBit x.ssrc index x.headBytes x.head x.bytes x.data

/-- Try the slots in order: the first that is derived and under which the packet verifies, with the set. A set that is not in the cache is
waited for; an unusable slot verifies nothing (R174, R192). -/
def trySlots (p obj : Nat) (x : RxIn) (index : Nat) (fresh bad : Bool) :
    List (Nat × Bool × List Word) → Chip → Option (Sum Nat (Derived × Nat × Bool × List Word)) × Chip
  | [], c => (none, c)
  | e :: l, c =>
    if (getKey c obj e.2.2).unusable then trySlots p obj x index fresh bad l c
    else
      let r := dkcLookup p (setOf obj e.2.2 x.rtcp) fresh bad c
      match r.1 with
      | none => (some (.inl (setOf obj e.2.2 x.rtcp)), r.2)
      | some d => if authentic d x index then (some (.inr (d, e)), r.2) else trySlots p obj x index fresh bad l r.2

/-- Put an index into a replay window of `w` indices. -/
def Replay.put (r : Replay) (index w : Nat) : Replay :=
  let high := if r.valid then max r.high index else index
  { high := high, seen := (index :: r.seen).filter (fun i => decide (high < i + w)), valid := true }

/-- NEXT becomes CURRENT in a configuration that holds the same installed key (R174). -/
def Cfg.promote (g : Cfg) (obj stamp : Nat) : Cfg :=
  let b := g.key obj 2
  if b != [] && keyStamp b == stamp then
    { g with cards := tdel (tput g.cards (cardKey 0x0210 obj 1) b) (cardKey 0x0210 obj 2) }
  else g

/-- A packet passed under a newly installed NEXT: promotion, the former key held as the alternate (R174, R175). -/
def promoteKey (g : Cfg) (p obj : Nat) (b : List Word) (c : Chip) : Chip :=
  let old := g.key obj 1
  let c1 := { c with gx := { c.gx with bank0 := c.gx.bank0.promote obj (keyStamp b), bank1 := c.gx.bank1.promote obj (keyStamp b),
                                       active := c.gx.active.map (fun a => { a with next := a.next.promote obj (keyStamp b) }) } }
  let c2 := modNet (fun n => { n with rxSets := tput n.rxSets obj { alt := old, altEnd := svc c + g.overlapMs obj * 1000000 } }) c1
  raise (pipeIsland p) 0x212 (g.keyOwner obj) (g.keyId obj) (keyMki b) c2

/-- Verification of a received packet under the receive set of an object (R168 to R170, R174, R175, R184, R192). `fresh`
says that the packet has not waited for a derivation, `bad` that the cache entry it meets reads with an uncorrectable error. -/
def verify (g : Cfg) (p obj : Nat) (x : RxIn) (fresh bad : Bool) (c : Chip) : RxRes × Chip :=
  let slots := rxSlots g c obj
  match slots with
  | [] => (.drop, countCrypto p 3 c)
  | e :: _ =>
    let cands := if keyMkiLen e.2.2 = 0 then slots else slots.filter (fun s => x.mki == some (keyMki s.2.2))
    let clear := x.rtcp && !x.eBit
    if cands = [] then (.drop, countCrypto p 2 c)
    else if clear && !cands.any (fun s => keyClear s.2.2) then (.drop, countCrypto p 7 c)
    else if !bulkUp c p || cands.all (fun s => (getKey c obj s.2.2).unusable) then (.drop, c)
    else
      let index := rxIndex c obj x
      let r := trySlots p obj x index fresh bad cands c
      match r.1 with
      | none => (.drop, countCrypto p 0 r.2)
      | some (.inl set) => (.wait set, r.2)
      | some (.inr (d, pos, alt, b)) =>
        let k := getKey r.2 obj b
        let w := 2 ^ keyReplay b
        let rk := replayKey (slotUse obj b) x.ssrc x.rtcp
        let win := tget Replay.zero r.2.net.replay rk
        let hk := replayKey (obj * 2 ^ 64) x.ssrc x.rtcp
        if clear && !keyClear b then (.drop, countCrypto p 7 r.2)
        else if k.limited then (.drop, countCrypto p 4 r.2)
        else if win.valid && (decide (index + w ≤ win.high) || win.seen.contains index) then (.drop, countCrypto p 1 r.2)
        else
          let c1 := modNet (fun n => { n with replay := tmod Replay.zero (tput n.replay rk (win.put index w)) hk (fun r => r.put index 1) }) r.2
          let c2 := countUse g p obj b pos false x.rtcp c1
          (.pass (if x.eBit then d.crypt x.ssrc index x.bytes x.data else x.data), if pos = 1 && !alt then promoteKey g p obj b c2 else c2)

/-! Send (R173, R176 to R181, R192). -/

def getTx (c : Chip) (l : Nat) : List TxSsrc := tget [] c.net.tx l

def TxSsrc.new (b : List Word) (ssrc now : Nat) : TxSsrc :=
  { ssrc := ssrc, next := keyInitial b, nextRtcp := keyInitialRtcp b, tok := 2048 * 1000000000, tokRtcp := 256 * 1000000000,
    refillNs := now, exhausted := false, sent := [] }

/-- Index state of an SSRC of a leg, if it has any (R176). -/
def findTx (c : Chip) (l ssrc : Nat) : Option TxSsrc := (getTx c l).find? (fun t => t.ssrc == ssrc)

def putTx (l : Nat) (t : TxSsrc) (c : Chip) : Chip :=
  let old := getTx c l
  let new := if old.any (fun u => u.ssrc == t.ssrc) then old.map (fun u => if u.ssrc == t.ssrc then t else u) else old ++ [t]
  modNet (fun n => { n with tx := tput n.tx l new }) c

/-- The next SRTP index of an SSRC: from its state, or the initial index of the send slot (R179, R218). -/
def nextIndex (g : Cfg) (c : Chip) (l ssrc : Nat) : Nat :=
  match findTx c l ssrc with
  | some t => t.next
  | none => keyInitial (g.key (mkKey tLeg l) 0)

/-- The index nearest to `next` whose low 16 bits are a sequence number (R176, R218). -/
def indexOf (next seq : Nat) : Nat :=
  let d := (seq + 65536 - next % 65536) % 65536
  if d < 32768 then next + d else if next + d < 65536 then next + d else next + d - 65536

/-- The number would use an index of the SSRC a second time (R177). -/
def wasSent (g : Cfg) (c : Chip) (l ssrc seq : Nat) : Bool :=
  match findTx c l ssrc with
  | some t => t.sent.contains (indexOf t.next seq) || decide (indexOf t.next seq + 128 < t.next)
  | none => decide (indexOf (nextIndex g c l ssrc) seq < nextIndex g c l ssrc)

def refillTx (t : TxSsrc) (now : Nat) : TxSsrc :=
  { t with tok := min (t.tok + (now - t.refillNs) * 163840) (2048 * 1000000000),
           tokRtcp := min (t.tokRtcp + (now - t.refillNs) * 10000) (256 * 1000000000), refillNs := now }

/-- The derived set under which a leg sends a packet of a class; or the set that must first be derived; or none where the packet is dropped:
without a usable send key (R173, R186, R192), without a bulk engine (R194), or beyond the key's limit (R184). -/
def sendSet (g : Cfg) (p l : Nat) (rtcp count bad : Bool) (c : Chip) : Option (Sum Nat Derived) × Chip :=
  let obj := mkKey tLeg l
  let b := g.key obj 0
  let k := getKey c obj b
  if b = [] || c.net.txStopped.contains l || k.unusable then (none, countCrypto p 3 c)
  else if !bulkUp c p then (none, c)
  else if k.limited then (none, countCrypto p 4 c)
  else
    let r := dkcLookup p (setOf obj b rtcp) count bad c
    (some (match r.1 with | some d => .inr d | none => .inl (setOf obj b rtcp)), r.2)

/-- The index of a packet of a leg that enters the cipher engine, or none where it is dropped. `seq` is the sequence number after rewriting,
none for SRTCP. The index is taken after the checks of R181 and R180 and is consumed whatever becomes of the packet (R176). -/
def protect (g : Cfg) (p l ssrc : Nat) (seq : Option Nat) (c : Chip) : Option Nat × Chip :=
  let obj := mkKey tLeg l
  let b := g.key obj 0
  let rtcp := seq.isNone
  let t := refillTx ((findTx c l ssrc).getD (TxSsrc.new b ssrc (localNs c))) (localNs c)
  if t.exhausted then (none, countCrypto p 8 (putTx l t c))
  else if (if rtcp then t.tokRtcp else t.tok) < 1000000000 then (none, countCrypto p 5 (putTx l t c))
  else
    let t1 := if rtcp then { t with tokRtcp := t.tokRtcp - 1000000000 } else { t with tok := t.tok - 1000000000 }
    let i := match seq with | some s => indexOf t.next s | none => t.nextRtcp
    if (if rtcp then 2 ^ 31 else 2 ^ 48) ≤ i then
      (none, countCrypto p 8 (rekeyRequired g p obj (4 + 2 ^ 32 * ssrc) (putTx l { t1 with exhausted := true } c)))
    else
      let t2 := if rtcp then { t1 with nextRtcp := i + 1 }
        else { t1 with next := max t1.next (i + 1), sent := (i :: t1.sent).filter (fun j => decide (max t1.next (i + 1) ≤ j + 128)) }
      (some i, countUse g p obj b 0 true rtcp (putTx l t2 c))

/-- A packet as it leaves the cipher engine: payload encrypted, tag and MKI added, and for SRTCP the word with the E bit set (R168). -/
def Wire.seal (w : Wire) (d : Derived) (b : List Word) (ssrc index : Nat) (rtcp : Bool) : Wire :=
  let data := d.crypt ssrc index w.bytes w.data
  { w with data := data, word := if rtcp then some (2 ^ 31 + index) else none, mkiBytes := keyMkiLen b, mki := keyMki b,
           tag := d.tag rtcp true ssrc index w.headBytes w.head w.bytes data }

/-- The SSRC values counted under the send key of a leg, at the T_act of a configuration: a newly installed key ends the count
and the values then in use enter first in rising order; later values follow (R178; log 45). -/
def countSsrcs (old g : Cfg) (l : Nat) (c : Chip) : Chip :=
  let b := g.key (mkKey tLeg l) 0
  let o := old.key (mkKey tLeg l) 0
  let had := if b ≠ [] ∧ o ≠ [] ∧ keyStamp b = keyStamp o then tget [] c.net.counted l else []
  let now := if b = [] then [] else had ++ (g.ssrcsInUse l).filter (fun s => !had.contains s)
  modNet (fun n => { n with counted := if now = [] then tdel n.counted l else tput n.counted l now }) c

/-- What the install of keys does at T_act: the count of R178 is kept, and a leg stopped for want of a fresh key sends again
under a new one (R186, R192). -/
def keysActivate (old g : Cfg) (c : Chip) : Chip :=
  (g.indexes tLeg).foldl (fun c l =>
    let b := g.key (mkKey tLeg l) 0
    let o := old.key (mkKey tLeg l) 0
    let c1 := countSsrcs old g l c
    if b ≠ [] ∧ (o = [] ∨ keyStamp b ≠ keyStamp o) then modNet (fun n => { n with txStopped := lremove n.txStopped l }) c1 else c1) c

/-! Rows. -/

/-- `ALTERNATE_KEY_EXPIRE` (R175): RX_OVERLAP has passed since the promotion, the alternate in NEXT is erased. -/
def alternateExpire (obj : Nat) (c : Chip) : Chip :=
  let r := tget RxSet.zero c.net.rxSets obj
  if r.alt = [] then c
  else modNet (fun n => { n with rxSets := tdel n.rxSets obj }) (waitSvc r.altEnd c)

def execAlternateKeyExpire (obj : Nat) (s : State) : Host.Outcome State Fault Refusal := act s (alternateExpire obj)

/-! Commands. -/

/-- One block of GX_KEY_STATUS: 32 bytes. -/
def keyBlock (c : Chip) (obj : Nat) (b : List Word) (alt : Bool) (count : Nat) : List Word :=
  if b = [] then List.replicate 8 0
  else
    let k := getKey c obj b
    [wd (1 + 2 * b2n alt + 4 * b2n k.limited + 8 * b2n k.unusable + 16 * keySuite b + 256 * count), 0] ++
      wd2 k.srtp ++ wd2 k.srtcp ++ [0, 0]

/-- One entry of GX_KEY_STATUS: 16 bytes. -/
def ssrcEntry (g : Cfg) (c : Chip) (l ssrc : Nat) : List Word :=
  let n := nextIndex g c l ssrc
  let r := match findTx c l ssrc with | some t => t.nextRtcp | none => keyInitialRtcp (g.key (mkKey tLeg l) 0)
  [wd ssrc, wd n, wd (n / 2 ^ 32 % 65536), wd (r % 2 ^ 31)]

def keyStatus (x : Ctx) (c : Chip) : Chip :=
  let id := bw x.body 0
  match (if idType id = tLeg ∨ idType id = tSource then x.names (cfg c) id else none) with
  | none => x.done ((Res.err 0x0008).withObj id 0) c
  | some _ =>
    let g := cfg c
    let obj := idKey id
    let leg := idType id == tLeg
    let ss := if leg then tget [] c.net.counted (idIndex id) else []
    let alt := (tget RxSet.zero c.net.rxSets obj).alt
    let send := if leg then keyBlock c obj (g.key obj 0) false ss.length else List.replicate 8 0
    let next := if alt = [] then keyBlock c obj (g.key obj 2) false 0 else keyBlock c obj alt true 0
    x.done (Res.ok (send ++ keyBlock c obj (g.key obj 1) false 0 ++ next ++
      (ss.take 16).flatMap (ssrcEntry g c (idIndex id)) ++ List.replicate (4 * (16 - ss.length)) 0)) c

/-- `GX_KEY_STATUS`. -/
def execGxKeyStatus (cmd : CmdRef) (s : State) : Host.Outcome State Fault Refusal := act s (serve 0x0211 cmd noFields keyStatus)

/-- `GX_CRYPTO_COUNTERS`: the nine counters of its list in 72 bytes. -/
def execGxCryptoCounters (cmd : CmdRef) (s : State) : Host.Outcome State Fault Refusal :=
  act s (serve 0x0212 cmd noFields (fun x c =>
    let p := bf x.body 0 0 2
    x.done (Res.ok (ctrWords c 0x0212 p 9)) (if bit (bw x.body 4) 0 then ctrClear 0x0212 p 9 c else c)))

end Sys2Proof.Machine
end

