-- ==== Sys2Proof/Machine/Queue.lean ====
section
/-!
DEFINITION. The four service queues of a leg, its buckets and its tag (R247 to R251, R253, R255, R650): what enters a queue,
and what is dropped or evicted on the way in.
-/
namespace Sys2Proof.Machine
open Sys2Proof

/-- Line rate of a logical port in Mb/s (R132). -/
def lineMbps (split : Nat) : Nat := if split = 0 then 400000 else if split = 1 then 200000 else 100000

/-- Rate of a logical port in Mb/s: PORT_RATE, or the line rate (R254, R269). -/
def portMbps (c : Chip) (lp : Nat) : Nat :=
  let r := (getEgPort c lp).rateMbps
  if r = 0 then lineMbps (getPort c (lp / 4)).split else r

/-- The logical port to which a leg is bound: in the current configuration while the leg exists there, else in that of the
work's own epoch. -/
def boundPort (c : Chip) (g : Cfg) (l : Nat) : Nat := if (cfg c).has tLeg l then (cfg c).legLport l else g.legLport l

/-- Settings of a leg in the same way. -/
def boundShape (c : Chip) (g : Cfg) (l : Nat) : List Word := if (cfg c).has tLeg l then (cfg c).shape l else g.shape l

/-- Bytes charged by one byte of a frame, in units of a bucket: bits × 10^9. -/
def bucketByte : Nat := 8000000000

/-- Depth of the repair bucket in bytes (R251). -/
def repairDepth (c : Chip) (lp : Nat) (b : List Word) : Nat :=
  max (getPort c (lp / 4)).mtu (shRepairPct b * shBurst b / 100)

/-- Refill a leg's buckets to the present local time (R250, R251). -/
def refillLeg (c : Chip) (lp : Nat) (b : List Word) (r : LegRun) : LegRun :=
  let dt : Int := localNs c - r.refillNs
  { r with bucket := min (shBurst b * bucketByte : Int) (r.bucket + r.rate * dt),
           repair := min (repairDepth c lp b * bucketByte : Int) (r.repair + r.rate * shRepairPct b * dt / 100),
           refillNs := localNs c }

/-- A leg is active while a packet is queued for it and its bucket is at or above zero (R252). -/
def LegRun.active (r : LegRun) : Bool := !r.queued.isEmpty && decide (0 ≤ r.bucket)

/-- A leg that becomes active takes S = V; one that is no longer active discards its tag (R253). -/
def retag (v : Nat) (r : LegRun) : LegRun := { r with tag := if r.active then some (r.tag.getD v) else none }

/-- Refill and tag a leg after a change of its queues or buckets. -/
def touchLeg (l : Nat) (c : Chip) : Chip :=
  let g := cfg c
  let lp := g.legLport l
  modLeg l (fun r => retag (getEgPort c lp).v (refillLeg c lp (g.shape l) r)) c

/-- The fewest of the oldest packets of a queue whose bytes reach `need`, and the rest. -/
def evictFor (need : Nat) : List EgPkt → List EgPkt × List EgPkt
  | [] => ([], [])
  | k :: q => if need = 0 then ([], k :: q) else ((k :: (evictFor (need - k.bytes) q).1), (evictFor (need - k.bytes) q).2)

/-- A packet that reaches the head of its queue too late is dropped (R248). -/
def pruneHead (qdelayNs now : Nat) : List EgPkt → List EgPkt × List EgPkt
  | [] => ([], [])
  | k :: q => if k.enqNs + qdelayNs < now then (k :: (pruneHead qdelayNs now q).1, (pruneHead qdelayNs now q).2) else ([], k :: q)

/-- The conference of an object is being handed over or has been, or the device has asked its twin to take over: nothing of it is replicated
or sent any more (R565, R571). -/
def stopped (c : Chip) (g : Cfg) (ty i : Nat) : Bool :=
  c.twin.silent || c.twin.gone.contains (g.confOf ty i) ||
    (match c.twin.handover with | some h => h.confs.contains (g.confOf ty i) | none => false)

/-- A packet enters a service queue of its leg (R247 to R249, R264, R650). `g` is the configuration of the epoch that tags the
work that made it. -/
def enqueue (g : Cfg) (l cls : Nat) (k : EgPkt) (c : Chip) : Chip :=
  let lp := boundPort c g l
  let b := boundShape c g l
  let r := getLeg c l
  if stopped c g tLeg l then drop k.buf c
  else if g.legLport l ≠ lp then countEg lp l 13 1 (drop k.buf c)
  else if !lportUp c lp then countEg lp l 4 1 (drop k.buf c)
  else if (getEgPort c lp).launchEn && decide (svc c + 1000000000 < k.launchNs) then countEg lp l 8 1 (drop k.buf c)
  else
    let k1 := { k with enqNs := svc c }
    let total := bytesIn r.queued + k.bytes
    if total ≤ shQBytes b then touchLeg l (modLeg l (fun r => r.putQueue cls (r.queue cls ++ [k1])) c)
    else if cls < 2 ∧ total ≤ shQBytes b + bytesIn r.q3 then
      let ev := evictFor (total - shQBytes b) r.q3
      let pr := pruneHead (shQDelay b 3 * 1000000) (svc c) ev.2
      let c1 := countEg lp l 3 pr.1.length (countEg lp l 2 ev.1.length (dropPkts (ev.1 ++ pr.1) c))
      touchLeg l (modLeg l (fun r => { r with q3 := pr.2 }.putQueue cls (r.queue cls ++ [k1])) c1)
    else countEg lp l 2 1 (drop k.buf c)

/-! Frame lengths (R167, R172, R255). -/

/-- Tag and MKI bytes of a send key for a packet class, with the E bit and index of SRTCP. -/
def cryptBytes (b : List Word) (rtcp : Bool) : Nat :=
  suiteTagBytes (keySuite b) rtcp + keyMkiLen b + (if rtcp then 4 else 0)

/-- Frame bytes around a UDP payload sent from a service address: Ethernet with FCS, tags, IP and UDP, at least 64. -/
def udpFrame (addr : List Word) (payload : Nat) : Nat :=
  max 64 (18 + 4 * (addrTags addr).length + (if addrV6 addr then 40 else 20) + 8 + payload)

/-- A packet made for a leg, without a buffer of its own (log 47). -/
def EgPkt.plain (body : EgBody) (bytes epoch : Nat) : EgPkt :=
  { body := body, wire := none, bytes := bytes, index := 0, key := 0, slot := 16, rtx := false, source := 0, launchNs := 0, enqNs := 0,
    capped := false, poison := false, buf := 0, epoch := epoch }

/-- A packet before the cipher engine: header and plain payload. -/
def Wire.plain (headBytes head bytes data : Nat) : Wire :=
  { headBytes := headBytes, head := head, bytes := bytes, data := data, word := none, mkiBytes := 0, mki := 0, tag := 0 }

/-! The miss queue of a pipeline (R189). -/

def missq (c : Chip) (p : Nat) : List MissPkt := tget [] c.eg.missq p

def modMissq (p : Nat) (f : List MissPkt → List MissPkt) : Chip → Chip := modEg (fun e => { e with missq := tmod [] e.missq p f })

/-- A packet waits in the miss queue for a derived set, whose derivation is in flight. -/
def missWait (p set epoch : Nat) (w : MissWork) (c : Chip) : Chip :=
  let c1 := modMissq p (· ++ [{ setKey := set, epoch := epoch, work := w }]) c
  modNet (fun n => { n with deriving_ := if n.deriving_.contains set then n.deriving_ else n.deriving_ ++ [set],
                            missqPeak := max n.missqPeak (missq c1 p).length }) c1

/-- A derived set enters the cache. -/
def cacheSet (set : Nat) (d : Derived) : Chip → Chip := modNet (fun n => { n with dkc := dkcInsert set d n.dkc })

/-- A slot's entry fails its unwrap check or reads as poison: every slot that holds its key is unusable (R192). -/
def setUnusable (set : Nat) (c : Chip) : Chip :=
  let obj := set / 2 / 2 ^ 64
  let p := if keyType obj = tLeg then (cfg c).legPipe (keyIndex obj) else (cfg c).srcPipe (keyIndex obj)
  (slotCards c (set / 2)).foldl (fun c b => slotUnusable (cfg c) p obj b c) c

end Sys2Proof.Machine
end

