-- ==== Sys2Proof/Machine/Rtcp.lean ====
section
/-!
DEFINITION. RTCP of the forwarder (R214, R226 to R230, R238): packets sent on a leg, keyframe requests, receive statistics,
the service of NACKs, and what a received compound packet does.
-/
namespace Sys2Proof.Machine
open Sys2Proof

def modFwd (f : Fwd → Fwd) (c : Chip) : Chip := { c with fwd := f c.fwd }

def getSrc (c : Chip) (i : Nat) : SourceRun := tget SourceRun.zero c.fwd.sources i
def modSrc (i : Nat) (f : SourceRun → SourceRun) : Chip → Chip :=
  modFwd (fun w => { w with sources := tmod SourceRun.zero w.sources i f })

def getEdge (c : Chip) (e : Nat) : EdgeRun := tget EdgeRun.zero c.fwd.edges e

def getSlotRun (c : Chip) (l s : Nat) : SlotRun := tget SlotRun.zero c.fwd.outslots (16 * l + s)

/-- Positions of GX_FWD_COUNTERS. -/
def countFwd (p pos : Nat) (c : Chip) : Chip := bump 0x0308 p pos 1 c

/-- A write of draining work to an object that the current epoch no longer has, has no effect and is counted (R37). -/
def staleWrite (c : Chip) : Chip := { c with gx := { c.gx with staleWrites := c.gx.staleWrites + 1 } }

/-- The object of a type and index is the same in the work's configuration and in the current one. -/
def sameObj (c : Chip) (g : Cfg) (ty i : Nat) : Bool := g.idAt ty i == (cfg c).idAt ty i

def putEdge (g : Cfg) (e : Nat) (x : EdgeRun) (c : Chip) : Chip :=
  if sameObj c g tEdge e then modFwd (fun w => { w with edges := tput w.edges e x }) c else staleWrite c

def putSlotRun (g : Cfg) (l s : Nat) (x : SlotRun) (c : Chip) : Chip :=
  if sameObj c g tLeg l then modFwd (fun w => { w with outslots := tput w.outslots (16 * l + s) x }) c else staleWrite c

def modSrcIn (g : Cfg) (i : Nat) (f : SourceRun → SourceRun) (c : Chip) : Chip := if sameObj c g tSource i then modSrc i f c else staleWrite c

/-! Sending (R189, R214, R229, R230). -/

/-- A packet of a leg passes the cipher engine under a derived set and enters its service queue, or is dropped (R176, R180, R181). -/
def sendUnder (g : Cfg) (p : Nat) (j : TxJob) (d : Derived) (c : Chip) : Chip :=
  let r := protect g p j.leg j.ssrc j.seq c
  match r.1 with
  | none => let c1 := drop j.pkt.buf r.2; if j.answer then countFwd p 11 c1 else c1
  | some i =>
    enqueue g j.leg j.cls
      { j.pkt with index := i, wire := j.pkt.wire.map (fun w => w.seal d (g.key (mkKey tLeg j.leg) 0) j.ssrc i j.seq.isNone) }
      (if j.answer then countFwd p 10 r.2 else r.2)

/-- A packet of a leg reaches the cipher engine: it goes on under its derived set, waits for one in the miss queue, or is dropped. One that
finds the queue full has its set derived at once (log 183). -/
def sendJob (g : Cfg) (p : Nat) (fresh bad : Bool) (j : TxJob) (c : Chip) : Chip :=
  let r := sendSet g p j.leg j.seq.isNone fresh bad c
  let lost := fun (c : Chip) => let c1 := drop j.pkt.buf c; if j.answer then countFwd p 11 c1 else c1
  match r.1 with
  | none => lost r.2
  | some (.inr d) => sendUnder g p j d r.2
  | some (.inl set) =>
    if (missq r.2 p).length < 512 then missWait p set g.epoch (.tx j) r.2
    else match derivedOf r.2 set with
      | some d => sendUnder g p j d (cacheSet set d r.2)
      | none => lost (setUnusable set r.2)

/-- Signed difference of two 16-bit numbers in serial order. -/
def ser (a b : Nat) : Int := signed 16 ((a + 65536 - b % 65536) % 65536)

/-- The lowest sequence number of RFC 8888 items and how many numbers they span. -/
def ccfbSpan (l : List CcfbItem) : Nat × Nat :=
  match l with
  | [] => (0, 0)
  | x :: l =>
    let low := l.foldl (fun a i => if ser i.seq a < 0 then i.seq else a) (x.seq % 65536)
    (low, ((x :: l).map (fun i => (ser i.seq low).toNat + 1)).foldl max 0)

/-- Octets of a CNAME item with its padding (RFC 3550). -/
def sdesItem (len : Nat) (name : List Word) : List Nat :=
  ([1, len] ++ (List.range len).map (fun i => bf name (i / 4 * 4) (8 * (i % 4)) 8) ++ [0, 0, 0, 0]).take (4 * ((len + 6) / 4))

/-- One RTCP packet of a compound as 32-bit numbers (RFC 3550, RFC 4585, RFC 5104, RFC 8888). -/
def Rtcp.octets (sender : Nat) (r : Rtcp) : List Nat :=
  let head := fun (count pt : Nat) (l : List Nat) => (((128 + count) * 256 + pt) * 65536 + l.length) :: l
  let block := fun (b : ReportBlock) => [b.ssrc, b.fractionLost * 2 ^ 24 + b.cumLost, b.extHigh, b.jitter, b.lsr, b.dlsr]
  match r with
  | .sr s ntp rtp packets octets bs => head bs.length 200 ([s, ntp / 2 ^ 32, ntp % 2 ^ 32, rtp, packets, octets] ++ bs.flatMap block)
  | .rr bs => head bs.length 201 (sender :: bs.flatMap block)
  | .nack m l => head 1 205 ([sender, m] ++ l.map (fun s => s % 65536 * 65536))
  | .pli m => head 1 206 [sender, m]
  | .fir m => head 4 206 [sender, 0, m, 0]
  | .ccfb s stamp l =>
    let sp := ccfbSpan l
    let metric := fun (i : Nat) => match l.find? (fun x => x.seq % 65536 == (sp.1 + i) % 65536) with
      | some x => if x.received then 32768 + x.ecn % 4 * 8192 + min 0x1FFE ((stamp - x.arrivalNs) * 1024 / 1000000000) else 0
      | none => 0
    head 11 205 ([sender, s, sp.1 * 65536 + sp.2] ++
      (List.range ((sp.2 + 1) / 2)).map (fun i => metric (2 * i) * 65536 + (if 2 * i + 1 < sp.2 then metric (2 * i + 1) else 0)) ++
      [stamp * 65536 / 1000000000 % 2 ^ 32])
  | .sdes len name =>
    let o := sdesItem len name
    head 1 202 (sender :: (List.range (o.length / 4)).map (fun i => (List.range 4).foldl (fun a k => a * 256 + o.getD (4 * i + k) 0) 0))
  | .other => head 0 204 [sender]

/-- A compound packet as 32-bit numbers. -/
def compound (sender : Nat) (l : List Rtcp) : List Nat := (l.flatMap (Rtcp.octets sender)).map (· % 2 ^ 32)

def Rtcp.bytes (r : Rtcp) : Nat := 4 * (r.octets 0).length
def rtcpBytes (l : List Rtcp) : Nat := (l.map Rtcp.bytes).sum

/-- Send RTCP of a leg from an SSRC, under the leg's send key, through its control queue (R228, R247). -/
def sendRtcp (g : Cfg) (l ssrc : Nat) (items : List Rtcp) (c : Chip) : Chip :=
  let key := g.key (mkKey tLeg l) 0
  let o := compound ssrc items
  let num := fun (l : List Nat) => l.foldl (fun a x => a * 2 ^ 32 + x) 0
  sendJob g (g.legPipe l) true false
    { leg := l, cls := 1, ssrc := ssrc, seq := none, answer := false,
      pkt := { EgPkt.plain (.srtcp ssrc items) (udpFrame (g.legAddrCard l) (rtcpBytes items + cryptBytes key true)) g.epoch with
        key := keyStamp key, wire := some (Wire.plain 8 (num (o.take 2)) (4 * (o.length - 2)) (num (o.drop 2))) } } c

/-- A request or NACK of a source goes out at once on its feedback leg, in reduced size where the leg has RSIZE, else behind
an empty RR and the CNAME (R230). -/
def sendFeedback (i : Nat) (item : Rtcp) (c : Chip) : Chip :=
  let g := cfg c
  let id := srcFeedback (g.body tSource i)
  let l := idIndex id
  if g.idAt tLeg l ≠ id ∨ id = 0 then c
  else
    let b := g.body tLeg l
    sendRtcp g l (legReport b) (if legRsize b then [item] else [.rr [], .sdes (legCnameLen b) (legCname b), item]) c

/-- Long-term pictures without a packet still to be reported are acknowledged (R388). -/
def RendRun.settleAcks (now : Nat) (r : RendRun) : RendRun :=
  let ls := r.ltrs.map (fun x => if x.open_.isEmpty then { x with acked := true } else x)
  match ls.foldl (fun (a : Option Ltr) x => if !x.acked then a else match a with | some y => if y.atNs < x.atNs then some x else some y | none => some x) none with
  | some x => if r.newestAckNs < x.atNs ∨ r.ackNs = 0 then { r with ltrs := ls, newestAck := x.frame, newestAckNs := x.atNs, ackNs := now, ltrStale := false } else { r with ltrs := ls }
  | none => { r with ltrs := ls }

def modRend (i : Nat) (f : RendRun → RendRun) (c : Chip) : Chip :=
  { c with vid := { c.vid with rends := tmod RendRun.zero c.vid.rends i f } }

/-- A keyframe request to a source, at most once in its PLI_MIN_INTERVAL: to the encoder for an output source, else a PLI on
the feedback leg (R214, R389). `pli` marks a PLI relayed from a leg. The answer says whether it was sent. -/
def requestKey (i : Nat) (pli : Bool) (c : Chip) : Bool × Chip :=
  let g := cfg c
  let b := g.body tSource i
  let s := getSrc c i
  let p := g.srcPipe i
  if s.lastPli ≠ 0 ∧ svc c + 1 < s.lastPli + srcPliMs b * 1000000 then (false, countFwd p 9 c)
  else
    let c1 := countFwd p 8 (modSrc i (fun s => { s with lastPli := svc c + 1 }) c)
    (true,
      if srcInternal b then
        if srcMake b ≠ 0 then c1 else
        let i := srcRend b
        modRend i (fun r => if pli && rendLtrMode (g.body tRend i) then { r with recoveryAsked := true } else { r with keyAsked := true })
          (bump 0x0803 scopeDev 10 1 (bump 0x0803 i 10 1 c1))
      else sendFeedback i (.pli (srcSsrc b)) c1)

/-! Receive statistics of a source (R227, R229). -/

/-- One packet of a source in the statistics of RFC 3550. -/
def SourceRun.count (s : SourceRun) (seq ts stamp clock : Nat) : SourceRun :=
  let transit := stamp * clock / 1000000000 % 2 ^ 32
  let tr := (transit + 2 ^ 32 - ts % 2 ^ 32) % 2 ^ 32
  if !s.heard then
    { s with heard := true, highSeq := seq, baseSeq := seq, received := 1, transit := tr, lastStamp := stamp, lastTs := ts,
             sinceReport := s.sinceReport + 1 }
  else
    let d := (signed 32 ((tr + 2 ^ 32 - s.transit) % 2 ^ 32)).natAbs
    let up := ser seq s.highSeq
    { s with highSeq := if 0 < up then s.highSeq + up.toNat else s.highSeq, received := s.received + 1, transit := tr,
             jitter16 := s.jitter16 + d - (s.jitter16 + 8) / 16, lastStamp := stamp, lastTs := ts,
             sinceReport := s.sinceReport + 1 }

/-- The numbers between the highest heard and a new one. -/
def gapOf (s : SourceRun) (seq : Nat) : List Nat :=
  let up := ser seq s.highSeq
  if s.heard ∧ 1 < up then (List.range (up.toNat - 1)).map (fun i => (s.highSeq + 1 + i) % 65536) else []

/-- A packet of a source is counted; it fills gaps, and a gap it shows waits for upstream repair (R227, R229). -/
def sourcePacket (g : Cfg) (i seq ts stamp ecn : Nat) (c : Chip) : Chip :=
  let b := g.body tSource i
  let s := getSrc c i
  let gap := gapOf s seq
  let c1 := modSrcIn g i (fun s =>
    let s1 := s.count seq ts stamp (srcClock b)
    if ccfbEn (g.ccfbCard i) then { s1 with ccfb := s1.ccfb ++ [(seq, stamp, ecn)] } else s1) c
  modFwd (fun w =>
    let l := w.gaps.map (fun q => if q.source = i then { q with missing := q.missing.filter (· != seq) } else q)
    { w with gaps := if srcNackUp b && !gap.isEmpty then
        l ++ [{ source := i, missing := gap, dueNs := svc c + srcNackDelay b * 1000000, asked := false }] else l }) c1

/-- The first of a source's gaps to fall due. -/
def firstGap (c : Chip) (i : Nat) : Option Gap :=
  (c.fwd.gaps.filter (fun q => q.source == i)).foldl (fun a q =>
    match a with | some p => if q.dueNs < p.dueNs then some q else some p | none => some q) none

/-- `NACK_UP_TIMER` (R227): the numbers still missing are asked for, and once more after twice the delay. -/
def nackUp (i : Nat) (c : Chip) : Chip :=
  match firstGap c i with
  | none => c
  | some q =>
    let c1 := waitSvc q.dueNs c
    let b := (cfg c1).body tSource i
    let rest := c1.fwd.gaps.filter (· != q)
    if q.missing.isEmpty then modFwd (fun w => { w with gaps := rest }) c1
    else
      let q1 := { q with dueNs := svc c1 + 2 * srcNackDelay b * 1000000, asked := true }
      sendFeedback i (.nack (srcSsrc b) q.missing) (modFwd (fun w => { w with gaps := if q.asked then rest else rest ++ [q1] }) c1)

def execNackUpTimer (source : Nat) (s : State) : Host.Outcome State Fault Refusal := act s (nackUp source)

/-! NTP times (R230, R238). -/

/-- Service time as a 64-bit NTP time, with the UTC offset of the time block. -/
def svcNtp (c : Chip) (ns : Nat) : Nat :=
  let sec : Int := ns / 1000000000 - c.time.utcOffset + 2208988800
  unsigned 32 sec * 2 ^ 32 + ns % 1000000000 * 2 ^ 32 / 1000000000

/-- The NTP and RTP time of an out-slot now, when its present source has a kept SR or is made inside the device. -/
def slotTimes (g : Cfg) (c : Chip) (v : SlotRun) : Option (Nat × Nat) :=
  let b := g.body tSource v.curSource
  let s := getSrc c v.curSource
  if !v.haveSrc then none
  else if srcInternal b then
    some (svcNtp c (svc c), (v.lastTsOut + (svc c - v.lastStamp) * srcClock b / 1000000000) % 2 ^ 32)
  else if !s.haveSr then none
  else
    let el := svc c - s.srNs
    some ((s.srNtp + el * 2 ^ 32 / 1000000000) % 2 ^ 64, (s.srRtp + v.tsOffset + el * srcClock b / 1000000000) % 2 ^ 32)

/-! Reports (R229). -/

/-- The report block of a source (RFC 3550). -/
def blockOf (g : Cfg) (c : Chip) (i : Nat) : ReportBlock :=
  let s := getSrc c i
  let expected := s.highSeq - s.baseSeq + 1
  let expI := expected - s.expPrior
  let lostI := expI - (s.received - s.recvPrior)
  { ssrc := srcSsrc (g.body tSource i), fractionLost := if expI = 0 then 0 else lostI * 256 / expI % 256,
    cumLost := unsigned 24 (min 8388607 (max (-8388608) ((expected : Int) - s.received))), extHigh := s.highSeq % 2 ^ 32,
    jitter := s.jitter16 / 16, lsr := if s.haveSr then s.srNtp / 65536 % 2 ^ 32 else 0,
    dlsr := if s.haveSr then (svc c - s.srNs) * 65536 / 1000000000 % 2 ^ 32 else 0 }

/-- Sources whose feedback leg is a leg, rising. -/
def Cfg.fedBy (g : Cfg) (l : Nat) : List Nat :=
  (g.indexes tSource).filter (fun i => srcFeedback (g.body tSource i) == g.idAt tLeg l && g.idAt tLeg l != 0)

/-- Split a list into parts of at most `n`. -/
def chunks {α : Type} (n : Nat) : Nat → List α → List (List α)
  | 0, _ => []
  | f + 1, l => if l.isEmpty then [] else l.take n :: chunks n f (l.drop n)

/-- The next report of a leg, 0.5 to 1.5 periods from now, drawn anew (R229). -/
def armReport (g : Cfg) (l : Nat) (c : Chip) : Chip :=
  let d := draw c
  let p := legPeriodMs (g.body tLeg l) * 1000000
  modLeg l (fun r => { r with rtcpDue := svc c + p / 2 + d.1 % (p + 1) }) d.2

/-- The compound packets of a leg's report, protected under its REPORT_SSRC (R229). -/
def sendReport (g : Cfg) (l : Nat) (c : Chip) : Chip :=
  let b := g.body tLeg l
  let slots := (g.slotsOn l).map (fun e => (e, getSlotRun c l e.1))
  let srs := slots.filterMap (fun e =>
    if e.2.sentSince then
      (slotTimes g c e.2).map (fun t => Rtcp.sr (osSsrc e.1.2) t.1 t.2 (e.2.srPackets % 2 ^ 32) (e.2.srOctets % 2 ^ 32) [])
    else none)
  let fed := (g.fedBy l).filter (fun i => decide (0 < (getSrc c i).sinceReport))
  let blocks := fed.map (blockOf g c)
  let sdes := Rtcp.sdes (legCnameLen b) (legCname b)
  let excess := udpFrame (g.legAddrCard l) 0 + cryptBytes (g.key (mkKey tLeg l) 0) true
  let room := fun (head : Nat) => min 31 (((getPort c (g.legLport l / 4)).mtu - excess - head - sdes.bytes) / 24)
  let headBytes := if srs.isEmpty then 8 else 28 * srs.length
  let n := room headBytes
  let first := match srs with
    | .sr s t r k o _ :: rest => Rtcp.sr s t r k o (blocks.take n) :: rest
    | _ => [Rtcp.rr (blocks.take n)]
  let c1 := slots.foldl (fun c e => putSlotRun g l e.1.1 { e.2 with sentSince := false } c) c
  let c2 := fed.foldl (fun c i => modSrc i (fun s =>
    { s with sinceReport := 0, expPrior := s.highSeq - s.baseSeq + 1, recvPrior := s.received }) c) c1
  let c3 := sendRtcp g l (legReport b) (first ++ [sdes]) c2
  (chunks (room 8) blocks.length (blocks.drop n)).foldl (fun c part => sendRtcp g l (legReport b) [.rr part, sdes] c) c3

/-- `RTCP_REPORT_TIMER` (R229). -/
def reportTimer (l : Nat) (c : Chip) : Chip :=
  if (cfg c).has tLeg l then
    let c1 := waitSvc (getLeg c l).rtcpDue c
    armReport (cfg c1) l (sendReport (cfg c1) l c1)
  else c

def execRtcpReportTimer (leg : Nat) (s : State) : Host.Outcome State Fault Refusal := act s (reportTimer leg)

/-- `CCFB_REPORT_TIMER` (R238): the sequence numbers received since the previous report, the newest 1,024 of them. -/
def ccfbTimer (i : Nat) (c : Chip) : Chip :=
  if !ccfbEn ((cfg c).ccfbCard i) then c
  else
    let c1 := waitSvc (getSrc c i).ccfbDue c
    let g := cfg c1
    let all := (getSrc c1 i).ccfb
    let off : Int := c1.time.utcOffset * 1000000000
    let items := (all.drop (all.length - 1024)).map (fun e =>
      ({ seq := e.1, received := true, arrivalNs := ((e.2.1 : Int) - off).toNat, ecn := e.2.2 } : CcfbItem))
    let l := idIndex (srcFeedback (g.body tSource i))
    let c2 := modSrc i (fun s => { s with ccfb := [], ccfbDue := svc c1 + ccfbMs (g.ccfbCard i) * 1000000 }) c1
    let c3 := if 1024 < all.length then countEg (boundPort c2 g l) l 11 (all.length - 1024) c2 else c2
    sendFeedback i (.ccfb (srcSsrc (g.body tSource i)) (((svc c3 : Int) - off).toNat) items) c3

def execCcfbReportTimer (source : Nat) (s : State) : Host.Outcome State Fault Refusal := act s (ccfbTimer source)

/-! Retransmission (R225, R226). -/

def histKey (l s seq : Nat) : Nat := (16 * l + s) * 512 + seq % 512

/-- Cached packet of a reference. -/
def findCached (c : Chip) (ref gen : Nat) : Option CacheEntry := c.fwd.cache.find? (fun e => e.idx == ref && e.gen == gen)

/-- Octet `i` of a string of `n`. -/
def octetAt (n x i : Nat) : Nat := x / 256 ^ (n - 1 - i) % 256
def setOctet (n x i v : Nat) : Nat := let w := 256 ^ (n - 1 - i); if i < n then x - x / w % 256 * w + v % 256 * w else x

/-- A VP8 payload with the PictureID of 15 bits and the TL0PICIDX of its descriptor replaced (RFC 7741). -/
def patchVp8 (n x pid tl0 : Nat) : Nat :=
  if n < 2 ∨ octetAt n x 0 < 128 then x
  else
    let e := octetAt n x 1
    let wide := 128 ≤ e ∧ 128 ≤ octetAt n x 2
    let x1 := if wide then setOctet n (setOctet n x 2 (128 + pid / 256)) 3 pid else x
    if 64 ≤ e % 128 then setOctet n x1 (2 + (if wide then 2 else if 128 ≤ e then 1 else 0)) tl0 else x1

/-- Payload of a packet of a source with the VP8 fields it is sent with. -/
def sentPayload (sb : List Word) (k : Pkt) (pid tl0 : Nat) : Nat := if srcKind sb = 2 then patchVp8 k.bytes k.payload pid tl0 else k.payload

/-- A copy of a packet on the RTX stream of an out-slot (R226): it takes the next number of that stream and its own index, and
one more reference of the packet's buffer. `answer` marks an answer to a NACK. -/
def sendRtx (g : Cfg) (p l s : Nat) (answer : Bool) (h : HistEntry) (k : Pkt) (c : Chip) : Chip :=
  let sc := g.slotCard l s
  let ssrc := osRtxSsrc sc
  let v := getSlotRun c l s
  let seq := if v.rtxSsrc = ssrc + 1 then v.rtxSeqNext else nextIndex g c l ssrc % 65536
  let c1 := putSlotRun g l s { v with rtxSsrc := ssrc + 1, rtxSeqNext := (seq + 1) % 65536 } c
  let key := g.key (mkKey tLeg l) 0
  let t := retain (getBuf c1 k.buf).owner k.buf c1
  if k.buf ≠ 0 ∧ t.1 ≠ 0 then
    let c2 := countEg (boundPort t.2 g l) l 5 1 t.2
    if answer then countFwd p 11 c2 else c2
  else
    let bytes := udpFrame (g.legAddrCard l) (k.hdrBytes + 2 + k.bytes + cryptBytes key false)
    let plain := sentPayload (g.body tSource k.source) k h.pid h.tl0
    sendJob g p true false
      { leg := l, cls := 2, ssrc := ssrc, seq := some seq, answer := answer,
        pkt := { EgPkt.plain (.srtp ssrc seq h.tsOut (osRtxPt sc) h.marker h.pid h.tl0 k.payload (some h.seqOut)) bytes g.epoch with
          wire := some (Wire.plain k.hdrBytes (rtpHead k.b0 h.marker (osRtxPt sc) seq h.tsOut ssrc k.hdrBytes k.tail) (k.bytes + 2)
            (h.seqOut % 65536 * 256 ^ k.bytes + plain % 256 ^ k.bytes)),
          key := keyStamp key, slot := s, rtx := true, source := k.source, buf := k.buf } }
      (if k.buf ≠ 0 then t.2 else c1)

/-- One number of a generic NACK. `bad` lists numbers whose history entry or cached packet reads as poison (R231). -/
def answerNack (g : Cfg) (p l s : Nat) (bad : List Nat) (seq : Nat) (c : Chip) : Chip :=
  let h := tget HistEntry.zero c.fwd.hist (histKey l s seq)
  let held := h.answeredNs ≠ 0 ∧ svc c + 1 < h.answeredNs + c.fwd.holdoffMs * 1000000
  match findCached c h.cache h.gen with
  | some e =>
    if !h.valid || h.seqOut != seq || held || h.poison || e.poison || bad.contains seq then countFwd p 11 c
    else
      sendRtx g p l s true h e.pkt (modFwd (fun w => { w with hist := tput w.hist (histKey l s seq) { h with answeredNs := svc c + 1 } }) c)
  | none => countFwd p 11 c

/-- A generic NACK on a leg (R226). The answers take the current epoch (R35). -/
def serveNack (l media : Nat) (seqs bad : List Nat) (c : Chip) : Chip :=
  let g := cfg c
  let p := g.legPipe l
  match (g.slotsOn l).find? (fun e => osSsrc e.2 == media) with
  | some (s, sc) => if osRtx sc then seqs.foldl (fun c q => answerNack g p l s bad (q % 65536) c) c else countFwd p 12 c
  | none => countFwd p 12 c

/-! Receive (R228). -/

def ignoreRtcp (l : Nat) : Chip → Chip := modLeg l (fun r => { r with ignored := r.ignored + 1 })

/-- A PLI or FIR is relayed to the present source of the out-slot it names. -/
def relayKey (g : Cfg) (l media : Nat) (pli : Bool) (c : Chip) : Chip :=
  match (g.slotsOn l).find? (fun e => osSsrc e.2 == media) with
  | some (s, _) => if (getSlotRun c l s).haveSrc then (requestKey (getSlotRun c l s).curSource pli c).2 else ignoreRtcp l c
  | none => ignoreRtcp l c

/-- The round-trip time in µs that a report block tells: arrival less LSR and DLSR, in the clock of the SR it answers. -/
def blockRtt (g : Cfg) (c : Chip) (l : Nat) (b : ReportBlock) : Option Nat :=
  match (g.slotsOn l).find? (fun e => osSsrc e.2 == b.ssrc) with
  | some (s, _) =>
    if b.lsr = 0 then none
    else (slotTimes g c (getSlotRun c l s)).map (fun t =>
      (t.1 / 65536 % 2 ^ 32 + 2 ^ 33 - b.lsr % 2 ^ 32 - b.dlsr % 2 ^ 32) % 2 ^ 32 * 1000000 / 65536)
  | none => none

def takeBlocks (g : Cfg) (l : Nat) (bs : List ReportBlock) (c : Chip) : Chip :=
  modLeg l (fun r => { r with rrs := r.rrs ++ bs.map (fun b => (b, blockRtt g c l b)) }) c

/-- The source sequence number that an outgoing number stands for, by the out-slot's delta history (R388). -/
def SlotRun.sourceSeq (v : SlotRun) (seq : Nat) : Option Nat :=
  (v.hist.find? (fun e => decide (0 ≤ ser ((seq + 65536 - e.2) % 65536) e.1))).map (fun e => (seq + 65536 - e.2) % 65536)

/-- Packets reported as received acknowledge long-term pictures of the rendition that feeds the out-slot (R388). -/
def ackLtr (g : Cfg) (l ssrc : Nat) (items : List CcfbItem) (c : Chip) : Chip :=
  match (g.slotsOn l).find? (fun e => osSsrc e.2 == ssrc) with
  | some (s, _) =>
    let v := getSlotRun c l s
    let b := g.body tSource v.curSource
    if v.haveSrc && srcInternal b && srcMake b == 0 then
      let got := (items.filter (·.received)).filterMap (fun i => v.sourceSeq i.seq)
      modRend (srcRend b) (fun r =>
        let ls := r.ltrs.map (fun x => { x with open_ := x.open_.filter (fun o => !(o.1 == l && got.contains o.2)) })
        { r with ltrs := ls }.settleAcks (svc c)) c
    else c
  | none => c

def rtcpItem (g : Cfg) (l stamp : Nat) (bad : List Nat) (item : Rtcp) (c : Chip) : Chip :=
  match item with
  | .sr ssrc ntp rtp _ _ blocks =>
    takeBlocks g l blocks ((g.fedBy l).foldl (fun c i =>
      if srcSsrc (g.body tSource i) = ssrc then
        modSrc i (fun s => { s with srNtp := ntp % 2 ^ 64, srRtp := rtp % 2 ^ 32, srNs := stamp, haveSr := true }) c
      else c) c)
  | .rr blocks => takeBlocks g l blocks c
  | .nack media seqs => serveNack l media seqs bad c
  | .pli media => relayKey g l media true c
  | .fir media => relayKey g l media false c
  | .ccfb ssrc _ items => ackLtr g l ssrc items (modLeg l (fun r => { r with reports := r.reports ++ [(ssrc, items)], ccfbSeen := true }) c)
  | .sdes _ _ => ignoreRtcp l c
  | .other => ignoreRtcp l c

/-- A verified SRTCP packet received on a leg (R228). -/
def rtcpIn (g : Cfg) (l stamp : Nat) (bad : List Nat) (items : List Rtcp) (c : Chip) : Chip :=
  items.foldl (fun c i => rtcpItem g l stamp bad i c) c

end Sys2Proof.Machine
end

