-- ==== Sys2Proof/Machine/Layers.lean ====
section
/-!
DEFINITION. The classification word (R158), switch points, and the choice of layers on an edge (R210 to R214).
-/
namespace Sys2Proof.Machine
open Sys2Proof

/-! The classification word of R158. -/

def dSpatial (d : BitVec 64) : Nat := bits d.toNat 0 3
def dTemporal (d : BitVec 64) : Nat := bits d.toNat 3 3
def dKey (d : BitVec 64) : Bool := d.getLsbD 6
def dSwitchUp (d : BitVec 64) : Bool := d.getLsbD 7
def dStart (d : BitVec 64) : Bool := d.getLsbD 8
def dEnd (d : BitVec 64) : Bool := d.getLsbD 9
def dLevel (d : BitVec 64) : Nat := bits d.toNat 10 7
def dVad (d : BitVec 64) : Bool := d.getLsbD 17
def dMask (d : BitVec 64) : Nat := bits d.toNat 18 8

/-! Choosing layers (R210 to R214). -/

/-- `hi` down to `lo`. -/
def downTo (hi lo : Nat) : List Nat := (List.range (hi + 1 - lo)).map (fun i => hi - i)

/-- The decode target that DT_MAP assigns to a layer, else the highest one mapped below it (R210). -/
def dtFor (b : List Word) (s t : Nat) : Option Nat :=
  let at_ := fun (s t : Nat) => (List.range 8).find? (fun d => srcDt b d == some (s, t))
  match at_ s t with
  | some d => some d
  | none => ((downTo s 0).flatMap (fun a => (downTo t 0).map (fun b => (a, b)))).findSome? (fun e => at_ e.1 e.2)

/-- A packet is a switch-up point for a layer, seen from a present spatial layer (R157, R210). -/
def switchPoint (b : List Word) (d : BitVec 64) (cs s t : Nat) : Bool :=
  dKey d ||
    (match srcKind b with
     | 1 => match dtFor b s t with | some i => bit (dMask d) i | none => false
     | 2 => s == cs && dSwitchUp d && decide (t ≤ dTemporal d)
     | 3 => s == cs && dTemporal d == 0
     | _ => false)

/-- The highest layer above (cs, ct) and no higher than (s, t) for which the packet is a switch-up point: spatial layer
first (log 49). -/
def bestPoint (b : List Word) (d : BitVec 64) (cs ct s t : Nat) : Option (Nat × Nat) :=
  ((downTo s cs).flatMap (fun x => (downTo t ct).map (fun y => (x, y)))).find?
    (fun e => e != (cs, ct) && switchPoint b d cs e.1 e.2)

/-- Service time in ms modulo 65,536, the unit of WAIT_START. -/
def nowMs (c : Chip) : Nat := svc c / 1000000 % 65536

/-- The switch test of an edge at a frame start (R210, R212). `m` is the fixed layer of a simulcast member. -/
def switchEdge (b : List Word) (d : BitVec 64) (m : Option Nat) (s t now : Nat) (x : EdgeRun) : EdgeRun :=
  let y : EdgeRun :=
    if x.st = 2 then
      if dKey d ∧ (m = none ∨ m = some s) then { x with curS := s, curT := t, st := 0 } else x
    else
      match m with
      | none =>
        let cs := min x.curS s
        let ct := min x.curT t
        match (if cs < s ∨ ct < t then bestPoint b d cs ct s t else none) with
        | some u => { x with curS := u.1, curT := u.2, pliAsked := false, st := if u.1 < s ∨ u.2 < t then 1 else 0 }
        | none => { x with curS := cs, curT := ct, st := if cs < s ∨ ct < t then 1 else 0 }
      | some m =>
        if m = s ∧ s ≠ x.curS ∧ dKey d then { x with curS := s, curT := t, st := 0 }
        else
          let ct := min x.curT t
          let x1 :=
            if m = x.curS then
              match (if ct < t then bestPoint b d x.curS ct x.curS t else none) with
              | some u => { x with curT := u.2, pliAsked := false }
              | none => { x with curT := ct }
            else x
          { x1 with st := if x1.curS ≠ s ∨ x1.curT < t then 1 else 0 }
  let y := if x.st = 0 ∧ y.st ≠ 0 then { y with waitStart := now, pliAsked := false } else y
  if y.st = 0 then { y with pliAsked := false, down := 0 } else y

/-- An edge asks a source for a keyframe; a suppressed request starts the wait again (R214). -/
def edgeAsk (g : Cfg) (e i : Nat) (x : EdgeRun) (c : Chip) : Chip :=
  let r := requestKey i false c
  putEdge g e (if r.1 then { x with pliAsked := true } else { x with waitStart := nowMs c }) r.2

/-- The member of a simulcast group that carries a layer, else the source itself. -/
def Cfg.member (g : Cfg) (i s : Nat) : Nat :=
  if g.inSimul i then ((g.members (g.baseOf i)).find? (fun k => srcFixedS (g.body tSource k) == s)).getD i else i

end Sys2Proof.Machine
end

