-- ==== Sys2Proof/Machine/Tap.lean ====
section
/-!
DEFINITION. Feeding a decode context (R311 to R315, R327): the tap on a source, the assembly of frames, the frame bucket, overrun, and
the decode task of the next frame.
-/
namespace Sys2Proof.Machine
open Sys2Proof

/-! Access. -/

def modVid (f : Video → Video) (c : Chip) : Chip := { c with vid := f c.vid }
def getDec (c : Chip) (i : Nat) : DecRun := tget DecRun.zero c.vid.decs i
def putDec (i : Nat) (x : DecRun) : Chip → Chip := modVid (fun v => { v with decs := tput v.decs i x })
def modDec (i : Nat) (f : DecRun → DecRun) (c : Chip) : Chip := putDec i (f (getDec c i)) c

/-- Count an event at context and device scope of GX_DECODE_COUNTERS. -/
def countDec (i pos n : Nat) (c : Chip) : Chip := bump 0x0602 scopeDev pos n (bump 0x0602 i pos n c)

/-- The highest in serial order of a sequence number and others. -/
def lastSeqOf (l : List Nat) (top : Option Nat) : Option Nat :=
  l.foldl (fun a s => match a with | some t => if 0 < ser s t then some s else some t | none => some s) top

/-- The frame is done with: its packets free their buffers, and later packets of it are late. -/
def dropFrame (i : Nat) (f : AsmFrame) (c : Chip) : Chip :=
  f.bufs.foldl (fun c h => drop h c) (modDec i (fun x => { x with doneSeq := lastSeqOf f.seqs x.doneSeq }) c)

/-! Keyframe requests (R214, R327). -/

/-- A keyframe request of a context, to the member that carries its target layer; the repeat period runs from here. -/
def decAskKey (g : Cfg) (i : Nat) (c : Chip) : Chip :=
  let b := g.decode i
  let r := requestKey (g.member i (dcMaxS b)) false c
  let c1 := modDec i (fun x => { x with pliAt := svc c + dcPliMs b * 1000000 }) r.2
  if r.1 then countDec i 10 1 c1 else c1

/-- The context clears to WAIT_KEY and asks for a keyframe. -/
def decWaitKey (g : Cfg) (i : Nat) (c : Chip) : Chip :=
  decAskKey g i (modDec i (fun x =>
    { x with st := .waitKey, concealedRun := 0, recoverAt := none, recovery := none,
             bufs := x.bufs.map (fun b => { b with short := false, long := false, slot := 0, outPending := false }) }) c)

/-! Decode tasks (R314). -/

/-- A decode task of a context that has not ended. -/
def decTask (c : Chip) (i : Nat) : Option (Nat × Task) :=
  c.sched.tasks.find? (fun e => e.2.st.live && e.2.desc.target == 1 && e.2.desc.work == i)

/-- The task of the context's next frame, once its previous frame has completed: level 6, any core of any die. -/
def decReady (g : Cfg) (i : Nat) (c : Chip) : Chip :=
  let x := getDec c i
  match x.waiting with
  | [] => c
  | f :: _ =>
    if x.busy.isSome || (decTask c i).isSome then c
    else
      (createTask ((g.owner tSource i).getD 0)
        { TaskDesc.zero with target := 1, prio := 6, etag := currentTag c, affinity := 0xF, work := i, args := [wd f.num] } c).2

/-! Frames (R312, R313, R315). -/

/-- Frames discarded for overrun, reported at most once a second (R315). -/
def overrun (g : Cfg) (i : Nat) (gone : List AsmFrame) (c : Chip) : Chip :=
  let n := gone.length
  if n = 0 then c
  else
    raiseRated (pipeIsland (g.srcPipe i)) 0x604 (g.owner tSource i) (g.idAt tSource i) (fun k => k) n
      (countDec i 6 n (gone.foldl (fun c f => dropFrame i f c) c))

/-- More than four complete frames wait: the newest disposable one goes, or all of them (R315). -/
def trimWaiting (l : List AsmFrame) : List AsmFrame × List AsmFrame :=
  if l.length ≤ 4 then (l, [])
  else
    match l.reverse.find? (fun f => f.disposable) with
    | some f => (l.filter (fun x => x.num != f.num), [f])
    | none => ([], l)

/-- A keyframe waits or is on a core. -/
def DecRun.keyComing (x : DecRun) : Bool :=
  x.waiting.any (fun f => f.key) || (match x.busy with | some b => b.frame.key | none => false)

/-- The bucket of R313 at the present local time: rate MAX_FPS, depth max(2, MAX_FPS ÷ 10) frames. -/
def DecRun.refill (b : List Word) (now : Nat) (x : DecRun) : DecRun :=
  { x with bucket := min (max 2 (dcFps b / 10) * 1000000000) (x.bucket + dcFps b * (now - x.refillNs)), refillNs := now }

/-- A complete frame (R313, R315, R327, R329). -/
def completeFrame (g : Cfg) (i : Nat) (f : AsmFrame) (c : Chip) : Chip :=
  let b := g.decode i
  let x := (getDec c i).refill b (localNs c)
  if (x.st = .waitKey ∨ x.st = .refused) ∧ !f.key ∧ !x.keyComing then countDec i 2 1 (dropFrame i f (putDec i x c))
  else
    let empty := decide (x.bucket < 1000000000)
    let c1 := if empty then countDec i 5 1 c else c
    if empty ∧ f.disposable then dropFrame i f (putDec i x c1)
    else
      let y := if empty then x else { x with bucket := x.bucket - 1000000000 }
      let t := trimWaiting (y.waiting ++ [f])
      decReady g i (overrun g i t.2 (putDec i { y with waiting := t.1 } c1))

/-- All packets from the first to the last have arrived. -/
def AsmFrame.whole (f : AsmFrame) : Bool :=
  match f.firstSeq, f.lastSeq with
  | some a, some b => (List.range ((b + 65536 - a) % 65536 + 1)).all (fun k => f.seqs.contains ((a + k) % 65536))
  | _, _ => false

/-- Frames complete in order; an incomplete one holds every later one (R312). -/
def flushFrames (g : Cfg) (i : Nat) : Nat → Chip → Chip
  | 0, c => c
  | n + 1, c =>
    match (getDec c i).asm with
    | [] => c
    | f :: rest =>
      if f.whole then flushFrames g i n (completeFrame g i f (modDec i (fun x => { x with asm := rest, doneSeq := lastSeqOf f.seqs x.doneSeq }) c))
      else c

/-- Place a frame by its first packet, in serial order. -/
def putFrame (f : AsmFrame) (l : List AsmFrame) : List AsmFrame :=
  sortPut (fun a b => match a.seqs, b.seqs with | s :: _, t :: _ => decide (ser s t ≤ 0) | _, _ => true) f l

/-- A forwarded packet joins its frame (R312). -/
def tapCollect (g : Cfg) (i : Nat) (k : Pkt) (c : Chip) : Chip :=
  let b := g.decode i
  let x := getDec c i
  let s := dSpatial k.desc
  let sb := g.body tSource k.source
  let join := fun (f : AsmFrame) =>
    { f with firstSeq := if dStart k.desc then some k.seq else f.firstSeq, lastSeq := if dEnd k.desc then some k.seq else f.lastSeq,
             seqs := if f.seqs.contains k.seq then f.seqs else k.seq :: f.seqs, key := f.key || dKey k.desc,
             disposable := if dStart k.desc then srcKind sb != 4 && Config.disposable (srcKind sb) k.payload else f.disposable,
             bufs := if f.seqs.contains k.seq then f.bufs else k.buf :: f.bufs }
  let mine := fun (f : AsmFrame) => f.ts == k.ts && f.spatial == s
  let gone := x.lost.any (fun e => e.1 == k.ts && e.2.1 == s) || (match x.doneSeq with | some d => decide (ser k.seq d ≤ 0) | none => false)
  if !x.asm.any mine && gone then countDec i 4 1 c
  else
    let c1 := if x.asm.any (fun f => mine f && f.seqs.contains k.seq) then c else keep k.buf c
    let l := if x.asm.any mine then x.asm.map (fun f => if mine f then join f else f)
      else putFrame (join { num := x.nextNum, firstSeq := none, lastSeq := none, seqs := [], firstStamp := k.stampNs,
                            deadline := k.stampNs + dcAssemblyMs b * 1000000, ts := k.ts, key := false, spatial := s,
                            temporal := dTemporal k.desc, disposable := false, bufs := [], retried := false }) x.asm
    let n := if x.asm.any mine then x.nextNum else x.nextNum + 1
    flushFrames g i (l.length + 1) (modDec i (fun x => { x with asm := l, nextNum := n }) c1)

/-- A packet of a source reaches the decode tap of a context (R311): the layer rules of an edge with the tap's target. -/
def tapOne (g : Cfg) (i : Nat) (k : Pkt) (c : Chip) : Chip :=
  let b := g.decode i
  let sb := g.body tSource k.source
  let x := (getDec c i).tap
  let m := if g.inSimul k.source then some (srcFixedS sb) else none
  let s := dcMaxS b
  let t := dcMaxT b
  let test := dStart k.desc && !k.late
  let y := if test then switchEdge sb k.desc m s t (nowMs c) { x with tgtS := s, tgtT := t } else x
  let c1 := modDec i (fun r => { r with tap := y }) c
  let ask := fun (y : EdgeRun) (c : Chip) =>
    let r := if (getDec c i).st = .refused then (false, c) else requestKey (g.member k.source s) false c
    let c2 := modDec i (fun q => { q with tap := if r.1 then { y with pliAsked := true } else { y with waitStart := nowMs c } }) r.2
    if r.1 then countDec i 10 1 c2 else c2
  let c2 :=
    if test ∧ y.st ≠ 0 then
      if m.isSome ∧ y.st = 1 ∧ s < y.curS ∧ y.down ≠ s + 1 then ask { y with down := s + 1 } c1
      else if 300 ≤ (nowMs c1 + 65536 - y.waitStart) % 65536 then ask y c1 else c1
    else c1
  let ok := (y.st == 0 || y.st == 1) && (match m with | some m => m == y.curS | none => decide (dSpatial k.desc ≤ y.curS)) &&
    decide (dTemporal k.desc ≤ y.curT)
  if ok then tapCollect g i k c2 else c2

/-- The contexts that a packet's source feeds: its own, and that of its simulcast base. -/
def tapPacket (g : Cfg) (k : Pkt) (c : Chip) : Chip :=
  let l := if g.baseOf k.source = k.source then [k.source] else [g.baseOf k.source, k.source]
  (l.filter (fun i => g.hasDecode i)).foldl (fun c i => tapOne g i k c) c

/-- A frame is declared lost; losses that lie further back than sequence numbers reach are forgotten. -/
def declareLost (i : Nat) (f : AsmFrame) (c : Chip) : Chip :=
  let n := f.seqs.headD 0
  countDec i 3 1 (dropFrame i f (modDec i (fun x => { x with lost := (f.ts, f.spatial, n) :: x.lost.filter (fun e => decide (0 ≤ ser n e.2.2)) }) c))

/-- `ASSEMBLY_TIMEOUT` (R312): the oldest frame is declared lost. -/
def assemblyTimeout (i : Nat) (c0 : Chip) : Chip :=
  match (getDec c0 i).asm with
  | [] => c0
  | f :: rest =>
    let c := waitSvc f.deadline c0
    flushFrames (cfg c) i (rest.length + 1) (declareLost i f (modDec i (fun x => { x with asm := rest }) c))

def execAssemblyTimeout (source : Nat) (s : State) : Host.Outcome State Fault Refusal := act s (assemblyTimeout source)

end Sys2Proof.Machine
end

