-- ==== Sys2Proof/Machine/Forward.lean ====
section
/-!
DEFINITION. Forwarding by layers (chapter 06): the way of a packet on an edge, rewriting through an out-slot, the retransmission
cache, replication with the edge cache, and speaker selection.
-/
namespace Sys2Proof.Machine
open Sys2Proof

/-- What becomes of a packet on an edge: the out-slot, whether the layer choice drops it, and the present spatial layer. -/
structure EdgeWay where
  slot : Nat
  dropped : Bool
  curS : Nat
  deriving DecidableEq, Repr

/-- The packet is late on an out-slot (R217). -/
def isLate (v : SlotRun) (k : Pkt) : Bool := k.late || (v.haveSrc && v.curSource == k.source && decide (ser k.seq v.highSrcSeq < 0))

/-- An out-slot of kind 0 or 2 selects a source other than an edge's (R213). -/
def dormant (g : Cfg) (sc : List Word) (base : Nat) : Bool :=
  (osKind sc == 0 || osKind sc == 2) && g.baseOf (osSelect sc) != base

/-- Layer choice, or speaker selection, on one edge (R205, R209 to R214, R223). -/
def edgeWay (g : Cfg) (p e : Nat) (k : Pkt) (c : Chip) : Option EdgeWay × Chip :=
  let b := g.body tEdge e
  let l := edLeg b
  let sb := g.body tSource k.source
  if !g.has tLeg l then (none, c)
  else if edAudio b then
    (((g.speakerSlots l).find? (fun s => (getSlotRun c l s.1).speaker == k.source + 1)).map
      (fun s => { slot := s.1, dropped := false, curS := 0 }), c)
  else
    let sc := g.slotCard l (edSlot b)
    if !osEnable sc || dormant g sc (edSource b) then (none, c)
    else if srcKind sb = 0 then (some { slot := edSlot b, dropped := false, curS := 0 }, c)
    else
      let x := getEdge c e
      let m := if g.inSimul k.source then some (srcFixedS sb) else none
      let s := min x.tgtS (edMaxS b)
      let t := min x.tgtT (edMaxT b)
      let test := x.st != 3 && dStart k.desc && !isLate (getSlotRun c l (edSlot b)) k
      let y := if test then switchEdge sb k.desc m s t (nowMs c) x else x
      let c1 := if y = x then c else putEdge g e y c
      let c2 := if x.curS < y.curS ∨ x.curT < y.curT then countFwd p 6 c1 else c1
      let c3 := if y.curS < x.curS ∨ y.curT < x.curT then countFwd p 7 c2 else c2
      let c4 :=
        if test ∧ y.st ≠ 0 then
          if m.isSome ∧ y.st = 1 ∧ s < y.curS ∧ y.down ≠ s + 1 then edgeAsk g e (g.member k.source s) { y with down := s + 1 } c3
          else if osTimeout sc ≤ (nowMs c + 65536 - y.waitStart) % 65536 then edgeAsk g e (g.member k.source s) y c3
          else c3
        else c3
      let st := if x.st = 3 then x.was else y.st
      let ok := (st == 0 || st == 1) && (match m with | some m => m == y.curS | none => decide (dSpatial k.desc ≤ y.curS)) &&
        decide (dTemporal k.desc ≤ y.curT)
      (some { slot := edSlot b, dropped := !ok, curS := y.curS }, c4)

/-! Header rewriting (R215 to R219). -/

/-- Delta of the newest history entry at or below a number. -/
def SlotRun.lateDelta (v : SlotRun) (seq : Nat) : Option Nat := (v.hist.find? (fun e => decide (0 ≤ ser seq e.1))).map Prod.snd

/-- The first packet on an SSRC takes the low 16 bits of that SSRC's next index (R218). -/
def startSsrc (g : Cfg) (c : Chip) (l ssrc : Nat) (v : SlotRun) : SlotRun :=
  if v.ssrc = ssrc + 1 then v else { v with ssrc := ssrc + 1, seqNext := nextIndex g c l ssrc % 65536 }

/-- A source switch at the first forwarded packet of the new source (R218). -/
def sourceSwitch (clock : Nat) (k : Pkt) (v : SlotRun) : SlotRun :=
  let step := max 1 ((2 * (k.stampNs - v.lastStamp) * clock + 1000000000) / 2000000000)
  { v with
    seqDelta := (v.seqNext + 65536 - k.seq % 65536) % 65536,
    curSource := k.source,
    tsOffset := if v.haveSrc then (v.lastTsOut + step + 2 ^ 32 - k.ts % 2 ^ 32) % 2 ^ 32 else 0,
    pidOffset := if v.haveSrc ∧ k.pidBits ≠ 0 then (v.lastPid + 1 + 32768 - k.pid % 32768) % 32768 else v.pidOffset,
    tl0Offset := if v.haveSrc ∧ k.hasTl0 then (v.lastTl0 + 1 + 256 - k.tl0 % 256) % 256 else v.tl0Offset,
    haveSrc := true, switchPending := false, hist := [], histHead := 0, highSrcSeq := k.seq }

/-- A delta that differs from the newest entry is entered at HIST_HEAD (R216). -/
def SlotRun.note (v : SlotRun) (seq : Nat) : SlotRun :=
  if v.hist.head?.map Prod.snd = some v.seqDelta then v
  else { v with hist := ((seq, v.seqDelta) :: v.hist).take 14, histHead := (v.histHead + 1) % 14 }

/-- Make and send the replica of a packet through an out-slot, with the delta it takes (R215, R218, R225, R263). `v` is the
rewrite state to be written back; `setBad` says that the leg's derived set reads with an uncorrectable error (R190). -/
def emitReplica (g : Cfg) (p l s curS delta : Nat) (late setBad : Bool) (k : Pkt) (v : SlotRun) (c : Chip) : Chip :=
  let sc := g.slotCard l s
  let sb := g.body tSource k.source
  let video := srcKind sb != 0
  let seq := (k.seq + delta) % 65536
  let ts := (k.ts + v.tsOffset) % 2 ^ 32
  let marker := if video then dEnd k.desc && dSpatial k.desc == curS else k.marker
  let pid := if osPid sc ∧ k.pidBits = 15 then (k.pid + v.pidOffset) % 32768 else k.pid
  let tl0 := if osPid sc ∧ k.hasTl0 then (k.tl0 + v.tl0Offset) % 256 else k.tl0
  let v1 := { v with srPackets := v.srPackets + 1, srOctets := v.srOctets + k.bytes, sentSince := true }
  let v2 := if late then v1
    else { v1 with seqNext := (seq + 1) % 65536, lastTsOut := ts, lastStamp := k.stampNs, lastPid := pid, lastTl0 := tl0 }
  let c1 := countFwd p 0 (putSlotRun g l s v2 c)
  let h : HistEntry :=
    { HistEntry.zero with valid := k.cacheRef != 0, seqOut := seq, tsOut := ts, pid := pid, tl0 := tl0, marker := marker,
                          cache := (k.cacheRef - 1) % 2 ^ 27, gen := (k.cacheRef - 1) / 2 ^ 27 % 32 }
  let c2 := if osRtx sc then modFwd (fun w => { w with hist := tput w.hist (histKey l s seq) h }) c1 else c1
  let key := g.key (mkKey tLeg l) 0
  let t := retain (getBuf c2 k.buf).owner k.buf c2
  if k.buf ≠ 0 ∧ t.1 ≠ 0 then countEg (boundPort t.2 g l) l 5 1 t.2
  else
    let us := shLaunchUs (g.shape l)
    sendJob g p true setBad
      { leg := l, cls := if video then 3 else 0, ssrc := osSsrc sc, seq := some seq, answer := false,
        pkt := { EgPkt.plain (.srtp (osSsrc sc) seq ts (osPt sc) marker pid tl0 k.payload none)
            (udpFrame (g.legAddrCard l) (k.hdrBytes + k.bytes + cryptBytes key false)) g.epoch with
          wire := some (Wire.plain k.hdrBytes (rtpHead k.b0 marker (osPt sc) seq ts (osSsrc sc) k.hdrBytes k.tail) k.bytes
            (sentPayload sb k pid tl0)),
          key := keyStamp key, slot := s, source := k.source, buf := k.buf,
          launchNs := if k.launchNs ≠ 0 then k.launchNs else if us ≠ 0 then k.stampNs + us * 1000 else 0 } }
      (if k.buf ≠ 0 then t.2 else c2)

/-- A packet reaches an out-slot, forwarded or dropped by the layer choice (R215 to R218). -/
def throughSlot (g : Cfg) (p l : Nat) (setBad : Bool) (w : EdgeWay) (k : Pkt) (c : Chip) : Chip :=
  let s := w.slot
  let sc := g.slotCard l s
  let v := getSlotRun c l s
  let mine := v.haveSrc && v.curSource == k.source
  if v.poison then c
  else if isLate v k then
    match (if mine ∧ (ser k.seq v.highSrcSeq).natAbs ≤ 64 then v.lateDelta k.seq else none) with
    | none => countFwd p 5 c
    | some d =>
      if w.dropped then countFwd p 4 c
      else if wasSent g c l (osSsrc sc) ((k.seq + d) % 65536) then countFwd p 5 c
      else emitReplica g p l s w.curS d true setBad k v c
  else if w.dropped then
    countFwd p 4 (if mine then putSlotRun g l s { v with highSrcSeq := k.seq, seqDelta := (v.seqDelta + 65535) % 65536 } c else c)
  else
    let fresh := v.ssrc != osSsrc sc + 1
    let v1 := startSsrc g c l (osSsrc sc) v
    let v2 :=
      if mine then
        if fresh then { v1 with highSrcSeq := k.seq, seqDelta := (v1.seqNext + 65536 - k.seq % 65536) % 65536, hist := [], histHead := 0 }
        else { v1 with highSrcSeq := k.seq }
      else sourceSwitch (srcClock (g.body tSource k.source)) k v1
    let v3 := v2.note k.seq
    emitReplica g p l s w.curS v3.seqDelta false setBad k v3 c

/-! The retransmission cache (R224). -/

/-- The oldest entries whose bytes reach `over`, and the rest. -/
def trimCache (excess : Nat) : List CacheEntry → List CacheEntry × List CacheEntry
  | [] => ([], [])
  | e :: l => if excess = 0 then ([], e :: l) else (e :: (trimCache (excess - e.bytes) l).1, (trimCache (excess - e.bytes) l).2)

/-- An early release is counted and reported at most once a second (R224). -/
def evictEarly (e : CacheEntry) (c : Chip) : Chip :=
  raiseRated (pipeIsland e.pipeline) 0x302 none e.pipeline (fun n => n) 1 (countFwd e.pipeline 13 (drop e.pkt.buf c))

/-- Bytes that the cache has for whole buffers: its size less the history rings of the out-slots with RTX_EN, of 512 entries of 16 bytes each
(R224, R225). -/
def cacheRoom (c : Chip) : Nat :=
  let g := cfg c
  c.fwd.cacheGib * 2 ^ 30 - 8192 * ((g.indexes tLeg).map (fun l => ((g.slotsOn l).filter (fun e => osRtx e.2)).length)).sum

/-- Keep an admitted packet for its source's RTX_DEPTH_MS, with one reference of its buffer. -/
def cachePkt (g : Cfg) (p : Nat) (k : Pkt) (c : Chip) : Pkt × Chip :=
  let depth := srcRtxDepth (g.body tSource k.source)
  let t := retain (getBuf c k.buf).owner k.buf c
  if depth = 0 ∨ (k.buf ≠ 0 ∧ t.1 ≠ 0) then (k, c)
  else
    let c1 := if k.buf ≠ 0 then t.2 else c
    let n := c1.fwd.cacheNext
    let k1 := { k with cacheRef := n % 2 ^ 32 + 1 }
    let e : CacheEntry :=
      { idx := n % 2 ^ 27, gen := n / 2 ^ 27 % 32, pkt := k1, endNs := svc c1 + depth * 1000000,
        bytes := poolBytes (handlePool k.buf), pipeline := p, poison := false }
    let all := c1.fwd.cache ++ [e]
    let tr := trimCache ((all.map (·.bytes)).sum - cacheRoom c1) all
    (k1, tr.1.foldl (fun c e => evictEarly e c) (modFwd (fun w => { w with cacheNext := n + 1, cache := tr.2 }) c1))

/-- `RTX_CACHE_EXPIRE` (R224): the packet whose depth ends first is released. -/
def cacheExpire (c : Chip) : Chip :=
  match c.fwd.cache.foldl (fun (a : Option CacheEntry) e =>
    match a with | some b => if e.endNs < b.endNs then some e else some b | none => some e) none with
  | none => c
  | some e => drop e.pkt.buf (modFwd (fun w => { w with cache := w.cache.filter (· != e) }) (waitSvc e.endNs c))

def execRtxCacheExpire (s : State) : Host.Outcome State Fault Refusal := act s cacheExpire

/-! Replication (R204 to R207, R231). -/

def getPipe (c : Chip) (p : Nat) : Pipe := tget Pipe.zero c.net.pipes p
def modPipe (p : Nat) (f : Pipe → Pipe) : Chip → Chip := modNet (fun n => { n with pipes := tmod Pipe.zero n.pipes p f })

/-- Bytes received by layer in the last second (R242). -/
def countLayer (k : Pkt) (c : Chip) : Chip :=
  let add := fun (l : List (Nat × Nat)) => (l.filter (fun x => decide (svc c < x.1 + 1000000000))) ++ [(svc c, k.frameBytes)]
  modEg (fun e => { e with layerWin := tmod [] e.layerWin (k.source * 64 + dSpatial k.desc * 8 + dTemporal k.desc) add }) c

/-- A packet enters the replication queue of 4,096, or waits for room in it behind those that wait already (R206). -/
def Pipe.enter (k : Pkt) (q : Pipe) : Pipe :=
  if q.repl.length < 4096 ∧ q.entry = [] then { q with repl := q.repl ++ [k] } else { q with entry := q.entry ++ [k] }

/-- A packet leaves the queue, and as many as then have room come in from the wait. -/
def Pipe.leave (k : Pkt) (q : Pipe) : Pipe :=
  let l := q.repl.filter (· != k)
  { q with repl := l ++ q.entry.take (4096 - l.length), entry := q.entry.drop (4096 - l.length) }

/-- The score of an audio source moves toward v by an eighth of the difference, truncated toward zero (R220). -/
def scoreStep (score : Nat) (d : BitVec 64) : Nat :=
  let v : Int := if dVad d then (127 - dLevel d) * 256 else 0
  ((score : Int) + (v - score).tdiv 8).toNat

/-- An admitted packet, or one made inside the device, moves the score of an audio source, is cached and enters the replication queue (R30,
R206, R220, R224). -/
def admitPkt (g : Cfg) (p : Nat) (k : Pkt) (c : Chip) : Chip :=
  let c0 := if srcKind (g.body tSource k.source) = 0 then modSrcIn g k.source (fun s => { s with score := scoreStep s.score k.desc }) c else c
  let r := cachePkt g p k c0
  modPipe p (Pipe.enter r.1) (countLayer r.1 r.2)

/-! The edge list (R202). -/

/-- Runs of consecutive numbers in a rising list, as first and last. -/
def runsOfList : List Nat → List (Nat × Nat)
  | [] => []
  | e :: l => match runsOfList l with
    | (a, b) :: r => if a = e + 1 then (e, b) :: r else (e, e) :: (a, b) :: r
    | [] => [(e, e)]

/-- The smallest gap between two neighbours of a list of runs. -/
def leastGap : List (Nat × Nat) → Option Nat
  | x :: y :: l => some (match leastGap (y :: l) with | some n => min n (y.1 - x.2) | none => y.1 - x.2)
  | _ => none

/-- Join the first two neighbours that lie a gap apart. -/
def joinRun (gap : Nat) : List (Nat × Nat) → List (Nat × Nat)
  | x :: y :: l => if y.1 - x.2 = gap then (x.1, y.2) :: l else x :: joinRun gap (y :: l)
  | l => l

/-- Compaction to at most 64 runs: the nearest neighbours become one run, across the edges between them (R202; log 184). -/
def compactRuns : Nat → List (Nat × Nat) → List (Nat × Nat)
  | 0, l => l
  | n + 1, l => if l.length ≤ 64 then l else match leastGap l with | some gap => compactRuns n (joinRun gap l) | none => l

/-- The runs in which firmware holds the edge list of a source: those of its group's base (R202). -/
def Cfg.edgeRuns (g : Cfg) (i : Nat) : List (Nat × Nat) :=
  let l := runsOfList (g.edgesOf (g.baseOf i))
  compactRuns l.length l

/-- The edge indexes that a walk of a source meets. -/
def Cfg.edgeList (g : Cfg) (i : Nat) : List Nat := (g.edgeRuns i).flatMap (fun r => (List.range (r.2 + 1 - r.1)).map (r.1 + ·))

def needRewrite (kind key : Nat) : Chip → Chip :=
  modFwd (fun w => { w with rewrites := if w.rewrites.contains (kind, key) then w.rewrites else w.rewrites ++ [(kind, key)] })

/-- Index state of a leg reads as poison: the leg sends nothing more until a key is committed, and firmware rebuilds the
state from a value that is at most the lost one, plus the guards of R185 (R192; log 50). -/
def indexPoison (g : Cfg) (p l : Nat) (c : Chip) : Chip :=
  let d := draw c
  rekeyRequired g p (mkKey tLeg l) 2
    (modNet (fun n =>
      { n with txStopped := linsert n.txStopped l,
               tx := tmod [] n.tx l (fun ts => ts.map (fun t =>
                 { t with next := t.next - d.1 % 26625 + 28672, nextRtcp := t.nextRtcp - d.1 % 1757 + 4096 })) }) d.2)

/-- One edge of a walk: a record that is not valid in the packet's bank, or is another source's, is skipped (R202, R205). -/
def walkEdge (g : Cfg) (p : Nat) (bad : BadRecs) (k : Pkt) (e : Nat) (c : Chip) : Chip :=
  let x := getEdge c e
  if !g.has tEdge e || edSource (g.body tEdge e) != g.baseOf k.source then c
  else if bad.edges.contains e || x.poison then
    needRewrite 0 e (modFwd (fun w => { w with edges := tput w.edges e { x with poison := true } })
      (raise (pipeIsland p) 0x303 (g.owner tEdge e) (g.idAt tEdge e) e c))
  else
    let r := edgeWay g p e k c
    let l := edLeg (g.body tEdge e)
    match r.1 with
    | none => r.2
    | some w =>
      let key := 16 * l + w.slot
      let c1 := if bad.legs.contains l then indexPoison g p l r.2 else r.2
      if bad.slots.contains key then
        needRewrite 2 key (modFwd (fun f => { f with outslots := tmod SlotRun.zero f.outslots key (fun v => { v with poison := true }) }) c1)
      else throughSlot g p l (bad.sets.contains l) w k c1

/-- A line of the edge cache becomes the most recently used; `dirty` marks its run-time words as changed (R204). -/
def touchLine (p line : Nat) (dirty : Bool) : Chip → Chip :=
  modPipe p (fun q => { q with edgeLines :=
    (line, dirty || q.edgeLines.any (fun x => x.1 == line && x.2)) :: q.edgeLines.filter (fun x => x.1 != line) })

/-- Walk the edges that are left until the list ends or a line misses: the edges still to be done (R204, R205). `filled` says that the line of
the first has just come in, for an access that counted as a miss. -/
def walkEdges (g : Cfg) (p : Nat) (bad : BadRecs) (k : Pkt) : Bool → List Nat → Chip → List Nat × Chip
  | _, [], c => ([], c)
  | filled, e :: l, c =>
    if (getPipe c p).edgeLines.any (fun x => x.1 == e / 2) then
      let c1 := walkEdge g p bad k e (if filled then c else countFwd p 1 c)
      walkEdges g p bad k false l (touchLine p (e / 2) (getEdge c1 e != getEdge c e) c1)
    else (e :: l, countFwd p 2 c)

/-- Go on with a packet whose replication has started; at the end of its list it frees its own reference of the buffer. -/
def continueWalk (p : Nat) (bad : BadRecs) (filled : Bool) (k : Pkt) (c : Chip) : Chip :=
  let r := walkEdges (cfgAt c k.epoch) p bad k filled k.walk c
  if r.1 = [] then drop k.buf (modPipe p (Pipe.leave k) r.2)
  else modPipe p (fun q => { q with repl := q.repl.map (fun x => if x = k then { k with walk := r.1 } else x) }) r.2

/-- The first packet that may start: no earlier packet of its source is in the queue (R207). -/
def nextToReplicate : List Pkt → List Nat → Option Pkt
  | [], _ => none
  | k :: l, seen => if k.epoch = 0 ∧ !seen.contains k.source then some k else nextToReplicate l (k.source :: seen)

/-- `REPLICATION` (R205): the packet takes its epoch and walks the edge list. A source that is gone makes no replica (R151),
nor does one whose entry reads as poison (R231). -/
def replicate (p : Nat) (srcBad : Bool) (bad : BadRecs) (c : Chip) : Chip :=
  match nextToReplicate (getPipe c p).repl [] with
  | none => c
  | some k =>
    let g := cfg c
    let bad1 := srcBad || (getSrc c k.source).poison
    let k1 := { k with epoch := c.gx.current, walk := if g.has tSource k.source && !bad1 && !stopped c g tSource k.source then g.edgeList k.source else [] }
    let c1 := if bad1 then needRewrite 1 k.source (modSrc k.source (fun s => { s with poison := true }) c) else c
    let c2 := modPipe p (fun q => { q with repl := q.repl.map (fun x => if x = k then k1 else x) }) c1
    continueWalk p bad false k1 (if g.has tSource k.source && !bad1 && !stopped c g tSource k.source then tapPacket g k c2 else c2)

/-- Lines that leave a set of 16 ways, one of the 2,048 of a pipeline's 2 MiB, for a new line: all but the 15 most recently used. -/
def edgeOut (lines : List (Nat × Bool)) (line : Nat) : List (Nat × Bool) :=
  (lines.filter (fun x => Config.edgeIndex x.1 % 2048 == Config.edgeIndex line % 2048 && x.1 != line)).drop 15

/-- `EDGE_CACHE_FILL` (R204): the line comes in, the least recently used of its 16 ways leaves and is written back when it is
dirty, and the packet that waits for the line goes on. -/
def edgeFill (p line : Nat) (bad : BadRecs) (c : Chip) : Chip :=
  match (getPipe c p).repl.find? (fun k => k.epoch != 0 && k.walk.head?.map (· / 2) == some line) with
  | none => c
  | some k =>
    let out := edgeOut (getPipe c p).edgeLines line
    let c1 := out.foldl (fun c x => if x.2 then countFwd p 3 c else c) c
    let c2 := modPipe p (fun q => { q with edgeLines := q.edgeLines.filter (fun x => !out.contains x) }) c1
    continueWalk p bad true k (touchLine p line false c2)

/-- `FORWARDER_RECORD_REWRITE` (R219, R231): kind 0 an edge, whose run-time word restarts in state 2; kind 1 a source entry;
kind 2 an out-slot, rebuilt with the low 16 bits of the guarded index of its SSRC (R185, R219). -/
def rewriteRecord (kind key : Nat) (c : Chip) : Chip :=
  if !c.fwd.rewrites.contains (kind, key) then c
  else
    let c1 := modFwd (fun w => { w with rewrites := w.rewrites.filter (· != (kind, key)) }) c
    let g := cfg c
    if kind = 0 then modFwd (fun w => { w with edges := tput w.edges key { EdgeRun.zero with st := 2, waitStart := nowMs c } }) c1
    else if kind = 1 then modSrc key (fun s => { s with poison := false }) c1
    else
      let l := key / 16
      let ssrc := osSsrc (g.slotCard l (key % 16))
      let v := getSlotRun c1 l (key % 16)
      let n := (nextIndex g c1 l ssrc + 28672) % 65536
      let v1 := { SlotRun.zero with seqNext := n, ssrc := ssrc + 1, speaker := v.speaker, placedNs := v.placedNs, spkRank := v.spkRank }
      raise (pipeIsland (g.legPipe l)) 0x304 (g.owner tLeg l) (g.idAt tLeg l) (key % 16 + 2 ^ 16 * n)
        (modFwd (fun w => { w with outslots := tput w.outslots key v1 }) c1)

def execForwarderRecordRewrite (kind key : Nat) (s : State) : Host.Outcome State Fault Refusal := act s (rewriteRecord kind key)

/-! Speaker selection (R220 to R223). -/

/-- `SPEAKER_SELECT_DUE` (R221): every 20 ms of service time a task of the conference is made ready. -/
def speakerDue (conf : Nat) (c : Chip) : Chip :=
  if !(cfg c).has tConf conf then c
  else
    let at_ := max (tget 0 c.fwd.spkDue conf + 20000000) (svc c / 20000000 * 20000000)
    let c1 := waitSvc at_ c
    let c2 := modFwd (fun w => { w with spkDue := tput w.spkDue conf (svc c1 / 20000000 * 20000000) }) c1
    if fwPending c2 fwSpeaker conf then c2 else fwCreate fwSpeaker 5 ((cfg c2).owner tConf conf |>.getD 0) conf c2

def execSpeakerSelectDue (conf : Nat) (s : State) : Host.Outcome State Fault Refusal := act s (speakerDue conf)

/-- Audio sources of a conference with at least one audio edge, the nine highest scores, equals by lower index (R221). -/
def rankSources (g : Cfg) (c : Chip) (conf : Nat) : List Nat :=
  let heard := (g.indexes tSource).filter (fun i =>
    g.confOf tSource i == mkKey tConf conf && srcKind (g.body tSource i) == 0 && (g.edgesOf i).any (fun e => edAudio (g.body tEdge e)))
  (sortBy (fun a b => decide ((getSrc c b).score ≤ (getSrc c a).score)) heard).take 9

/-- Place the chosen sources of a leg on its speaker slots (R222). -/
def placeSpeakers (g : Cfg) (cb : List Word) (ranked : List Nat) (l : Nat) (c : Chip) : Chip :=
  let slots := g.speakerSlots l
  let rank := fun (s : Nat) => match slots.find? (fun e => e.1 == s) with | some e => osRank e.2 + 1 | none => 0
  let c1 := (List.range 16).foldl (fun c s =>
    let v := getSlotRun c l s
    if v.spkRank = rank s then c
    else putSlotRun g l s { v with speaker := if v.spkRank = 0 then v.speaker else 0, spkRank := rank s } c) c
  let heard := fun (i : Nat) => (g.edgesOf i).any (fun e => edAudio (g.body tEdge e) && edLeg (g.body tEdge e) == l)
  let chosen := (ranked.filter (fun i => srcFeedback (g.body tSource i) != g.idAt tLeg l && heard i &&
    decide (confFloor cb * 256 ≤ (getSrc c1 i).score))).take slots.length
  let occ := slots.map (fun e => (e.1, getSlotRun c1 l e.1))
  let free := (occ.filter (fun e => e.2.speaker == 0 ||
    (!chosen.contains (e.2.speaker - 1) && decide (e.2.placedNs + confHoldMs cb * 1000000 ≤ svc c1)))).map Prod.fst
  let want := chosen.filter (fun i => !occ.any (fun e => e.2.speaker == i + 1))
  (free.zip want).foldl (fun c e =>
    putSlotRun g l e.1 { getSlotRun c l e.1 with speaker := e.2 + 1, placedNs := svc c, switchPending := true } c) c1

/-- `SPEAKER_SELECT_RUN` (R221, R222): the task that runs for the conference ranks and places under the epoch of its start (R35), and is
over. -/
def speakerRun (conf : Nat) (c : Chip) : Chip :=
  match fwRunning c fwSpeaker conf with
  | none => c
  | some slot =>
    let g := cfgAt c (getTask c slot).epoch
    let ranked := rankSources g c conf
    let legs := (g.indexes tLeg).filter (fun l => g.confOf tLeg l == mkKey tConf conf)
    fwFinish slot (legs.foldl (fun c l => placeSpeakers g (g.body tConf conf) ranked l c) c)

def execSpeakerSelectRun (conf : Nat) (s : State) : Host.Outcome State Fault Refusal := act s (speakerRun conf)

/-! What the forwarder does when an epoch becomes current (R209, R213, R222). -/

/-- A new edge starts in state 2 and asks its source at once, or is dormant; an edge whose out-slot selects otherwise changes
between the two. -/
def edgeActivate (old g : Cfg) (e : Nat) (c : Chip) : Chip :=
  let b := g.body tEdge e
  let base := edSource b
  let sleep := !edAudio b && dormant g (g.slotCard (edLeg b) (edSlot b)) base
  if old.idAt tEdge e ≠ g.idAt tEdge e then
    let x := { EdgeRun.zero with st := if sleep then 3 else 2, waitStart := nowMs c }
    let c1 := modFwd (fun w => { w with edges := tput w.edges e x }) c
    if sleep || edAudio b || srcKind (g.body tSource base) == 0 then c1 else edgeAsk g e (g.member base 0) x c1
  else
    let x := getEdge c e
    if sleep ∧ x.st ≠ 3 then modFwd (fun w => { w with edges := tput w.edges e { x with st := 3, was := x.st } }) c
    else if ¬ sleep ∧ x.st = 3 then
      modFwd (fun w => { w with edges := tput w.edges e { x with st := 2, waitStart := nowMs c, pliAsked := false } }) c
    else c

/-- Out-slots of a leg: those of a new leg are blank, a slot that becomes a speaker slot is empty, a newly selected source is
awaited. -/
def slotActivate (old g : Cfg) (l s : Nat) (c : Chip) : Chip :=
  let a := old.slotCard l s
  let b := g.slotCard l s
  let v := if old.idAt tLeg l = g.idAt tLeg l then getSlotRun c l s else SlotRun.zero
  let spk := fun (x : List Word) => osEnable x && osKind x == 1
  let v1 := if spk b && !(spk a && old.idAt tLeg l == g.idAt tLeg l) then { v with speaker := 0 } else v
  let v2 := { v1 with switchPending := if osEnable b && osKind b != 1 then v1.haveSrc && g.baseOf v1.curSource != g.baseOf (osSelect b)
    else v1.switchPending && spk b }
  if v2 = getSlotRun c l s then c else modFwd (fun w => { w with outslots := tput w.outslots (16 * l + s) v2 }) c

def sourceActivate (old g : Cfg) (i : Nat) (c : Chip) : Chip :=
  let c1 := if old.idAt tSource i = g.idAt tSource i then c else modFwd (fun w => { w with sources := tput w.sources i SourceRun.zero }) c
  if ccfbEn (g.ccfbCard i) && !(ccfbEn (old.ccfbCard i) && old.idAt tSource i == g.idAt tSource i) then
    modSrc i (fun s => { s with ccfb := [], ccfbDue := svc c1 + ccfbMs (g.ccfbCard i) * 1000000 }) c1
  else c1

def forwardActivate (old g : Cfg) (c : Chip) : Chip :=
  let c1 := (g.indexes tSource).foldl (fun c i => sourceActivate old g i c) c
  let c2 := (g.indexes tLeg).foldl (fun c l => (List.range 16).foldl (fun c s => slotActivate old g l s c) c) c1
  (g.indexes tEdge).foldl (fun c e => edgeActivate old g e c) c2

/-! Commands. -/

/-- Configuration word of an edge in a bank (R200). -/
def edgeCfgWord (g : Cfg) (e : Nat) : Nat :=
  match g.at tEdge e with
  | none => 0
  | some o =>
    let b := o.body
    1 + 2 * b2n (edAudio b) + 4 * edMaxS b + 32 * edMaxT b + 256 * edSlot b + 4096 * edWeight b + 2 ^ 16 * (edLeg b % 2 ^ 18) +
      2 ^ 34 * (edSource b % 2 ^ 19)

def edgeRunWord (x : EdgeRun) : Nat :=
  x.curS % 8 + 8 * (x.curT % 8) + 64 * (x.tgtS % 8) + 512 * (x.tgtT % 8) + 4096 * (x.st % 4) + 16384 * b2n x.pliAsked + 65536 * (x.waitStart % 65536)

/-- The rewrite state of an out-slot as R201 lays it out, from +0x20 on. -/
def slotRunWords (v : SlotRun) : List Word :=
  [wd (v.seqNext % 65536 + 65536 * (v.seqDelta % 65536)), wd v.tsOffset, wd v.lastTsOut,
   wd (v.highSrcSeq % 65536 + 65536 * (v.pidOffset % 32768) + 2 ^ 31 * b2n v.haveSrc)] ++
    wd2 (v.lastStamp % 2 ^ 48 + 2 ^ 48 * (v.tl0Offset % 256)) ++
    [wd (v.curSource % 2 ^ 19 + 2 ^ 19 * b2n v.switchPending), wd (v.rtxSeqNext % 65536 + 65536 * (v.histHead % 16))] ++
    (List.range 14).map (fun j => let h := v.hist.getD ((v.histHead + 13 - j) % 14) (0, 0); wd (h.1 % 65536 + 65536 * (h.2 % 65536))) ++
    [wd v.srPackets, wd v.srOctets]

/-- The configuration part of R201, whose reserved bits read 0. -/
def slotCfgWords (b : List Word) : List Word := [b.getD 4 0 &&& 0x3FFFFF, b.getD 5 0 &&& 0x7FFFFFFF, b.getD 6 0, b.getD 7 0]

def edgeQuery (x : Ctx) (c : Chip) : Chip :=
  x.withObj (bw x.body 0) tEdge (fun o c =>
    let e := idIndex (bw x.body 0)
    let l := edLeg o.body
    let s := edSlot o.body
    x.done (Res.ok (wd2 (edgeCfgWord c.gx.bank0 e) ++ wd2 (edgeCfgWord c.gx.bank1 e) ++ [wd (edgeRunWord (getEdge c e)), 0, 0, 0] ++
      slotCfgWords (c.gx.bank0.slotCard l s) ++ slotCfgWords (c.gx.bank1.slotCard l s) ++ slotRunWords (getSlotRun c l s))) c) c

/-- `GX_EDGE_QUERY`: the records of R200 and R201, 160 bytes. -/
def execGxEdgeQuery (cmd : CmdRef) (s : State) : Host.Outcome State Fault Refusal := act s (serve 0x0306 cmd noFields edgeQuery)

def fwdConfigFields (b : List Word) : Option Nat := firstBad [(outside (bf b 0 0 6) 1 32, 0), (outside (bf b 4 0 9) 5 500, 4)]

def fwdConfig (x : Ctx) (c : Chip) : Chip :=
  let gib := bf x.body 0 0 6
  let g := cfg c
  if gib ≠ c.fwd.cacheGib ∧ (g.indexes tSource).any (fun i => srcRtxDepth (g.body tSource i) != 0) then x.done (Res.err 0x0307) c
  else x.done (Res.ok []) (modFwd (fun w => { w with cacheGib := gib, holdoffMs := bf x.body 4 0 9 }) c)

/-- `GX_FWD_CONFIG` (R224, R226). -/
def execGxFwdConfig (cmd : CmdRef) (s : State) : Host.Outcome State Fault Refusal := act s (serve 0x0307 cmd fwdConfigFields fwdConfig)

/-- `GX_FWD_COUNTERS`: 14 counters of a pipeline. -/
def execGxFwdCounters (cmd : CmdRef) (s : State) : Host.Outcome State Fault Refusal :=
  act s (serve 0x0308 cmd noFields (fun x c =>
    let p := bf x.body 0 0 2
    x.done (Res.ok (ctrWords c 0x0308 p 14)) (if bit (bw x.body 4) 0 then ctrClear 0x0308 p 14 c else c)))

end Sys2Proof.Machine
end

