-- ==== Sys2Proof/Machine/Sound.lean ====
section
/-!
DEFINITION. Audio figures that several blocks share: the grid, saturation, levels, ramps, rate-converter chains, detectors and
meters (R271 to R273, R286 to R292, R300), and the arrival of a packet at a jitter buffer (R281, R283, R284).
-/
namespace Sys2Proof.Machine
open Sys2Proof

/-! Access. -/

def modAud (f : Audio → Audio) (c : Chip) : Chip := { c with aud := f c.aud }

def getIn (c : Chip) (l : Nat) : AudIn := tget AudIn.zero c.aud.ins l
def modIn (l : Nat) (f : AudIn → AudIn) : Chip → Chip := modAud (fun a => { a with ins := tmod AudIn.zero a.ins l f })

/-- Count an event of a leg at leg and device scope of GX_AUDIO_COUNTERS. -/
def countAud (l pos n : Nat) (c : Chip) : Chip := bump 0x0509 scopeDev pos n (bump 0x0509 l pos n c)

/-- Count an event of a master output, by its group. -/
def countMaster (g pos n : Nat) (c : Chip) : Chip := bump 0x0509 scopeDev pos n (bump 0x0509 (scope2 g) pos n c)

/-! The grid (R272). -/

def gridIndex (a : Audio) (ns : Nat) : Int := ((ns : Int) - a.origin) * 48000 / 1000000000

/-- Service ns at which a grid index is reached. -/
def gridNs (a : Audio) (n : Int) : Nat := ((a.origin : Int) + (n * 1000000000 + 47999) / 48000).toNat

/-- Service ns of the start of a block: blocks are 10 ms long. -/
def blockNs (a : Audio) (b : Int) : Nat := ((a.origin : Int) + b * 10000000).toNat

/-! Samples (R271, R287). -/

def fullScale : Int := 8388608

/-- Saturate to 24 bits. -/
def sat24 (v : Int) : Int := max (-fullScale) (min v (fullScale - 1))

/-- A value in a 40-bit accumulator. -/
def wrap40 (v : Int) : Int := signed 40 (unsigned 40 v)

/-- Round to nearest with ties toward +∞ after division by 2^n. -/
def roundShift (v : Int) (n : Nat) : Int := (v + 2 ^ (n - 1)) / 2 ^ n

def sumSq (l : List Int) : Nat := (l.map (fun x => (x * x).natAbs)).sum

/-- Units of 1/256 dB by which energy `e` over `n` samples lies below full scale, rounded down; 0xFFFF for silence (R300). -/
def dbBelow (e n : Nat) : Nat :=
  if e = 0 then 0xFFFF
  else
    let full := (70368744177664 * n) ^ 2560
    let e1 := e ^ 2560
    (List.range 16).foldl (fun k i => let k1 := k + 2 ^ (15 - i); if 10 ^ k1 * e1 ≤ full then k1 else k) 0

/-- RMS of a block (R300). -/
def rmsOf (l : List Int) : Nat := dbBelow (sumSq l) l.length

/-- Largest magnitude of a block, in the same unit. -/
def peakOf (l : List Int) : Nat := let m := (l.map Int.natAbs).foldl max 0; dbBelow (m * m) 1

/-- A level quieter than −60 dBov. -/
def quiet (level : Nat) : Bool := decide (15360 < level)

def silence : List Int := List.replicate 480 0

/-! Sines. An angle is in 1/480,000 of a turn: at 48 kHz a frequency in 1/10 Hz turns by so much a sample. A sine is in 2^-60; it is that of the
series to 13 terms (log 187). -/

/-- π in 2^-60. -/
def piQ : Int := 3622009729038561421

/-- The terms of the series of sine from x^(2k+1) on. -/
def sineFrom (x : Int) : Nat → Nat → Int → Int
  | 0, _, _ => 0
  | f + 1, k, term => term + sineFrom x f (k + 1) (-(term * x / 2 ^ 60 * x / 2 ^ 60) / ((2 * k + 2) * (2 * k + 3)))

def sine (angle : Int) : Int :=
  let k := angle % 480000
  let h := if k < 240000 then k else k - 240000
  let x := piQ * (if h ≤ 120000 then h else 240000 - h) / 240000
  let s := sineFrom x 13 0 x
  if k < 240000 then s else -s

/-- Goertzel power of a window at a frequency in 1/10 Hz, in 2^-40 of a full-scale sine: the square of its Fourier sum there (R291). -/
def goertzel (freq : Nat) (win : List Int) : Nat :=
  let sum := fun (turn : Int) => ((win.zip (List.range win.length)).map (fun p => p.1 * sine ((freq * p.2 : Nat) + turn))).sum
  let s := sum 0
  let c := sum 120000
  (s * s + c * c).toNat * 4 / (win.length * win.length * 2 ^ 126)

/-- Amplitude in 2^-40 of full scale of a sine whose level is −V dBov: its square is twice 10^(−V ÷ 10) (R282, R285; log 188). -/
def toneAmp (volume : Nat) : Nat :=
  (List.range 42).foldl (fun a i => let a1 := a + 2 ^ (41 - i); if a1 ^ 20 * 10 ^ volume ≤ 2 ^ 810 then a1 else a) 0

/-- The two frequencies of an RFC 4733 event in Hz: row and column of its key (R285, R292). -/
def dtmfFreqs (event : Nat) : Nat × Nat :=
  let place := [13, 0, 1, 2, 4, 5, 6, 8, 9, 10, 12, 14, 3, 7, 11, 15].getD event 0
  ([697, 770, 852, 941].getD (place / 4) 0, [1209, 1336, 1477, 1633].getD (place % 4) 0)

/-- One tone of an event at a place. -/
def toneAt (event volume freq n : Nat) : Int :=
  (toneAmp volume : Int) * sine (10 * freq * n + Config.tonePhase event volume freq : Nat) / 2 ^ 77 + Config.tonePick event freq n % 2

/-- In-band samples of an event: both tones at −VOLUME dBov. -/
def toneSample (event volume n : Nat) : Int := toneAt event volume (dtmfFreqs event).1 n + toneAt event volume (dtmfFreqs event).2 n

/-! Ramps (R294, R301). The value at a sample lies between those of a straight line there and at the next sample; which of the
neighbours it is, the manual leaves open (log 60). -/

def Ramp.value (r : Ramp) (n : Nat) : Nat :=
  let p := r.pos + n
  if r.len ≤ p ∨ r.start = r.goal then r.goal
  else
    let x := r.start * r.len + r.goal * p - r.start * p
    let y := r.start * r.len + r.goal * (p + 1) - r.start * (p + 1)
    let lo := min x y / r.len
    let hi := (max x y + r.len - 1) / r.len
    lo + Config.rampPick r.start r.goal r.len p % (hi - lo + 1)

/-- `n` samples later. -/
def Ramp.after (r : Ramp) (n : Nat) : Ramp := if r.len ≤ r.pos + n then .at_ r.goal else { r with pos := r.pos + n }

/-- Move toward a goal over `len` samples, from where it stands; a ramp in progress to that goal goes on. -/
def Ramp.toward (r : Ramp) (goal len : Nat) : Ramp :=
  if r.goal = goal then r else { start := r.value 0, goal := goal, len := len, pos := 0 }

/-- It stands at 0 and goes nowhere. -/
def Ramp.off (r : Ramp) : Bool := r.goal == 0 && r.value 0 == 0

/-! Rate-converter chains (R286, R287). -/

/-- Taps of the bank that computes an output sample at a grid index (R288, R289): FIR h[0..96] or half-band. -/
structure Taps where
  fir : List Int
  hb : List Int

def tapsOf (bank : List Int) : Taps :=
  { fir := (List.range 97).map (fun i => bank.getD (if i ≤ 48 then i else 96 - i) 0),
    hb := (List.range 55).map (fun (i : Nat) =>
      let d := (Int.natAbs ((i : Int) - 27))
      if d = 0 then 0x4000 else if d % 2 = 0 then 0 else bank.getD (49 + d / 2) 0) }

/-- Coefficients of the built-in profile (log 60). -/
def builtInBank : List Int := (List.range 63).map (fun i => signed 16 (unsigned 16 (Config.builtIn i)))

def Profile.active (p : Profile) : List Int := if p.activeB then p.bankB else p.bankA

/-- The bank that computes the sample at an index. -/
def bankAt (c : Chip) (profile : Nat) (n : Int) : List Int :=
  let p := tget Profile.zero c.aud.profiles profile
  if profile = 0 then builtInBank
  else match p.swaps.find? (fun s => decide (n < s.1)) with | some s => s.2 | none => p.active

/-- Multiply, accumulate in 40 bits, scale, round and saturate (R287). -/
def convolve (taps hist : List Int) (scale : Int) : Int × Bool :=
  let v := roundShift (wrap40 ((taps.zip hist).map (fun p => p.1 * p.2)).sum * scale) 15
  (sat24 v, sat24 v != v)

/-- Every L-th tap from place `p` on. -/
def phase (l p : Nat) (taps : List Int) : List Int := (List.range ((taps.length + l - 1 - p) / l)).map (fun i => taps.getD (p + l * i) 0)

/-- State of a stage while it runs: output so far (newest first), history (newest first), saturated samples. -/
structure StageRun where
  out : List Int
  hist : List Int
  sat : Nat

/-- An interpolating stage: `l` outputs for each input. `taps` gives the taps of the output of a number. -/
def interpolate (l keep : Nat) (taps : Nat → List Int) (hist xs : List Int) : StageRun :=
  xs.foldl (fun r x =>
    let h := (x :: r.hist).take keep
    (List.range l).foldl (fun r p =>
      let y := convolve (phase l p (taps r.out.length)) h (l : Int)
      { out := y.1 :: r.out, hist := h, sat := r.sat + b2n y.2 }) { r with hist := h }) { out := [], hist := hist, sat := 0 }

/-- A decimating stage: one output for each `l` inputs, at the first of them. -/
def decimate (l keep : Nat) (taps : Nat → List Int) (hist xs : List Int) : StageRun :=
  (xs.foldl (fun (s : Nat × StageRun) x =>
    let h := (x :: s.2.hist).take keep
    if s.1 % l = 0 then
      let y := convolve (taps s.2.out.length) h 1
      (s.1 + 1, { out := y.1 :: s.2.out, hist := h, sat := s.2.sat + b2n y.2 })
    else (s.1 + 1, { s.2 with hist := h })) (0, { out := [], hist := hist, sat := 0 })).2

/-- Samples of a rate code in one block. -/
def rateSamples (code : Nat) : Nat := match code with | 0 => 80 | 1 => 120 | 2 => 160 | 3 => 240 | _ => 480

/-- Result of a chain: the block at the other rate, both histories and the number of saturated samples. -/
structure ChainRun where
  out : List Int
  h1 : List Int
  h2 : List Int
  sat : Nat

/-- `step` is the number of 48 kHz samples from one output of a stage to the next. -/
def tapsFor (c : Chip) (profile : Nat) (base : Int) (step : Nat) (fir : Bool) (i : Nat) : List Int :=
  let t := tapsOf (bankAt c profile (base + step * i))
  if fir then t.fir else t.hb

/-- The input chain of a rate (R286). -/
def chainIn (c : Chip) (profile code : Nat) (base : Int) (h1 h2 xs : List Int) : ChainRun :=
  let two := fun (a : StageRun) =>
    let b := interpolate 2 54 (tapsFor c profile base 1 false) h2 a.out.reverse
    { out := b.out.reverse, h1 := a.hist, h2 := b.hist, sat := a.sat + b.sat : ChainRun }
  let one := fun (a : StageRun) => { out := a.out.reverse, h1 := a.hist, h2 := h2, sat := a.sat : ChainRun }
  match code with
  | 0 => two (interpolate 3 96 (tapsFor c profile base 2 true) h1 xs)
  | 1 => two (interpolate 2 54 (tapsFor c profile base 2 false) h1 xs)
  | 2 => one (interpolate 3 96 (tapsFor c profile base 1 true) h1 xs)
  | 3 => one (interpolate 2 54 (tapsFor c profile base 1 false) h1 xs)
  | _ => { out := xs, h1 := h1, h2 := h2, sat := 0 }

/-- The output chain of a rate (R286). -/
def chainOut (c : Chip) (profile code : Nat) (base : Int) (h1 h2 xs : List Int) : ChainRun :=
  let two := fun (a : StageRun) (step : Nat) =>
    let b := decimate 2 55 (tapsFor c profile base step false) h2 a.out.reverse
    { out := b.out.reverse, h1 := a.hist, h2 := b.hist, sat := a.sat + b.sat : ChainRun }
  let one := fun (a : StageRun) => { out := a.out.reverse, h1 := a.hist, h2 := h2, sat := a.sat : ChainRun }
  match code with
  | 0 => two (decimate 3 97 (tapsFor c profile base 3 true) h1 xs) 6
  | 1 => two (decimate 2 55 (tapsFor c profile base 2 false) h1 xs) 4
  | 2 => one (decimate 3 97 (tapsFor c profile base 3 true) h1 xs)
  | 3 => one (decimate 2 55 (tapsFor c profile base 2 false) h1 xs)
  | _ => { out := xs, h1 := h1, h2 := h2, sat := 0 }

/-! Detectors (R291, R292). -/

/-- Setting of detector `d`: frequency, N, ABS_THRESH, REL_THRESH, MIN_ON, MIN_OFF; none when it is off. -/
def detSetting (leg det : List Word) (d : Nat) : List Nat :=
  if auDtmfMode leg then [[6970, 7700, 8520, 9410, 12090, 13360, 14770, 16330].getD d 0, 1200, 30, 96, 2, 2]
  else if bit (bw det (8 + 8 * d)) 18 then
    [bf det (8 + 8 * d) 0 18, bf det (8 + 8 * d) 19 13, bf det (12 + 8 * d) 0 7, bf det (12 + 8 * d) 8 8, bf det (12 + 8 * d) 16 4,
     bf det (12 + 8 * d) 20 4]
  else []

/-- The window passes: P at or above −ABS_THRESH dBov, and P ÷ E at least REL_THRESH ÷ 256 (R291). -/
def windowPasses (s : List Nat) (p : Nat) (win : List Int) : Bool :=
  decide (2 ^ 400 ≤ p ^ 10 * 10 ^ s.getD 2 0) &&
    decide (s.getD 3 0 * 2 ^ 41 * sumSq win ≤ p * 256 * (70368744177664 * win.length))

/-- One sample of a detector: its new state, and the transition when its window ends with one. -/
def detSample (d : Detector) (x : Int) : Detector × Option Bool :=
  let s := d.setting
  let win := x :: d.win
  if win.length < s.getD 1 0 then ({ d with win := win }, none)
  else
    let p := goertzel (s.getD 0 0) win
    let ok := windowPasses s p win
    let d1 := { d with win := [], power := p, pass := if ok then d.pass + 1 else 0, fail := if ok then 0 else d.fail + 1 }
    if !d.on ∧ ok ∧ s.getD 4 0 ≤ d1.pass then ({ d1 with on := true }, some true)
    else if d.on ∧ !ok ∧ s.getD 5 0 ≤ d1.fail then ({ d1 with on := false }, some false)
    else (d1, none)

/-- The RFC 4733 code of a row and a column of the DTMF keys. -/
def dtmfCode (row col : Nat) : Nat := [1, 2, 3, 12, 4, 5, 6, 13, 7, 8, 9, 14, 10, 0, 11, 15].getD (4 * row + col) 0

/-- The digit that the detectors show, + 1: exactly one low and one high detector on, within 8 dB of each other (R292). -/
def digitOf (t : Tbl Detector) : Nat :=
  let on := fun (l : List Nat) => l.filter (fun d => (tget Detector.zero t d).on)
  match on [0, 1, 2, 3], on [4, 5, 6, 7] with
  | [a], [b] =>
    let pa := (tget Detector.zero t a).power
    let pb := (tget Detector.zero t b).power
    if (max pa pb) ^ 10 ≤ 10 ^ 8 * (min pa pb) ^ 10 then dtmfCode a (b - 4) + 1 else 0
  | _, _ => 0

/-! Meters (R300). -/

def Meter.next (m : Meter) (hold decay : Nat) (block : Int) (xs : List Int) : Meter :=
  let p := peakOf xs
  if p ≤ m.peak then { rms := rmsOf xs, peak := p, holdLeft := hold, block := block }
  else if 0 < m.holdLeft then { rms := rmsOf xs, peak := m.peak, holdLeft := m.holdLeft - 1, block := block }
  else { rms := rmsOf xs, peak := min p (m.peak + decay), holdLeft := 0, block := block }

/-! Jitter buffers (R281, R283, R284). -/

/-- RTP clock of a codec. -/
def codecClock (codec : Nat) : Nat := if codec = 0 then 48000 else 8000

/-- Samples at 48 kHz of a payload. -/
def payloadSamples (codec payload bytes : Nat) : Nat := if codec = 0 then Config.opusSamples payload % 2881 else 6 * bytes

/-- Target delay in samples at 48 kHz: 3 J + 10 ms in whole blocks, within the limits (R283). -/
def jbTarget (b : List Word) (jitter16 : Nat) : Nat :=
  let clock := codecClock (auInCodec b)
  let ns := 3 * jitter16 * 1000000000 / (16 * clock) + 10000000
  let blocks := (ns + 9999999) / 10000000
  max (48 * auJbMin b) (min (48 * auJbMax b) (480 * blocks))

/-- Interarrival jitter of RFC 3550 on the arrival stamps. -/
def AudIn.jitter (x : AudIn) (clock stamp ts : Nat) : AudIn :=
  let d : Int := if x.lastStamp = 0 then 0
    else ((stamp : Int) - x.lastStamp) * clock / 1000000000 - signed 32 ((ts + 2 ^ 32 - x.lastTs) % 2 ^ 32)
  { x with jitter16 := (x.jitter16 + d.natAbs - (x.jitter16 + 8) / 16), lastStamp := stamp, lastTs := ts }

/-- Insert by playout. -/
def jbPut (k : JbPkt) (l : List JbPkt) : List JbPkt := sortPut (fun a b => decide (a.play ≤ b.play)) k l

/-- An RFC 4733 packet (R284): the event's first packet and its first end packet are reported. An event is known by its code and timestamp
among those whose timestamps lie within a quarter of the range. -/
def dtmfArrive (g : Cfg) (l : Nat) (ts payload : Nat) (play : Int) (c : Chip) : Chip :=
  let ev := payload / 2 ^ 24 % 256
  let end_ := bit payload 23
  let dur := payload % 65536
  let x := getIn c l
  let tell := fun (e : Bool) => raise 29 0x504 (g.owner tLeg l) (g.idAt tLeg l) (ev + 256 * b2n e + 65536 * dur)
  let to_ := play + dur * (48000 / codecClock (auInCodec (g.audio l)))
  match x.events.find? (fun e => e.code == ev && e.ts == ts) with
  | some e =>
    let e1 := { e with to_ := max e.to_ to_, ended := e.ended || end_ }
    let c1 := modIn l (fun x => { x with events := x.events.map (fun y => if y = e then e1 else y) }) c
    if end_ ∧ !e.ended then tell true c1 else c1
  | none =>
    let near := fun (e : RxEvent) => decide ((signed 32 ((ts + 2 ^ 32 - e.ts % 2 ^ 32) % 2 ^ 32)).natAbs < 2 ^ 30)
    let c1 := modIn l (fun x => { x with events := { code := ev, ts := ts, from_ := play, to_ := to_, ended := end_ } :: x.events.filter near }) c
    let c2 := tell false c1
    if end_ then tell true c2 else c2

/-- A decrypted packet of a decoded source arrives at its input's jitter buffer (R281, R283, R284). -/
def audioArrive (g : Cfg) (l stamp ts pt payload bytes : Nat) (c : Chip) : Chip :=
  let b := g.audio l
  let codec := auInCodec b
  let clock := codecClock codec
  let event := decide (auInDtmfPt b ≠ 0) && pt == auInDtmfPt b
  if !(event || (pt == auInPt b && Config.parses codec payload)) then countAud l 10 1 c
  else
    let c0 := modIn l (fun x => if event then x else x.jitter clock stamp ts) c
    let x := getIn c0 l
    let now := gridIndex c.aud stamp
    let play := if x.anchored then x.anchorIdx + signed 32 ((ts + 2 ^ 32 - x.anchorTs) % 2 ^ 32) * (48000 / clock)
      else now + jbTarget b x.jitter16
    if event then dtmfArrive g l ts payload play c0
    else
      let c1 := modIn l (fun x => { x with delay := play - now }) c0
      if play < now then countAud l 7 1 c1
      else if 48 * (auJbMax b + 500) < play - now then countAud l 8 1 c1
      else if x.jb.any (fun k => k.ts == ts) then c1
      else
        let stereo := codec == 0 && bit (payload / 256 ^ (bytes - 1)) 2
        modIn l (fun x => { x with anchored := true, anchorIdx := play, anchorTs := ts,
                                   jb := jbPut { play := play, len := payloadSamples codec payload bytes, ts := ts, payload := payload,
                                                 stereo := stereo, dec := none } x.jb }) c1

end Sys2Proof.Machine
end

