-- ==== Sys2Proof/Machine/Time.lean ====
section
/-!
DEFINITION. The time block (chapter 16): discipline of the domains, service time, slew, captures and pulses.
-/
namespace Sys2Proof.Machine
open Sys2Proof

/-- A value of a clock as seconds, nanoseconds and 16 fraction bits (R526), from units of 2^-32 ns. -/
def clockSec (t : Int) : Nat := (t / (1000000000 * 4294967296) % 2 ^ 64).toNat
def clockNs (t : Int) : Nat := (t / 4294967296 % 1000000000).toNat
def clockFrac (t : Int) : Nat := (t % 4294967296).toNat / 65536

/-- Service time in units of 2^-32 ns. -/
def TimeBase.svcUnits (t : TimeBase) : Int := t.svcFine / 1000000000

def TimeBase.dom (t : TimeBase) (d : Nat) : Dom := if d = 0 then t.a else t.b

def TimeBase.putDom (t : TimeBase) (d : Nat) (x : Dom) : TimeBase := if d = 0 then { t with a := x } else { t with b := x }

def TimeBase.selNum (t : TimeBase) : Nat := b2n t.selB

def modTime (f : TimeBase → TimeBase) (c : Chip) : Chip := { c with time := f c.time }

/-- A refused write sets CONFIG_ERROR (R548). -/
def timeError (c : Chip) : Chip := modTime (fun t => { t with configError := true }) c

/-- An integer in a field of `n` bits, saturating. -/
def saturate (n : Nat) (v : Int) : Nat := unsigned n (max (-(2 ^ (n - 1))) (min v (2 ^ (n - 1) - 1)))

/-- OFF in whole ns. -/
def TimeBase.offNs (t : TimeBase) : Int := t.off.tdiv (1000000000 * 4294967296)

/-- INC lies within ±1,000 ppm of nominal (R527). -/
def incOk (v : Nat) : Bool := decide (124875 * 2 ^ 32 ≤ v * 100000 ∧ v * 100000 ≤ 125125 * 2 ^ 32)

/-- `TIME_INC_WRITE` (R527, R529): the pair written low word first (R9) commits on the high word. -/
def setInc (d : Nat) (lo hi : Word) (c : Chip) : Chip :=
  let v := lo.toNat + 2 ^ 32 * bits hi.toNat 0 8
  if incOk v then modTime (fun t => t.putDom d { t.dom d with inc := v }) c else timeError c

def execTimeIncWrite (fn d : Nat) (lo hi : Word) (s : State) : Host.Outcome State Fault Refusal :=
  act s (fun c =>
    if d < 2 then
      match b2Pair fn (0x100110 + 0x100 * d) lo hi c with
      | some c1 => c1
      | none => setInc d lo hi c
    else c)

/-- `TIME_SELECT_WRITE` (R531). -/
def selectDomain (v : Word) (c : Chip) : Chip :=
  let sel := v.getLsbD 0
  if sel = c.time.selB then c
  else
    let t := c.time
    let nd := if sel then t.b else t.a
    let off := t.svcFine - nd.t * 1000000000
    raise 0 0xC01 none (b2n sel) (saturate 64 (off.tdiv (1000000000 * 4294967296)))
      { c with time := { t with selB := sel, off := off, slewPpb := 0 } }

def execTimeSelectWrite (fn : Nat) (v : Word) (s : State) : Host.Outcome State Fault Refusal :=
  act s (b2Write fn 0x100004 v (selectDomain v))

/-- `SLEW_PPB_WRITE` (R533): the sign must be opposite to that of OFF. -/
def setSlew (v : Word) (c : Chip) : Chip :=
  let p := v.toInt
  let t := c.time
  if p < -500000 ∨ 500000 < p then timeError c
  else if p = 0 then modTime (fun t => { t with slewPpb := 0 }) c
  else if t.off = 0 ∨ (0 < p ∧ 0 < t.off) ∨ (p < 0 ∧ t.off < 0) then timeError c
  else modTime (fun t => { t with slewPpb := p, slewStart := localNs c }) c

def execSlewPpbWrite (fn : Nat) (v : Word) (s : State) : Host.Outcome State Fault Refusal :=
  act s (b2Write fn 0x10002C v (setSlew v))

/-- Cycles after which the slew has brought OFF to 0. -/
def TimeBase.slewCycles (t : TimeBase) : Nat :=
  let per := t.selDom.inc * t.slewPpb.natAbs
  if per = 0 then 0 else (t.off.natAbs + per - 1) / per

/-- `TIME_OFFSET_CLEARED` (R533): the slew reaches 0, OFF and SLEW_PPB become 0 and the event is raised. -/
def clearOffset (c : Chip) : Chip :=
  let t := c.time
  if t.slewPpb = 0 then c
  else
    let t1 := t.cycles t.slewCycles
    let c1 := { c with time := { t1 with off := 0, slewPpb := 0 } }
    raise 0 0xC03 none t.selNum ((localNs c1 - t.slewStart) / 1000000) c1

def execTimeOffsetCleared (s : State) : Host.Outcome State Fault Refusal := act s clearOffset

/-- `TIME_CAPTURE_READ` (R548): a read of a low word captures the whole set. `off` is the register's offset in the block. -/
def captureRead (fn off : Nat) (c : Chip) : Chip :=
  let t := c.time
  if off = 0x10 then
    emit (.readData fn [wd (clockSec t.svcUnits)])
      { c with time := { t with capSec := clockSec t.svcUnits, capNs := clockNs t.svcUnits, capFrac := clockFrac t.svcUnits } }
  else if off = 0x100 ∨ off = 0x200 then
    let d := off / 0x100 - 1
    let x := t.dom d
    emit (.readData fn [wd (clockSec x.t)])
      { c with time := t.putDom d { x with capSec := clockSec x.t, capNs := clockNs x.t, capFrac := clockFrac x.t } }
  else if off = 0x130 ∨ off = 0x230 then
    let d := off / 0x100 - 1
    let x := t.dom d
    emit (.readData fn [wd x.edgeSec])
      { c with time := t.putDom d { x with capEdgeSec := x.edgeSec, capEdgeNs := x.edgeNs, capEdgeSvc := x.edgeSvc } }
  else c

def execTimeCaptureRead (fn off : Nat) (s : State) : Host.Outcome State Fault Refusal :=
  act s (b2Read fn (0x100000 + off % 0x100000) (captureRead fn off))

/-- `PPS_IN_EDGE` (R539): an edge of the selected polarity is stamped; one that follows the last accepted edge by less than
500 ms is ignored and counted. -/
def ppsIn (d : Nat) (falling : Bool) (c : Chip) : Chip :=
  let t := c.time
  let x := t.dom d
  if ¬ (d < 2 ∧ x.ppsCtrl.getLsbD 2 ∧ x.ppsCtrl.getLsbD 3 = falling) then c
  else if x.edgeAt ≠ 0 ∧ localNs c + 1 < x.edgeAt + 500000000 then
    { c with time := t.putDom d { x with edgesIgnored := x.edgesIgnored + 1 } }
  else
    let y := { x with edgeSec := clockSec x.t, edgeNs := clockNs x.t, edgeSvc := svc c % 2 ^ 32, edgeAt := localNs c + 1 }
    let t1 := t.putDom d y
    let c1 := { c with time := if d = 0 then { t1 with seenA := true } else { t1 with seenB := true } }
    if x.ppsCtrl.getLsbD 4 then raise 0 0xC04 none d (y.edgeNs + 2 ^ 32 * (y.edgeSec % 2 ^ 32)) c1 else c1

def execPpsInEdge (d : Nat) (falling : Bool) (s : State) : Host.Outcome State Fault Refusal := act s (ppsIn d falling)

/-- The first whole second not before the counter plus the advance. -/
def Dom.ahead (x : Dom) : Int := -((-(x.t + bits x.ppsCtrl.toNat 16 16 * 4294967296)) / (1000000000 * 4294967296))

/-- The second for which the next pulse of a domain is made, later than the last one made. -/
def Dom.nextPulse (x : Dom) : Int := if x.ahead ≤ x.lastPulse then x.lastPulse + 1 else x.ahead

/-- `PPS_OUT_PULSE` (R540): the domain counter reaches the second less OUT_ADVANCE_NS and the pulse begins. -/
def ppsOut (d : Nat) (c : Chip) : Chip :=
  let t := c.time
  let x := t.dom d
  if ¬ (d < 2 ∧ x.ppsCtrl.getLsbD 0 ∧ ¬ x.pulse ∧ 0 < x.inc) then c
  else
    let sec := x.nextPulse
    let at_ : Int := sec * (1000000000 * 4294967296) - bits x.ppsCtrl.toNat 16 16 * 4294967296
    let t1 := t.cycles ((at_ - x.t + x.inc - 1) / x.inc).toNat
    let c1 := { c with time := t1 }
    { c1 with time := t1.putDom d { t1.dom d with pulse := true, lastPulse := sec, pulseEnd := localNs c1 + x.widthUs * 1000 } }

def execPpsOutPulse (d : Nat) (s : State) : Host.Outcome State Fault Refusal := act s (ppsOut d)

/-- `PPS_OUT_PULSE_END` (R540): WIDTH_US passes and the pin returns to its inactive level. -/
def ppsOutEnd (d : Nat) (c : Chip) : Chip :=
  let x := c.time.dom d
  if d < 2 ∧ x.pulse then modTime (fun t => t.putDom d { t.dom d with pulse := false }) (waitLocal x.pulseEnd c) else c

def execPpsOutPulseEnd (d : Nat) (s : State) : Host.Outcome State Fault Refusal := act s (ppsOutEnd d)

/-- A clock's fields in 16 bytes, as GX_TIME_GET lays them out. -/
def clockWords (t : Int) : List Word := wd2 (clockSec t) ++ [wd (clockNs t), wd (clockFrac t)]

/-- Service time less 20 µs (R544). -/
def horizon (c : Chip) : Nat := svc c - 20000

/-- Result body of GX_TIME_GET: 88 bytes. -/
def timeGetBody (c : Chip) : List Word :=
  let t := c.time
  let o := t.offNs
  clockWords t.svcUnits ++ clockWords t.a.t ++ clockWords t.b.t ++
    wd2 (unsigned 64 (o.tdiv 1000000000)) ++
    [wd (unsigned 32 (o.tmod 1000000000)), wd (b2n t.selB + 2 * b2n (t.slewPpb != 0)), wd (unsigned 32 t.utcOffset), 0] ++
    wd2 (horizon c / 1000000000) ++ [wd (horizon c % 1000000000), 0]

/-- `GX_TIME_GET` (R526): service time and both domains, captured in one cycle. -/
def execGxTimeGet (cmd : CmdRef) (s : State) : Host.Outcome State Fault Refusal :=
  act s (serve 0x0C00 cmd noFields (fun x c => x.done (Res.ok (timeGetBody c)) c))

end Sys2Proof.Machine
end

