-- ==== Sys2Proof/Machine/Ingress.lean ====
section
/-!
DEFINITION. Media ingress (chapter 04): the MAC, steering, the pipelines' input FIFOs, parsing and demultiplexing, ICE-lite
answers, classification, admission, the DTLS record tunnel and other traffic.
-/
namespace Sys2Proof.Machine
open Sys2Proof

/-! Counters and rings. -/

/-- Positions of GX_ING_COUNTERS at the scope of a pipeline and of a logical port. -/
def countIng (p pos : Nat) (c : Chip) : Chip := bump 0x0206 (scope2 p) pos 1 c
def countPort (lp pos : Nat) (c : Chip) : Chip := bump 0x0206 lp pos 1 c

/-- Write an entry to a ring in host memory (R163): entry, tail, vector. `head` is the word at HEAD_ADDR, read only when the
cached head shows the ring full; a full ring drops the entry and reports at most once a second. The first part says
whether the entry was written. -/
def ringPush (fn : Nat) (r : HostRing) (entryBytes head island code object : Nat) (data : List Word) (c : Chip) :
    Bool × HostRing × Chip :=
  let next := if r.entries = 0 then 0 else (r.tail + 1) % r.entries
  let full := next = r.head
  let r1 := if full then { r with head := head % r.entries } else r
  let c1 := if full then emit (.hostRead fn r.headAddr 4) c else c
  if next = r1.head ∨ !hostReach c fn then
    let w := rateStep r1.win (localNs c) 1
    (false, { r1 with dropped := r1.dropped + 1, win := w.1 },
      match w.2 with | some n => raise island code (some fn) object n c1 | none => c1)
  else
    (true, { r1 with tail := next },
      msix fn r.vec (emit (.hostWrite fn r.tailAddr [wd next]) (emit (.hostWrite fn (r.base + r.tail * entryBytes) data) c1)))

def getTunnel (c : Chip) (fn : Nat) : HostRing := tget HostRing.zero c.net.tunnel fn

/-- Words of a tunnel ring entry (R162). -/
def tunnelWords (type bytes : Nat) (f : FifoFrame) (v6 : Bool) (ip port : Nat) (data : List Word) : List Word :=
  [wd (type + 256 * b2n (decide (2016 < bytes)) + 2 ^ 16 * bytes), wd (f.addr % 4096 + 4096 * f.lport + 32768 * b2n v6 + 2 ^ 16 * port)] ++
    wd2 (f.stampNs % 2 ^ 48) ++ wd2 ip ++ wd2 (ip / 2 ^ 64) ++ data.take 504

/-- An entry for the tunnel ring of a function: without a ring, or with a full one, it is dropped and counted (R161, R163). -/
def tunnelPut (p fn head : Nat) (words : List Word) (c : Chip) : Bool × Chip :=
  let r := getTunnel c fn
  if r.entries = 0 then (false, countIng p 15 c)
  else
    let w := ringPush fn r 2048 head (pipeIsland p) 0x206 fn words c
    let c1 := modNet (fun n => { n with tunnel := tput n.tunnel fn w.2.1 }) w.2.2
    (w.1, if w.1 then c1 else countIng p 15 c1)

/-! MAC and steering (R135, R136, R141 to R145). -/

/-- Receive correction of R142 in ps. -/
def rxCorrPs (split : Nat) : Nat := if split = 0 then 84250 else if split = 1 then 151900 else 282800
def txCorrPs (split : Nat) : Nat := if split = 0 then 41600 else if split = 1 then 73400 else 137200

/-- A stamp of a clock value, both in units of 2^-32 ns: taken and corrected by `ps` at the resolution of 2^-16 ns (R142). A
correction that is no multiple of 2^-16 ns rounds the result toward minus infinity (log 175). -/
def corrected (t : Int) (ps : Int) : Int := (t / 65536 * 1000 + ps * 65536) / 1000 * 65536

/-- The correction that a port applies to a receive stamp, in ps. -/
def rxShift (c : Chip) (lp : Nat) : Int :=
  let pc := getPort c (lp / 4)
  if pc.tsCorr then -(rxCorrPs pc.split : Int) else 0

/-- The service address that a frame matches: port, tags, destination address and UDP port (R144). -/
def steerIn (l : List (Nat × List Word)) (lp : Nat) (f : Frame) : Option (Nat × List Word) :=
  match f.net with
  | .ip v6 _ _ dst _ _ _ _ _ (.udp _ _ _ dport _ _ _) =>
    l.find? (fun e => addrLport e.2 == lp && addrV6 e.2 == v6 && addrTags e.2 == f.vlans && addrIp e.2 == dst && addrPort e.2 == dport)
  | _ => none

def steerAddr (g : Cfg) (lp : Nat) (f : Frame) : Option (Nat × List Word) := steerIn g.addrs lp f

/-- The destination that other traffic names (R165). -/
def otherTarget (f : Frame) : Option Nat :=
  match f.net with
  | .ip _ _ _ _ _ _ _ _ _ (.udp _ _ _ _ _ _ _) => none
  | .ip _ _ _ _ _ _ _ _ _ (.neighbourSol t) => some t
  | .ip _ _ _ dst _ _ _ _ _ _ => some dst
  | .arp t => some t
  | .macControl | .other => none

/-- A service address is active: set on this device, not a standby copy's, and not given up (R146, R565). -/
def addrActive (c : Chip) (g : Cfg) (i : Nat) : Bool := thas g.cards (cardKey 0x0202 0 i) && !c.net.addrInactive.contains i

/-- The first active service address with an IP address on a port and its tags. -/
def addrByIp (c : Chip) (g : Cfg) (lp ip : Nat) (tags : List (Nat × Nat)) : Option (Nat × List Word) :=
  g.addrs.find? (fun e => addrLport e.2 == lp && addrIp e.2 == ip && addrTags e.2 == tags && addrActive c g e.1)

/-- Some active service address with an IP address on a port and its tags has ICMP_ECHO set (R165). -/
def addrEchoes (c : Chip) (g : Cfg) (lp ip : Nat) (tags : List (Nat × Nat)) : Bool :=
  g.addrs.any (fun e => addrLport e.2 == lp && addrIp e.2 == ip && addrTags e.2 == tags && addrActive c g e.1 && addrEcho e.2)

/-- The hand-over whose service addresses a frame is for (R571, R572). -/
def handedOver (c : Chip) (lp : Nat) (f : Frame) : Option Handover :=
  match c.twin.handover with
  | some h => if (steerIn h.cards lp f).isSome then some h else none
  | none => none

/-- Where a frame goes: its pipeline and its service address index, 4,096 for other traffic; none where it matches nothing.
Frames of other traffic take the pipeline of the first address with their destination (log 51). -/
def steer (c : Chip) (g : Cfg) (lp : Nat) (f : Frame) : Option (Nat × Nat) :=
  if 2 < f.vlans.length then none
  else
    match steerAddr g lp f with
    | some e => if addrActive c g e.1 then some (addrPipe e.2, e.1) else none
    | none =>
      match otherTarget f with
      | some t => (addrByIp c g lp t f.vlans).map (fun e => (addrPipe e.2, 4096))
      | none => none

/-- Solicited-node multicast MAC address of an IPv6 address: 33:33:FF and the address's lowest 24 bits. -/
def solicitedMac (ip : Nat) : Nat := 0x3333FF000000 + ip % 2 ^ 24

/-- The MAC addresses that a logical port accepts: its own, broadcast, and the solicited-node addresses of its service addresses,
those being handed over to the twin among them (R136). -/
def macAccepts (c : Chip) (lp dst : Nat) : Bool :=
  dst == (getLport c lp).mac || dst == 0xFFFFFFFFFFFF ||
    ((cfg c).addrs ++ (match c.twin.handover with | some h => h.cards | none => [])).any (fun e =>
      addrLport e.2 == lp && addrV6 e.2 && solicitedMac (addrIp e.2) == dst)

/-- The MAC refuses a frame (R135, R136, R138). -/
def macDrops (c : Chip) (lp : Nat) (f : Frame) : Bool :=
  decide (f.len < 64) || decide ((getPort c (lp / 4)).mtu < f.len) || !f.fcsOk || f.fecBad || f.net == .macControl || !macAccepts c lp f.dst

def fifoBytes (q : List FifoFrame) : Nat := (q.map (·.frame.len)).sum

/-- A stamped frame enters a pipeline's FIFO of 1 MiB, or is dropped (R145). -/
def fifoPut (p : Nat) (x : FifoFrame) (c : Chip) : Chip :=
  if 1048576 < fifoBytes (getPipe c p).fifo + x.frame.len then countIng p 0 c
  else modPipe p (fun q => { q with fifo := q.fifo ++ [x] }) c

def stamped (c : Chip) (lp addr : Nat) (f : Frame) : FifoFrame :=
  let ps := rxShift c lp
  { lport := lp, addr := addr, stampNs := (corrected c.time.svcUnits ps / 4294967296).toNat, stampA := corrected c.time.a.t ps,
    stampB := corrected c.time.b.t ps, frame := f, poison := false }

/-- A frame for a service address that has been handed over: relayed to the twin at up to 300 Gb/s from the twin's T_act on,
dropped and counted before (R572). -/
def relayOut (h : Handover) (lp : Nat) (f : Frame) (c : Chip) : Chip :=
  let t := c.twin
  let now := localNs c
  if !h.relay || !h.relaying then countPort lp 1 c
  else
    let w := if t.relayWin.start + 1000000000 ≤ now then { RateWin.zero with start := now } else t.relayWin
    if 300000000000 < w.count + 8 * f.len then
      raiseRated 5 0xD0A none 0 (fun n => n) 1 { c with twin := { t with relayDrops := t.relayDrops + 1, events := t.events ||| 16, relayWin := w } }
    else
      twinSend (.relay f) { c with twin := { t with relayWin := { w with count := w.count + 8 * f.len }, handover := some { h with lastRelay := now } } }

/-- `MAC_FRAME_RECEIVE` (R135, R136, R141, R144): a frame is stamped, checked, steered and put in its FIFO. -/
def macReceive (lp : Nat) (f : Frame) (c : Chip) : Chip :=
  if !lportUp c lp then c
  else if macDrops c lp f then
    countPort lp 2 (modLport lp (fun q => { q with framesDropped := min (q.framesDropped + 1) ctrMax }) c)
  else
    let c1 := modLport lp (fun q => { q with framesRx := min (q.framesRx + 1) ctrMax }) c
    match handedOver c1 lp f with
    | some h => relayOut h lp f c1
    | none =>
      match steer c (cfg c) lp f with
      | none => countPort lp 1 c1
      | some (p, a) => fifoPut p (stamped c1 lp a f) c1

def execMacFrameReceive (lport : Nat) (frame : Frame) (s : State) : Host.Outcome State Fault Refusal :=
  act s (macReceive lport frame)

/-- A frame that the device itself sends on a port, outside the leg hierarchy: ARP, neighbour and echo answers (R165). -/
def sendOwn (lp : Nat) (body : EgBody) (bytes : Nat) (c : Chip) : Chip :=
  if lportUp c lp then
    emit (.frame lp 0 (EgPkt.plain body bytes c.gx.current)) (modLport lp (fun q => { q with framesTx := min (q.framesTx + 1) ctrMax }) c)
  else c

/-! ICE-lite (R152 to R156). -/

/-- The leg bound to a transport: service address and destination (R148). -/
def legAt (g : Cfg) (addr : Nat) (remote : Nat × Nat) : Option Nat :=
  (g.indexes tLeg).find? (fun l => legAddr (g.body tLeg l) == addr && legRemote (g.body tLeg l) == remote)

/-- The leg whose credential on a service address has a username. -/
def iceLeg (g : Cfg) (addr : Nat) (u : Nat × Nat) : Option Nat :=
  (g.indexes tLeg).find? (fun l => legAddr (g.body tLeg l) == addr && g.ice l != [] && iceLocal (g.ice l) == u.1 && iceRemote (g.ice l) == u.2)

/-- Frame bytes of a STUN answer: the header, then its attributes. An error carries no reason phrase (log 52). -/
def stunBytes (addr : List Word) (code : Nat) (integrity : Bool) (unknown : List Nat) : Nat :=
  let attrs := if code = 0 then (if addrV6 addr then 24 else 12) + 24 + 8
    else 8 + (if integrity then 24 else 0) + (if unknown.isEmpty then 0 else 4 + (2 * unknown.length + 3) / 4 * 4)
  udpFrame addr (20 + attrs)

/-- An answer within STUN_RATE of the logical port (R155): through the control queue of the credential's leg (R153), or straight
from the port where no credential matched (log 176). The first part says whether the request was within the limit. -/
def stunAnswer (g : Cfg) (p : Nat) (f : FifoFrame) (leg : Option Nat) (code : Nat) (integrity : Bool) (unknown : List Nat)
    (remote : Nat × Nat) (c : Chip) : Bool × Chip :=
  match (getLport c f.lport).stunWin.take (localNs c) (getPort c (f.lport / 4)).stunRate with
  | none => (false, countPort f.lport 14 c)
  | some w =>
    let c1 := countIng p (if code = 0 then 12 else 13) (modLport f.lport (fun q => { q with stunWin := w }) c)
    let body := EgBody.stun code integrity unknown remote.1 remote.2
    let bytes := stunBytes ((g.addr f.addr).getD []) code integrity unknown
    (true, match leg with
      | some l => enqueue g l 1 (EgPkt.plain body bytes g.epoch) c1
      | none => sendOwn f.lport body bytes c1)

/-- USE-CANDIDATE from another address than the leg's destination (R156). -/
def nominate (g : Cfg) (p l head : Nat) (f : FifoFrame) (v6 : Bool) (remote : Nat × Nat) (c : Chip) : Chip :=
  let k := (l * 2 ^ 128 + remote.1) * 2 ^ 16 + remote.2
  let w := rateStep (tget RateWin.zero c.net.iceWin k) (localNs c) 0
  if legRemote (g.body tLeg l) = remote ∨ w.2 = none then c
  else
    let owner := (g.owner tLeg l).getD 0
    let c1 := modNet (fun n => { n with iceWin := tput n.iceWin k w.1 }) c
    let entry := (getTunnel c1 owner).tail
    let c2 := if v6 then (tunnelPut p owner head (tunnelWords 2 0 f true remote.1 remote.2 []) c1).2 else c1
    raise (pipeIsland p) 0x205 (some owner) (g.idAt tLeg l) (if v6 then entry else remote.1 % 2 ^ 32 * 2 ^ 16 + remote.2) c2

/-- A STUN message (R153, R154). The 420 response carries no integrity (log 177). -/
def stunIn (g : Cfg) (p head : Nat) (f : FifoFrame) (v6 : Bool) (remote : Nat × Nat) (m : Stun) (c : Chip) : Chip :=
  if !m.request || !m.binding then countIng p 13 c
  else
    match m.username.bind (iceLeg g f.addr) with
    | none => (stunAnswer g p f none 401 false [] remote c).2
    | some l =>
      if m.integrity = none ∨ !m.priority then (stunAnswer g p f (some l) 400 false [] remote c).2
      else if m.integrity ≠ some (icePwd (g.ice l)) ∨ !m.fingerprintOk then countIng p 13 c
      else if m.controlled then (stunAnswer g p f (some l) 487 true [] remote c).2
      else if !m.unknown.isEmpty then (stunAnswer g p f (some l) 420 false m.unknown remote c).2
      else
        let r := stunAnswer g p f (some l) 0 true [] remote c
        if r.1 && m.useCandidate then nominate g p l head f v6 remote r.2 else r.2

/-! Classification (R157, R158). -/

/-- The 64-bit word of R158 from its fields. -/
def descWord (s t : Nat) (key up start last : Bool) (level : Nat) (vad : Bool) (mask source : Nat) : BitVec 64 :=
  BitVec.ofNat 64 (s % 8 + 8 * (t % 8) + 64 * b2n key + 128 * b2n up + 256 * b2n start + 512 * b2n last + 1024 * (level % 128) +
    2 ^ 17 * b2n vad + 2 ^ 18 * (mask % 256) + 2 ^ 32 * source)

/-- The extension that a source's configuration names, in the form it names; an ID of 0 names no extension (log 53). -/
def extOf (b : List Word) (id : Nat) (m : Rtp) : Option ExtData :=
  if id = 0 ∨ m.extTwo ≠ srcExtTwo b then none else (m.exts.find? (fun e => e.1 == id)).map Prod.snd

/-- The template structure that a packet of an AV1 source carries. -/
def structureOf (b : List Word) (m : Rtp) : Option Av1Structure :=
  match srcKind b, extOf b (srcExtDd b) m with
  | 1, some (.av1 _ _ _ fresh _) => fresh
  | _, _ => none

/-- The template with a number of six bits in a structure. -/
def Av1Structure.template (s : Av1Structure) (n : Nat) : Option Av1Template := s.templates[(n + 64 - s.offset % 64) % 64]?

/-- Classification of a packet for its source's payload kind (R157); none where its descriptor cannot be parsed, as where its AV1
template is not known. `av` is the structure in force, the packet's own where it carries one. A video packet has level 127 (log 178). -/
def classify (b : List Word) (i : Nat) (av : Option Av1Structure) (m : Rtp) : Option (BitVec 64) :=
  let fs := srcFixedS b
  let dd := extOf b (srcExtDd b) m
  match srcKind b, m.desc with
  | 0, _ =>
    match extOf b (srcExtLevel b) m with
    | some (.level l v) => some (descWord 0 0 false false false m.marker l v 0 i)
    | _ => some (descWord 0 0 false false false m.marker 127 false 0 i)
  | 1, _ =>
    match dd with
    | some (.av1 start last n fresh own) =>
      (av.bind (·.template n)).map (fun t =>
        let key := fresh.isSome && t.key
        let mask := own.getD t.switchDts
        descWord t.spatial t.temporal key (key || mask % 256 != 0) start (last || m.marker) 127 false mask i)
    | _ => none
  | 2, .vp8 s p t tid y _ _ _ => let key := s && !p; some (descWord fs (if t then tid else 0) key (key || y) s m.marker 127 false 0 i)
  | 3, .h264 tid idr start last =>
    some (descWord fs (tid.getD 0) idr (idr || tid.getD 0 % 8 == 0) start (last || m.marker) 127 false 0 i)
  | 4, .hevc irap start last => some (descWord fs 0 irap irap start (last || m.marker) 127 false 0 i)
  | _, _ => none

/-! Admission (R159). -/

/-- Pools that a packet may use: the one of R461 in DRAM, and for class 1 the one on chip too. -/
def mayUse (size cls : Nat) : List Nat :=
  (fitPool [2, 3] size).toList ++ (if cls = 1 then (fitPool [0, 1] size).toList else [])

/-- The four orders of R159 for a packet: the handle, whether the bucket is drawn, and the chip. Orders 2 and 3 read the highest
state of the pools that the packet may use (log 179). -/
def admission (p ident size cls : Nat) (video conform : Bool) (c : Chip) : Option (Nat × Bool) × Chip :=
  let may := mayUse size cls
  let st := (may.map (fun q => (getPool c q).st)).foldl max 0
  if may.any (fun q => (getPool c q).st == 3 && decide ((getUse c ident q).r ≤ (getUse c ident q).u)) then (none, countIng p 8 c)
  else if 2 ≤ st ∧ video ∧ !conform then (none, countIng p 9 c)
  else
    let r := alloc ident size cls c
    if r.1 ≠ 0 then (none, countIng p 8 r.2.2)
    else (some (r.2.1, conform), if st < 2 ∧ !conform then countIng p 10 r.2.2 else r.2.2)

/-- A packet that is handled at once holds its buffer only meanwhile. -/
def passing (p ident size : Nat) (f : Chip → Chip) (c : Chip) : Chip :=
  match admission p ident size 1 false true c with
  | (some (h, _), c1) => drop h (f c1)
  | (none, c1) => c1

/-- The ingress allowance of a source now (R159). -/
def refillSource (b : List Word) (now : Nat) (s : SourceRun) : SourceRun :=
  { s with tokens := min (srcBurst b * 8000000) (s.tokens + srcRate b * (now - s.refillNs)), refillNs := now }

/-! SRTP and SRTCP (R148 to R151, R169). -/

/-- The source of an SRTP packet on its transport, and whether the packet is on its RTX stream; an exact binding goes before
one that matches any remote (R150; log 54). -/
def matchSource (g : Cfg) (addr ssrc : Nat) (remote : Nat × Nat) : Option (Nat × Bool) :=
  let hit := fun (exact : Bool) => (g.indexes tSource).find? (fun i =>
    let b := g.body tSource i
    let r := srcRemote b
    !srcInternal b && srcAddr b == addr && (srcSsrc b == ssrc || (srcRtxSsrc b == ssrc && ssrc != 0)) &&
      (if exact then r == remote else (r.1 == 0 || r.1 == remote.1) && (r.2 == 0 || r.2 == remote.2)))
  ((hit true).or (hit false)).map (fun i => (i, srcSsrc (g.body tSource i) != ssrc))

/-- A classified packet is admitted and enters the replication queue. A packet of an RTX stream begins with the original sequence number
(RFC 4588). -/
def admitRtp (g : Cfg) (p i : Nat) (rtx : Bool) (f : FifoFrame) (ecn : Nat) (m : Rtp) (plain : Nat) (d : BitVec 64) (c : Chip) : Chip :=
  let b := g.body tSource i
  let video := srcKind b != 0
  let c0 := modSrcIn g i (refillSource b (svc c)) c
  let conform := srcRate b = 0 || decide (f.frame.len * 8000000 ≤ (getSrc c0 i).tokens)
  let owner := addrOwner ((g.addr f.addr).getD [])
  match admission p (identity owner 1) f.frame.len (if srcRtxDepth b = 0 then 1 else 2) video conform c0 with
  | (none, c1) => c1
  | (some (h, drawn), c1) =>
    let seq := if rtx then plain / 256 ^ (m.bytes - 2) % 65536 else m.seq
    let payload := if rtx then plain % 256 ^ (m.bytes - 2) else plain
    let c2 := if drawn && srcRate b != 0 then modSrcIn g i (fun s => { s with tokens := s.tokens - f.frame.len * 8000000 }) c1 else c1
    let c3 := if rtx then
        modFwd (fun w => { w with gaps := w.gaps.map (fun q =>
          if q.source = i then { q with missing := q.missing.filter (· != seq) } else q) }) c2
      else sourcePacket g i seq m.ts f.stampNs ecn c2
    let bytes := if rtx then m.bytes - 2 else m.bytes
    let c4 := if video then c3 else
      match g.audioOf i with | some l => audioArrive g l f.stampNs m.ts m.pt payload bytes c3 | none => c3
    let vp := match m.desc with | .vp8 _ _ _ _ _ pid bits tl0 => (pid, bits, tl0) | _ => (0, 0, none)
    admitPkt g p
      { source := i, desc := d, seq := seq, ts := m.ts, pt := m.pt, marker := m.marker, bytes := bytes,
        hdrBytes := m.hdrEnd, b0 := m.b0, tail := m.tail, frameBytes := f.frame.len, cacheRef := 0, pid := vp.1, pidBits := vp.2.1,
        tl0 := vp.2.2.getD 0, hasTl0 := vp.2.2.isSome, stampNs := f.stampNs, payload := payload, buf := h, epoch := 0, walk := [], late := rtx, launchNs := 0 } c4

/-- Bytes of a frame's IP header. -/
def ipHdr (f : Frame) : Nat := match f.net with | .ip _ hdr _ _ _ _ _ _ _ _ => hdr | _ => 0

/-- An SRTP packet (R149, R150, R157, R227). -/
def srtpIn (g : Cfg) (p : Nat) (f : FifoFrame) (remote : Nat × Nat) (ecn : Nat) (m : Rtp) (fresh setBad : Bool) (c : Chip) : Chip :=
  if 512 < 14 + 4 * f.frame.vlans.length + ipHdr f.frame + 8 + m.hdrEnd then countIng p 5 c
  else
    match matchSource g f.addr m.ssrc remote with
    | none =>
      let k := (f.addr * 2 ^ 128 + remote.1) * 2 ^ 16 + remote.2
      let w := rateStep (tget RateWin.zero (getPipe c p).unknownWin k) (localNs c) 0
      let c1 := countIng p 6 (modPipe p (fun q => { q with unknownWin := tput q.unknownWin k w.1 }) c)
      if w.2 = none then c1
      else raise (pipeIsland p) 0x204 (some (addrOwner ((g.addr f.addr).getD []))) f.addr (m.ssrc % 2 ^ 32 + 2 ^ 32 * (remote.2 % 65536)) c1
    | some (i, rtx) =>
      let v := verify g p (mkKey tSource i) (rxOfRtp m) fresh setBad c
      match v.1 with
      | .drop => v.2
      | .wait set => missWait p set g.epoch (.rx f) v.2
      | .pass plain =>
        let c1 := match structureOf (g.body tSource i) m with
          | some s => modSrcIn g i (fun x => { x with av1 := some s }) v.2
          | none => v.2
        match classify (g.body tSource i) i (getSrc c1 i).av1 m with
        | none => countIng p 7 c1
        | some d => admitRtp g p i rtx f ecn m plain d c1

/-- An SRTCP packet (R148, R159, R228). A packet on no leg's transport counts as one that no rule demultiplexes (log 55). -/
def srtcpIn (g : Cfg) (p : Nat) (f : FifoFrame) (remote : Nat × Nat) (m : Srtcp) (bad : List Nat) (fresh setBad : Bool) (c : Chip) : Chip :=
  match legAt g f.addr remote with
  | none => countIng p 4 c
  | some l =>
    let v := verify g p (mkKey tLeg l) (rxOfRtcp m) fresh setBad c
    match v.1 with
    | .drop => v.2
    | .wait set => missWait p set g.epoch (.rx f) v.2
    | .pass _ => passing p (identity (addrOwner ((g.addr f.addr).getD [])) 1) f.frame.len (rtcpIn g l f.stampNs bad m.items) v.2

/-! Parsing (R147, R148, R161, R165). -/

/-- The parser refuses an IP packet (R147). -/
def ipBad (v6 fragment extHdr csumOk lengthsOk : Bool) (body : IpBody) : Bool :=
  fragment || (v6 && extHdr) || (!v6 && !csumOk) || !lengthsOk ||
    (match body with | .udp zero ok _ _ _ _ _ => (zero && v6) || (!zero && !ok) | _ => false)

/-- A DTLS datagram goes to the owner's tunnel ring, at most 20,000 a second for a service address (R161). -/
def dtlsIn (g : Cfg) (p head : Nat) (f : FifoFrame) (v6 : Bool) (remote : Nat × Nat) (bytes : Nat) (data : List Word) (c : Chip) : Chip :=
  match (tget RateWin.zero c.net.dtlsWin f.addr).take (localNs c) 20000 with
  | none => countIng p 15 c
  | some w =>
    let owner := addrOwner ((g.addr f.addr).getD [])
    (tunnelPut p owner head (tunnelWords 1 bytes f v6 remote.1 remote.2 data) (modNet (fun n => { n with dtlsWin := tput n.dtlsWin f.addr w }) c)).2

/-- A UDP payload by its first byte (R148). -/
def udpIn (g : Cfg) (p head : Nat) (bad : List Nat) (f : FifoFrame) (v6 : Bool) (remote : Nat × Nat) (ecn first second : Nat) (body : UdpBody)
    (fresh setBad : Bool) (c : Chip) : Chip :=
  let ident := identity (addrOwner ((g.addr f.addr).getD [])) 1
  match body with
  | .stun m => if first ≤ 3 then passing p ident f.frame.len (stunIn g p head f v6 remote m) c else countIng p 4 c
  | .dtls n data => if 20 ≤ first ∧ first ≤ 63 then passing p ident f.frame.len (dtlsIn g p head f v6 remote n data) c else countIng p 4 c
  | .srtcp m => if 128 ≤ first ∧ first ≤ 191 ∧ 192 ≤ second ∧ second ≤ 223 then srtcpIn g p f remote m bad fresh setBad c else countIng p 4 c
  | .srtp m =>
    if 128 ≤ first ∧ first ≤ 191 ∧ ¬ (192 ≤ second ∧ second ≤ 223) then srtpIn g p f remote ecn m fresh setBad c else countIng p 4 c
  | .other => countIng p 4 c

/-- Words of a PTP ring entry (R537). -/
def ptpWords (f : FifoFrame) (v6 event : Bool) (ip sport bytes : Nat) (addr : Nat) (data : List Word) : List Word :=
  let st := fun (t : Int) => if event then wd2 (clockSec t) ++ [wd (clockNs t), wd (clockFrac t)] else [0, 0, 0, 0]
  [wd (bytes + 2 ^ 16 * b2n (decide (448 < bytes)) + 2 ^ 17 * b2n v6 + 2 ^ 18 * b2n event + 2 ^ 20 * f.lport), wd (addr % 4096 + 2 ^ 16 * sport)] ++
    st f.stampA ++ st f.stampB ++ wd2 (f.stampNs % 2 ^ 48) ++ wd2 ip ++ wd2 (ip / 2 ^ 64) ++ data.take 112

/-- A PTP message: at most 4,096 a second for a logical port, to the operator's ring (R535, R536). -/
def ptpIn (head : Nat) (f : FifoFrame) (v6 event : Bool) (ip sport bytes addr : Nat) (data : List Word) (c : Chip) : Chip :=
  let dropped := fun (c : Chip) => modTime (fun t => { t with rxDrops := t.rxDrops + 1 }) c
  match (tget RateWin.zero c.time.rxWin f.lport).take (localNs c) 4096 with
  | none => dropped c
  | some w =>
    let c1 := modTime (fun t => { t with rxWin := tput t.rxWin f.lport w }) c
    if c1.time.ring.entries = 0 then dropped c1
    else
      let r := ringPush (operatorFn c1) c1.time.ring 512 head 0 0xC05 0 (ptpWords f v6 event ip sport bytes addr data) c1
      modTime (fun t => { t with ring := r.2.1 }) (if r.1 then r.2.2 else dropped r.2.2)

/-- Other traffic at an active service address (R165). -/
def otherIn (g : Cfg) (p head : Nat) (f : FifoFrame) (c : Chip) : Chip :=
  let lp := f.lport
  let at_ := fun (ip : Nat) => addrByIp c g lp ip f.frame.vlans
  let lost := countPort lp 1 c
  match f.frame.net with
  | .arp t => if (at_ t).isSome then sendOwn lp (.announce t false) 64 c else lost
  | .ip v6 _ src dst fr ext cs len _ body =>
    if ipBad v6 fr ext cs len body then countIng p 3 c
    else
      match body with
      | .neighbourSol t => if (at_ t).isSome then sendOwn lp (.announce t false) 90 c else lost
      | .echo n =>
        match addrEchoes c g lp dst f.frame.vlans, (getLport c lp).echoWin.take (localNs c) 1000 with
        | true, some w => sendOwn lp (.echoReply n) f.frame.len (modLport lp (fun q => { q with echoWin := w }) c)
        | _, _ => lost
      | .icmpError data =>
        match at_ dst, (getLport c lp).icmpWin.take (localNs c) 1000 with
        | some e, some w =>
          (tunnelPut p (operatorFn c) head (tunnelWords 2 f.frame.len { f with addr := e.1 } v6 src 0 data)
            (modLport lp (fun q => { q with icmpWin := w }) c)).2
        | _, _ => lost
      | .ptp event sport bytes data =>
        match at_ dst with
        | some e => ptpIn head f v6 event src sport bytes e.1 data c
        | none => lost
      | _ => lost
  | .macControl | .other => lost

/-- Parse one frame (R147, R148, R151): its service address is looked up in the epoch of its parsing. `fresh` is false for a frame
that has waited for a derivation. -/
def parseFrame (g : Cfg) (p head : Nat) (bad : List Nat) (f : FifoFrame) (fresh setBad : Bool) (c : Chip) : Chip :=
  match f.frame.net with
  | .ip v6 _ src _ fr ext cs len ecn (.udp zero ok sport dport first second body) =>
    match steerAddr g f.lport f.frame with
    | none => countPort f.lport 1 c
    | some e =>
      if !(addrActive c g e.1) then countPort f.lport 1 c
      else if ipBad v6 fr ext cs len (.udp zero ok sport dport first second body) then countIng p 3 c
      else udpIn g p head bad { f with addr := e.1 } v6 (src, sport) ecn first second body fresh setBad c
  | _ => otherIn g p head f c

/-- `PACKET_PARSE` (R145, R147, R148, R189, R206): the pipeline takes the frame at the front of its FIFO, unless its replication
queue or its miss queue is full. `poison` says that the frame reads back poisoned, `setBad` that the derived set it meets reads with an
uncorrectable error (R190), `bad` which numbers of a NACK meet poison, `head` is the host's head index of the ring that is written. -/
def packetParse (p : Nat) (poison setBad : Bool) (bad : List Nat) (head : Nat) (c : Chip) : Chip :=
  let q := getPipe c p
  match q.fifo with
  | [] => c
  | f :: rest =>
    if 4096 ≤ q.repl.length ∨ q.entry ≠ [] then raiseRated (pipeIsland p) 0x301 none p (fun n => n) 1 c
    else if 512 ≤ (missq c p).length then raiseRated (pipeIsland p) 0x213 none p (fun n => n) 1 c
    else
      let c1 := modPipe p (fun q => { q with fifo := rest }) c
      if poison || f.poison then countIng p 11 c1 else parseFrame (cfg c1) p head bad f true setBad c1

def execPacketParse (pipe : Nat) (poison : Bool) (bad : ParseErrors) (head : Nat) (s : State) : Host.Outcome State Fault Refusal :=
  act s (packetParse pipe poison bad.set bad.nack head)

/-- Packets of a pipeline that waited for a set go on in their order (R189). -/
def releaseMiss (set p : Nat) (c : Chip) : Chip :=
  let w := (missq c p).filter (fun m => m.setKey == set)
  let c1 := modMissq p (fun q => q.filter (fun m => m.setKey != set)) c
  w.foldl (fun c m =>
    let g := if m.epoch = c.gx.draining then cfgAt c m.epoch else cfg c
    match m.work with
    | .rx f => parseFrame g p 0 [] f false false c
    | .tx j => sendJob g p false false j c) c1

/-- `KEY_DERIVE_DONE` (R187 to R189, R192): a slot's entry has been read, unwrapped and derived; the set enters the cache and releases its
packets. `bad` says that the entry read as poison: then, or where its unwrap check fails, the slot is unusable, and its packets are taken
again without it. -/
def deriveDone (set : Nat) (bad : Bool) (c : Chip) : Chip :=
  if !c.net.deriving_.contains set then c
  else
    let c1 := modNet (fun n => { n with deriving_ := n.deriving_.filter (· != set) }) c
    let c2 := match (if bad then none else derivedOf c1 set) with
      | some d => cacheSet set d c1
      | none => setUnusable set c1
    (List.range 4).foldl (fun c p => releaseMiss set p c) c2

def execKeyDeriveDone (set : Nat) (bad : Bool) (s : State) : Host.Outcome State Fault Refusal := act s (deriveDone set bad)

/-! Commands. -/

/-- Fields of a ring command out of range; the largest size is `top`. -/
def ringFields (top : Nat) (b : List Word) : Option Nat :=
  let n := bf b 24 0 5
  firstBad [(decide (bd b 0 % 4096 ≠ 0), 0), (decide (bd b 8 % 4 ≠ 0), 8), (decide (bd b 16 % 4 ≠ 0), 16),
    (n != 0 && outside n 4 top, 24)]

def hostRingOf (b : List Word) : HostRing :=
  let n := bf b 24 0 5
  { HostRing.zero with base := bd b 0, headAddr := bd b 8, tailAddr := bd b 16, entries := if n = 0 then 0 else 2 ^ n, vec := bf b 24 8 8 }

/-- A ring with a size has an address of zero (GX_E_RING). -/
def ringZero (r : HostRing) : Bool := r.entries != 0 && (r.base == 0 || r.headAddr == 0 || r.tailAddr == 0)

/-- `GX_TUNNEL_RING_SET` (R162, R163). -/
def execGxTunnelRingSet (cmd : CmdRef) (s : State) : Host.Outcome State Fault Refusal :=
  act s (serve 0x0204 cmd (ringFields 16) (fun x c =>
    let r := hostRingOf x.body
    if ringZero r then x.done (Res.err 0x0206) c
    else x.done (Res.ok []) (modNet (fun n => { n with tunnel := if r.entries = 0 then tdel n.tunnel x.fn else tput n.tunnel x.fn r }) c)))

/-- `GX_PTP_RING_SET` (R536). -/
def execGxPtpRingSet (cmd : CmdRef) (s : State) : Host.Outcome State Fault Refusal :=
  act s (serve 0x0C01 cmd (ringFields 12) (fun x c =>
    let r := hostRingOf x.body
    if ringZero r then x.done (Res.err 0x0206) c else x.done (Res.ok []) (modTime (fun t => { t with ring := r }) c)))

def tunnelSend (x : Ctx) (c : Chip) : Chip :=
  x.withObj (bw x.body 0) tLeg (fun _ c =>
    let g := cfg c
    let l := idIndex (bw x.body 0)
    let n := bf x.body 4 0 14
    let bytes := udpFrame (g.legAddrCard l) n
    if (getPort c (g.legLport l / 4)).mtu < bytes then x.done (Res.err 0x0205) c
    else x.done (Res.ok []) (enqueue g l 1 (EgPkt.plain (.dtls n ((x.body.drop 2).take ((n + 3) / 4))) bytes g.epoch) c)) c

/-- `GX_TUNNEL_SEND` (R164). -/
def execGxTunnelSend (cmd : CmdRef) (s : State) : Host.Outcome State Fault Refusal := act s (serve 0x0205 cmd noFields tunnelSend)

/-- `GX_ING_COUNTERS`: 16 counters of a logical port or a pipeline. -/
def execGxIngCounters (cmd : CmdRef) (s : State) : Host.Outcome State Fault Refusal :=
  act s (serve 0x0206 cmd noFields (fun x c =>
    let i := bf x.body 4 0 3
    let sc := if bit (bw x.body 0) 0 then scope2 (i % 4) else i
    x.done (Res.ok (ctrWords c 0x0206 sc 16)) (if bit (bw x.body 8) 0 then ctrClear 0x0206 sc 16 c else c)))

end Sys2Proof.Machine
end

