-- ==== Sys2Proof/Machine/Probe.lean ====
section
/-!
DEFINITION. Probing (R246): for 200 ms a leg sends RTX copies of its most recent video packets at the rate that a refused step needed.
-/
namespace Sys2Proof.Machine
open Sys2Proof

/-- History entries and cached packets of the video packets sent most recently, newest first. -/
def probeStock (g : Cfg) (c : Chip) (l : Nat) : List (Nat × HistEntry × Pkt) :=
  let r := getLeg c l
  (List.range (min 512 r.sentCount)).filterMap (fun i =>
    let s := tget Sent.zero r.sent ((r.sentCount - 1 - i) % 512)
    let sc := g.slotCard l s.slot
    let h := tget HistEntry.zero c.fwd.hist (histKey l s.slot s.seq)
    if !s.rtx && osEnable sc && osKind sc == 0 && osRtx sc && h.valid && h.seqOut == s.seq then
      (findCached c h.cache h.gen).map (fun e => (s.slot, h, e.pkt))
    else none)

/-- Copies until their bytes reach what the rate has allowed since the probe began. -/
def probeCopies (g : Cfg) (l : Nat) : Nat → Chip → Chip
  | 0, c => c
  | f + 1, c =>
    let r := getLeg c l
    let since := min (svc c) (r.probeEnd - 1) + 200000000 - (r.probeEnd - 1)
    let stock := probeStock g c l
    if r.probeRate * since ≤ r.probeBytes * bucketByte then c
    else match stock[r.probeCount % stock.length]? with
      | none => c
      | some (s, h, k) =>
        probeCopies g l f (sendRtx g (g.legPipe l) l s false h k
          (modLeg l (fun r => { r with probeCount := r.probeCount + 1, probeBytes := r.probeBytes + k.frameBytes }) c))

/-- The copies that a leg's probe owes by now enter its repair queue (log 57). -/
def fillProbe (l : Nat) (c : Chip) : Chip :=
  let r := getLeg c l
  if r.probeEnd = 0 then c else probeCopies (cfg c) l (r.probeRate / 2560 + 1) c

/-- Those of every leg of a logical port. -/
def fillProbes (lp : Nat) (c : Chip) : Chip :=
  ((c.eg.legs.filter (fun e => e.2.probeEnd != 0 && (cfg c).legLport e.1 == lp)).map Prod.fst).foldl (fun c l => fillProbe l c) c

end Sys2Proof.Machine
end

