-- ==== Sys2Proof/Machine/Egress.lean ====
section
/-!
DEFINITION. Egress (chapter 07): gates, the choice of the next frame of a logical port, its departure, launch times, and the
shaper and gate registers.
-/
namespace Sys2Proof.Machine
open Sys2Proof

/-! Gate lists (R258 to R262). -/

/-- Entry in force at an offset in the cycle: its gates and the offset at which it ends. The last entry holds to the end of the
cycle, and entries are cut there. -/
def entryAt (cycle off : Nat) : Nat → List (BitVec 4 × Nat) → BitVec 4 × Nat
  | _, [] => (15, cycle)
  | _, [e] => (e.1, cycle)
  | acc, e :: l => if off < acc + e.2 then (e.1, min (acc + e.2) cycle) else entryAt cycle off (acc + e.2) l

/-- Gates of a list at a service time, and the time at which the entry ends. -/
def GateList.at_ (q : GateList) (now : Nat) : BitVec 4 × Nat :=
  let off := (((now : Int) - q.base) % q.cycle).toNat
  let e := entryAt q.cycle off 0 q.entries
  (e.1, now + (e.2 - off))

/-- Gates of a port at a service time under the operating list or, from its takeover on, the pending one; and the time at which
they may change. Without GATE_EN or a list every gate is open. -/
def EgPort.gatesAt (p : EgPort) (now : Nat) : BitVec 4 × Nat :=
  if !p.gateEn then (15, now + 1000000000)
  else if p.pend ∧ p.changeNs ≤ now then p.pendList.at_ now
  else
    let e := if p.operValid then p.oper.at_ now else (15, now + 1000000000)
    if p.pend then (e.1, min e.2 p.changeNs) else e

/-- Gate `cls` stays open from `now` to `end_` (R261). -/
def EgPort.openThrough (p : EgPort) (cls end_ : Nat) : Nat → Nat → Bool
  | 0, _ => false
  | f + 1, now =>
    let e := p.gatesAt now
    e.1.getLsbD cls && (decide (end_ ≤ e.2) || p.openThrough cls end_ f e.2)

/-- Line time of a frame in ns, with preamble and inter-frame gap, rounded up (R261). -/
def lineNs (mbps bytes : Nat) : Nat := ((bytes + 20) * 8000 + mbps - 1) / mbps

/-! Buckets of a port (R254, R257). -/

def refillPort (c : Chip) (lp : Nat) : Chip :=
  modEgPort lp (fun p =>
    { p with bucket := min ((2 * (getPort c (lp / 4)).mtu : Nat) * bucketByte : Int) (p.bucket + p.rateMbps * 1000000 * ((localNs c : Int) - p.refillNs)),
             refillNs := localNs c }) c

/-! The choice of the next frame (R250 to R253, R261, R264). -/

/-- Refill and tag a leg under the configuration that binds it. -/
def readyLeg (lp l : Nat) (c : Chip) : Chip :=
  modLeg l (fun r => retag (getEgPort c lp).v (refillLeg c lp ((legCfg c l).shape l) r)) c

/-- The head of a class may be sent now, but for the repair bucket. -/
def headMay (c : Chip) (lp cls : Nat) (k : EgPkt) : Bool :=
  let p := getEgPort c lp
  let now := svc c
  (!p.launchEn || k.launchNs == 0 || decide (k.launchNs ≤ now)) &&
    p.openThrough cls (now + lineNs (lineMbps (getPort c (lp / 4)).split) k.bytes) 64 now

/-- The candidate of a leg: its lowest-class head that may be sent now (R252). -/
def candidate (c : Chip) (lp : Nat) (r : LegRun) : Option (Nat × EgPkt) :=
  [0, 1, 2, 3].findSome? (fun cls =>
    match r.queue cls with
    | k :: _ => if headMay c lp cls k && (cls != 2 || decide (0 ≤ r.repair)) then some (cls, k) else none
    | [] => none)

/-- A repair head held because the repair bucket is below zero is counted once (R251). -/
def noteCapped (lp l : Nat) (c : Chip) : Chip :=
  let r := getLeg c l
  match r.q2 with
  | k :: q => if r.repair < 0 && !k.capped then countEg lp l 9 1 (modLeg l (fun r => { r with q2 := { k with capped := true } :: q }) c) else c
  | [] => c

/-- Take the head of a class from a leg's queue; new heads that waited too long leave with it. -/
def popHead (lp l cls : Nat) (c : Chip) : Chip :=
  let b := (legCfg c l).shape l
  let pr := pruneHead (shQDelay b cls * 1000000) (svc c) ((getLeg c l).queue cls).tail
  countEg lp l 3 pr.1.length (dropPkts pr.1 (modLeg l (fun r => r.putQueue cls pr.2) c))

/-- A leg that takes part in the choice, with its start and finish tags as differences from V. -/
structure Choice where
  leg : Nat
  cls : Nat
  pkt : EgPkt
  s : Int
  f : Int
  deriving DecidableEq, Repr

/-- A tag as its difference from V, in the order of 64-bit numbers (R252; log 162). -/
def tagFrom (v s : Nat) : Int := signed 64 ((s + 2 ^ 64 - v) % 2 ^ 64)

/-- The tag at a difference from V. -/
def tagAt (v : Nat) (d : Int) : Nat := unsigned 64 (v + d)

/-- Candidates of the active legs of a port with start and finish tags. -/
def choices (c : Chip) (lp : Nat) (legs : List Nat) : List Choice :=
  legs.filterMap (fun l =>
    let r := getLeg c l
    match r.tag, candidate c lp r with
    | some s, some (cls, k) =>
      let d := tagFrom (getEgPort c lp).v s
      some { leg := l, cls := cls, pkt := k, s := d,
             f := d + ((getEgPort c lp).counted k.bytes * 65536 / shWeight ((legCfg c l).shape l) : Nat) }
    | _, _ => none)

/-- The first of the least by a measure. -/
def leastBy (m : Choice → Int) (l : List Choice) : Option Choice :=
  l.foldl (fun a x => match a with | some y => if m x < m y then some x else some y | none => some x) none

/-- The choice of R252. -/
def choose (l : List Choice) : Option Choice :=
  match leastBy (·.f) (l.filter (fun x => decide (x.s ≤ 0))) with
  | some x => some x
  | none => leastBy (·.s) l

/-- Tags and V move at selection, then the frame is charged (R250 to R253). -/
def selectFrame (lp : Nat) (legs : List Nat) (x : Choice) (c : Chip) : Chip :=
  let p := getEgPort c lp
  let n := p.counted x.pkt.bytes
  let c1 := modLeg x.leg (fun r => { r with tag := some (tagAt p.v x.f) }) c
  let active := legs.filter (fun l => (getLeg c1 l).tag.isSome)
  let w := (active.map (fun l => shWeight ((legCfg c l).shape l))).sum
  let least := (active.map (fun l => tagFrom p.v ((getLeg c1 l).tag.getD 0))).foldl min x.f
  let charge : Int := n * bucketByte
  let c2 := modEgPort lp (fun p =>
    { p with v := tagAt p.v (max ((n * 65536 / w : Nat) : Int) least), bucket := if p.rateMbps = 0 then p.bucket else p.bucket - charge,
             sel := some (x.leg, x.cls, x.pkt) }) c1
  let c3 := modLeg x.leg (fun r => { r with bucket := r.bucket - charge, repair := if x.cls = 2 then r.repair - charge else r.repair })
    (popHead lp x.leg x.cls c2)
  let c4 := modLeg x.leg (fun r => retag (getEgPort c3 lp).v r) c3
  if p.launchEn ∧ x.pkt.launchNs ≠ 0 ∧ x.pkt.launchNs < svc c then countEg lp x.leg 6 1 c4 else c4

/-- Choose until a frame is selected: one whose launch time is too long past is dropped and the choice made again (R264). -/
def selectLoop (lp : Nat) (legs : List Nat) : Nat → Chip → Chip
  | 0, c => c
  | f + 1, c =>
    match choose (choices c lp legs) with
    | none => c
    | some x =>
      let p := getEgPort c lp
      if p.launchEn ∧ x.pkt.launchNs ≠ 0 ∧ x.pkt.launchNs + p.lateLimit < svc c then
        selectLoop lp legs f (modLeg x.leg (fun r => retag p.v r) (countEg lp x.leg 7 1 (drop x.pkt.buf (popHead lp x.leg x.cls c))))
      else selectFrame lp legs x c

/-- Shaper or tag state of a leg reads as poison: it is reset to zero, S = V, and counted (R266). -/
def poisonedLeg (l : Nat) : Chip → Chip :=
  modLeg l (fun r => { r with bucket := 0, repair := 0, tag := none, poison := r.poison + 1 })

/-- `EGRESS_SELECT` (R252, R254): no frame is in progress, no PTP message waits, and the port bucket is not below zero. `bad` lists the legs
whose shaper or tag state reads as poison. -/
def egressSelect (lp : Nat) (bad : List Nat) (c0 : Chip) : Chip :=
  let c := fillProbes lp c0
  let c1 := refillPort c lp
  let p := getEgPort c1 lp
  if !lportUp c1 lp || p.sel.isSome || c1.eg.ptpOut.any (fun x => x.lport == lp) || (p.rateMbps != 0 && decide (p.bucket < 0)) then c1
  else
    let legs := portLegs c1 lp
    let c2 := legs.foldl (fun c l => noteCapped lp l (readyLeg lp l (if bad.contains l then poisonedLeg l c else c))) c1
    selectLoop lp legs ((legs.map (fun l => (getLeg c2 l).queued.length)).sum + 1) c2

def execEgressSelect (lport : Reading) (s : State) : Host.Outcome State Fault Refusal := act s (egressSelect lport.unit lport.bad)

/-! Departure (R236, R516, R538). -/

/-- The departure stamp of a port in service ns (R142, R236). -/
def txShift (c : Chip) (lp : Nat) : Int :=
  let pc := getPort c (lp / 4)
  if pc.tsCorr then (txCorrPs pc.split : Int) else 0

def departNs (c : Chip) (lp : Nat) : Nat := (corrected c.time.svcUnits (txShift c lp) / 4294967296).toNat

/-- The send-history entry of an SRTP packet (R236) and the bytes sent by class in the last second. -/
def recordSent (lp l cls : Nat) (k : EgPkt) (c : Chip) : Chip :=
  let now := svc c
  modLeg l (fun r =>
    let r1 := { r with sentWin := (r.sentWin.filter (fun x => decide (now < x.1 + 1000000000))) ++ [(now, cls, k.bytes)] }
    match k.body with
    | .srtp _ seq _ _ _ _ _ _ _ =>
      { r1 with
        sent := tput r.sent (r.sentCount % 512)
          { seq := seq, slot := k.slot, rtx := k.rtx, len8 := (k.bytes + 7) / 8, departNs := departNs c lp % 2 ^ 32, poison := false },
        sentCount := r.sentCount + 1 }
    | _ => r1) c

/-- Result of GX_PTP_SEND: stamps of both domains and of service time (R538). -/
def ptpStamps (c : Chip) (lp : Nat) (event : Bool) : List Word :=
  let ps := txShift c lp
  let st := fun (t : Int) => if event then clockWords (corrected t ps) else [0, 0, 0, 0]
  st c.time.a.t ++ st c.time.b.t ++ wd2 (if event then departNs c lp % 2 ^ 48 else 0)

def countTx (lp : Nat) : Chip → Chip := modLport lp (fun q => { q with framesTx := min (q.framesTx + 1) ctrMax })

/-- `FRAME_TRANSMIT` (R236, R249, R516, R538): the selected frame leaves the port, or is dropped because it reads as poison or
the link is down; with none selected, the oldest PTP message of the port leaves. -/
def frameTransmit (lp : Nat) (poison : Bool) (c : Chip) : Chip :=
  match (getEgPort c lp).sel with
  | some (l, cls, k) =>
    let c1 := modEgPort lp (fun p => { p with sel := none }) c
    if !lportUp c lp then countEg lp l 4 1 (drop k.buf c1)
    else if poison || k.poison then countEg lp l 12 1 (drop k.buf c1)
    else
      countEg lp l 0 1 (countEg lp l 1 k.bytes (drop k.buf (recordSent lp l cls k (countTx lp (emit (.frame lp (l + 1) k) c1)))))
  | none =>
    match c.eg.ptpOut.find? (fun x => x.lport == lp) with
    | none => c
    | some x =>
      let c1 := modEg (fun e => { e with ptpOut := e.ptpOut.filter (· != x) }) c
      if !lportUp c lp then finish x.slot (Res.err 0x0C02) c1
      else
        finish x.slot (Res.ok (ptpStamps c lp x.event))
          (countTx lp (emit (.frame lp 0 (EgPkt.plain (.ptp x.bytes x.data) x.frame c.gx.current)) c1))

def execFrameTransmit (lport : Nat) (poison : Bool) (s : State) : Host.Outcome State Fault Refusal :=
  act s (frameTransmit lport poison)

/-- `LAUNCH_TIME_REACHED` (R264): the launch time of a queue's head arrives, and the head becomes a candidate. -/
def launchReached (l cls : Nat) (c : Chip) : Chip :=
  match (getLeg c l).queue cls with
  | k :: _ => if (getEgPort c ((legCfg c l).legLport l)).launchEn then waitSvc k.launchNs c else c
  | [] => c

def execLaunchTimeReached (leg cls : Nat) (s : State) : Host.Outcome State Fault Refusal := act s (launchReached leg cls)

/-- `LEG_BUCKET_RECOVER` (R253): the bucket of a leg with packets queued comes back to zero; the leg is active and takes S = V. -/
def bucketRecover (l : Nat) (c : Chip) : Chip :=
  let lp := (legCfg c l).legLport l
  let r := refillLeg c lp ((legCfg c l).shape l) (getLeg c l)
  if r.queued.isEmpty ∨ r.rate = 0 then c
  else readyLeg lp l (waitLocal (localNs c + ((-r.bucket).toNat + r.rate - 1) / r.rate) c)

def execLegBucketRecover (leg : Nat) (s : State) : Host.Outcome State Fault Refusal := act s (bucketRecover leg)

/-! Shaper and gate registers (R267). The block lies in domain 6 and behind lock bit 2. -/

/-- Address of a register of a port's region. -/
def egReg (lp off : Nat) : Nat := 0x200000 + 0x10000 * lp + off

/-- A write that the power domain or the lock of the block may turn away (R13, R79). -/
def egWrite (fn lp off : Nat) (v : Word) (f : Chip → Chip) (c : Chip) : Chip := if lp < 8 then b2Write fn (egReg lp off) v f c else c

/-- Committed rates of the legs of a logical port in kb/s (R269). -/
def committedKbps (g : Cfg) (lp : Nat) : Nat :=
  (((g.indexes tLeg).filter (fun l => g.legLport l == lp)).map (fun l =>
    let b := g.shape l
    if shFixed b then shFixedRate b else shMin b)).sum

def resetPortBucket (c : Chip) (p : EgPort) : EgPort := { p with bucket := 0, refillNs := localNs c }

/-- `PORT_RATE_WRITE` (R257, R267, R268); a value above 400,000 has no effect. -/
def portRate (lp : Nat) (v : Word) (c : Chip) : Chip :=
  let r := bits v.toNat 0 19
  if 400000 < r then c
  else
    let c1 := modEgPort lp (fun p => resetPortBucket c { p with rateMbps := r }) c
    let sum := committedKbps (cfg c) lp
    if portMbps c1 lp * 1000 < sum then raise (portIsland lp) 0x405 none lp sum c1 else c1

def execPortRateWrite (fn lport : Nat) (v : Word) (s : State) : Host.Outcome State Fault Refusal :=
  act s (egWrite fn lport 4 v (portRate lport v))

/-- `EGR_PORT_CTRL_WRITE` (R255, R257). -/
def execEgrPortCtrlWrite (fn lport : Nat) (v : Word) (s : State) : Host.Outcome State Fault Refusal :=
  act s (egWrite fn lport 0 v (fun c => modEgPort lport (fun p => resetPortBucket c { p with ctrl := v &&& 0x33F01#32 }) c))

/-- `GATE_ADMIN_WRITE` (R260, R267): stored, or discarded with ADMIN_BUSY while a change is pending. The base seconds are a
64-bit register written low word first (R9). -/
def adminWrite (fn lp off : Nat) (v : Word) (c : Chip) : Chip :=
  let n := v.toNat
  if (getEgPort c lp).pend then modEgPort lp (fun p => { p with adminBusy := true }) c
  else if off = 0x10 then modFn fn (fun f => { f with wrLow := tput f.wrLow (egReg lp off) v }) c
  else if off = 0x14 then modEgPort lp (fun p => { p with admSec := n * 2 ^ 32 + (tget 0 (getFn c fn).wrLow (egReg lp 0x10)).toNat }) c
  else if off = 0x18 then modEgPort lp (fun p => { p with admNs := n }) c
  else if off = 0x1C then modEgPort lp (fun p => { p with admCycle := n }) c
  else if off = 0x20 then modEgPort lp (fun p => { p with admLen := n % 512 }) c
  else if 0x1000 ≤ off ∧ off < 0x1800 then
    modEgPort lp (fun p => { p with adm := tput p.adm ((off - 0x1000) / 4) (if off % 8 = 0 then v &&& 15#32 else v) }) c
  else c

def execGateAdminWrite (fn lport off : Nat) (v : Word) (s : State) : Host.Outcome State Fault Refusal :=
  act s (egWrite fn lport off v (adminWrite fn lport off v))

/-- The administrative list of a port. -/
def EgPort.admin (p : EgPort) : GateList :=
  { base := p.admSec * 1000000000 + p.admNs, cycle := p.admCycle,
    entries := (List.range p.admLen).map (fun i => ((tget 0 p.adm (2 * i)).extractLsb' 0 4, (tget 0 p.adm (2 * i + 1)).toNat)) }

/-- A latch of the list is refused (R258, R260). -/
def EgPort.adminBad (p : EgPort) : Bool :=
  outside p.admLen 1 256 || outside p.admCycle 1000 1000000000 || decide (999999999 < p.admNs) ||
    p.admin.entries.any (fun e => outside e.2 100 1000000000)

/-- `GATE_CONFIG_CHANGE` (R259, R260). -/
def gateChange (lp : Nat) (c : Chip) : Chip :=
  let p := getEgPort c lp
  if p.adminBad then modEgPort lp (fun p => { p with configError := true }) c
  else
    let q := p.admin
    let min_ := svc c + 10000
    if min_ ≤ q.base then modEgPort lp (fun p => { p with pend := true, pendList := q, changeNs := q.base }) c
    else
      let n := (min_ - q.base + q.cycle - 1) / q.cycle
      raise (portIsland lp) 0x403 none lp n
        (modEgPort lp (fun p => { p with pend := true, pendList := q, changeNs := q.base + n * q.cycle, lateBase := true }) c)

def execGateConfigChange (fn lport : Nat) (s : State) : Host.Outcome State Fault Refusal :=
  act s (egWrite fn lport 0x24 1 (gateChange lport))

/-- `GATE_TAKEOVER` (R259): at the takeover time the pending list becomes the operating list. -/
def gateTakeover (lp : Nat) (c : Chip) : Chip :=
  let p := getEgPort c lp
  if !p.pend then c
  else
    let c1 := waitSvc p.changeNs c
    raise (portIsland lp) 0x404 none lp (p.pendList.entries.length + 2 ^ 32 * (p.changeNs % 1000000000))
      (modEgPort lp (fun p => { p with oper := p.pendList, operValid := true, pend := false }) c1)

/-- `GATE_CANCEL` (R260): a pending change is cleared; one whose takeover time has come goes through. -/
def gateCancel (lp : Nat) (c : Chip) : Chip :=
  let p := getEgPort c lp
  if p.pend ∧ p.changeNs ≤ svc c then gateTakeover lp c else modEgPort lp (fun p => { p with pend := false }) c

def execGateCancel (fn lport : Nat) (s : State) : Host.Outcome State Fault Refusal := act s (egWrite fn lport 0x24 2 (gateCancel lport))

def execGateTakeover (lport : Nat) (s : State) : Host.Outcome State Fault Refusal := act s (gateTakeover lport)

/-- `GATE_ENTRY_BOUNDARY` (R258): the entry in force ends. The gates are always those of the entry in which service time falls
(R262), so the boundary passes with service time. -/
def gateBoundary (lp : Nat) (c : Chip) : Chip :=
  let p := getEgPort c lp
  if p.gateEn ∧ p.operValid then waitSvc (p.oper.at_ (svc c)).2 c else c

def execGateEntryBoundary (lport : Nat) (s : State) : Host.Outcome State Fault Refusal := act s (gateBoundary lport)

/-! Commands. -/

/-- GX_PTP_SEND (R535, R538): the message waits for the port, and the command ends when it has left. -/
def ptpSend (x : Ctx) (c : Chip) : Chip :=
  let b := x.body
  let i := bf b 0 0 12
  let n := bf b 4 0 11
  match (cfg c).addr i with
  | none => x.done (Res.err 0x0C02) c
  | some a =>
    let lp := addrLport a
    let frame := udpFrame a n
    if !addrActive c (cfg c) i || !lportUp c lp then x.done (Res.err 0x0C02) c
    else if n < 34 ∨ 1024 < n ∨ (getPort c (lp / 4)).mtu < frame then x.done (Res.err 0x0C03) c
    else
      match (tget RateWin.zero c.time.txWin lp).take (localNs c) 1024 with
      | none => x.done (Res.err 0x0C01) c
      | some w =>
        modEg (fun e => { e with ptpOut := e.ptpOut ++
          [{ lport := lp, slot := x.k, event := bit (bw b 0) 12, frame := frame, bytes := n, data := (b.drop 8).take ((n + 3) / 4) }] })
          (modTime (fun t => { t with txWin := tput t.txWin lp w }) c)

def execGxPtpSend (cmd : CmdRef) (s : State) : Host.Outcome State Fault Refusal := act s (serve 0x0C02 cmd noFields ptpSend)

/-- GX_EGRESS_COUNTERS: the operator reads a logical port, the owner or the operator a leg. -/
def egressCounters (x : Ctx) (c : Chip) : Chip :=
  let i := bw x.body 4
  let read := fun (sc : Nat) (c : Chip) =>
    x.done (Res.ok (ctrWords c 0x0403 sc 14)) (if bit (bw x.body 8) 0 then ctrClear 0x0403 sc 14 c else c)
  if bit (bw x.body 0) 0 then x.withObj i tLeg (fun _ => read (scope2 (idIndex i))) c
  else if !x.operator then x.done (Res.err 0x0004) c
  else if 8 ≤ i then x.done (Res.field 4) c
  else read i c

def execGxEgressCounters (cmd : CmdRef) (s : State) : Host.Outcome State Fault Refusal :=
  act s (serve 0x0403 cmd noFields egressCounters)

end Sys2Proof.Machine
end

