-- ==== Sys2Proof/Machine/Adapt.lean ====
section
/-!
DEFINITION. Leg adaptation (R233 to R246): the estimate, the shaper rate, layer targets, rendition votes and probing, and what
a leg does when an epoch becomes current (R256, R650).
-/
namespace Sys2Proof.Machine
open Sys2Proof

/-! Feedback (R236, R237, R239). -/

/-- The out-slot and stream that an SSRC of a leg names: slot and whether it is the RTX stream. -/
def streamOf (g : Cfg) (l ssrc : Nat) : Option (Nat × Bool) :=
  match (g.slotsOn l).find? (fun e => osSsrc e.2 == ssrc) with
  | some e => some (e.1, false)
  | none => ((g.slotsOn l).find? (fun e => osRtx e.2 && osRtxSsrc e.2 == ssrc)).map (fun e => (e.1, true))

/-- The history entry of a reported packet, while it has not been overwritten and does not read as poison. -/
def sentOf (r : LegRun) (st : Nat × Bool) (seq : Nat) : Option Sent :=
  (r.sent.find? (fun e => e.2.seq == seq && e.2.slot == st.1 && e.2.rtx == st.2 && !e.2.poison)).map Prod.snd

/-- Reported packets with their history entries. -/
def reported (g : Cfg) (l : Nat) (r : LegRun) : List (CcfbItem × Sent) :=
  r.reports.flatMap (fun p =>
    match streamOf g l p.1 with
    | some st => p.2.filterMap (fun i => (sentOf r st i.seq).map (fun s => (i, s)))
    | none => [])

/-- Reports that name no entry (R237). -/
def strayReports (g : Cfg) (l : Nat) (r : LegRun) : Nat :=
  (r.reports.filter (fun p =>
    match streamOf g l p.1 with
    | some st => !p.2.any (fun i => (sentOf r st i.seq).isSome)
    | none => true)).length

/-- One-way delay sample in µs: arrival less the departure stamp, whose low 32 bits the history holds. -/
def delayOf (now : Nat) (x : CcfbItem × Sent) : Int :=
  ((x.1.arrivalNs : Int) - (now - (now + 2 ^ 32 - x.2.departNs) % 2 ^ 32)) / 1000

def sortInts (l : List Int) : List Int := sortBy (fun a b => decide (a ≤ b)) l

/-- The middle sample; of an even number the later of the two (log 58). -/
def median (l : List Int) : Int := (sortInts l).getD (l.length / 2) 0

def leastInt (l : List Int) : Int := (sortInts l).getD 0 0

/-- What a run's feedback says: q in µs, p in 1/65,536, R_recv in b/s, and the samples kept. -/
structure Feedback where
  q : Nat
  p : Nat
  rRecv : Nat
  delays : List (Nat × Int)
  rtts : List (Nat × Int)
  recv : List (Nat × Nat)
  deriving DecidableEq, Repr

/-- Bits per second of bytes of the last 500 ms. -/
def halfRate (l : List (Nat × Nat)) : Nat := 16 * (l.map Prod.snd).sum

/-- The feedback that arrived since the last run, if any. RFC 8888 reports go before report blocks. -/
def feedback (g : Cfg) (l now : Nat) (r : LegRun) : Option Feedback :=
  let recent := fun (l : List (Nat × Int)) => l.filter (fun d => decide (now < d.1 + 10000000000))
  let told := recent r.rtts ++ r.rrs.filterMap (fun b => b.2.map (fun t => (now, (t : Int))))
  let rep := reported g l r
  if !rep.isEmpty then
    let got := rep.filter (fun x => x.1.received)
    let s := got.map (delayOf now)
    let delays := recent r.delays ++ s.map (fun d => (now, d))
    let recv := (r.recv.filter (fun x => decide (now < x.1 + 500000000))) ++ got.map (fun x => (now, 8 * x.2.len8))
    some { q := if s.isEmpty then r.q else (median s - leastInt (delays.map Prod.snd)).toNat,
           p := (rep.length - got.length) * 65536 / rep.length, rRecv := halfRate recv, delays := delays, rtts := told,
           recv := recv }
  else if !r.rrs.isEmpty then
    let rtt := r.rrs.reverse.findSome? (fun b => b.2)
    let p := (r.rrs.map (fun b => b.1.fractionLost)).sum * 256 / r.rrs.length
    let sent := halfRate ((r.sentWin.filter (fun x => decide (now < x.1 + 500000000))).map (fun x => (x.1, x.2.2)))
    some { q := match rtt with | some t => ((t : Int) - leastInt (told.map Prod.snd)).toNat | none => r.q,
           p := p, rRecv := sent * (65536 - p) / 65536, delays := recent r.delays, rtts := told, recv := r.recv }
  else none

/-- A leg's limits of A in b/s. -/
def clampRate (b : List Word) (a : Nat) : Nat := max (shMin b * 1000) (min (shMax b * 1000) a)

/-- The new A of a run with feedback, with the end of the hold and whether a row lowered it (R239). -/
def estimate (b : List Word) (now : Nat) (f : Feedback) (r : LegRun) : Nat × Nat × Bool :=
  let row : Nat × Nat × Bool :=
    if shQHighMs b * 1000 < f.q ∧ r.q < f.q then
      let a := min r.a (f.rRecv * 85 / 100)
      (a, now + 500000000, decide (a < r.a))
    else if 6553 < f.p then (r.a - r.a * f.p / 131072, r.holdEnd, true)
    else if now < r.holdEnd then (r.a, r.holdEnd, false)
    else if f.q < shQLowMs b * 1000 ∧ f.p * 100 < 2 * 65536 then (r.a + max (r.a * 4 / 1000) 2000, r.holdEnd, false)
    else (r.a, r.holdEnd, false)
  (clampRate b (min row.1 (f.rRecv * 3 / 2 + 100000)), row.2.1, row.2.2)

/-- FEEDBACK_LOST, once (R240). -/
def feedbackLost (g : Cfg) (l : Nat) (c : Chip) : Chip :=
  let r := getLeg c l
  if r.lastFb + 5000000000 ≤ svc c ∧ !r.fbLost then
    raise (pipeIsland (g.legPipe l)) 0x402 (g.owner tLeg l) (g.idAt tLeg l) ((svc c - r.lastFb) / 1000000)
      (modLeg l (fun r => { r with fbLost := true }) c)
  else c

/-- The estimator part of a run (R239 to R241). -/
def estimateStep (g : Cfg) (l : Nat) (c : Chip) : Chip :=
  let b := g.shape l
  let r := getLeg c l
  let now := svc c
  let stray := strayReports g l r
  if shFixed b then modLeg l (fun r => { r with a := shFixedRate b * 1000, reports := [], rrs := [], ignored := r.ignored + stray }) c
  else
    match feedback g l now r with
    | some f =>
      let e := estimate b now f r
      modLeg l (fun r =>
        { r with a := e.1, holdEnd := e.2.1, lastLower := if e.2.2 then now + 1 else r.lastLower, rRecv := f.rRecv, qPrev := r.q, q := f.q,
                 p := f.p, delays := f.delays, rtts := f.rtts, recv := f.recv, lastFb := now, lastHalve := now + 500000000, fbLost := false,
                 reports := [], rrs := [], ignored := r.ignored + stray }) c
    | none =>
      let r1 := { r with reports := [], rrs := [], ignored := r.ignored + stray }
      let r2 := if r.lastHalve + 500000000 ≤ now then
          { r1 with a := max (shMin b * 1000) (r.a / 2), lastHalve := r.lastHalve + 500000000 } else r1
      feedbackLost g l (modLeg l (fun _ => r2) c)

/-! Layer targets (R242 to R244). -/

/-- R(s, t) of a source in b/s over the last second; of a simulcast group, that of the member with layer s. -/
def layerRate (g : Cfg) (c : Chip) (i s t : Nat) : Nat :=
  let simul := g.inSimul i
  let k := if simul then g.member i s else i
  let have_ := !simul || srcFixedS (g.body tSource k) == s
  let sum := fun (a b : Nat) => ((tget [] c.eg.layerWin (k * 64 + a * 8 + b)).filter (fun x => decide (svc c < x.1 + 1000000000))).map Prod.snd |>.sum
  if !have_ then 0
  else 8 * ((List.range 8).map (fun a => if simul || decide (a ≤ s) then ((List.range (t + 1)).map (fun b => sum a b)).sum else 0)).sum

/-- An edge in the allocation. -/
structure AllocEdge where
  edge : Nat
  source : Nat
  weight : Nat
  maxS : Nat
  maxT : Nat
  tgtS : Nat
  tgtT : Nat
  s : Nat
  t : Nat
  /-- R at the candidate -/
  rate : Nat
  deriving DecidableEq, Repr

/-- Running state of the allocation: what is spent, the extra rate of a step refused for the budget, and steps taken in the pass. -/
structure AllocSt where
  spent : Nat
  refused : Nat
  steps : Nat
  deriving DecidableEq, Repr

/-- Up to `n` steps of one edge (R244 parts 3 to 6). -/
def allocSteps (g : Cfg) (c : Chip) (budget : Nat) : Nat → AllocEdge → AllocSt → AllocEdge × AllocSt
  | 0, e, a => (e, a)
  | n + 1, e, a =>
    if e.t < e.maxT ∨ e.s < e.maxS then
      let s := if e.t < e.maxT then e.s else e.s + 1
      let t := if e.t < e.maxT then e.t + 1 else e.t
      let r := layerRate g c e.source s t
      let below := s ≤ e.tgtS ∧ t ≤ e.tgtT
      let spent := a.spent - e.rate + r
      if r = 0 then (e, a)
      else if (if below then spent ≤ budget else spent * 100 ≤ budget * 95) then
        allocSteps g c budget n { e with s := s, t := t, rate := r } { a with spent := spent, steps := a.steps + 1 }
      else (e, { a with refused := r - e.rate })
    else (e, a)

/-- One pass over the edges in their order. -/
def allocPass (g : Cfg) (c : Chip) (budget : Nat) : List AllocEdge → AllocSt → List AllocEdge × AllocSt
  | [], a => ([], a)
  | e :: l, a =>
    let r := allocSteps g c budget (e.weight + 1) e a
    let q := allocPass g c budget l r.2
    (r.1 :: q.1, q.2)

/-- Passes until one takes no step. -/
def allocate (g : Cfg) (c : Chip) (budget : Nat) : Nat → List AllocEdge → AllocSt → List AllocEdge × AllocSt
  | 0, l, a => (l, a)
  | f + 1, l, a =>
    let r := allocPass g c budget l { a with steps := 0, refused := 0 }
    if r.2.steps = 0 then r else allocate g c budget f r.1 r.2

/-- The edges of a leg that take part, in order of falling weight and rising index. -/
def allocEdges (g : Cfg) (c : Chip) (l : Nat) : List AllocEdge :=
  sortBy (fun a b => decide (b.weight ≤ a.weight))
    (((g.edgesTo l).filter (fun e => !edAudio (g.body tEdge e) && (getEdge c e).st != 3)).map (fun e =>
      let b := g.body tEdge e
      let x := getEdge c e
      { edge := e, source := edSource b, weight := edWeight b, maxS := edMaxS b, maxT := edMaxT b, tgtS := x.tgtS, tgtT := x.tgtT,
        s := 0, t := 0, rate := layerRate g c (edSource b) 0 0 }))

/-- Rate of some classes over the last second in b/s. -/
def classRate (r : LegRun) (now : Nat) (p : Nat → Bool) : Nat :=
  8 * ((r.sentWin.filter (fun x => decide (now < x.1 + 1000000000) && p x.2.1)).map (fun x => x.2.2)).sum

/-- LEG_UNDERFUNDED, at most once in 10 s (R244). -/
def underfundedEvent (g : Cfg) (l budget base : Nat) (c : Chip) : Chip :=
  let r := getLeg c l
  if r.lastUnder ≠ 0 ∧ svc c + 1 < r.lastUnder + 10000000000 then c
  else
    raise (pipeIsland (g.legPipe l)) 0x401 (g.owner tLeg l) (g.idAt tLeg l) (budget / 1000 % 2 ^ 32 + 2 ^ 32 * (base / 1000))
      (modLeg l (fun r => { r with lastUnder := svc c + 1 }) c)

/-! Votes (R245). -/

/-- Bin of a rate: the largest b with 32 kb/s × 2^(b ÷ 3) not above it, within 0 to 31. -/
def voteBin (rate : Nat) : Nat := ((List.range 32).filter (fun b => decide (32000 ^ 3 * 2 ^ b ≤ rate ^ 3))).foldl max 0

/-- The demand table moves to the window of a time: a completed window is kept only for the window after it. -/
def RendRun.rollVotes (r : RendRun) (now : Nat) : RendRun :=
  let w := now / 200000000
  if w = r.voteWin then r
  else if w = r.voteWin + 1 then { r with votesDone := r.votes, votes := [], voteWin := w }
  else { r with votesDone := [], votes := [], voteWin := w }

/-- Edges fed by the output source of a rendition. -/
def fromRend (b : List Word) : Bool := srcInternal b && srcMake b == 0

/-- An ALLOW not above zero counts in bin 0 (log 186). -/
def vote (g : Cfg) (budget : Int) (spent : Nat) (l : List AllocEdge) (c : Chip) : Chip :=
  let es := l.filter (fun e => fromRend (g.body tSource e.source))
  es.foldl (fun c e =>
    let b := voteBin (e.rate + (budget - spent) / es.length).toNat
    modRend (srcRend (g.body tSource e.source)) (fun r => let r := r.rollVotes (svc c); { r with votes := tput r.votes b (tget 0 r.votes b + 1) }) c) c

/-! Probing (R246). -/

/-- A probe starts when the last allocation refused a step for the budget alone, and no lowering and no probe lies within 2 s. -/
def startProbe (g : Cfg) (l : Nat) (c : Chip) : Chip :=
  let r := getLeg c l
  let now := svc c
  let old := fun (t : Nat) => t = 0 ∨ t + 2000000000 ≤ now + 1
  let stock := probeStock g c l
  if shProbe (g.shape l) ∧ (g.slotsOn l).any (fun e => osRtx e.2) ∧ 0 < r.refused ∧ r.probeEnd = 0 ∧ old r.lastLower ∧ old r.lastProbe ∧
      !stock.isEmpty then
    modLeg l (fun r => { r with probeEnd := now + 200000000 + 1, probeRate := r.refused, probeCount := 0, probeBytes := 0 }) c
  else c

/-- `PROBE_END` (R246). -/
def probeEnd (l : Nat) (c : Chip) : Chip :=
  let r := getLeg c l
  if r.probeEnd = 0 then c
  else
    let c1 := fillProbe l (waitSvc (r.probeEnd - 1) c)
    modLeg l (fun r => { r with probeEnd := 0, lastProbe := svc c1 + 1 }) c1

def execProbeEnd (leg : Nat) (s : State) : Host.Outcome State Fault Refusal := act s (probeEnd leg)

/-! The run (R233 to R235, R242 to R246). -/

/-- The whole run of a leg under the epoch of its start. `bad` lists the entries of its send history that read as poison (R266). -/
def adaptRun (g : Cfg) (l : Nat) (bad : List Nat) (c : Chip) : Chip :=
  let b := g.shape l
  let now := svc c
  let c1 := estimateStep g l
    (modLeg l (fun r => { r with sent := r.sent.map (fun e => (e.1, { e.2 with poison := e.2.poison || bad.contains e.1 })) }) c)
  let lp := g.legLport l
  let c2 := modLeg l (fun r => { refillLeg c1 lp b r with rate := r.a }) c1
  let r := getLeg c2 l
  let budget : Int := (shAllocPct b * r.a / 100 : Nat) - (classRate r now (fun k => k < 2) : Nat)
  let limit := budget.toNat
  let es := allocEdges g c2 l
  let base : Nat := (es.map (·.rate)).sum
  let under := decide (budget < base)
  let none_ : AllocSt := { spent := base, refused := 0, steps := 0 }
  let al := if under then (es, none_) else allocate g c2 limit (64 * es.length + 1) es none_
  let c3 := al.1.foldl (fun c e => putEdge g e.edge { getEdge c e.edge with tgtS := e.s, tgtT := e.t } c) c2
  let c4 := modLeg l (fun r => { r with budget := limit, spent := al.2.spent, refused := al.2.refused, underfunded := under, lastRun := now }) c3
  let c5 := if under then underfundedEvent g l limit base c4 else c4
  let c6 := if shVote b then vote g budget al.2.spent al.1 c5 else c5
  touchLeg l (startProbe g l c6)

/-- A leg's next run: the runs of the legs are spread evenly over 50 ms of service time by leg index (R233; log 56). -/
def nextRun (l t : Nat) : Nat :=
  let phase := l * 50000000 / 262144
  (t + 50000000 - phase) / 50000000 * 50000000 + phase

/-- `ADAPT_RUN_DUE` (R233, R234): submitted, or skipped and counted while the previous run has not started. -/
def adaptDue (l : Nat) (c : Chip) : Chip :=
  if !(cfg c).has tLeg l then c
  else
    let c1 := waitSvc (getLeg c l).runDue c
    let c2 := modLeg l (fun r => { r with runDue := nextRun l r.runDue }) c1
    if fwPending c2 fwAdapt l then countEg ((cfg c2).legLport l) l 10 1 c2
    else fwCreate fwAdapt 5 (((cfg c2).owner tLeg l).getD 0) l c2

def execAdaptRunDue (leg : Nat) (s : State) : Host.Outcome State Fault Refusal := act s (adaptDue leg)

/-- `ADAPT_RUN` (R235, R239): the task that runs for the leg does its work under the epoch of its start and is over. For a leg that the
current epoch has no longer its writes are discarded and counted (R37). -/
def adaptRow (l : Nat) (bad : List Nat) (c : Chip) : Chip :=
  match fwRunning c fwAdapt l with
  | none => c
  | some slot =>
    let g := cfgAt c (getTask c slot).epoch
    fwFinish slot (if !g.has tLeg l then c else if sameObj c g tLeg l then adaptRun g l bad c else staleWrite c)

def execAdaptRun (leg : Reading) (s : State) : Host.Outcome State Fault Refusal := act s (adaptRow leg.unit leg.bad)

/-! A leg when an epoch becomes current (R233, R256, R650). -/

/-- Both buckets at zero, or full with RESET_FILL. -/
def resetBuckets (c : Chip) (lp : Nat) (b : List Word) (r : LegRun) : LegRun :=
  { r with bucket := if shResetFill b then (shBurst b * bucketByte : Int) else 0,
           repair := if shResetFill b then (repairDepth c lp b * bucketByte : Int) else 0, refillNs := localNs c, tag := none }

/-- A new leg: A at START_RATE, buckets reset, its first run within 5 ms and its first report drawn (R229, R233, R256). -/
def newLeg (g : Cfg) (l : Nat) (c : Chip) : Chip :=
  let b := g.shape l
  let a := (if shFixed b then shFixedRate b else shStart b) * 1000
  let r := resetBuckets c (g.legLport l) b
    { LegRun.zero with a := a, rate := a, lastFb := svc c, lastHalve := svc c + 500000000, runDue := svc c + l * 5000000 / 262144 }
  armReport g l (modEg (fun e => { e with legs := tput e.legs l r }) c)

/-- The shaper part of a leg's settings (R256). -/
def shaperPart (b : List Word) : Bool × Nat × Nat × Nat := (shFixed b, shFixedRate b, shBurst b, shRepairPct b)

def legActivate (old g : Cfg) (l : Nat) (c : Chip) : Chip :=
  if old.idAt tLeg l ≠ g.idAt tLeg l then newLeg g l c
  else
    let b := g.shape l
    let c1 := if old.legLport l = g.legLport l then c else flushLeg (g.legLport l) l 13 c
    let c2 := if shaperPart (old.shape l) = shaperPart b then c1
      else modLeg l (fun r => resetBuckets c1 (g.legLport l) b { r with rate := if shFixed b then shFixedRate b * 1000 else r.rate }) c1
    touchLeg l c2

def legsActivate (old g : Cfg) (c : Chip) : Chip := (g.indexes tLeg).foldl (fun c l => legActivate old g l c) c

/-- When the old epoch retires, legs that the current one does not have lose their state, and their packets are dropped. -/
def legsRetire (c : Chip) : Chip :=
  let gone := c.eg.legs.filter (fun e => !(cfg c).has tLeg e.1)
  let c1 := gone.foldl (fun c e => dropPkts e.2.queued c) c
  modNet (fun n => { n with tx := n.tx.filter (fun e => (cfg c).has tLeg e.1), counted := n.counted.filter (fun e => (cfg c).has tLeg e.1) })
    (modEg (fun e => { e with legs := e.legs.filter (fun x => (cfg c).has tLeg x.1) }) c1)

/-! Command. -/

/-- A bucket in whole bytes, signed. -/
def bucketBytes (v : Int) : Nat := unsigned 32 (v / bucketByte)

def adaptQuery (x : Ctx) (c : Chip) : Chip :=
  x.withObj (bw x.body 0) tLeg (fun _ c =>
    let l := idIndex (bw x.body 0)
    let r := refillLeg c ((cfg c).legLport l) ((cfg c).shape l) (getLeg c l)
    x.done (Res.ok ([wd (r.a / 1000), wd (r.rRecv / 1000), wd r.q, wd r.p, wd (r.rate / 1000), wd (bucketBytes r.bucket),
      wd (bucketBytes r.repair), wd (b2n (decide (svc c < r.holdEnd)) + 2 * b2n r.fbLost + 4 * b2n r.underfunded + 8 * b2n (r.probeEnd != 0))] ++
      wd2 r.lastRun ++ [wd (r.budget / 1000), wd (r.spent / 1000)])) c) c

/-- `GX_LEG_ADAPT_QUERY`: 48 bytes. -/
def execGxLegAdaptQuery (cmd : CmdRef) (s : State) : Host.Outcome State Fault Refusal := act s (serve 0x0402 cmd noFields adaptQuery)

end Sys2Proof.Machine
end

