-- ==== Sys2Proof/Machine/Samples.lean ====
section
/-!
DEFINITION. Samples of pictures: fractions, the layout of a picture in its buffer (R319), reading and writing it in DRAM, polyphase scaling
(R343, R376), and the conversion between matrices and ranges (R345). A sample is carried at 12 bits: an 8-bit one times 16, a 10-bit one times 4.
-/
namespace Sys2Proof.Machine
open Sys2Proof

/-! Fractions. -/

def Frac.of (n : Int) (d : Nat) : Frac := let g := Nat.gcd n.natAbs d; { num := n / g, den := d / g }
def Frac.int (n : Int) : Frac := { num := n, den := 1 }
def Frac.add (a b : Frac) : Frac := .of (a.num * b.den + b.num * a.den) (a.den * b.den)
def Frac.sub (a b : Frac) : Frac := .of (a.num * b.den - b.num * a.den) (a.den * b.den)
def Frac.mul (a b : Frac) : Frac := .of (a.num * b.num) (a.den * b.den)
/-- Times n ÷ d. -/
def Frac.scale (a : Frac) (n d : Nat) : Frac := .of (a.num * n) (a.den * d)
def Frac.le (a b : Frac) : Bool := decide (a.num * b.den ≤ b.num * a.den)
def Frac.lt (a b : Frac) : Bool := decide (a.num * b.den < b.num * a.den)
def Frac.min (a b : Frac) : Frac := if a.le b then a else b
def Frac.max (a b : Frac) : Frac := if a.le b then b else a
def Frac.floor (a : Frac) : Int := a.num / a.den
def Frac.ceil (a : Frac) : Nat := (-((-a.num) / a.den)).toNat
/-- The whole number that it is, or one of its two neighbours: no rounding is stated (log 67). -/
def Frac.whole (a : Frac) : Int := a.num / a.den + (if a.num % a.den = 0 then 0 else (Config.roundPick (a.num.natAbs + a.den) % 2 : Nat))

/-! Depths. -/

/-- A sample of a depth at 12 bits, and a 12-bit sample rounded to a depth; halves go either way. -/
def to12 (ten : Bool) (v : Nat) : Nat := if ten then 4 * v else 16 * v
def toDepth (ten : Bool) (v : Nat) : Nat :=
  let u := if ten then 4 else 16
  min (if ten then 1023 else 255) (v / u + (if u < 2 * (v % u) then 1 else if 2 * (v % u) = u then Config.roundPick v % 2 else 0))

/-- A colour given as a 10-bit value; an 8-bit picture uses bits 9 to 2 (log 189). -/
def colour12 (ten : Bool) (v : Nat) : Nat := if ten then 4 * v else 16 * (v / 4)

/-- Limits a number to 0 up to `top`. -/
def clampTo (top : Nat) (n : Int) : Nat := min top n.toNat

/-! Buffers (R319). -/

/-- Bytes of a sample as stored: one byte, or at 10 bits a little-endian word with the sample in bits 15 to 6. -/
def storedBytes (ten : Bool) (v : Nat) : List Byte := if ten then [BitVec.ofNat 8 (v * 64), BitVec.ofNat 8 (v / 4)] else [BitVec.ofNat 8 v]

/-- A picture in memory: first address, stride, offset of the chroma plane, and depth. -/
structure Layout where
  base : Nat
  stride : Nat
  chroma : Nat
  ten : Bool
  deriving DecidableEq, Repr

/-- The layout of a picture of a coded size. -/
def layoutOf (base w h : Nat) (ten : Bool) : Layout := { base := base, stride := strideOf w ten, chroma := strideOf w ten * up16 h, ten := ten }

/-- Address of a sample: plane 0 is luma, 1 Cb and 2 Cr. -/
def Layout.addr (q : Layout) (pl x y : Nat) : Nat :=
  let b := if q.ten then 2 else 1
  if pl = 0 then q.base + y * q.stride + x * b else q.base + q.chroma + y * q.stride + (2 * x + (pl - 1)) * b

/-- A stored sample at 12 bits. -/
def Layout.get (q : Layout) (m : Mem) (pl x y : Nat) : Nat :=
  let a := q.addr pl x y
  to12 q.ten (if q.ten then (m.byte a).toNat / 64 + 4 * (m.byte (a + 1)).toNat else (m.byte a).toNat)

/-- Rows of a picture as writes, luma rows then rows of Cb and Cr pairs; `f` gives the samples at the picture's depth. -/
def Layout.rows (q : Layout) (f : Nat → Nat → Nat → Nat) (w y0 y1 : Nat) : List (Nat × List Byte) :=
  (List.range (y1 - y0)).map (fun k => (q.addr 0 0 (y0 + k), (List.range w).flatMap (fun x => storedBytes q.ten (f 0 x (y0 + k))))) ++
  (List.range (y1 / 2 - y0 / 2)).map (fun k =>
    (q.addr 1 0 (y0 / 2 + k), (List.range (w / 2)).flatMap (fun x => storedBytes q.ten (f 1 x (y0 / 2 + k)) ++ storedBytes q.ten (f 2 x (y0 / 2 + k)))))

/-- Writes of clean data by an engine, of whole words. -/
def storeAll (m : Mem) (c : Chip) (l : List (Nat × List Byte)) : List MemOp := l.flatMap (fun w => (memWrite m w.1 w.2 false c).1)

/-! Scaling (R343, R376). Positions, coefficients and what they are scaled by are built in and not given (log 190). -/

/-- Taps of a filter: 0 horizontal and 1 vertical of a compositor, 2 of an encoder's input stage. -/
def tapCount (set_ : Nat) : Nat := if set_ = 1 then 6 else 8

/-- One sample of a plane of size w × h scaled to W × H: 64 phases, coefficient sets by ratio; reads beyond an edge repeat it. -/
def scaled (hs vs : Nat) (f : Nat → Nat → Nat) (w h ww hh top x y : Nat) : Nat :=
  let px := Config.scalePos hs w ww x
  let py := Config.scalePos vs h hh y
  let row := fun (j : Int) => ((List.range (tapCount hs)).map (fun i =>
    Config.scaleTap hs w ww (px % 64).toNat i * (f (clampTo (w - 1) (px / 64 + i - (tapCount hs / 2 - 1 : Nat))) (clampTo (h - 1) j) : Int))).sum
  let sum := ((List.range (tapCount vs)).map (fun j => Config.scaleTap vs h hh (py % 64).toNat j * row (py / 64 + j - (tapCount vs / 2 - 1 : Nat)))).sum
  clampTo top (Frac.of sum (max 1 (Config.scaleOne hs * Config.scaleOne vs))).whole

/-! Conversion (R345). -/

/-- Weights of red and blue in luma in 1/10,000, by the MATRIX code point of ISO/IEC 23091-2 (log 191). -/
def lumaWeights (matrix : Nat) : Option (Nat × Nat) :=
  match matrix with
  | 1 => some (2126, 722)
  | 4 => some (3000, 1100)
  | 5 => some (2990, 1140)
  | 6 => some (2990, 1140)
  | 7 => some (2120, 870)
  | 9 => some (2627, 593)
  | _ => none

/-- Offset and span of luma, and span of chroma around 2,048, at 12 bits. -/
def rangeOf (full : Bool) : Nat × Nat × Nat := if full then (0, 4080, 4080) else (256, 3504, 3584)

/-- A colour at 12 bits from one matrix and range to another: Y, Cb and Cr. Code points that name no pair of weights are converted by a
free function. -/
def convert (m0 : Nat) (f0 : Bool) (m1 : Nat) (f1 : Bool) (v : Nat × Nat × Nat) : Nat × Nat × Nat :=
  if m0 = m1 ∧ f0 = f1 then v
  else
    match lumaWeights m0, lumaWeights m1 with
    | some (r, b), some (r', b') =>
      let q := rangeOf f0
      let y := Frac.of ((v.1 : Int) - q.1) q.2.1
      let cb := Frac.of ((v.2.1 : Int) - 2048) q.2.2
      let cr := Frac.of ((v.2.2 : Int) - 2048) q.2.2
      let red := y.add (cr.scale (2 * (10000 - r)) 10000)
      let blue := y.add (cb.scale (2 * (10000 - b)) 10000)
      let green := ((y.sub (red.scale r 10000)).sub (blue.scale b 10000)).scale 10000 (10000 - r - b)
      let y' := ((red.scale r' 10000).add (blue.scale b' 10000)).add (green.scale (10000 - r' - b') 10000)
      let p := rangeOf f1
      let chroma := fun (a : Frac) (k : Nat) => clampTo 4095 (2048 + (((a.sub y').scale 10000 (2 * (10000 - k))).scale p.2.2 1).whole)
      (clampTo 4095 (p.1 + (y'.scale p.2.1 1).whole), chroma blue b', chroma red r')
    | _, _ =>
      let k := fun (n : Nat) => min 4095 (Config.convertOther [m0, b2n f0, m1, b2n f1, v.1, v.2.1, v.2.2] n)
      (k 0, k 1, k 2)

/-- A converted sample of a plane, from the three samples at its place. -/
def planeOf (pl : Nat) (v : Nat × Nat × Nat) : Nat := if pl = 0 then v.1 else if pl = 1 then v.2.1 else v.2.2

end Sys2Proof.Machine
end

