-- ==== Sys2Proof/Machine/Canvas.lean ====
section
/-!
DEFINITION. Canvases as configuration (chapter 10): layers, images, geometry, blend order and runs, scaler checks, the beacon's CRC, and the
buffers that a canvas holds; and the fetch of images at staging.
-/
namespace Sys2Proof.Machine
open Sys2Proof

/-! Layers (GX_LAYER_SET, 0x0701): a card of the canvas with the layer number; the image and slate words follow its 16 words. -/

def lyKind (b : List Word) : Nat := bf b 8 12 2
def lyPick (b : List Word) : Nat := bf b 8 16 2
def lySlateImage (b : List Word) : Bool := bit (bw b 8) 20
def lyHasAlpha (b : List Word) : Bool := bit (bw b 8) 21
def lySource (b : List Word) : Nat := bw b 12
def lyX (b : List Word) : Int := signed 16 (bf b 0x18 0 16)
def lyY (b : List Word) : Int := signed 16 (bf b 0x18 16 16)
def lyW (b : List Word) : Nat := bf b 0x1C 0 16
def lyH (b : List Word) : Nat := bf b 0x1C 16 16
def lyAlpha (b : List Word) : Nat := bf b 0x20 0 8
def lyRadius (b : List Word) : Nat := min (bf b 0x20 8 8) (min (lyW b) (lyH b) / 2)
def lyNomW (b : List Word) : Nat := bf b 0x2C 0 16
def lyNomH (b : List Word) : Nat := bf b 0x2C 16 16
def lyImgAddr (b : List Word) : Nat := bd b 0x30
def lySlateAddr (b : List Word) : Nat := bd b 0x38
/-- The layer's source kind has an image of its own. -/
def lyHasImage (b : List Word) : Bool := lyKind b == 2 || lyKind b == 3
/-- It is flattened into a daymark plane (R339). -/
def lyStatic (b : List Word) : Bool := lyKind b == 0 || lyKind b == 2

/-- Bytes of a host image (R341), and of a slate. -/
def imageBytes (w h : Nat) (alpha : Bool) : Nat := w * h * 3 / 2 + (if alpha then w * h else 0)
def slateBytes : Nat := imageBytes 320 180 false
def lyImageBytes (b : List Word) : Nat := if lyHasImage b then imageBytes (lyNomW b) (lyNomH b) (lyHasAlpha b) else 0
/-- Words of the layer's image and of its slate. -/
def lyImage (b : List Word) : List Word := (b.drop 16).take ((lyImageBytes b + 3) / 4)
def lySlate (b : List Word) : List Word := if lySlateImage b then b.drop (16 + (lyImageBytes b + 3) / 4) else []

/-- Layers of a canvas, rising. -/
def Cfg.layersOf (g : Cfg) (cv : Nat) : List (Nat × List Word) :=
  (g.cardsOf 0x0701).filterMap (fun e => if e.1 = mkKey tCanvas cv then some (e.2.1, e.2.2) else none)

/-- The canvas's order table (GX_ORDER_SET, 0x0702), bottom first. -/
def orderOf (b : List Word) : List Nat := (List.range (bf b 8 0 7)).map (fun k => bits (bw b (16 + k / 4 * 4)) (8 * (k % 4)) 8)
def Cfg.orderTable (g : Cfg) (cv : Nat) : List Nat := orderOf (g.card 0x0702 (mkKey tCanvas cv) 0)

/-- Layers in blend order, bottom first (R346), but for those wholly outside the canvas (R342). -/
def Cfg.blend (g : Cfg) (cv : Nat) : List (Nat × List Word) :=
  let c := g.body tCanvas cv
  let l := g.layersOf cv
  let o := if cvOrdered c then (g.orderTable cv).filterMap (fun k => l.find? (fun e => e.1 == k)) else l
  o.filter (fun e => decide (lyX e.2 < cvW c ∧ lyY e.2 < cvH c ∧ 0 < lyX e.2 + lyW e.2 ∧ 0 < lyY e.2 + lyH e.2))

/-! The beacon (GX_BEACON_SET, 0x0704): 8 command words, the expected CRC, and the image. -/

def Cfg.beacon (g : Cfg) (cv : Nat) : List Word := g.card 0x0704 (mkKey tCanvas cv) 0
def Cfg.hasBeacon (g : Cfg) (cv : Nat) : Bool := g.hasCard 0x0704 (mkKey tCanvas cv) 0
def bcX (b : List Word) : Nat := bf b 12 0 16
def bcY (b : List Word) : Nat := bf b 12 16 16
def bcW (b : List Word) : Nat := bf b 16 0 16
def bcH (b : List Word) : Nat := bf b 16 16 16
def bcAddr (b : List Word) : Nat := bd b 0x18
def bcCrc (b : List Word) : Nat := bw b 32
def bcImage (b : List Word) : List Word := b.drop 9
/-- Bytes of a mask row, and of the whole beacon image. -/
def maskRow (w : Nat) : Nat := (w / 2 + 7) / 8
def beaconBytes (w h : Nat) : Nat := w * h * 3 / 2 + maskRow w * (h / 2)

/-- Byte of an image. -/
def imageByte (l : List Word) (i : Nat) : Nat := bits (l.getD (i / 4) 0).toNat (8 * (i % 4)) 8

/-- The block at a place of the beacon is set. -/
def maskBit (img : List Word) (w h x y : Nat) : Bool := bit (imageByte img (w * h * 3 / 2 + y / 2 * maskRow w + x / 2 / 8)) (x / 2 % 8)

/-- One byte in the reflected CRC-32 of IEEE 802.3 (R359). -/
def crcByte (c : BitVec 32) (b : Nat) : BitVec 32 :=
  (List.range 8).foldl (fun c _ => if c.getLsbD 0 then (c >>> 1) ^^^ 0xEDB88320 else c >>> 1) (c ^^^ BitVec.ofNat 32 b)

/-- CRC-32 of bytes. -/
def crc32 (l : List Nat) : Nat := ((l.foldl crcByte 0xFFFFFFFF) ^^^ 0xFFFFFFFF).toNat

/-- Bytes of an image's sample as the output buffer holds it (R319, R341, R359): at 10 bits it is shifted left by 2. -/
def sampleBytes (ten : Bool) (v : Nat) : List Nat := (storedBytes ten (if ten then 4 * v else v)).map (·.toNat)

/-- Bytes that the CRC covers: luma samples of the set blocks, then their Cb and Cr pairs, in raster order. -/
def beaconData (img : List Word) (w h : Nat) (ten : Bool) : List Nat :=
  ((List.range h).flatMap (fun y => (List.range w).flatMap (fun x =>
    if maskBit img w h x y then sampleBytes ten (imageByte img (y * w + x)) else []))) ++
  ((List.range (h / 2)).flatMap (fun y => (List.range (w / 2)).flatMap (fun x =>
    if maskBit img w h (2 * x) (2 * y) then
      sampleBytes ten (imageByte img (w * h + y * w + 2 * x)) ++ sampleBytes ten (imageByte img (w * h + y * w + 2 * x + 1))
    else [])))

/-! Runs and planes (R352, R353). -/

/-- Runs of static layers in blend order: the lowest, which the canvas colour joins, and those above moving layers. -/
def runsOf : List (Nat × List Word) → List (List (Nat × List Word)) → List (List (Nat × List Word))
  | [], acc => acc
  | e :: l, acc =>
    if lyStatic e.2 then
      (match acc.reverse with
       | r :: rest => runsOf l ((rest.reverse) ++ [r ++ [e]])
       | [] => runsOf l [[e]])
    else runsOf l (acc ++ [[]])

/-- Runs of a canvas: the lowest first, even without a layer, and those above it that hold a layer. -/
def Cfg.runs (g : Cfg) (cv : Nat) : List (List (Nat × List Word)) :=
  match runsOf (g.blend cv) [[]] with
  | [] => [[]]
  | r :: l => r :: l.filter (fun x => !x.isEmpty)

/-- Destination clipRect to the canvas: x0, y0, x1, y1. -/
def clipRect (c : List Word) (b : List Word) : Nat × Nat × Nat × Nat :=
  ((max 0 (lyX b)).toNat, (max 0 (lyY b)).toNat, (min (cvW c : Int) (lyX b + lyW b)).toNat, (min (cvH c : Int) (lyY b + lyH b)).toNat)

/-- Area of a plane in pixels: the canvas, or the bounding box of its layers rounded out to 16 pixels. -/
def planeArea (c : List Word) (lowest : Bool) (r : List (Nat × List Word)) : Nat :=
  if lowest then cvW c * cvH c
  else
    let l := r.map (fun e => clipRect c e.2)
    let x0 := (l.map (fun q => q.1)).foldl min (cvW c) / 16 * 16
    let y0 := (l.map (fun q => q.2.1)).foldl min (cvH c) / 16 * 16
    let x1 := up16 ((l.map (fun q => q.2.2.1)).foldl max 0)
    let y1 := up16 ((l.map (fun q => q.2.2.2)).foldl max 0)
    (x1 - x0) * (y1 - y0)

/-- 2.5 bytes a pixel at 8 bits, 4 at 10 bits. -/
def planeBytes (ten : Bool) (area : Nat) : Nat := if ten then area * 4 else (area * 5 + 1) / 2

/-- Pool of a buffer in DRAM of a size. -/
def dramPool (n : Nat) : Nat := (fitPool [2, 3, 4, 5, 6, 7] n).getD 7

/-- A buffer that a canvas needs beside its output buffers: what it holds, its bytes, its pool, how many its reserve counts, and whether it is
the operator's. -/
structure CvBuf where
  holds : List Word
  bytes : Nat
  pool : Nat
  reserve : Nat
  operator : Bool
  deriving DecidableEq, Repr

/-- Settings of the canvas on which every plane depends. -/
def planeTag (c : List Word) : List Word := [wd (bw c 12), wd (bw c 16 / 2 ^ 8), wd (bw c 24)]

/-- Planes of a canvas, lowest first, by what they hold. -/
def Cfg.planes (g : Cfg) (cv : Nat) : List CvBuf :=
  let c := g.body tCanvas cv
  let rs := g.runs cv
  (List.range rs.length).map (fun k =>
    let r := rs.getD k []
    let n := planeBytes (cv10 c) (planeArea c (k == 0) r)
    { holds := 0 :: wd (b2n (k == 0)) :: planeTag c ++ r.flatMap (fun e => wd e.1 :: e.2), bytes := n, pool := dramPool n, reserve := 2, operator := false })

/-- Every buffer of a canvas's configuration: planes, slate planes, images with a spare for dynamic ones, the beacon, the hint ring. -/
def Cfg.cvBufs (g : Cfg) (cv : Nat) : List CvBuf :=
  let c := g.body tCanvas cv
  let ls := g.layersOf cv
  g.planes cv ++
    ls.filterMap (fun e => if lySlateImage e.2 then
      some { holds := 1 :: planeTag c ++ e.2.take 16 ++ lySlate e.2, bytes := planeBytes (cv10 c) (lyW e.2 * lyH e.2),
             pool := dramPool (planeBytes (cv10 c) (lyW e.2 * lyH e.2)), reserve := 2, operator := false } else none) ++
    ls.filterMap (fun e => if lyHasImage e.2 then
      some { holds := 2 :: wd e.1 :: lyImage e.2, bytes := lyImageBytes e.2, pool := dramPool (lyImageBytes e.2), reserve := 1, operator := false } else none) ++
    ls.filterMap (fun e => if lyKind e.2 = 3 then
      some { holds := [6, wd e.1], bytes := lyImageBytes e.2, pool := dramPool (lyImageBytes e.2), reserve := 1, operator := false } else none) ++
    ls.filterMap (fun e => if lySlateImage e.2 then
      some { holds := 3 :: wd e.1 :: lySlate e.2, bytes := slateBytes, pool := dramPool slateBytes, reserve := 1, operator := false } else none) ++
    (if g.hasBeacon cv then
      [{ holds := 4 :: g.beacon cv, bytes := beaconBytes (bcW (g.beacon cv)) (bcH (g.beacon cv)),
         pool := dramPool (beaconBytes (bcW (g.beacon cv)) (bcH (g.beacon cv))), reserve := 1, operator := true }] else []) ++
    (if (g.rendsOf cv).isEmpty then [] else (List.range (cvOutBufs c)).map (fun k => { holds := [5, wd k], bytes := 0, pool := 4, reserve := 1, operator := false }))

/-! Scalers (R347 to R349). -/

/-- A crop of a source size: width and height read, positions rounded down to even samples (R342). -/
def cropSize (b : List Word) (w h : Nat) : Nat × Nat :=
  let at_ := fun (k n : Nat) => k * n / 4096 / 2 * 2
  (at_ (bf b 0x10 16 13) w - at_ (bf b 0x10 0 13) w, at_ (bf b 0x14 16 13) h - at_ (bf b 0x14 0 13) h)

/-- Both ratios of a cropped source lie between 1/8 and 8. -/
def ratiosOk (b : List Word) (w h : Nat) : Bool :=
  decide (lyW b ≤ 8 * w ∧ w ≤ 8 * lyW b ∧ lyH b ≤ 8 * h ∧ h ≤ 8 * lyH b)

/-- Line units of a layer: N or 2N, N = 6 for a vertical ratio up to 2, else ceil(3v) (R347). -/
def lineUnits (b : List Word) (w h : Nat) : Nat :=
  let n := if h ≤ 2 * lyH b then 6 else (3 * h + lyH b - 1) / lyH b
  if w ≤ 2048 then n else 2 * n

/-- The layer meets R347. -/
def linesOk (b : List Word) (w h : Nat) : Bool := ratiosOk b w h && decide (w ≤ 4096 ∧ lineUnits b w h ≤ 12)

/-- Source size that a commit checks (R349): NOM or the context's maximum, the reduced copy with PICK 1, the image's own size. A fill
has none. -/
def Cfg.checkedSize (g : Cfg) (b : List Word) : Option (Nat × Nat) :=
  if lyKind b = 1 then
    let d := g.decode (idIndex (lySource b))
    let w := orDefault (lyNomW b) (dcW d)
    let h := orDefault (lyNomH b) (dcH d)
    some (if lyPick b = 1 ∧ dcReduced d ≠ 0 then (reducedSize w (dcReduced d), reducedSize h (dcReduced d)) else (w, h))
  else if lyHasImage b then some (lyNomW b, lyNomH b)
  else none

/-- The first layer that breaks R347: its number and its line units, 0 for a ratio outside 1/8 to 8. -/
def Cfg.layerBreak (g : Cfg) (cv : Nat) : Option (Nat × Nat) :=
  (g.layersOf cv).findSome? (fun e =>
    match g.checkedSize e.2 with
    | none => none
    | some (w, h) =>
      let q := cropSize e.2 w h
      if !ratiosOk e.2 q.1 q.2 then some (e.1, 0)
      else if 12 < lineUnits e.2 q.1 q.2 then some (e.1, lineUnits e.2 q.1 q.2) else none)

/-- Scaled layers that cover a row after clipping (R348). -/
def Cfg.rowCover (g : Cfg) (cv y : Nat) : Nat :=
  ((g.blend cv).filter (fun e => !lyStatic e.2 && decide (lyY e.2 ≤ y ∧ (y : Int) < lyY e.2 + lyH e.2))).length

/-- The highest cover of a row beyond 16, at the first such row. -/
def Cfg.rowBreak (g : Cfg) (cv : Nat) : Option Nat :=
  (List.range (cvH (g.body tCanvas cv))).findSome? (fun y => let n := g.rowCover cv y; if 16 < n then some n else none)

/-! Opacity (R355). -/

/-- First column and row that a crop reads of a source size (R342). -/
def cropOrigin (b : List Word) (w h : Nat) : Nat × Nat := (bf b 0x10 0 13 * w / 4096 / 2 * 2, bf b 0x14 0 13 * h / 4096 / 2 * 2)

/-- A scaled sample of a layer from a source plane of a cropped size: past an enlargement of 8 samples are repeated (R351). Planes 1 and 2 are
half as large. -/
def layerScaled (b : List Word) (f : Nat → Nat → Nat) (w h top pl u v : Nat) : Nat :=
  let k := if pl = 1 ∨ pl = 2 then 2 else 1
  let ww := min (lyW b) (8 * w)
  let hh := min (lyH b) (8 * h)
  scaled 0 1 f (w / k) (h / k) (ww / k) (hh / k) top (u * ww / lyW b) (v * hh / lyH b)

/-- Image alpha of a layer at a place of its destination, 255 without HAS_ALPHA: plane 3 of the image, scaled (R341, R343). -/
def imageAlpha (b : List Word) (img : List Word) (u v : Nat) : Nat :=
  if !(lyHasImage b && lyHasAlpha b) then 255
  else
    let w := lyNomW b
    let h := lyNomH b
    let o := cropOrigin b w h
    let q := cropSize b w h
    layerScaled b (fun x y => imageByte img (w * h * 3 / 2 + (o.2 + y) * w + o.1 + x)) q.1 q.2 255 3 u v

/-- A place lies in the square of one of the corners of a destination. -/
def cornerAt (b : List Word) (x y : Int) : Option (Nat × Nat) :=
  let r : Int := lyRadius b
  let fx : Int := x - lyX b
  let fy : Int := y - lyY b
  let cx := if fx < r then some (r - 1 - fx) else if (lyW b : Int) - r ≤ fx then some (fx - (lyW b - r)) else none
  let cy := if fy < r then some (r - 1 - fy) else if (lyH b : Int) - r ≤ fy then some (fy - (lyH b - r)) else none
  match cx, cy with
  | some a, some c => some (a.toNat, c.toNat)
  | _, _ => none

/-- Coverage of a corner mask in fifteenths, by the pixel's place from the centre of the circle (R344): 15 inside the circle, 0 outside it, a
free level where the circle cuts the pixel. -/
def cornerCover (r x y : Nat) : Nat :=
  if (x + 1) ^ 2 + (y + 1) ^ 2 ≤ r ^ 2 then 15 else if r ^ 2 ≤ x ^ 2 + y ^ 2 then 0 else Config.cornerLevel r x y % 16

/-- Coverage of a layer at a canvas pixel. -/
def coverAt (b : List Word) (x y : Int) : Nat := match cornerAt b x y with | some q => cornerCover (lyRadius b) q.1 q.2 | none => 15

/-- A static layer covers a pixel with full alpha. -/
def pixelFull (b : List Word) (x y : Nat) : Bool :=
  decide (lyX b ≤ x ∧ (x : Int) < lyX b + lyW b ∧ lyY b ≤ y ∧ (y : Int) < lyY b + lyH b) && lyAlpha b == 255 &&
    imageAlpha b (lyImage b) ((x : Int) - lyX b).toNat ((y : Int) - lyY b).toNat == 255 && coverAt b x y == 15

/-- Pixels of a 16×16 tile within the canvas. -/
def tilePixels (c : List Word) (tx ty : Nat) : List (Nat × Nat) :=
  (List.range 16).flatMap (fun j => (List.range 16).filterMap (fun i =>
    if 16 * tx + i < cvW c ∧ 16 * ty + j < cvH c then some (16 * tx + i, 16 * ty + j) else none))

/-- A run is opaque throughout a tile. -/
def runFull (r : List (Nat × List Word)) (px : List (Nat × Nat)) : Bool := px.all (fun p => r.any (fun e => pixelFull e.2 p.1 p.2))

/-- A moving layer is opaque throughout a tile: alpha 255, no image alpha, and no corner mask touching the tile. -/
def movingFull (b : List Word) (px : List (Nat × Nat)) : Bool :=
  lyAlpha b == 255 && !(lyHasImage b && lyHasAlpha b) &&
    px.all (fun p => decide (lyX b ≤ p.1 ∧ (p.1 : Int) < lyX b + lyW b ∧ lyY b ≤ p.2 ∧ (p.2 : Int) < lyY b + lyH b) && (cornerAt b p.1 p.2).isNone)

/-- The beacon's blocks are all set throughout a tile. -/
def beaconFull (b : List Word) (px : List (Nat × Nat)) : Bool :=
  px.all (fun p => decide (bcX b ≤ p.1 ∧ p.1 < bcX b + bcW b ∧ bcY b ≤ p.2 ∧ p.2 < bcY b + bcH b) &&
    maskBit (bcImage b) (bcW b) (bcH b) (p.1 - bcX b) (p.2 - bcY b))

/-- A layer reaches into a tile. -/
def touches (b : List Word) (px : List (Nat × Nat)) : Bool :=
  px.any (fun p => decide (lyX b ≤ p.1 ∧ (p.1 : Int) < lyX b + lyW b ∧ lyY b ≤ p.2 ∧ (p.2 : Int) < lyY b + lyH b))

/-- What stands at a place of the blend order: a run of static layers, or a moving layer. -/
inductive Stack where
  | run (n : Nat) (l : List (Nat × List Word))
  | moving (layer : Nat) (b : List Word)
  deriving DecidableEq, Repr

/-- The stack of a blend order from the bottom; `n` numbers the runs, `cur` is the run being gathered. -/
def stackOf : List (Nat × List Word) → Nat → List (Nat × List Word) → List Stack
  | [], n, cur => if n = 0 ∨ !cur.isEmpty then [.run n cur] else []
  | e :: l, n, cur =>
    if lyStatic e.2 then stackOf l n (cur ++ [e])
    else if n = 0 ∨ !cur.isEmpty then .run n cur :: .moving e.1 e.2 :: stackOf l (n + 1) []
    else .moving e.1 e.2 :: stackOf l n []

/-- An element is opaque throughout a tile; the lowest run is opaque everywhere. -/
def Stack.full (px : List (Nat × Nat)) : Stack → Bool
  | .run n l => n == 0 || runFull l px
  | .moving _ b => movingFull b px

/-- From the top of a stack down to the first element that is opaque in a tile, that one included: what can be seen there. -/
def seen (px : List (Nat × Nat)) : List Stack → List Stack
  | [] => []
  | e :: l => if e.full px then [e] else e :: seen px l

/-! Images at staging (R100, R341): they are fetched one after another, and their words are kept in the slot meanwhile. -/

/-- Fetches the wanted images (address and bytes) of a command, then goes on with all their words. An extension that came first is folded
into the slot's body, so that the fetch buffer is free. -/
def Ctx.withImages (x : Ctx) (wants : List (Nat × Nat)) (run : List Word → Chip → Chip) (c : Chip) : Chip :=
  let s := getSlot c x.k
  let size := fun (n : Nat) => (n + 3) / 4
  let got := s.work.map wd ++ (if s.ext then [] else match s.fetch with | .got d => d | _ => [])
  let rec next (l : List (Nat × Nat)) (n : Nat) : Option (Nat × Nat) :=
    match l with
    | [] => none
    | w :: t => if size w.2 ≤ n then next t (n - size w.2) else some w
  match next wants got.length with
  | none => run got c
  | some w =>
    startFetch x.k w.1 w.2 (modSlot x.k (fun s =>
      let keep := x.body.take 120
      let w1 := bits (s.word 1) 0 16 + 2 ^ 16 * (s.word 1 / 2 ^ 17 * 2)
      { s with taken := false, fetch := .idle, work := got.map (·.toNat),
               words := wordsPut (tput (tput s.words 1 (wd w1)) 2 (wd (s.session + 2 ^ 16 * (4 * keep.length)))) 8 keep }) c)

end Sys2Proof.Machine
end

