-- ==== Sys2Proof/Machine/Stage.lean ====
section
/-!
DEFINITION. Staging (R89 to R94, R110 to R116): identifiers and their reservation, what a command may name, and the staged command that
each card makes.
-/
namespace Sys2Proof.Machine
open Sys2Proof

/-! Identifiers (R89, R91, R113). Type 9 stands for decode contexts, which staging reserves like identifiers. -/

/-- Number of indexes of a type. -/
def typeCount (ty : Nat) : Nat :=
  match ty with
  | 1 => 65536 | 2 => 524288 | 3 => 262144 | 4 => 33554432 | 5 => 8192 | 6 => 4096 | 7 => 2048 | 8 => 1024 | 9 => 16384 | _ => 0

/-- The lowest number from `n` on that a rising list does not hold. -/
def lowestGap : List Nat → Nat → Nat
  | [], n => n
  | k :: l, n => if k = n then lowestGap l (n + 1) else lowestGap l n

/-- Configurations whose objects exist: the current epoch, the draining one (R38), the published one and the one being written. -/
def liveCfgs (c : Chip) : List Cfg :=
  [cfg c] ++ (if c.gx.draining = 0 then [] else [cfgAt c c.gx.draining]) ++ (if c.gx.published = 0 then [] else [cfgAt c c.gx.published]) ++
    (match c.gx.active with | some a => [a.next] | none => [])

/-- Indexes of a type that a configuration holds. -/
def Cfg.taken (g : Cfg) (ty : Nat) : List Nat :=
  if ty = 9 then (g.cardsOf 0x0600).map (fun e => dcContext e.2.2) else g.indexes ty

/-- Indexes of a type in use, by standby copies as well (R556), or reserved; rising. -/
def indexesUsed (c : Chip) (ty : Nat) : List Nat :=
  ((liveCfgs c).flatMap (fun g => g.taken ty) ++ (c.twin.map.filter (fun e => idType e.2 == ty)).map (fun e => idIndex e.2) ++
    (c.gx.reserved.filter (fun k => keyType k == ty)).map keyIndex).foldl linsert []

/-- Identifier that a new object of a type gets: the lowest free index with its next generation (R91). -/
def freshId (c : Chip) (ty : Nat) : Option Nat :=
  let n := lowestGap (indexesUsed c ty) 0
  if n < typeCount ty then some (mkId ty (tget 0 c.gx.gens (mkKey ty n) % 8) n) else none

def reserveId (id : Nat) (c : Chip) : Chip := { c with gx := { c.gx with reserved := linsert c.gx.reserved (idKey id) } }

/-- Reserve one identifier of each type of a list. -/
def reserveAll : List Nat → Chip → Option (List Nat × Chip)
  | [], c => some ([], c)
  | ty :: l, c =>
    match freshId c ty with
    | none => none
    | some id =>
      match reserveAll l (reserveId id c) with
      | none => none
      | some (ids, c1) => some (id :: ids, c1)

/-! What a command may name (R93, R94, R112). -/

/-- Created earlier in the same transaction. -/
def stagedId (txn : List Staged) (id : Nat) : Bool := txn.any (fun s => (s.create && s.obj == id) || s.more.contains id)

/-- The command may name the object: it exists in the current epoch and is visible, or was created earlier in the transaction. -/
def Ctx.sees (x : Ctx) (txn : List Staged) (c : Chip) (id ty : Nat) : Bool :=
  idType id == ty && ((x.names (cfg c) id).isSome || stagedId txn id)

/-- The source of an edge: besides, any source of a conference that the tenant owns (R94). -/
def Ctx.seesSource (x : Ctx) (txn : List Staged) (c : Chip) (id : Nat) : Bool :=
  x.sees txn c id tSource ||
    (idType id == tSource && (match (cfg c).obj id with | some o => (cfg c).keyOwner (idKey o.parent) == some x.fn | none => false))

def noObject (id : Nat) : Res := (Res.err 0x0008).withObj id 0

/-- What staging a command gives: its refusal, or the staged command. -/
abbrev Staging := Except Res (Staged × Chip)

/-- A body brought to a number of words. -/
def words (n : Nat) (b : List Word) : List Word := (b ++ List.replicate n 0).take n

/-- A staged command on an object that exists, with identifiers of further types reserved. -/
def Ctx.stageOn (x : Ctx) (id : Nat) (body : List Word) (types : List Nat) (c : Chip) : Staging :=
  match reserveAll types c with
  | none => .error (Res.err 0x000A)
  | some (ids, c1) => .ok ({ op := x.op, fn := x.fn, asOp := x.operator, obj := id, create := false, more := ids, body := body }, c1)

/-- A staged command that creates an object of a type. -/
def Ctx.stageNew (x : Ctx) (ty : Nat) (body : List Word) (types : List Nat) (c : Chip) : Staging :=
  match reserveAll (ty :: types) c with
  | some (id :: ids, c1) => .ok ({ op := x.op, fn := x.fn, asOp := x.operator, obj := id, create := true, more := ids, body := body }, c1)
  | _ => .error (Res.err 0x000A)

/-- A command whose OBJ is 0 to create under a parent of a type, or names an object to change. -/
def Ctx.stageSet (x : Ctx) (txn : List Staged) (ty parentTy : Nat) (body : List Word) (types : List Nat) (c : Chip) : Staging :=
  let id := bw body 0
  if id ≠ 0 then (if x.sees txn c id ty then x.stageOn id body types c else .error (noObject id))
  else if parentTy ≠ 0 ∧ !x.sees txn c (bw body 4) parentTy then .error (noObject (bw body 4))
  else x.stageNew ty body types c

/-- A command on an object of one of some types, which its first word names. -/
def Ctx.stageNamed (x : Ctx) (txn : List Staged) (tys : List Nat) (body : List Word) (types : List Nat) (c : Chip) : Staging :=
  let id := bw body 0
  if tys.any (fun ty => x.sees txn c id ty) then x.stageOn id body types c else .error (noObject id)

/-! What a card holds of a transaction so far: whether identifiers that a command makes exist already. -/

/-- The last staged command of an opcode on an object. -/
def lastStaged (txn : List Staged) (op id : Nat) : Option Staged := (txn.filter (fun s => s.op == op && s.obj == id)).getLast?

/-! Each transactional command. -/

/-- A body that ends before SPK_FLOOR or SPK_HOLD_MS takes their defaults, 8 and 1,000 ms (R221, R222; log 185). -/
def confWords (b : List Word) : List Word := words 3 b ++ [b.getD 3 8, b.getD 4 1000]

def stageConf (x : Ctx) (txn : List Staged) (c : Chip) : Staging := x.stageSet txn tConf 0 (confWords x.body) [] c

def stageSource (x : Ctx) (txn : List Staged) (c : Chip) : Staging :=
  let b := words 21 x.body
  let base := srcSimul b
  let fb := srcFeedback b
  if base ≠ 0 ∧ !x.sees txn c base tSource then .error (noObject base)
  else if fb ≠ 0 ∧ !x.sees txn c fb tLeg then .error (noObject fb)
  else x.stageSet txn tSource tConf b [] c

def stageLeg (x : Ctx) (txn : List Staged) (c : Chip) : Staging := x.stageSet txn tLeg tConf (words 18 x.body) [] c

/-- SELECT_SOURCE names a source by its index: one that the command may name, or one created earlier in the transaction (R93, R94, R112). -/
def stageSlot (x : Ctx) (txn : List Staged) (c : Chip) : Staging :=
  let b := words 8 x.body
  let sel := osSelect b
  let there := x.seesSource txn c ((cfg c).idAt tSource sel) || txn.any (fun s => (s.create && idKey s.obj == mkKey tSource sel) || s.more.any (fun m => idKey m == mkKey tSource sel))
  if osEnable b ∧ osKind b ≠ 1 ∧ !there then .error (noObject (bw b 0)) else x.stageNamed txn [tLeg] b [] c

def stageEdge (x : Ctx) (txn : List Staged) (c : Chip) : Staging :=
  let b := words 5 x.body
  let id := bw b 0
  if !x.sees txn c (bw b 4) tLeg then .error (noObject (bw b 4))
  else if !x.seesSource txn c (bw b 8) then .error (noObject (bw b 8))
  else if id = 0 then x.stageNew tEdge b [] c
  else if x.sees txn c id tEdge then x.stageOn id b [] c else .error (noObject id)

def stageShape (x : Ctx) (txn : List Staged) (c : Chip) : Staging := x.stageNamed txn [tLeg] (words 13 x.body) [] c
def stageCcfb (x : Ctx) (txn : List Staged) (c : Chip) : Staging := x.stageNamed txn [tSource] (words 3 x.body) [] c
def stageIce (x : Ctx) (txn : List Staged) (c : Chip) : Staging := x.stageNamed txn [tLeg] (words 36 x.body) [] c
/-- The staged copy holds the key wrapped (R191, GX_KEY_INSTALL). -/
def stageKey (x : Ctx) (txn : List Staged) (c : Chip) : Staging :=
  let b := words 28 x.body
  if idType (bw b 0) = tSource ∧ bit (bw b 4) 0 then .error (Res.field 4)
  else x.stageNamed txn [tLeg, tSource] (keyWrap (keyTableKey c.net.bootNonce) b) [] c

/-- An address, a quota or a requester setting names no object. -/
def stagePlain (n : Nat) (x : Ctx) (_ : List Staged) (c : Chip) : Staging := x.stageOn 0 (words n x.body) [] c

/-- A group with a master that has none so far makes its source (R278): the types of identifiers that a group's body needs. -/
def groupTypes (g : Cfg) (txn : List Staged) (b : List Word) : List Nat :=
  let id := bw b 0
  let had := match lastStaged txn 0x0500 id with | some s => mgMaster s.body | none => mgMaster (g.body tGroup (idIndex id))
  if mgMaster b && !(id != 0 && had) then [tSource] else []

def stageGroup (x : Ctx) (txn : List Staged) (c : Chip) : Staging :=
  let b := words 7 x.body
  x.stageSet txn tGroup tConf b (groupTypes (cfg c) txn b) c

/-- A leg whose output or event source does not exist so far makes it (R278). -/
def audioTypes (g : Cfg) (txn : List Staged) (b : List Word) : List Nat :=
  let was := match lastStaged txn 0x0501 (bw b 0) with | some s => (if bit (bw s.body 8) 0 then [] else s.body) | none => g.audio (idIndex (bw b 0))
  let on := !bit (bw b 8) 0 && auOut b
  (if on && !auOut was then [tSource] else []) ++ (if on && auDtmfPt b != 0 && !(auOut was && auDtmfPt was != 0) then [tSource] else [])

def stageAudio (x : Ctx) (txn : List Staged) (c : Chip) : Staging :=
  let b := words 11 x.body
  if !bit (bw b 8) 0 ∧ auIn b ∧ !x.sees txn c (bw b 12) tSource then .error (noObject (bw b 12))
  else if !bit (bw b 8) 0 ∧ auOut b ∧ !x.sees txn c (bw b 24) tGroup then .error (noObject (bw b 24))
  else
    x.stageNamed txn [tLeg] b (audioTypes (cfg c) txn b) c

def stageContrib (x : Ctx) (txn : List Staged) (c : Chip) : Staging :=
  let b := words 4 x.body
  if !x.sees txn c (bw b 0) tLeg then .error (noObject (bw b 0))
  else if !x.sees txn c (bw b 4) tGroup then .error (noObject (bw b 4))
  else x.stageOn (bw b 4) b [] c

def stageDetector (x : Ctx) (txn : List Staged) (c : Chip) : Staging := x.stageNamed txn [tLeg] (words 18 x.body) [] c

/-- A source without a context gets one. -/
def decodeTypes (g : Cfg) (txn : List Staged) (b : List Word) : List Nat :=
  let has := match lastStaged txn 0x0600 (bw b 0) with | some s => !bit (bw s.body 8) 0 | none => g.hasDecode (idIndex (bw b 0))
  if !bit (bw b 8) 0 && !has then [9] else []

def stageDecode (x : Ctx) (txn : List Staged) (c : Chip) : Staging :=
  let b := words 6 x.body
  x.stageNamed txn [tSource] b (decodeTypes (cfg c) txn b) c

def stageCanvas (x : Ctx) (txn : List Staged) (c : Chip) : Staging := x.stageSet txn tCanvas tConf (words 9 x.body) [] c

def stageLayer (x : Ctx) (txn : List Staged) (c : Chip) : Staging :=
  let src := lySource x.body
  if !bit (bw x.body 8) 8 ∧ lyKind x.body = 1 ∧ !x.sees txn c src tSource then .error (noObject src)
  else x.stageNamed txn [tCanvas] x.body [] c

def stageOrder (x : Ctx) (txn : List Staged) (c : Chip) : Staging := x.stageNamed txn [tCanvas] (words 20 x.body) [] c
def stageBeacon (x : Ctx) (txn : List Staged) (c : Chip) : Staging := x.stageNamed txn [tCanvas] x.body [] c

def stageRend (x : Ctx) (txn : List Staged) (c : Chip) : Staging :=
  let b := words 16 x.body
  let lead := rdLeader b
  if lead ≠ 0 ∧ !x.sees txn c lead tRend then .error (noObject lead)
  else x.stageSet txn tRend tCanvas b (if bw b 0 = 0 then [tSource] else []) c

def stageProgram (x : Ctx) (txn : List Staged) (c : Chip) : Staging := x.stageSet txn tProgram 0 x.body [] c

/-- Identifiers that a staged command on an existing object lacks, because another commit has removed since its staging what it was
to keep: they are reserved now. -/
def restageOne (done : List Staged) (s : Staged) (c : Chip) : Staged × Chip :=
  let types := match s.op with
    | 0x0500 => if s.create then [] else groupTypes (cfg c) done s.body
    | 0x0501 => audioTypes (cfg c) done s.body
    | 0x0600 => decodeTypes (cfg c) done s.body
    | _ => []
  match reserveAll (types.drop s.more.length) c with
  | some (ids, c1) => ({ s with more := s.more ++ ids }, c1)
  | none => (s, c)

def restageFrom : List Staged → List Staged → Chip → List Staged × Chip
  | done, [], c => (done, c)
  | done, s :: l, c => let r := restageOne done s c; restageFrom (done ++ [r.1]) l r.2

/-- The staged commands of a commit with every identifier they need. -/
def restage (l : List Staged) (c : Chip) : List Staged × Chip := restageFrom [] l c

def stageDestroy (x : Ctx) (txn : List Staged) (c : Chip) : Staging :=
  let id := bw x.body 0
  if (x.names (cfg c) id).isSome ∨ (id ≠ 0 ∧ stagedId txn id) then x.stageOn id (words 3 x.body) [] c else .error (noObject id)

end Sys2Proof.Machine
end

