-- ==== Sys2Proof/Machine/Apply.lean ====
section
/-!
DEFINITION. Step 1 of validation (R117): the staged commands applied one after another to the configuration of the current epoch, with
removal and its children (R90, R95, R278), versions (R92, R116), and the purge (R86).
-/
namespace Sys2Proof.Machine
open Sys2Proof

/-- A configuration being made. -/
structure Build where
  /-- the current epoch's configuration -/
  base : Cfg
  g : Cfg
  /-- the epoch being made -/
  epoch : Nat
  /-- the operator's function index -/
  opFn : Nat
  /-- keys of objects created or whose version has advanced -/
  changed : List Nat
  /-- keys of objects in the order in which commands first name them; type 10 a service address, 11 a requester's pool -/
  order : List Nat
  deriving DecidableEq, Repr

def Build.start (c : Chip) : Build :=
  { base := cfg c, g := cfg c, epoch := c.gx.current + 1, opFn := operatorFn c, changed := [], order := [] }

def Build.name (b : Build) (k : Nat) : Build := if b.order.contains k then b else { b with order := b.order ++ [k] }

/-- Version after a change: from 0xFFFF_FFFF to 1 (R92). -/
def nextVersion (v : Nat) : Nat := if v = 0xFFFFFFFF then 1 else v + 1

/-- The transaction changes an object: its version advances once (R92). -/
def Build.touch (b : Build) (k : Nat) : Build :=
  let b := b.name k
  if b.changed.contains k then b
  else { b with changed := k :: b.changed,
                g := { b.g with objs := b.g.objs.map (fun e => if e.1 = k then (e.1, { e.2 with version := nextVersion e.2.version }) else e) } }

def Cfg.putCard (g : Cfg) (op obj sub : Nat) (w : List Word) : Cfg := { g with cards := tput g.cards (cardKey op obj sub) w }
def Cfg.delCard (g : Cfg) (op obj sub : Nat) : Cfg := { g with cards := tdel g.cards (cardKey op obj sub) }
def Cfg.putBody (g : Cfg) (k : Nat) (w : List Word) : Cfg :=
  { g with objs := g.objs.map (fun e => if e.1 = k then (e.1, { e.2 with body := w }) else e) }

def Build.card (b : Build) (op obj sub : Nat) (w : List Word) : Build := { b with g := b.g.putCard op obj sub w }
def Build.uncard (b : Build) (op obj sub : Nat) : Build := { b with g := b.g.delCard op obj sub }

/-- A new object. -/
def Build.create (b : Build) (owner id parent : Nat) (w : List Word) : Build :=
  let o : Obj := { owner := owner, gen := idGen id, version := 1, parent := parent, epoch := b.epoch, body := w }
  { b.name (idKey id) with changed := idKey id :: b.changed, g := { b.g with objs := tput b.g.objs (idKey id) o } }

/-- Settings of an object replaced. -/
def Build.put (b : Build) (k : Nat) (w : List Word) : Build := let b := b.touch k; { b with g := b.g.putBody k w }

/-! Versions (R92). -/

/-- Cards of an object. -/
def Cfg.cardsAt (g : Cfg) (k : Nat) : List (Nat × List Word) := g.cards.filter (fun e => e.1 / 2 ^ 32 % 2 ^ 32 == k)

/-- An object of an old configuration that a new one holds with other settings or cards and the same version: it changed along with
something else, and its version advances too. -/
def Cfg.bump (old g : Cfg) : Cfg :=
  { g with objs := g.objs.map (fun e =>
      match tfind old.objs e.1 with
      | some o =>
        if o.gen = e.2.gen ∧ o.version = e.2.version ∧ (o.body ≠ e.2.body ∨ old.cardsAt e.1 ≠ g.cardsAt e.1) then
          (e.1, { e.2 with version := nextVersion e.2.version })
        else e
      | none => e) }

/-! Checks of step 1. -/

/-- An object that a command names is still present. -/
def Build.need (b : Build) (id : Nat) : Except Res Obj :=
  match b.g.obj id with
  | some o => .ok o
  | none => .error (noObject id)

/-- EXPECT_VERSION against the version in the current epoch (R116). -/
def Build.expect (b : Build) (id v : Nat) : Except Res Unit :=
  match b.base.obj id with
  | some o => if v ≠ 0 ∧ v ≠ o.version then .error ((Res.err 0x0106).withObj id o.version) else .ok ()
  | none => .ok ()

/-- A check that a chapter makes outright: its status for an object. -/
def Build.forbid (b : Build) (bad : Bool) (status id off : Nat) : Except Res Unit :=
  if bad then .error { (Res.err status).withObj id ((b.base.obj id).getD .none).version with errOffset := off } else .ok ()

/-- Word `i` of a body replaced. -/
def setWord (w : List Word) (i v : Nat) : List Word := (words (max (i + 1) w.length) w).set i (wd v)

/-! Removal. -/

/-- Sources made by a creator: 0 a rendition, 1 and 2 a leg, 3 a group. -/
def Cfg.made (g : Cfg) (make i : Nat) : List Nat :=
  (g.indexes tSource).filter (fun k => let b := g.body tSource k; srcInternal b && srcMake b == make && srcRend b == i)

def Cfg.dropObj (g : Cfg) (k : Nat) : Cfg :=
  { g with objs := tdel g.objs k, cards := g.cards.filter (fun e => decide (e.1 / 2 ^ 32 % 2 ^ 32 ≠ k)) }

/-- A source goes, and every edge that names it (R95). -/
def Cfg.dropSource (g : Cfg) (i : Nat) : Cfg := (g.edgesOf i).foldl (fun g e => g.dropObj (mkKey tEdge e)) (g.dropObj (mkKey tSource i))

/-- An object goes with what it made or what exists only for it. The contributions to a group stay: each refers to it (R279). -/
def Cfg.dropAny (g : Cfg) (k : Nat) : Cfg :=
  let i := keyIndex k
  match keyType k with
  | 2 => g.dropSource i
  | 3 =>
    let g1 := (g.made 1 i ++ g.made 2 i).foldl Cfg.dropSource g
    let g2 := { g1 with cards := g1.cards.filter (fun e => !(e.1 / 2 ^ 64 == 0x0502 && e.1 % 2 ^ 32 == i)),
                        objs := g1.objs.map (fun (e : Nat × Obj) => if keyType e.1 = tSource ∧ srcFeedback e.2.body ≠ 0 ∧ idKey (srcFeedback e.2.body) = k
                          then (e.1, { e.2 with body := setWord e.2.body 7 0 }) else e) : Cfg }
    g2.dropObj k
  | 5 =>
    let g1 := (g.made 3 i).foldl Cfg.dropSource g
    { g1.dropObj k with cards := g1.cards.filter (fun e => decide (e.1 / 2 ^ 32 % 2 ^ 32 ≠ k) || e.1 / 2 ^ 64 == 0x0502) }
  | 7 => ((g.made 0 i).foldl Cfg.dropSource g).dropObj k
  | _ => g.dropObj k

/-- Children of an object, those that hold others first. -/
def Cfg.children (g : Cfg) (k : Nat) : List (Nat × Obj) :=
  let l := g.objs.filter (fun e => decide (e.2.parent ≠ 0) && idKey e.2.parent == k)
  l.filter (fun e => keyType e.1 != tSource) ++ l.filter (fun e => keyType e.1 == tSource)

/-- Removal of an object under R95; none where children prevent it. `depth` bounds the levels of parents. -/
def Cfg.remove (fn opFn : Nat) (cascade : Bool) : Nat → Cfg → Nat → Option Cfg
  | 0, _, _ => none
  | depth + 1, g, k =>
    let kids := g.children k
    let beacon := keyType k == tCanvas && g.hasBeacon (keyIndex k)
    if (!kids.isEmpty || beacon) && !cascade then none
    else if beacon && fn != opFn then none
    else
      (kids.foldl (fun (acc : Option Cfg) e =>
        match acc with
        | none => none
        | some g => if !thas g.objs e.1 then some g else if e.2.owner = fn then Cfg.remove fn opFn cascade depth g e.1 else none) (some g)).map
        (fun g => g.dropAny k)

/-! The purge (R86). Engine programs and beacons stay (R87). -/

/-- Objects whose parent is gone. -/
def Cfg.orphans (g : Cfg) : List Nat := (g.objs.filter (fun e => decide (e.2.parent ≠ 0) && !thas g.objs (idKey e.2.parent))).map Prod.fst

/-- Contributions to a group that is gone go too. -/
def Cfg.dropLoose (g : Cfg) : Cfg := { g with cards := g.cards.filter (fun e => e.1 / 2 ^ 64 != 0x0502 || thas g.objs (e.1 / 2 ^ 32 % 2 ^ 32)) }

def Cfg.purge (g : Cfg) (fn : Nat) : Cfg :=
  let mine := (g.objs.filter (fun e => e.2.owner == fn && keyType e.1 != tProgram)).map Prod.fst
  let sweep := fun (g : Cfg) => g.orphans.foldl Cfg.dropAny g
  g.bump (sweep (sweep (sweep (mine.foldl (fun g k => if thas g.objs k then g.dropAny k else g) g)))).dropLoose

/-! Bodies that firmware makes. -/

/-- Body of the output source of a rendition (R368); what GX_SOURCE_SET may set is kept from the old one. -/
def outputBody (old b : List Word) (i : Nat) : List Word :=
  let w := words 23 []
  let w1 := setWord (setWord (setWord w 3 (rdCodec b)) 13 90000) 14 (rdExtDd b + 65536 * b2n (rdTwoByte b))
  let dt := Config.encDtMap (rdS b) (rdT b)
  let w2 := setWord (setWord w1 18 dt) 19 (dt / 2 ^ 32)
  setWord (setWord (setWord w2 15 (bf old 60 0 12)) 20 (bw old 80)) 22 (1 + 2 ^ 8 * i)

/-- Body of a mixed-audio, event or master source (R278, R282). -/
def audioBody (old : List Word) (s : EncSet) (make i : Nat) : List Word :=
  let w := setWord (setWord (words 23 []) 13 (if s.codec = 0 then 48000 else 8000)) 14 (2 ^ 8 * s.ext)
  setWord (setWord (setWord w 15 (bf old 60 0 12)) 20 (bw old 80)) 22 (1 + 2 * make + 2 ^ 8 * i)

/-- What GX_SOURCE_SET changes of an output source: RTX_DEPTH_MS and PLI_MIN_INTERVAL_MS. -/
def outputSettings (old w : List Word) : List Word := setWord (setWord old 15 (bf w 60 0 12)) 20 (bw w 80)

/-! Application of each command. -/

/-- An object of a conference that its parent word names. -/
def applySet (b : Build) (s : Staged) (verOff : Nat) (w : List Word) : Except Res Build := do
  if s.create then
    let p := bw s.body 4
    let _ ← b.need p
    return (b.name (idKey p)).create s.fn s.obj p w
  else
    let o ← b.need s.obj
    b.expect s.obj (bw s.body verOff)
    b.forbid (bw s.body 4 != 0 && bw s.body 4 != o.parent) 0x0007 s.obj 4
    return b.put (idKey s.obj) w

def applyConf (b : Build) (s : Staged) : Except Res Build := do
  if s.create then return b.create s.fn s.obj 0 s.body
  else
    let _ ← b.need s.obj
    b.expect s.obj (bw s.body 4)
    return b.put (idKey s.obj) s.body

def applySource (b : Build) (s : Staged) : Except Res Build := do
  let base := srcSimul s.body
  let fb := srcFeedback s.body
  if s.create then
    if base ≠ 0 then let _ ← b.need base
    if fb ≠ 0 then let _ ← b.need fb
    applySet b s 8 s.body
  else
    let o ← b.need s.obj
    b.forbid (srcKind s.body != srcKind o.body) 0x0306 s.obj 12
    if srcInternal o.body then applySet b s 8 (outputSettings o.body s.body)
    else
      b.forbid (base != srcSimul o.body) 0x0306 s.obj 0x30
      if fb ≠ 0 then let _ ← b.need fb
      applySet b s 8 s.body

def applySlot (b : Build) (s : Staged) : Except Res Build := do
  let o ← b.need s.obj
  b.expect s.obj (bw s.body 8)
  let sel := osSelect s.body
  let inConf := match b.g.at tSource sel with | some x => x.parent == o.parent | none => false
  b.forbid (osEnable s.body && osKind s.body != 1 && !inConf) 0x0008 s.obj noField
  return (b.touch (idKey s.obj)).card 0x0303 (idKey s.obj) (bf s.body 4 0 4) s.body

def applyEdge (b : Build) (s : Staged) : Except Res Build := do
  let leg := bw s.body 4
  let src := bw s.body 8
  let _ ← b.need leg
  let so ← b.need src
  let base := if srcSimul so.body = 0 then src else srcSimul so.body
  let w := setWord s.body 2 base
  let b1 := (b.name (idKey leg)).name (idKey base)
  if s.create then return b1.create s.fn s.obj leg w
  else
    let o ← b.need s.obj
    b.expect s.obj (bw s.body 12)
    b.forbid (bw o.body 4 != leg) 0x0007 s.obj 4
    b.forbid (bw o.body 8 != base) 0x0007 s.obj 8
    return b1.put (idKey s.obj) w

/-- A card of an object, whose version advances. -/
def applyCard (b : Build) (s : Staged) (op sub verOff : Nat) (remove : Bool) : Except Res Build := do
  let _ ← b.need s.obj
  b.expect s.obj (if verOff = noField then 0 else bw s.body verOff)
  let b1 := b.touch (idKey s.obj)
  return if remove then b1.uncard op (idKey s.obj) sub else b1.card op (idKey s.obj) sub s.body

def applyCcfb (b : Build) (s : Staged) : Except Res Build := do
  let o ← b.need s.obj
  b.forbid (srcFeedback o.body == 0) 0x0007 s.obj noField
  applyCard b s 0x0401 0 4 false

/-- Position of a key in its set: send, CURRENT, NEXT. -/
def keySub (w : List Word) : Nat := if bit (bw w 4) 0 then 0 else if bit (bw w 4) 1 then 2 else 1

def applyKey (b : Build) (s : Staged) : Except Res Build := do
  let _ ← b.need s.obj
  b.expect s.obj (bw s.body 12)
  let k := idKey s.obj
  let sub := keySub s.body
  let b1 := b.touch k
  let b2 := if bit (bw s.body 4) 2 then b1.uncard 0x0210 k sub else b1.card 0x0210 k sub (words 30 s.body ++ wd2 (4 * b.epoch + sub))
  return if sub ≠ 0 ∧ bit (bw s.body 0x34) 15 then b2.card 0x0210 k 3 [wd (bf s.body 0x34 0 14)] else b2

/-- A source of audio made, kept or removed: its identifier. -/
def Build.audioSource (b : Build) (fn parent old : Nat) (want : Bool) (fresh : Option Nat) (set : EncSet) (make i : Nat) : Except Res (Nat × Build) :=
  if !want then .ok (0, if old = 0 then b else { b with g := b.g.dropSource (idIndex old) })
  else if old ≠ 0 then
    .ok (old, { b with g := b.g.putBody (idKey old) (audioBody (b.g.body tSource (idIndex old)) set make i) })
  else
    match fresh with
    | some id => .ok (id, b.create fn id parent (audioBody [] set make i))
    | none => .error (Res.err 0x000A)

def applyGroup (b : Build) (s : Staged) : Except Res Build := do
  let old := if s.create then 0 else mgMasterSource (b.g.body tGroup (idIndex s.obj))
  let b1 ← applySet b s 8 (words 7 s.body)
  let o := (b1.g.obj s.obj).getD .none
  let r ← b1.audioSource o.owner o.parent old (mgMaster s.body) s.more.head? (mgEnc s.body) 3 (idIndex s.obj)
  return { r.2 with g := r.2.g.putBody (idKey s.obj) (words 7 s.body ++ [wd r.1]) }

def applyAudio (b : Build) (s : Staged) : Except Res Build := do
  let o ← b.need s.obj
  b.expect s.obj (bw s.body 4)
  let k := idKey s.obj
  let l := idIndex s.obj
  let was := b.g.audio l
  let gone := bit (bw s.body 8) 0
  if !gone ∧ auIn s.body then let _ ← b.need (bw s.body 12)
  if !gone ∧ auOut s.body then
    let grp ← b.need (bw s.body 24)
    b.forbid (grp.parent != o.parent) 0x0008 s.obj noField
  let b1 := b.touch k
  let out := !gone && auOut s.body
  let fresh2 := if auOutSource was = 0 then s.more.drop 1 else s.more
  let r1 ← b1.audioSource o.owner o.parent (auOutSource was) out s.more.head? (auEnc s.body) 1 l
  let r2 ← r1.2.audioSource o.owner o.parent (auEventSource was) (out && auDtmfPt s.body != 0) fresh2.head? (auEnc s.body) 2 l
  let b2 := r2.2
  if gone then
    return { b2 with g := { ((b2.g.delCard 0x0501 k 0).delCard 0x0503 k 0) with
      cards := (((b2.g.delCard 0x0501 k 0).delCard 0x0503 k 0).cards).filter (fun e => !(e.1 / 2 ^ 64 == 0x0502 && e.1 % 2 ^ 32 == l)) } }
  else return b2.card 0x0501 k 0 (words 11 s.body ++ [wd r1.1, wd r2.1])

def applyContrib (b : Build) (s : Staged) : Except Res Build := do
  let leg := bw s.body 0
  let _ ← b.need leg
  let _ ← b.need s.obj
  b.expect s.obj (bw s.body 8)
  let b1 := (b.name (idKey leg)).touch (idKey s.obj)
  return if bit (bw s.body 12) 0 then b1.uncard 0x0502 (idKey s.obj) (idIndex leg) else b1.card 0x0502 (idKey s.obj) (idIndex leg) s.body

def applyDecode (b : Build) (s : Staged) : Except Res Build := do
  let o ← b.need s.obj
  b.expect s.obj (bw s.body 4)
  let i := idIndex s.obj
  let k := srcKind o.body
  let b1 := b.touch (idKey s.obj)
  if bit (bw s.body 8) 0 then return b1.uncard 0x0600 (idKey s.obj) 0
  else
    b.forbid (dc10 s.body && (k == 2 || k == 3)) 0x0007 s.obj 8
    let ctx := if b.g.hasDecode i then some (dcContext (b.g.decode i)) else s.more.head?.map keyIndex
    match ctx with
    | some n => return b1.card 0x0600 (idKey s.obj) 0 (words 6 s.body ++ [wd n])
    | none => .error (Res.err 0x000A)

/-- Settings of a canvas that a beacon fixes for tenants (R358). -/
def beaconFixes (w : List Word) : Nat × Nat := (bw w 12, bw w 16 / 2 ^ 8 % 4 + 4 * bf w 16 16 8)

def applyCanvas (b : Build) (s : Staged) : Except Res Build := do
  if !s.create then
    let o ← b.need s.obj
    b.forbid (!s.asOp && b.g.hasBeacon (idIndex s.obj) && beaconFixes o.body != beaconFixes s.body) 0x0706 s.obj noField
  applySet b s 8 s.body

def applyLayer (b : Build) (s : Staged) : Except Res Build := do
  let _ ← b.need s.obj
  let l := bf s.body 8 0 6
  b.forbid (l == 63 && b.g.hasBeacon (idIndex s.obj)) 0x0706 s.obj 8
  if !bit (bw s.body 8) 8 ∧ lyKind s.body = 1 then let _ ← b.need (lySource s.body)
  applyCard b s 0x0701 l 4 (bit (bw s.body 8) 8)

def applyOrder (b : Build) (s : Staged) : Except Res Build := do
  let _ ← b.need s.obj
  b.forbid (!s.asOp && b.g.hasBeacon (idIndex s.obj) && (orderOf s.body).contains 63) 0x0706 s.obj noField
  applyCard b s 0x0702 0 4 false

def applyRend (b : Build) (s : Staged) : Except Res Build := do
  if rdLeader s.body ≠ 0 then let _ ← b.need (rdLeader s.body)
  let b1 ← applySet b s 8 s.body
  let i := idIndex s.obj
  let o := (b1.g.obj s.obj).getD .none
  let conf := ((b1.g.obj o.parent).getD .none).parent
  if s.create then
    match s.more.head? with
    | some id => return b1.create o.owner id conf (outputBody [] s.body i)
    | none => .error (Res.err 0x000A)
  else
    match b1.g.rendSource i with
    | some k => return { b1 with g := b1.g.putBody (mkKey tSource k) (outputBody (b1.g.body tSource k) s.body i) }
    | none => return b1

def applyProgram (b : Build) (s : Staged) : Except Res Build := do
  if s.create then return b.create s.fn s.obj 0 s.body
  else
    let _ ← b.need s.obj
    b.expect s.obj (bw s.body 4)
    return b.put (idKey s.obj) s.body

/-- Quotas of a function: one card for each kind (R96). -/
def applyQuota (b : Build) (s : Staged) : Except Res Build :=
  .ok ((List.range (bf s.body 4 0 16)).foldl (fun b j => b.card 0x0003 (bf s.body 0 0 8) (bw s.body (8 + 16 * j)) (wd2 (bd s.body (12 + 16 * j)))) b)

def applyAddr (b : Build) (s : Staged) : Except Res Build :=
  let i := bf s.body 0 0 12
  let b1 := b.name (mkKey 10 i)
  if bit (bw s.body 0) 16 then
    if b.g.hasCard 0x0202 0 i then .ok (b1.uncard 0x0202 0 i) else .error (noObject 0)
  else .ok (b1.card 0x0202 0 i s.body)

def applyRequester (b : Build) (s : Staged) : Except Res Build :=
  let k := useKey (bf s.body 0 0 12) (bf s.body 4 0 3)
  .ok ((b.name (mkKey 11 k)).card 0x0A01 0 k s.body)

/-- GX_OBJ_DESTROY (R90, R95): an output source goes only with what made it. -/
def applyDestroy (b : Build) (s : Staged) : Except Res Build := do
  let o ← b.need s.obj
  b.expect s.obj (bw s.body 8)
  b.forbid (idType s.obj == tSource && srcInternal o.body) 0x0007 s.obj 0
  match Cfg.remove s.fn b.opFn (bit (bw s.body 4) 0) 5 b.g (idKey s.obj) with
  | some g => return { b.name (idKey s.obj) with g := g }
  | none => .error ((Res.err 0x0109).withObj s.obj o.version)

/-- One staged command. -/
def applyOne (b : Build) (s : Staged) : Except Res Build :=
  match s.op with
  | 0x0003 => applyQuota b s
  | 0x0106 => applyDestroy b s
  | 0x0202 => applyAddr b s
  | 0x0203 => applyCard b s 0x0203 0 noField (bit (bw s.body 4) 0)
  | 0x0210 => applyKey b s
  | 0x0300 => applyConf b s
  | 0x0301 => applySource b s
  | 0x0302 => applySet b s 8 s.body
  | 0x0303 => applySlot b s
  | 0x0304 => applyEdge b s
  | 0x0400 => applyCard b s 0x0400 0 4 false
  | 0x0401 => applyCcfb b s
  | 0x0500 => applyGroup b s
  | 0x0501 => applyAudio b s
  | 0x0502 => applyContrib b s
  | 0x0503 => applyCard b s 0x0503 0 4 false
  | 0x0600 => applyDecode b s
  | 0x0700 => applyCanvas b s
  | 0x0701 => applyLayer b s
  | 0x0702 => applyOrder b s
  | 0x0704 => applyCard b s 0x0704 0 4 (bit (bw s.body 8) 0)
  | 0x0800 => applyRend b s
  | 0x0900 => applyProgram b s
  | 0x0A01 => applyRequester b s
  | _ => .ok b

/-- All of them in staging order; a failure names the command by its staged index (R117). -/
def applyFrom : Nat → Build → List Staged → Except Res Build
  | _, b, [] => .ok b
  | i, b, s :: l =>
    match applyOne b s with
    | .ok b1 => applyFrom (i + 1) b1 l
    | .error r => .error { r with errIndex := i }

def applyAll (b : Build) (l : List Staged) : Except Res Build := applyFrom 0 b l

end Sys2Proof.Machine
end

