-- ==== Sys2Proof/Machine/Audio.lean ====
section
/-!
DEFINITION. Audio processing and mixing (chapter 08): the grid and its moves, input blocks, selection, the fabric's sums,
output blocks, and the audio commands.
-/
namespace Sys2Proof.Machine
open Sys2Proof

/-! Access. -/

def getOut (c : Chip) (l : Nat) : AudOut := tget AudOut.zero c.aud.outs l
def modOut (l : Nat) (f : AudOut → AudOut) : Chip → Chip := modAud (fun a => { a with outs := tmod AudOut.zero a.outs l f })
def getMaster (c : Chip) (g : Nat) : AudOut := tget AudOut.zero c.aud.masters g
def modMaster (g : Nat) (f : AudOut → AudOut) : Chip → Chip := modAud (fun a => { a with masters := tmod AudOut.zero a.masters g f })
def getMix (c : Chip) (g : Nat) : MixRun := tget MixRun.zero c.aud.groups g
def modMix (g : Nat) (f : MixRun → MixRun) : Chip → Chip := modAud (fun a => { a with groups := tmod MixRun.zero a.groups g f })
def contribKey (l g : Nat) : Nat := l * 65536 + g
def getContrib (c : Chip) (l g : Nat) : Contrib := tget Contrib.zero c.aud.contribs (contribKey l g)
def putContrib (l g : Nat) (x : Contrib) : Chip → Chip := modAud (fun a => { a with contribs := tput a.contribs (contribKey l g) x })

/-- The block that the tasks and the fabric work on: the one that ended at the last block start. -/
def workBlock (c : Chip) : Int := c.aud.block - 1

/-! The grid and its moves (R272, R274, R275). -/

/-- AUD_GRID_MOVED with the shift in samples. -/
def gridMoved (cause : Nat) (shift : Int) : Chip → Chip := raise 29 0x506 none cause (unsigned 64 shift)

/-- A new origin: at once before the first block, otherwise under R274. `shift` is in samples, and `cause` 0 pin, 1 command,
2 time step. -/
def moveGrid (origin cause : Nat) (shift : Int) (c : Chip) : Chip :=
  if c.aud.begun then modAud (fun a => { a with newOrigin := some (origin, cause, shift) }) c
  else gridMoved cause shift (modAud (fun a => { a with origin := origin }) c)

/-- The origin that the next block takes, and the shift to it from the grid in force. -/
def nextGrid (c : Chip) : Nat × Int := match c.aud.newOrigin with | some (o, _, shift) => (o, shift) | none => (c.aud.origin, 0)

/-- Set O to a service time. -/
def setOrigin (origin cause : Nat) (c : Chip) : Chip :=
  let n := nextGrid c
  moveGrid origin cause (n.2 + ((origin : Int) - n.1) * 48000 / 1000000000) c

/-- Held packets, blocks and frames are renumbered at a move, so that no sample is lost or repeated; inputs take a new anchor from
their next packet (R274). -/
def renumber (d : Int) (a : Audio) : Audio :=
  let blk := fun (b : Block) => { b with num := b.num + d }
  let out := fun (x : AudOut) => { x with queue := x.queue.map blk, frameIdx := x.frameIdx + 480 * d }
  { a with
      ins := a.ins.map (fun e => (e.1, { e.2 with
        anchored := false, jb := e.2.jb.map (fun k => { k with play := k.play + 480 * d }), lastEnd := e.2.lastEnd + 480 * d,
        events := e.2.events.map (fun v => { v with from_ := v.from_ + 480 * d, to_ := v.to_ + 480 * d }), queue := e.2.queue.map blk,
        taken := e.2.taken.map (· + d), done := e.2.done.map (· + d) })),
      profiles := a.profiles.map (fun e => (e.1, { e.2 with swaps := e.2.swaps.map (fun s => (s.1 + 480 * d, s.2)) })),
      outs := a.outs.map (fun e => (e.1, out e.2)), masters := a.masters.map (fun e => (e.1, out e.2)),
      groups := a.groups.map (fun e => (e.1, { e.2 with selBlock := e.2.selBlock.map (· + d), mixed := e.2.mixed.map (· + d) })) }

/-- Release the tasks of a block: one for each input, group and output (R272; log 46). -/
def releaseAudio (c : Chip) : Chip :=
  let g := cfg c
  let task := fun (prog ty : Nat) (c : Chip) (i : Nat) => if fwPending c prog i then c else fwCreate prog 2 ((g.owner ty i).getD 0) i c
  let c1 := g.audioIns.foldl (task fwAudIn tLeg) c
  let c2 := (g.indexes tGroup).foldl (task fwMix tGroup) c1
  let c3 := g.audioOuts.foldl (task fwAudOut tLeg) c2
  g.masters.foldl (task fwMaster tGroup) c3

/-- `AUDIO_BLOCK_START` (R272, R274): the next block boundary of the grid. -/
def blockStart (c0 : Chip) : Chip :=
  let a := c0.aud
  if !domOn c0 11 then c0
  else
    let up := fun (o t : Nat) => ((t : Int) - o + 9999999) / 10000000
    match (if a.begun then a.newOrigin else none) with
    | some (o, cause, shift) =>
      let b := up o (a.lastStart + 10000000)
      let a1 := renumber (b - (a.block + 1)) a
      let a2 := { a1 with origin := o, newOrigin := none }
      let t := blockNs a2 b
      releaseAudio (gridMoved cause shift
        { waitSvc t c0 with aud := { a2 with block := b, lastStart := t } })
    | none =>
      let b := if a.begun then max (a.block + 1) (gridIndex a (svc c0) / 480) else up a.origin (svc c0)
      let t := blockNs a b
      releaseAudio { waitSvc t c0 with aud := { a with block := b, lastStart := t, begun := true } }

def execAudioBlockStart (s : State) : Host.Outcome State Fault Refusal := act s blockStart

/-- `AUDIO_SYNC_EDGE` (R275): a falling edge after `highNs` of high level. -/
def syncEdge (highNs : Nat) (c : Chip) : Chip :=
  let a := c.aud
  if a.syncPinEn ∧ 100 ≤ highNs ∧ (a.lastEdge = 0 ∨ a.lastEdge - 1 + 100000000 ≤ svc c) then
    setOrigin (svc c) 0 (modAud (fun a => { a with lastEdge := svc c + 1 }) c)
  else c

def execAudioSyncEdge (highNs : Nat) (s : State) : Host.Outcome State Fault Refusal := act s (syncEdge highNs)

/-! Input blocks (R283, R284, R286 to R292). -/

/-- Packets that decoding reaches before an index take their codec state in order of playout. -/
def decodeTo (codec : Nat) (end_ : Int) (x : AudIn) : AudIn :=
  let r := x.jb.foldl (fun (s : Nat × List JbPkt) k =>
    match k.dec with
    | some _ => (s.1, s.2 ++ [k])
    | none => if k.play < end_ then let n := Config.codecNext codec s.1 k.payload; (n, s.2 ++ [{ k with dec := some n }]) else (s.1, s.2 ++ [k]))
    (x.codec, [])
  { x with codec := r.1, jb := r.2 }

/-- What stands at a grid index: a decoded sample, a concealed one, or silence before playout has begun. -/
inductive Heard where
  | decoded (v : Int)
  | concealed (v : Int)
  | idle
  deriving DecidableEq, Repr

def Heard.value : Heard → Int
  | .decoded v => v
  | .concealed v => v
  | .idle => 0

/-- A decoded sample of a packet at a place: an Opus packet in stereo is reduced to (L + R) ÷ 2 (R271). -/
def decodedAt (codec rate : Nat) (k : JbPkt) (i : Nat) : Int :=
  let side := fun (s : Nat) => sat24 (Config.pcm codec rate (k.dec.getD 0) s i)
  if k.stereo then roundShift (side 0 + side 1) 1 else side 0

/-- The last pitch period of what was decoded, repeated and attenuated to silence over 60 ms (R283): the sample `i` places, and `t` samples
at 48 kHz, into the loss. -/
def repeated (codec : Nat) (past : List Int) (i t : Nat) : Int :=
  if past = [] ∨ 2880 ≤ t then 0
  else
    let p := Config.pitch codec past % past.length
    sat24 (roundShift (past.getD (p - i % (p + 1)) 0 * (Config.plcGain t % 32769 : Nat)) 15)

/-- The sample at a grid index (R283, R284). `r` is the number of 48 kHz samples of one at the decode rate, and `past` holds the samples decoded
before. Of Opus, the redundancy of a packet covers the packet just before it. -/
def sampleAt (codec rate r : Nat) (x : AudIn) (past : List Int) (n : Int) : Heard :=
  match x.jb.find? (fun k => decide (k.play ≤ n ∧ n < k.play + k.len)) with
  | some k => .decoded (decodedAt codec rate k ((n - k.play) / r).toNat)
  | none =>
    if x.events.any (fun e => decide (e.from_ ≤ n ∧ n < e.to_)) then .concealed 0
    else if !x.playing then .idle
    else
      let last := (x.jb.filter (fun k => decide (k.play + k.len ≤ n))).foldl (fun e k => max e (k.play + (k.len : Int))) x.lastEnd
      if codec ≠ 0 then .concealed (repeated codec past ((n - last) / r).toNat (n - last).toNat)
      else match x.jb.find? (fun k => decide (n < k.play ∧ k.play ≤ n + k.len)) with
        | some k => .concealed (sat24 (Config.fec k.payload (n + k.len - k.play).toNat))
        | none => .concealed (sat24 (Config.plc x.codec (n - last).toNat))

/-- The samples of a block from a grid index on, and the last 480 decoded samples after it, newest first. -/
def blockAt (codec rate r n : Nat) (x : AudIn) (base : Int) : List Heard × List Int :=
  (List.range n).foldl (fun (s : List Heard × List Int) i =>
    let v := sampleAt codec rate r x s.2 (base + r * i)
    (s.1 ++ [v], match v with | .decoded y => (y :: s.2).take 480 | _ => s.2)) ([], x.past)

/-- Shift playout by whole blocks. -/
def AudIn.shift (x : AudIn) (d : Int) : AudIn :=
  { x with anchorIdx := x.anchorIdx + d, jb := x.jb.map (fun k => { k with play := k.play + d }), lastEnd := x.lastEnd + d,
           events := x.events.map (fun e => { e with from_ := e.from_ + d, to_ := e.to_ + d }), delay := x.delay + d, wantSince := 0 }

/-- The decoded block at the decode rate: concealed, and with one block inserted or removed when the buffer moves (R283).
Answers the samples, the number concealed and the input after it. -/
def decodeBlock (b : List Word) (base : Int) (x0 : AudIn) : List Int × Nat × AudIn :=
  let codec := auInCodec b
  let n := rateSamples (auDecRate b)
  let r := 480 / n
  let x1 := { x0 with playing := x0.playing || x0.jb.any (fun k => decide (k.play < base + 480)) }
  let x := decodeTo codec (base + 960) x1
  let plain := blockAt codec (auDecRate b) r n x base
  let span := fun (o : Int) => (blockAt codec (auDecRate b) r n { x with past := plain.2 } (base + o)).1.map Heard.value
  let now := plain.1.map Heard.value
  let lost := (plain.1.filter (fun v => match v with | .concealed _ => true | _ => false)).length * r
  let target : Int := jbTarget b x.jitter16
  let calm := quiet (rmsOf now)
  let mix := fun (old new : List Int) => ((old.zip new).zip (List.range n)).map (fun p =>
    if p.2 < 240 / r then sat24 (Config.crossfade p.1.1 p.1.2 p.2) else p.1.2)
  let done := fun (x : AudIn) =>
    let old := x.jb.filter (fun k => decide (k.play + k.len ≤ base))
    { x with past := plain.2, jb := x.jb.filter (fun k => decide (base < k.play + k.len)), lastEnd := old.foldl (fun e k => max e (k.play + (k.len : Int))) x.lastEnd }
  if !x.playing ∨ (x.delay < target + 480 ∧ target < x.delay + 480) then (now, lost, done { x with wantSince := 0 })
  else if !calm ∧ x.wantSince < 200 then (now, lost, done { x with wantSince := x.wantSince + 1 })
  else if target + 480 ≤ x.delay then
    let next := span 480
    (if calm then next else mix now next, lost, (done x).shift (-480))
  else
    let back := span (-480)
    (if calm then now else mix now back, lost, (done x).shift 480)

/-- Detectors over a block, with the transitions: detector, on, grid index (R291). -/
def runDetectors (b det : List Word) (base : Int) (xs : List Int) (x : AudIn) : AudIn × List (Nat × Bool × Int) :=
  (List.range 8).foldl (fun (s : AudIn × List (Nat × Bool × Int)) d =>
    let set := detSetting b det d
    if set = [] then ({ s.1 with detectors := tdel s.1.detectors d }, s.2)
    else
      let d0 := tget Detector.zero s.1.detectors d
      let d1 := if d0.setting = set then d0 else { Detector.zero with setting := set }
      let r := xs.foldl (fun (q : Detector × Int × List (Nat × Bool × Int)) v =>
        let y := detSample q.1 v
        (y.1, q.2.1 + 1, match y.2 with | some on => q.2.2 ++ [(d, on, q.2.1)] | none => q.2.2)) (d1, base, [])
      ({ s.1 with detectors := tput s.1.detectors d r.1 }, s.2 ++ r.2.2)) (x, [])

/-- A block enters the queue to the fabric (R299, R483): 2 places, and the newest block is dropped when they are taken. A block
that comes when the fabric has taken its item already is discarded. -/
def pushIn (l : Nat) (k : Block) (c : Chip) : Chip :=
  let x := getIn c l
  if x.taken = some k.num then countAud l 4 1 c
  else if x.queue.length < 2 then modIn l (fun x => { x with queue := x.queue ++ [k] }) c
  else
    countAud l 5 1 (modIn l (fun x => { x with queue := (x.queue.take 1) ++ (x.queue.drop 1).map (fun q => { q with gaps := min 255 (q.gaps + 1) }) }) c)

/-- Settings whose change clears an input chain (R290): decode rate, codec, IN_SOURCE, profile. -/
def inChain (b : List Word) : List Nat := [auDecRate b, auInCodec b, bw b 12, auProfile b]

/-- A contribution's term is still heard: its ramps have not run out (R301). -/
def Contrib.heard (x : Contrib) : Bool := !(x.route.off || x.sel.off)

/-- The leg has a contribution, or one that is still heard. -/
def contributes (g : Cfg) (l : Nat) (c : Chip) : Bool :=
  !(g.groupsOf l).isEmpty || c.aud.contribs.any (fun e => e.1 / 65536 == l && e.2.heard)

/-- Deliver a block: to the fabric while the leg contributes to a group. -/
def deliverBlock (g : Cfg) (l : Nat) (k : Block) (c : Chip) : Chip := if contributes g l c then pushIn l k c else c

/-- Decode, convert, detect, meter and deliver the block that has just played out. -/
def inputBlock (g : Cfg) (l : Nat) (c : Chip) : Chip :=
  let b := g.audio l
  let blk := workBlock c
  let base := 480 * blk
  let x0 := getIn c l
  let fresh := x0.chain != inChain b
  let x1 := if fresh then { x0 with h1 := [], h2 := [], chain := inChain b } else x0
  let d := decodeBlock b base x1
  let ch := chainIn c (auProfile b) (auDecRate b) base x1.h1 x1.h2 d.1
  let det := runDetectors b (g.detCard l) base ch.out { d.2.2 with h1 := ch.h1, h2 := ch.h2, done := some blk }
  let digit := if auDtmfMode b then digitOf det.1.detectors else 0
  let x2 := { det.1 with muted := auSuppress b && det.1.digit != 0, digit := digit,
                         meter := det.1.meter.next (auHold b) (auDecay b) blk ch.out, meterPrev := det.1.meter }
  let own := g.owner tLeg l
  let id := g.idAt tLeg l
  let low := fun (n : Int) => 2 ^ 32 * unsigned 32 n
  let c1 := modIn l (fun _ => x2) c
  let c2 := det.2.foldl (fun c t => raise 29 0x502 own id (t.1 + 8 * b2n t.2.1 + low t.2.2) c) c1
  let c3 := if digit ≠ 0 ∧ digit ≠ det.1.digit then raise 29 0x503 own id (digit - 1 + low (base + 479)) c2 else c2
  let c4 := if d.2.1 = 0 then c3 else countAud l 9 d.2.1 c3
  let c5 := if ch.sat = 0 then c4 else countAud l 2 ch.sat c4
  deliverBlock g l { num := blk, marker := false, samples := ch.out, epoch := 0, gaps := 0, fresh := fresh } (countAud l 0 1 c5)

/-- `AUDIO_INPUT_BLOCK` (R35, R286): the leg's input task runs under the epoch of its start. An input sample read with poison ends it with error and makes the block a
gap marker (R299). -/
def inputRow (l : Nat) (poison : Bool) (c : Chip) : Chip :=
  match fwRunning c fwAudIn l with
  | none => c
  | some slot =>
    let g := cfgAt c (getTask c slot).epoch
    let blk := workBlock c
    if !auIn (g.audio l) ∨ (getIn c l).done = some blk then fwFinish slot c
    else if !sameObj c g tLeg l then fwFinish slot (staleWrite c)
    else if poison then
      endTask slot (unitDone slot 0x8001 0 false false (leaveEngine slot
        (deliverBlock g l { num := blk, marker := true, samples := [], epoch := 0, gaps := 0, fresh := false }
          (countAud l 11 1 (modIn l (fun x => { x with done := some blk }) c)))))
    else fwFinish slot (inputBlock g l c)

def execAudioInputBlock (leg : Nat) (poison : Bool) (s : State) : Host.Outcome State Fault Refusal := act s (inputRow leg poison)

/-! What the fabric and the output tasks take from a queue (R299, R483, R484). -/

/-- The previous block faded to silence over its length; the slope's rounding is that of a ramp (log 60). -/
def faded (prev : List Int) : List Int :=
  let r : Ramp := { start := 0x8000, goal := 0, len := 480, pos := 0 }
  (prev.zip (List.range 480)).map (fun p => roundShift (p.1 * r.value p.2) 15)

/-- Take the next item: the samples (none for the idle item), whether its chain is fresh, its epoch, and the queue, the gaps still to be
played and the previous block after it. -/
def takeItem (q : List Block) (gapLeft : Nat) (prev : List Int) : Option (List Int) × Option Block × List Block × Nat × List Int :=
  if 0 < gapLeft then let f := faded prev; (some f, none, q, gapLeft - 1, f)
  else
    match q with
    | [] => (none, none, [], 0, prev)
    | k :: rest => if k.marker then let f := faded prev; (some f, some k, rest, k.gaps, f) else (some k.samples, some k, rest, k.gaps, k.samples)

/-- The fabric takes an input's item for a block, once for all groups. A block that reaches it with poison counts as idle. -/
def takeInput (g : Cfg) (l : Nat) (blk : Int) (bad : Bool) (c : Chip) : Chip :=
  let x := getIn c l
  if x.taken = some blk then c
  else
    let t := takeItem x.queue x.gapLeft x.prev
    let c1 := modIn l (fun x => { x with taken := some blk, item := if bad then none else t.1,
                                         itemFresh := match t.2.1 with | some k => k.fresh | none => false,
                                         queue := t.2.2.1, gapLeft := t.2.2.2.1, prev := t.2.2.2.2 }) c
    if bad then countAud l 11 1 c1
    else if t.1.isNone then
      raiseRated 29 0x507 (g.owner tLeg l) (g.idAt tLeg l) (fun n => n) 1 (countAud l 4 1 c1)
    else c1

/-! Selection (R293, R294). -/

/-- Contributors of a group, with level and gain card, for the block whose items the inputs hold at their queue's head or have given.
Level: RMS of the input block before IN_GAIN; below every floor for an idle item. -/
def levelOf (c : Chip) (l : Nat) (blk : Int) : Option Nat :=
  let x := getIn c l
  let s := if x.taken = some blk then x.item else (takeItem x.queue x.gapLeft x.prev).1
  s.map rmsOf

/-- The contributors that a group sums: ALWAYS first, then the loudest, equal levels to the lower leg (R293). -/
def selectFor (g : Cfg) (c : Chip) (grp : Nat) (blk : Int) : List Nat :=
  let b := g.body tGroup grp
  let cs := g.contribs grp
  let always := (cs.filter (fun e => mcAlways e.2)).map Prod.fst
  let rest := (cs.filter (fun e => !mcAlways e.2)).filterMap (fun e =>
    (levelOf c e.1 blk).map (fun v => ((v : Int) - (if (getContrib c e.1 grp).selected then 256 * (mgBiasDb b : Int) else 0), e.1)))
  let loud := rest.filter (fun (e : Int × Nat) => decide (e.1 ≤ 256 * (mgFloor b : Int)))
  let order := sortBy (fun (a b : Int × Nat) => decide (a.1 < b.1 ∨ (a.1 = b.1 ∧ a.2 ≤ b.2))) loud
  let k := mgTopK b
  ((always.take k) ++ (order.take (k - always.length)).map Prod.snd).foldl linsert []

/-- The choice for a block under a configuration. -/
def chooseMix (g : Cfg) (grp : Nat) (blk : Int) (c : Chip) : Chip :=
  modMix grp (fun m => { m with chosen := selectFor g c grp blk, selBlock := some blk, selEpoch := g.epoch }) c

/-- `MIX_SELECT` (R293): the group's selection task runs. -/
def mixSelect (grp : Nat) (c : Chip) : Chip :=
  match fwRunning c fwMix grp with
  | none => c
  | some slot =>
    let g := cfg c
    let blk := workBlock c
    if !g.has tGroup grp then fwFinish slot c
    else fwFinish slot (chooseMix g grp blk c)

def execMixSelect (group : Nat) (s : State) : Host.Outcome State Fault Refusal := act s (mixSelect group)

/-! The fabric (R294 to R299, R301). -/

/-- The Q1.15 product of a gain and two ramps; how an inexact product is rounded, the manual leaves open (log 60). -/
def gainProduct (a b d : Nat) : Nat :=
  let p := a * b * d
  p / 2 ^ 30 + (if p % 2 ^ 30 = 0 then 0 else Config.gainPick a b d % 2)

/-- Ramps of a contribution for a block: selection over one block, route and gain over XFADE. -/
def contribFor (g : Cfg) (grp l : Nat) (chosen : List Nat) (c : Chip) : Contrib :=
  let x := getContrib c l grp
  let b := g.audio l
  let inp := getIn c l
  let card := (g.contribs grp).find? (fun e => e.1 == l)
  let xf := mgXfade (g.body tGroup grp)
  let sel := card.isSome && chosen.contains l
  let live := card.isSome && auIn b && !inp.muted
  let r0 := if live && inp.itemFresh then { x.route with start := 0, goal := 0, len := 0, pos := 0 } else x.route
  let fall := if auIn b then xf else min xf (480 * (inp.queue.length + b2n inp.item.isSome))
  { selected := if card.isSome then sel else x.selected,
    sel := if card.isSome then x.sel.toward (if sel then 0x8000 else 0) 480 else x.sel,
    route := if live then r0.toward 0x8000 xf else r0.toward 0 fall,
    gain := match card with
      | some e => if x.route.off ∧ x.sel.off then .at_ (mcGain e.2) else x.gain.toward (mcGain e.2) xf
      | none => x.gain }

/-- The term of a contribution: each sample times the gain, rounded (R295). An idle item gives zeros. -/
def termOf (x : Contrib) (item : Option (List Int)) : List Int :=
  match item with
  | none => silence
  | some xs => (xs.zip (List.range 480)).map (fun p =>
      roundShift (p.1 * gainProduct (x.gain.value p.2) (x.sel.value p.2) (x.route.value p.2)) 15)

/-- Sample by sample, in 40 bits (R295, R296). -/
def addSamples (a b : List Int) : List Int := (a.zip b).map (fun p => wrap40 (p.1 + p.2))
def subSamples (a b : List Int) : List Int := (a.zip b).map (fun p => wrap40 (p.1 - p.2))

/-- Saturate a block, with the number of samples that were clipped. -/
def clip (l : List Int) : List Int × Nat := (l.map sat24, (l.filter (fun v => sat24 v != v)).length)

/-- Count clipping of a block and report it at most once a second (R298). -/
def clipped (isMaster : Bool) (i : Nat) (own : Option Nat) (id n : Nat) (c : Chip) : Chip :=
  if n = 0 then c
  else
    let count := if isMaster then countMaster else countAud
    raiseRated 29 0x501 own id (fun k => k) n (count i 3 1 (count i 2 n c))

/-- A block enters the queue to an output task. -/
def pushOut (count : Chip → Chip) (modify : (AudOut → AudOut) → Chip → Chip) (q : List Block) (k : Block) (c : Chip) : Chip :=
  if q.length < 2 then modify (fun x => { x with queue := x.queue ++ [k] }) c
  else count (modify (fun x =>
    { x with queue := x.queue.take 1 ++ (x.queue.drop 1).map (fun b => { b with gaps := min 255 (b.gaps + 1) }) }) c)

/-- One listener's block: minus-self, gain, tones, saturation, meter, hand-off (R296, R298, R300, R301). -/
def listenerBlock (g : Cfg) (grp l : Nat) (blk : Int) (m : List Int) (terms : List (Nat × List Int)) (c : Chip) : Chip :=
  let b := g.audio l
  let xf := mgXfade (g.body tGroup grp)
  let x0 := getOut c l
  let x := if x0.group = grp + 1 then { x0 with gain := x0.gain.toward (auGain b) xf }
    else { x0 with group := grp + 1, gain := .at_ (auGain b), fade := { start := 0, goal := 0x8000, len := xf, pos := 0 } }
  let y := match terms.find? (fun t => t.1 == l) with | some t => subSamples m t.2 | none => m
  let tone := fun (n : Nat) => match x.dtmf with
    | some d => if d.inband ∧ d.mixed < d.blocks then toneSample d.event d.volume (480 * d.mixed + n) else 0
    | none => 0
  let z := (y.zip (List.range 480)).map (fun p =>
    roundShift (roundShift (p.1 * x.fade.value p.2) 15 * x.gain.value p.2) 13 + tone p.2)
  let s := clip z
  let x1 := { x with gain := x.gain.after 480, fade := x.fade.after 480, meter := x.meter.next (auHold b) (auDecay b) blk s.1,
                     dtmf := x.dtmf.map (fun d => { d with mixed := d.mixed + 1 }) }
  pushOut (countAud l 6 1) (modOut l) x1.queue
    { num := blk, marker := false, samples := s.1, epoch := g.epoch, gaps := 0, fresh := false }
    (clipped false l (g.owner tLeg l) (g.idAt tLeg l) s.2 (modOut l (fun _ => x1) c))

/-- The master output of a group: M at a gain of 1.0 (R297, R298). -/
def masterBlock (g : Cfg) (grp : Nat) (blk : Int) (m : List Int) (c : Chip) : Chip :=
  let s := clip m
  let x := getMaster c grp
  let x1 := { x with meter := x.meter.next 0 51 blk s.1 }
  pushOut (countMaster grp 6 1) (modMaster grp) x1.queue
    { num := blk, marker := false, samples := s.1, epoch := g.epoch, gaps := 0, fresh := false }
    (clipped true grp (g.owner tGroup grp) (g.idAt tGroup grp) s.2 (modMaster grp (fun _ => x1) c))

/-- Legs with a term in a group: its contributors, and those whose ramp still runs out (R301). -/
def termLegs (g : Cfg) (c : Chip) (grp : Nat) : List Nat :=
  (c.aud.contribs.filterMap (fun e => if e.1 % 65536 = grp then some (e.1 / 65536) else none)).foldl linsert ((g.contribs grp).map Prod.fst)

/-- A leg that no longer contributes anywhere leaves nothing in its queue to the fabric. -/
def endInput (g : Cfg) (l : Nat) (c : Chip) : Chip := if contributes g l c then c else modIn l (fun x => { x with queue := [], gapLeft := 0 }) c

/-- `MIX_BLOCK` (R295 to R299, R302): the epoch of the mixing alone decides; a choice made under another is made again. `bad` names the legs whose
block reaches the fabric with poison. -/
def mixBlock (grp : Nat) (bad : List Nat) (c : Chip) : Chip :=
  let g := cfg c
  let blk := workBlock c
  if !c.aud.begun ∨ !domOn c 11 ∨ !g.has tGroup grp ∨ (getMix c grp).mixed = some blk ∨ stopped c g tGroup grp then c
  else
    let legs := termLegs g c grp
    let c0 := legs.foldl (fun c l => takeInput g l blk (bad.contains l) c) c
    let c1 := if (getMix c0 grp).selEpoch = g.epoch then c0 else chooseMix g grp blk c0
    let chosen := (getMix c1 grp).chosen
    let xs := legs.map (fun l => (l, contribFor g grp l chosen c1))
    let summed := xs.filter (fun e => e.2.heard)
    let terms := summed.map (fun e => (e.1, termOf e.2 (getIn c1 e.1).item))
    let m := terms.foldl (fun a t => addSamples a t.2) silence
    let c2 := xs.foldl (fun c e =>
      let x := { e.2 with sel := e.2.sel.after 480, route := e.2.route.after 480, gain := e.2.gain.after 480 }
      if (g.contribs grp).any (fun k => k.1 == e.1) || x.heard then putContrib e.1 grp x c
      else endInput g e.1 (modAud (fun a => { a with contribs := tdel a.contribs (contribKey e.1 grp) }) c)) c1
    let c3 := (g.listeners grp).foldl (fun c l => listenerBlock g grp l blk m terms c) c2
    let c4 := if mgMaster (g.body tGroup grp) then masterBlock g grp blk m c3 else c3
    modMix grp (fun x => { x with mixed := some blk }) c4

def execMixBlock (group : Nat) (bad : List Nat) (s : State) : Host.Outcome State Fault Refusal := act s (mixBlock group bad)

/-! Output blocks (R281, R282, R285, R303). -/

/-- Bytes of a coded frame (R280, R281): 8 per ms for G.711 and G.722. -/
def frameBytesOf (e : EncSet) (state : Nat) : Nat := if e.codec = 0 then Config.opusBytes e.coder e.ms state % 1276 else 8 * e.ms

/-- A packet of an output source enters the forwarder at replication with a launch time (R30, R263, R282). `ext` is the ID of its RFC 6464
extension, 0 for none. -/
def sendAudio (g : Cfg) (source seq ts : Nat) (marker : Bool) (bytes ext payload : Nat) (level : Nat) (vad : Bool) (launch : Nat)
    (c : Chip) : Chip :=
  let i := idIndex source
  let hdr := if ext = 0 then 12 else 20
  if !g.has tSource i then c
  else
    let r := alloc (identity ((g.owner tSource i).getD 0) 6) (bytes + hdr) 2 c
    if r.1 ≠ 0 then r.2.2
    else
      admitPkt g (g.srcPipe i)
        { source := i, desc := descWord 0 0 false false false marker level vad 0 i, seq := seq, ts := ts, pt := 0, marker := marker,
          bytes := bytes, hdrBytes := hdr, b0 := if ext = 0 then 0x80 else 0x90,
          tail := if ext = 0 then 0 else ((0xBEDE0001 * 256 + ext * 16) * 256 + (128 * b2n vad + level)) * 65536,
          frameBytes := bytes + hdr, cacheRef := 0, pid := 0, pidBits := 0, tl0 := 0, hasTl0 := false, stampNs := svc r.2.2,
          payload := payload, buf := r.2.1, epoch := 0, walk := [], late := false, launchNs := launch } r.2.2

/-- Level of samples in −dBov, at most 127: its rounding to whole dB is open (log 60). -/
def dbov (xs : List Int) (free : Nat) : Nat :=
  let v := rmsOf xs
  min 127 (v / 256 + (if v % 256 = 0 then 0 else free % 2))

/-- What an output task needs of its leg or group. -/
structure OutWay where
  set : EncSet
  source : Nat
  event : Nat
  profile : Nat
  own : Option Nat
  deriving DecidableEq, Repr

def outWay (g : Cfg) (isMaster : Bool) (i : Nat) : OutWay :=
  if isMaster then
    let b := g.body tGroup i
    { set := mgEnc b, source := mgMasterSource b, event := 0, profile := 0, own := g.owner tGroup i }
  else
    let b := g.audio i
    { set := auEnc b, source := auOutSource b, event := auEventSource b, profile := auProfile b, own := g.owner tLeg i }

/-- The random bases of a new output: timestamp and sequence numbers (R282; log 2). -/
def AudOut.begin_ (x : AudOut) (c : Chip) : AudOut × Chip :=
  if x.begun then (x, c)
  else
    let a := draw c
    let b := draw a.2
    let d := draw b.2
    ({ x with begun := true, ts := a.1 % 2 ^ 32, seq := b.1 % 65536, evSeq := d.1 % 65536 }, d.2)

/-- RFC 4733 packets of one block of an event that is being played (R285). -/
def eventPackets (g : Cfg) (w : OutWay) (x : AudOut) (launch : Nat) (c : Chip) : AudOut × Chip :=
  match x.dtmf with
  | none => (x, c)
  | some d =>
    if d.mixed ≤ d.sent then (x, c)
    else
      let clock := codecClock w.set.codec
      let n := d.sent
      let d1 := { d with sent := n + 1, ts := if n = 0 then x.ts + x.frame48.length * clock / 48000 else d.ts }
      let dur := (n + 1) * clock / 100
      let pk := fun (end_ first : Bool) (x : AudOut) (c : Chip) =>
        (({ x with evSeq := (x.evSeq + 1) % 65536 } : AudOut),
         sendAudio g w.event x.evSeq (d1.ts % 2 ^ 32) first 4 0
           (d.event * 2 ^ 24 + b2n end_ * 2 ^ 23 + d.volume * 2 ^ 16 + dur % 65536) 127 false launch c)
      let last := decide (d.blocks ≤ n + 1)
      let y := { x with dtmf := if last then none else some d1 }
      if w.event = 0 then (y, c)
      else if last then
        let a := if n = 0 then pk false true y c else (y, c)
        let b := pk true false a.1 a.2
        let e := pk true false b.1 b.2
        pk true false e.1 e.2
      else if n = 0 then pk false true y c
      else if n % 5 = 0 then pk false false y c
      else (y, c)

/-- A frame is complete: code it and send its packet (R281, R282). -/
def sendFrame (g : Cfg) (w : OutWay) (x : AudOut) (c : Chip) : AudOut × Chip :=
  let e := w.set
  let d := draw c
  let level := dbov x.frame48 d.1
  let v := rmsOf x.frame48
  let still := e.dtx && (v == 0xFFFF || Config.opusSilent v)
  let len := x.frame48.length
  let skip := still && x.dtx != 0 && decide (x.dtx + len ≤ 19200)
  let bytes := frameBytesOf e x.codec
  let launch := gridNs c.aud (x.frameIdx + 840 + 48 * e.ms)
  let y := { x with frame := [], frame48 := [], codec := Config.encNext e.coder x.codec x.frame,
                    ts := (x.ts + e.ms * codecClock e.codec / 1000) % 2 ^ 32, seq := if skip then x.seq else (x.seq + 1) % 65536,
                    dtx := if !still then 0 else if skip then x.dtx + len else len }
  if skip then (y, d.2)
  else
    (y, sendAudio g w.source x.seq x.ts false bytes e.ext (Config.encoded e.coder x.codec x.frame)
      (if e.ext = 0 then 127 else level) (e.ext != 0 && decide (v < 15360)) launch d.2)

/-- An output's state after a block of a configuration: of an object that the current epoch has no longer, the queue alone moves on, and the
write is discarded and counted (R37). -/
def putOutput (g : Cfg) (isMaster : Bool) (i : Nat) (x : AudOut) (c : Chip) : Chip :=
  let put := if isMaster then modMaster i else modOut i
  if sameObj c g (if isMaster then tGroup else tLeg) i then put (fun _ => x) c
  else staleWrite (put (fun y => { y with queue := x.queue, gapLeft := x.gapLeft }) c)

/-- One block through an output task: queue, chain, frame, packets. The first block of a changed chain fades in from silence (R290, R301). -/
def outputBlock (isMaster : Bool) (i : Nat) (c : Chip) : Chip :=
  let x0 := if isMaster then getMaster c i else getOut c i
  let t := takeItem x0.queue x0.gapLeft x0.prev
  let g := match t.2.1 with | some k => cfgAt c k.epoch | none => cfg c
  let w := outWay g isMaster i
  let num := match t.2.1 with | some k => k.num | none => workBlock c
  let key := [w.set.codec, w.set.rate, w.profile]
  let bg := { x0 with queue := t.2.2.1, gapLeft := t.2.2.2.1, prev := t.2.2.2.2 }.begin_ c
  let x1 := if bg.1.chain = key then bg.1
    else { bg.1 with chain := key, h1 := [], h2 := [], frame := [], frame48 := [],
                     chainFade := if bg.1.chain = [] then bg.1.chainFade
                       else { start := 0, goal := 0x8000, len := mgXfade (g.body tGroup (if isMaster then i else bg.1.group - 1)), pos := 0 } }
  let samples := ((t.1.getD silence).zip (List.range 480)).map (fun p => roundShift (p.1 * x1.chainFade.value p.2) 15)
  let ch := chainOut bg.2 w.profile w.set.rate (480 * num) x1.h1 x1.h2 samples
  let x2 := { x1 with h1 := ch.h1, h2 := ch.h2, chainFade := x1.chainFade.after 480, frameIdx := if x1.frame48 = [] then 480 * num else x1.frameIdx }
  let ev := eventPackets g w x2 (gridNs bg.2.aud (480 * num + 840 + 480)) bg.2
  let x3 := { ev.1 with frame := ev.1.frame ++ ch.out, frame48 := ev.1.frame48 ++ samples }
  let r := if 48 * w.set.ms ≤ x3.frame48.length then sendFrame g w x3 ev.2 else (x3, ev.2)
  let count := if isMaster then countMaster else countAud
  let c1 := putOutput g isMaster i r.1 r.2
  let c2 := count i 1 1 c1
  if ch.sat = 0 then c2 else count i 2 ch.sat c2

/-- `AUDIO_OUTPUT_BLOCK` (R282): the output task of a leg, or of a group's master, runs. -/
def outputRow (isMaster : Bool) (i : Nat) (c : Chip) : Chip :=
  match fwRunning c (if isMaster then fwMaster else fwAudOut) i with
  | none => c
  | some slot => fwFinish slot (outputBlock isMaster i c)

def execAudioOutputBlock (isMaster : Bool) (index : Nat) (s : State) : Host.Outcome State Fault Refusal := act s (outputRow isMaster index)

/-! Epochs (R40, R42, R299, R301). -/

/-- Blocks of an epoch that wait for their output task. -/
def audioBusy (c : Chip) (epoch : Nat) : Bool :=
  (c.aud.outs ++ c.aud.masters).any (fun e => e.2.queue.any (fun k => k.epoch == epoch && !k.marker))

/-- An event of a forced ending (R43): object, kind and epoch. -/
def drainForced (island object kind epoch : Nat) : Chip → Chip := raise island 0x105 none object (kind + 2 ^ 32 * (epoch % 2 ^ 32))

/-- The drain limit: each block of the epoch becomes a gap marker. -/
def audioForce (epoch : Nat) (c : Chip) : Chip :=
  let cut := fun (x : AudOut) => { x with queue := x.queue.map (fun k => if k.epoch = epoch then { k with marker := true, samples := [] } else k) }
  let hit := fun (t : Tbl AudOut) => (t.filter (fun e => e.2.queue.any (fun k => k.epoch == epoch && !k.marker))).map Prod.fst
  let g := cfgAt c epoch
  let c1 := (hit c.aud.outs).foldl (fun c l => drainForced 29 (g.idAt tLeg l) 1 epoch (modOut l cut c)) c
  (hit c.aud.masters).foldl (fun c i => drainForced 29 (g.idAt tGroup i) 1 epoch (modMaster i cut c)) c1

/-- At a new epoch: an input that ended stops and its buffer is emptied; run-time state of what is gone from both epochs goes. -/
def audioActivate (old g : Cfg) (c : Chip) : Chip :=
  let ended := old.audioIns.filter (fun l => !auIn (g.audio l))
  ended.foldl (fun c l => modIn l (fun x => { x with jb := [], anchored := false, playing := false, detectors := [], digit := 0, muted := false, events := [] }) c) c

def audioRetire (c : Chip) : Chip :=
  let g := cfg c
  modAud (fun a => { a with
    ins := a.ins.filter (fun e => auIn (g.audio e.1) || !e.2.queue.isEmpty || a.contribs.any (fun k => k.1 / 65536 == e.1)),
    outs := a.outs.filter (fun e => auOut (g.audio e.1)),
    masters := a.masters.filter (fun e => mgMaster (g.body tGroup e.1)),
    groups := a.groups.filter (fun e => g.has tGroup e.1),
    contribs := a.contribs.filter (fun e => g.has tGroup (e.1 % 65536)) }) c

/-! Coefficient profiles (R288, R289). -/

/-- `COEF_SWAP_TAKE_EFFECT` (R289). -/
def swapTakes (p : Nat) (c : Chip) : Chip :=
  let x := tget Profile.zero c.aud.profiles p
  match x.pend with
  | none => c
  | some n =>
    let y := { x with activeB := !x.activeB, pend := none, swaps := x.swaps.filter (fun s => decide (480 * workBlock c < s.1)) ++ [(n, x.active)] }
    raise 29 0x505 none p (unsigned 64 n) (modAud (fun a => { a with profiles := tput a.profiles p y }) (waitSvc (gridNs c.aud n) c))

def execCoefSwapTakeEffect (profile : Nat) (s : State) : Host.Outcome State Fault Refusal := act s (swapTakes profile)

/-- Coefficients of a bank image: FIR taps and half-band taps, two octets each (R288). -/
def bankImage (b : List Word) (off : Nat) : List Int :=
  (List.range 63).map (fun i => signed 16 (bits (bw b (off + i / 2 * 4)) (16 * (i % 2)) 16))

def coefFields (b : List Word) : Option Nat := firstBad [(bf b 0 0 6 == 0, 0)]

def coefLoad (x : Ctx) (c : Chip) : Chip :=
  let p := bf x.body 0 0 6
  let q := tget Profile.zero c.aud.profiles p
  let toB := bit (bw x.body 0) 8
  let r := Res.ok [wd (b2n q.activeB)]
  if q.pend.isSome then x.done (Res.err 0x0506) c
  else if toB = q.activeB then x.done (Res.err 0x0505) c
  else
    let img := bankImage x.body 8
    x.done r (modAud (fun a => { a with profiles := tput a.profiles p (if toB then { q with bankB := img } else { q with bankA := img }) }) c)

/-- `GX_AUDIO_COEF_LOAD` (R289). -/
def execGxAudioCoefLoad (cmd : CmdRef) (s : State) : Host.Outcome State Fault Refusal := act s (serve 0x0505 cmd coefFields coefLoad)

def coefSwap (x : Ctx) (c : Chip) : Chip :=
  let p := bf x.body 0 0 6
  let q := tget Profile.zero c.aud.profiles p
  let now := gridIndex c.aud (svc c)
  let at_ : Int := bd x.body 8
  if q.pend.isSome then x.done (Res.err 0x0506) c
  else if now + 480000 < at_ then x.done (Res.field 8) c
  else
    let late := bd x.body 8 != 0 && decide (at_ ≤ now)
    let n := if bd x.body 8 = 0 ∨ late then now + 1 else at_
    x.done (Res.ok (wd2 (unsigned 64 n) ++ [wd (b2n late)])) (modAud (fun a => { a with profiles := tput a.profiles p { q with pend := some n } }) c)

/-- `GX_AUDIO_COEF_SWAP` (R289). -/
def execGxAudioCoefSwap (cmd : CmdRef) (s : State) : Host.Outcome State Fault Refusal := act s (serve 0x0506 cmd noFields coefSwap)

/-! The other commands. -/

def audioSyncFields (b : List Word) : Option Nat := firstBad [(decide (999999999 < bw b 16), 16)]

def audioSync (x : Ctx) (c : Chip) : Chip :=
  let w := bw x.body 0
  let c1 := modAud (fun a => { a with syncPinEn := bit w 0 }) c
  let c2 := if bit w 1 then setOrigin (if bit w 2 then svc c else bd x.body 8 * 1000000000 + bw x.body 16) 1 c1 else c1
  x.done (Res.ok (wd2 (c2.aud.origin / 1000000000) ++ [wd (c2.aud.origin % 1000000000)])) c2

/-- `GX_AUDIO_SYNC` (R275). -/
def execGxAudioSync (cmd : CmdRef) (s : State) : Host.Outcome State Fault Refusal := act s (serve 0x0507 cmd audioSyncFields audioSync)

def dtmfFields (b : List Word) : Option Nat := firstBad [(outside (bf b 8 0 16) 40 5000, 8)]

def dtmfSend (x : Ctx) (c : Chip) : Chip :=
  let id := bw x.body 0
  x.withObj id tLeg (fun _ c =>
    let l := idIndex id
    let b := (cfg c).audio l
    let inband := bit (bw x.body 8) 16
    if !auOut b ∨ (auEventSource b = 0 ∧ !inband) then x.done (Res.err 0x0504) c
    else if (getOut c l).dtmf.isSome then x.done (Res.err 0x0507) c
    else
      let d : DtmfPlay :=
        { event := bf x.body 4 0 4, volume := bf x.body 4 8 6, blocks := (bf x.body 8 0 16 + 9) / 10, inband := inband, mixed := 0,
          sent := 0, ts := 0 }
      x.done (Res.ok []) (modOut l (fun o => { o with dtmf := some d }) c)) c

/-- `GX_DTMF_SEND` (R285). -/
def execGxDtmfSend (cmd : CmdRef) (s : State) : Host.Outcome State Fault Refusal := act s (serve 0x0504 cmd dtmfFields dtmfSend)

def Meter.words (m : Meter) : List Word := wd2 (m.rms + 2 ^ 16 * m.peak + 2 ^ 32 * (m.holdLeft % 1024))

def meterRead (x : Ctx) (c : Chip) : Chip :=
  let id := bw x.body 0
  let ty := if idType id = tGroup then tGroup else tLeg
  x.withObj id ty (fun _ c =>
    let i := idIndex id
    let out := if ty = tGroup then (getMaster c i).meter else (getOut c i).meter
    let inp := getIn c i
    let both := auIn ((cfg c).audio i) && auOut ((cfg c).audio i)
    let m := if ty = tGroup then Meter.zero else if both ∧ inp.meter.block ≠ out.block then inp.meterPrev else inp.meter
    let blk := if ty = tLeg ∧ !auOut ((cfg c).audio i) then m.block else out.block
    x.done (Res.ok (m.words ++ out.words ++ wd2 (unsigned 64 blk))) c) c

/-- `GX_AUDIO_METER_READ` (R300). -/
def execGxAudioMeterRead (cmd : CmdRef) (s : State) : Host.Outcome State Fault Refusal := act s (serve 0x0508 cmd noFields meterRead)

/-- The counter scopes that a reading covers: a leg, a group's contributors, listeners and master, or the device. -/
def audioScopes (c : Chip) (scope i : Nat) : List Nat :=
  match scope with
  | 0 => [i]
  | 1 => scope2 i :: ((cfg c).listeners i).foldl linsert (((cfg c).contribs i).map Prod.fst)
  | _ => [scopeDev]

def audioCounters (x : Ctx) (c : Chip) : Chip :=
  let scope := bf x.body 0 0 2
  let id := bw x.body 4
  let go := fun (c : Chip) =>
    let l := audioScopes c scope (idIndex id)
    let v := fun i => min ctrMax ((l.map (fun s => ctr c 0x0509 s i)).sum)
    x.done (Res.ok ((List.range 12).flatMap (fun i => wd2 (v i))))
      (if bit (bw x.body 8) 0 then l.foldl (fun c s => ctrClear 0x0509 s 12 c) c else c)
  if scope = 2 then (if x.operator then go c else x.done (Res.err 0x0004) c)
  else x.withObj id (if scope = 0 then tLeg else tGroup) (fun _ c => go c) c

/-- `GX_AUDIO_COUNTERS` (R615). -/
def execGxAudioCounters (cmd : CmdRef) (s : State) : Host.Outcome State Fault Refusal :=
  act s (serve 0x0509 cmd (fun b => firstBad [(decide (2 < bf b 0 0 2), 0)]) audioCounters)

end Sys2Proof.Machine
end

