-- ==== Sys2Proof/Machine/Blend.lean ====
section
/-!
DEFINITION. The samples of a canvas frame (R343 to R346, R351, R352, R357, R362, R366): what a layer shows at a place, its alpha, the flattened
planes, and the blending of a frame at 12 bits over the canvas colour.
-/
namespace Sys2Proof.Machine
open Sys2Proof

/-- The three 10-bit values of a colour word. -/
def wordColour (ten : Bool) (v pl : Nat) : Nat := colour12 ten (bits v (10 * pl) 10)

/-- The canvas colour. -/
def canvasColour (cb : List Word) (pl : Nat) : Nat := wordColour (cv10 cb) (bw cb 24) pl

/-! Contents. -/

/-- What a layer shows: its slate, a colour, an image with its size, or a decoded picture with the factors d and e of R351. -/
inductive Content where
  | slate
  | colour (v : Nat)
  | image (words : List Word) (w h : Nat)
  | picture (p : PicRec) (reduced : Bool) (step : Option (Nat × Nat))
  deriving DecidableEq, Repr

/-- A sample of an image at 12 bits: luma, or Cb and Cr of the interleaved plane (R341). -/
def imageSample (img : List Word) (w h pl x y : Nat) : Nat := to12 false (imageByte img (if pl = 0 then y * w + x else w * h + y * w + 2 * x + (pl - 1)))

/-- Size of a picture and where it stands: the full buffer or the reduced copy (R323, R324). -/
def pictureAt (c : Chip) (p : PicRec) (mode : Nat) (reduced : Bool) : (Nat × Nat) × Layout :=
  if reduced then
    let w := reducedSize p.width mode
    let h := reducedSize p.height mode
    ((w, h), layoutOf (bufAddr c p.reduced) w h p.bit10)
  else ((p.width, p.height), { base := bufAddr c p.full, stride := p.stride, chroma := p.chromaOffset, ten := p.bit10 })

/-- A sample of a layer's source after cropping and scaling, before conversion. `mode` is the context's kind of reduced copy; a slate is read
whole (R362). -/
def Content.scaled (m : Mem) (c : Chip) (ten : Bool) (b : List Word) (mode : Nat) (k : Content) (pl u v : Nat) : Nat :=
  let half := if pl = 0 then 1 else 2
  match k with
  | .slate =>
    if lySlateImage b then layerScaled b (imageSample (lySlate b) 320 180 pl) 320 180 4095 pl u v else wordColour ten (bw b 0x28) pl
  | .colour w => wordColour ten w pl
  | .image img w h =>
    let o := cropOrigin b w h
    let q := cropSize b w h
    layerScaled b (fun x y => imageSample img w h pl (o.1 / half + x) (o.2 / half + y)) q.1 q.2 4095 pl u v
  | .picture p reduced step =>
    let a := pictureAt c p mode reduced
    let o := cropOrigin b a.1.1 a.1.2
    let q := cropSize b a.1.1 a.1.2
    let d := (step.getD (1, 1)).1
    let e := (step.getD (1, 1)).2
    layerScaled b (fun x y => a.2.get m pl (o.1 / half + e * x) (o.2 / half + d * y)) ((q.1 + e - 1) / e) ((q.2 + d - 1) / d) 4095 pl u v

/-- A sample of a layer in the canvas's colour space: pictures are converted from their matrix and range, a luma sample with the chroma of
its block and a chroma sample with the mean luma of its block (R345, log 191). A slate is stored in a plane at the canvas's depth. -/
def Content.sample (m : Mem) (c : Chip) (cb b : List Word) (mode : Nat) (k : Content) (pl u v : Nat) : Nat :=
  let f := k.scaled m c (cv10 cb) b mode
  match k with
  | .picture p _ _ =>
    if p.matrix = cvMatrix cb ∧ p.fullRange = cvFull cb then f pl u v
    else
      let x := if pl = 0 then u / 2 else u
      let y := if pl = 0 then v / 2 else v
      let luma := if pl = 0 then f 0 u v else (f 0 (2 * u) (2 * v) + f 0 (2 * u + 1) (2 * v) + f 0 (2 * u) (2 * v + 1) + f 0 (2 * u + 1) (2 * v + 1) + 2) / 4
      planeOf pl (convert p.matrix p.fullRange (cvMatrix cb) (cvFull cb) (luma, f 1 x y, f 2 x y))
  | .slate => to12 (cv10 cb) (toDepth (cv10 cb) (f pl u v))
  | _ => f pl u v

/-! Alpha (R343, R344). -/

/-- Effective alpha of a layer at a canvas pixel: ALPHA ÷ 255 × image alpha ÷ 255 × coverage, 0 outside the destination. `image` is the image
alpha by place in the destination. -/
def layerAlpha (b : List Word) (image : Nat → Nat → Nat) (x y : Nat) : Frac :=
  if lyX b ≤ x ∧ (x : Int) < lyX b + lyW b ∧ lyY b ≤ y ∧ (y : Int) < lyY b + lyH b then
    .of (lyAlpha b * image ((x : Int) - lyX b).toNat ((y : Int) - lyY b).toNat * coverAt b x y : Nat) (255 * 255 * 15)
  else .int 0

/-- Alpha of a plane's sample: a chroma sample takes the mean of the four luma alphas at its position. -/
def alphaAt (f : Nat → Nat → Frac) (pl x y : Nat) : Frac :=
  if pl = 0 then f x y
  else (((f (2 * x) (2 * y)).add (f (2 * x + 1) (2 * y))).add ((f (2 * x) (2 * y + 1)).add (f (2 * x + 1) (2 * y + 1)))).scale 1 4

/-- Place of a canvas sample within a layer's destination. -/
def offsetIn (b : List Word) (pl x y : Nat) : Nat × Nat :=
  if pl = 0 then (((x : Int) - lyX b).toNat, ((y : Int) - lyY b).toNat) else (((x : Int) - lyX b / 2).toNat, ((y : Int) - lyY b / 2).toNat)

/-- out = dst + alpha × (src − dst) at 12 bits. -/
def blend12 (a : Frac) (src dst : Nat) : Nat := clampTo 4095 ((Frac.int dst).add (a.mul (.int ((src : Int) - dst)))).whole

/-! Flattened planes (R352). -/

/-- What a static layer shows. -/
def staticContent (b : List Word) : Content := if lyKind b = 2 then .image (lyImage b) (lyNomW b) (lyNomH b) else .colour (bw b 0x24)

/-- One layer onto a run: the sample that stands for what lies so far, and its alpha. -/
def flattenStep (a : Frac) (src : Nat) (s : Nat × Frac) : Nat × Frac :=
  let below := s.2.sub (s.2.mul a)
  let all := below.add a
  (if all.num = 0 then s.1 else clampTo 4095 (((below.mul (.int s.1)).add (a.mul (.int src))).scale all.den all.num.toNat).whole, all)

/-- A run at a sample: its colour and alpha before they are stored. The canvas colour joins the lowest run. -/
def flatten (m : Mem) (c : Chip) (cb : List Word) (lowest : Bool) (l : List (Nat × List Word)) (pl x y : Nat) : Nat × Frac :=
  l.foldl (fun s e =>
    let o := offsetIn e.2 pl x y
    let a := alphaAt (layerAlpha e.2 (imageAlpha e.2 (lyImage e.2))) pl x y
    if a.num = 0 then s else flattenStep a ((staticContent e.2).sample m c cb e.2 0 pl o.1 o.2) s)
    (if lowest then (canvasColour cb pl, .int 1) else (0, .int 0))

/-- A daymark plane at a sample: its stored sample, of the canvas's depth, and the 8-bit alpha stored at luma resolution. -/
def planeSample (m : Mem) (c : Chip) (cb : List Word) (lowest : Bool) (l : List (Nat × List Word)) (pl x y : Nat) : Nat × Frac :=
  let a := fun (i j : Nat) => Frac.of (((flatten m c cb lowest l 0 i j).2.scale 255 1).whole) 255
  (to12 (cv10 cb) (toDepth (cv10 cb) (flatten m c cb lowest l pl x y).1), alphaAt a pl x y)

/-! A frame. -/

/-- What poison in a band replaces: layers and planes with a tile column, and blocks of the beacon by canvas place. -/
structure Spoiled where
  layers : List (Nat × Nat)
  planes : List (Nat × Nat)
  blocks : List (Nat × Nat)
  deriving DecidableEq, Repr

def Spoiled.none : Spoiled := { layers := [], planes := [], blocks := [] }

/-- What a moving layer shows in a frame: the picture of its use, read with the factors of R351, the dynamic image shown, or else the slate. -/
def movingContent (uses : List LayerUse) (shown : Tbl (List Word)) (read : List Word → PicRec → Option (Nat × Nat)) (e : Nat × List Word) : Content :=
  if lyKind e.2 = 3 then .image (tget (lyImage e.2) shown e.1) (lyNomW e.2) (lyNomH e.2)
  else match uses.find? (fun u => u.layer == e.1) with | some u => .picture u.pic u.reduced (read e.2 u.pic) | none => .slate

/-- Black in a range (R366): plane 0 is luma. -/
def black12 (full : Bool) (pl : Nat) : Nat := if pl = 0 then (rangeOf full).1 else 2048

/-- The beacon at a sample: none where it has no pixel; spoiled blocks are black (R357, R366). -/
def beaconSample (b : List Word) (full : Bool) (blocks : List (Nat × Nat)) (pl x y : Nat) : Option Nat :=
  let k := if pl = 0 then 1 else 2
  let px := k * x
  let py := k * y
  if bcX b ≤ px ∧ px < bcX b + bcW b ∧ bcY b ≤ py ∧ py < bcY b + bcH b ∧ maskBit (bcImage b) (bcW b) (bcH b) (px - bcX b) (py - bcY b) then
    some (if blocks.contains (px / 2, py / 2) then black12 full pl else imageSample (bcImage b) (bcW b) (bcH b) pl ((px - bcX b) / k) ((py - bcY b) / k))
  else none

/-- One element of the blend order onto a sample of the frame. -/
def blendStep (m : Mem) (c : Chip) (g : Cfg) (cb : List Word) (bad : Spoiled) (what : Nat × List Word → Content)
    (pl x y : Nat) (dst : Nat) (e : Stack) : Nat :=
  let tx := (if pl = 0 then x else 2 * x) / 16
  match e with
  | .run n l =>
    if bad.planes.contains (n, tx) then canvasColour cb pl
    else
      let s := planeSample m c cb (n == 0) l pl x y
      blend12 s.2 s.1 dst
  | .moving k b =>
    let w := if bad.layers.contains (k, tx) then .slate else what (k, b)
    let a := alphaAt (layerAlpha b (match w with | .image img _ _ => imageAlpha b img | _ => fun _ _ => 255)) pl x y
    let o := offsetIn b pl x y
    if a.num = 0 then dst else blend12 a (w.sample m c cb b (dcReduced (g.decode (idIndex (lySource b)))) pl o.1 o.2) dst

/-- A sample of the composed frame at the canvas's depth. -/
def frameSample (m : Mem) (c : Chip) (g : Cfg) (cv : Nat) (bad : Spoiled) (what : Nat × List Word → Content) (pl x y : Nat) : Nat :=
  let cb := g.body tCanvas cv
  let top := if g.hasBeacon cv then beaconSample (g.beacon cv) (cvFull cb) bad.blocks pl x y else none
  toDepth (cv10 cb) (match top with
    | some v => v
    | none => (stackOf (g.blend cv) 0 []).foldl (blendStep m c g cb bad what pl x y) (canvasColour cb pl))

/-- Writes of a band of a frame into its output buffer (R335): columns beyond the width repeat the last one, and with the last band the rows
from HEIGHT to H16 − 1 repeat row HEIGHT − 1. -/
def bandWrites (m : Mem) (c : Chip) (g : Cfg) (cv buffer row : Nat) (bad : Spoiled) (what : Nat × List Word → Content) :
    List (Nat × List Byte) :=
  let cb := g.body tCanvas cv
  let q := layoutOf (bufAddr c buffer) (cvW cb) (cvH cb) (cv10 cb)
  q.rows (fun pl x y =>
    let k := if pl = 0 then 1 else 2
    frameSample m c g cv bad what pl (min x (cvW cb / k - 1)) (min y (cvH cb / k - 1))) (up16 (cvW cb)) row (row + 16)

/-- Bytes of the beacon region as they stand in a frame's buffer (R359). -/
def beaconRead (m : Mem) (q : Layout) (b : List Word) : List Nat :=
  let set := fun (x y : Nat) => maskBit (bcImage b) (bcW b) (bcH b) x y
  let at_ := fun (pl x y : Nat) => (m.bytes (q.addr pl x y) (if q.ten then 2 else 1)).map (·.toNat)
  ((List.range (bcH b)).flatMap (fun y => (List.range (bcW b)).flatMap (fun x => if set x y then at_ 0 (bcX b + x) (bcY b + y) else []))) ++
  ((List.range (bcH b / 2)).flatMap (fun y => (List.range (bcW b / 2)).flatMap (fun x =>
    if set (2 * x) (2 * y) then at_ 1 (bcX b / 2 + x) (bcY b / 2 + y) ++ at_ 2 (bcX b / 2 + x) (bcY b / 2 + y) else [])))

end Sys2Proof.Machine
end

