-- ==== Sys2Proof/Machine/Decoder.lean ====
section
/-!
DEFINITION. Decoding (chapter 09): the start of a frame on a core, its end with marks, substitution and output, core faults, poison, refused
streams, epochs, and the decode commands.
-/
namespace Sys2Proof.Machine
open Sys2Proof

/-! Buffers (R319 to R322). -/

/-- The pool of a context's buffers: the smallest of P5, P6 and P7 that holds a declared picture. -/
def decPool (b : List Word) : Nat := (fitPool [5, 6, 7] (pictureBytes (dcW b) (dcH b) (dc10 b))).getD 7

/-- The pool of its reduced copies. -/
def copyPool (b : List Word) : Nat := (fitPool [5, 6, 7] (reducedBytes (dcW b) (dcH b) (dcReduced b) (dc10 b))).getD 7

/-- A buffer with no mark and no hold returns to its pool. -/
def DecBuf.idle (b : DecBuf) : Bool :=
  !(b.short || b.long || b.outPending || b.latest) && b.slot == 0 && b.holds == 0

/-- Free every buffer of a context that is idle, with its reduced copy. -/
def decSweep (i : Nat) (c : Chip) : Chip :=
  let x := getDec c i
  (x.bufs.filter DecBuf.idle).foldl (fun c b => drop b.reduced (drop b.handle c))
    (putDec i { x with bufs := x.bufs.filter (fun b => !b.idle) } c)

/-- The frame that was taken by a core leaves it: its buffers go unless kept. -/
def decLeave (i : Nat) (c : Chip) : Chip :=
  match (getDec c i).busy with
  | some b => drop b.reduced (drop b.handle (modDec i (fun x => { x with busy := none }) c))
  | none => c

/-- A frame lost under R312 once decoding has reached it. -/
def decLost (i : Nat) (f : AsmFrame) (c : Chip) : Chip := countDec i 3 1 (dropFrame i f c)

/-! Start of a frame (R314, R318, R322, R35). -/

/-- The head task of a context starts on a core: the waiting frame takes its buffers and its epoch. A task that finds no frame, or no
buffer, ends at once. -/
def decStart (slot core : Nat) (c0 : Chip) : Chip :=
  let c := startTask slot core c0
  let i := (getTask c slot).desc.work
  let g := cfg c
  let b := g.decode i
  let x := getDec c i
  let excess := fun (c : Chip) => decReady g i (endTask slot (unitDone slot 0 0 false false c))
  match (if g.hasDecode i && x.busy.isNone then x.waiting else []) with
  | [] => excess c
  | f :: rest =>
    let c1 := putDec i { x with waiting := rest } c
    let p := decPool b
    let who := identity ((g.owner tSource i).getD 0) 2
    let r := allocIn who p c1
    if r.1 ≠ 0 then
      excess (raiseRated (decodeIsland core) 0x605 (g.owner tSource i) (g.idAt tSource i) (fun _ => p) 1
        (countDec i 7 1 (decLost i f r.2.2)))
    else
      let q := if dcReduced b = 0 then (1, 0, r.2.2) else allocIn who (copyPool b) r.2.2
      let busy : DecBusy := { frame := f, core := core, epoch := c.gx.current, handle := r.2.1, reduced := if q.1 = 0 then q.2.1 else 0, task := slot }
      modDec i (fun x => { x with busy := some busy }) q.2.2

/-! References (R325, R326, R328). -/

/-- The buffer that a reference names, when it is present and usable. -/
def DecRun.find (x : DecRun) (r : DecRef) : Option DecBuf :=
  x.bufs.find? (fun b => !b.unusable &&
    (match r.slot with
     | some k => b.slot.getLsbD k && (match r.pos with | some p => b.pos == p | none => true)
     | none => (b.short || b.long) && (match r.pos with | some p => b.pos == p | none => false)))

/-- The picture that stands in for a missing reference: of those the context still holds, the one nearest to its output position, ties to
the earlier; without a position, the LATEST (R325). -/
def DecRun.substitute (x : DecRun) (pos : Option Int) (skip : List Nat) : Option DecBuf :=
  let l := x.bufs.filter (fun b => !b.unusable && !skip.contains b.handle)
  match pos with
  | none => l.find? (fun b => b.latest)
  | some p => l.foldl (fun a b =>
      match a with
      | none => some b
      | some y => let d := (b.pos - p).natAbs; let e := (y.pos - p).natAbs
                  if d < e ∨ (d = e ∧ b.pos < y.pos) then some b else some y) none

/-! Refused streams (R306, R307, R329). -/

/-- The reason for which parameters are refused, 0 for none: a picture may be no larger than declared, nor than R307 allows. -/
def refuseReason (b : List Word) (kind : Nat) (p : DecParams) : Nat :=
  if !p.supported then 1
  else if dcW b < p.width ∨ dcH b < p.height ∨ 4096 < p.width ∨ 4096 < p.height ∨ 8912896 < p.width * p.height then 2
  else if !p.levelOk then 3
  else if dcDpb b kind < p.refsNeeded then 4
  else if p.bit10 ∧ !dc10 b then 5
  else 0

/-! Output (R321, R323, R326). -/

/-- The picture is the recovery picture of a concealed context (R326). -/
def DecRun.ends (x : DecRun) (b : DecBuf) : Bool :=
  x.st == .concealed && (x.recovery == some b.handle || (match x.recoverAt with | some p => decide (p ≤ b.pos) | none => false))

/-- A picture is output: it becomes the LATEST, takes the next output number, and leaves its record; a context that is concealed marks it.
The recovery picture and those after it are output without the mark, but for pictures that replace poison (R326, R328). -/
def outputPicture (g : Cfg) (i isl : Nat) (pos : Int) (c : Chip) : Chip :=
  let x := getDec c i
  match x.bufs.find? (fun b => b.outPending && b.pos == pos) with
  | none => c
  | some b =>
    let ends := x.ends b
    let c1 := if ends then raise isl 0x602 (g.owner tSource i) (g.idAt tSource i) x.concealedRun c else c
    let st := if ends then .decoding else x.st
    let clean := fun (p : PicRec) => if ends then { p with concealed := p.poisonRegion, substSeq := if p.poisonRegion then p.substSeq else 0 } else p
    let hidden := st == .concealed || (clean b.pic).concealed
    let pic := { clean b.pic with outputSeq := x.outputSeq, concealed := hidden }
    let bufs := x.bufs.map (fun y => if y.handle = b.handle then { y with outPending := false, latest := true, shown := true, pic := pic } else { y with latest := false, pic := if y.outPending then clean y.pic else y.pic })
    let c2 := putDec i { x with st := st, recoverAt := if ends then none else x.recoverAt, recovery := if ends then none else x.recovery, bufs := bufs, newest := pic,
                                outputSeq := (x.outputSeq + 1) % 2 ^ 32,
                                concealedRun := if ends then 0 else if st = .concealed then x.concealedRun + 1 else x.concealedRun } c1
    if hidden then countDec i 1 1 c2 else c2

/-! End of a frame (R321 to R329). -/

/-- Marks of the context's buffers after a frame: a keyframe or its like clears every reference mark, slots move to the new picture, and the stream
unmarks or makes long-term (R321). -/
def newMarks (clear : Bool) (r : DecReport) (l : List DecBuf) : List DecBuf :=
  l.map (fun b =>
    if clear then { b with short := false, long := false, slot := 0 }
    else
      { b with slot := b.slot &&& ~~~r.slots,
               short := b.short && !(r.unmark.contains b.pos || r.toLong.contains b.pos),
               long := (b.long && !r.unmark.contains b.pos) || (b.short && r.toLong.contains b.pos) })

/-- A frame of a context in DECODING or CONCEALED is decoded: missing references are substituted (R325, R326), poison is concealed (R328), the
picture takes its marks, and pictures are output. -/
def decodeFrame (g : Cfg) (i : Nat) (b : List Word) (w : DecBusy) (r : DecReport) (c : Chip) : Chip :=
  let x0 := getDec c i
  let bad := r.poisonRefs
  let missing := if r.recovers then [] else r.refs.filter (fun f => (x0.find f).isNone)
  let subst := missing.findSome? (fun f => x0.substitute f.pos bad)
  let instead := if bad = [] then none else
    x0.substitute ((x0.bufs.find? (fun y => bad.contains y.handle)).map (·.pos)) bad
  let substSeq := match subst.or instead with | some s => s.pic.outputSeq | none => 0
  let starts := !missing.isEmpty && x0.st == .decoding
  let own := g.owner tSource i
  let id := g.idAt tSource i
  let isl := decodeIsland w.core
  let c2 := if starts then raise isl 0x601 own id substSeq c else c
  let c3 := if bad = [] then c2 else countDec i 9 1 c2
  let x1 := { x0 with
    st := if starts then .concealed else x0.st,
    concealedRun := if starts then 0 else x0.concealedRun,
    recoverAt := if r.recovers then none else match r.recoveryAt with | some p => some p | none => x0.recoverAt,
    recovery := if !r.recovers then x0.recovery else if r.shown then some w.handle
      else (x0.bufs.find? (fun (y : DecBuf) => y.outPending && y.pos == r.pos)).map (fun (y : DecBuf) => y.handle),
    bufs := newMarks r.clears r (x0.bufs.map (fun (y : DecBuf) => if bad.contains y.handle then { y with unusable := true } else y)) }
  let f := w.frame
  let red := w.reduced != 0
  let pic : PicRec :=
    { context := dcContext b, spatial := f.spatial, temporal := f.temporal, key := f.key || r.recoveryAt.isSome,
      concealed := !missing.isEmpty || !bad.isEmpty, poisonRegion := !bad.isEmpty, mono := r.mono, bit10 := x0.bit10, reducedValid := red,
      epochTag := w.epoch % 2 == 1, full := w.handle, reduced := w.reduced, width := r.width, height := r.height,
      stride := strideOf x0.codedW x0.bit10, chromaOffset := strideOf x0.codedW x0.bit10 * up16 x0.codedH, rtpTs := f.ts, outputSeq := 0,
      arrivalNs := f.firstStamp, doneNs := svc c, matrix := r.matrix, transfer := r.transfer, primaries := r.primaries,
      fullRange := r.fullRange, substSeq := substSeq, source := i }
  let new : DecBuf :=
    { handle := w.handle, reduced := w.reduced, short := r.short, long := r.long, slot := r.slots, outPending := r.shown, latest := false,
      holds := 0, pos := r.pos, unusable := false, shown := false, pic := pic }
  let c4 := countDec i 0 1 (putDec i { x1 with busy := none, bufs := x1.bufs ++ [new] } c3)
  let c5 := r.outputs.foldl (fun c p => outputPicture g i isl p c) c4
  decSweep i (if starts then decAskKey g i c5 else c5)

/-! Samples of a decoded picture (R319, R324): what the codec's standard gives them is a free function of the picture (log 84). -/

/-- A sample of the picture of a number at its depth; a monochrome picture has chroma at mid value. -/
def decSample (d : Nat) (ten mono : Bool) (pl x y : Nat) : Nat :=
  if mono ∧ pl ≠ 0 then (if ten then 512 else 128) else Config.decoded d pl x y % (if ten then 1024 else 256)

/-- A sample of the reduced copy: the rounded mean of the n × n samples that it covers, edge samples repeated. -/
def reducedSample (f : Nat → Nat → Nat → Nat) (n w h pl x y : Nat) : Nat :=
  let pw := if pl = 0 then w else (w + 1) / 2
  let ph := if pl = 0 then h else (h + 1) / 2
  let sum := ((List.range n).map (fun j => ((List.range n).map (fun i => f pl (min (pw - 1) (n * x + i)) (min (ph - 1) (n * y + j)))).sum)).sum
  (sum + n * n / 2) / (n * n)

/-- What a core writes of a picture: its planes and its motion data, and the planes of the reduced copy. -/
def pictureWrites (b : List Word) (x : DecRun) (w : DecBusy) (r : DecReport) (d : Nat) (c : Chip) : List (Nat × List Byte) :=
  let ten := x.bit10
  let f := decSample d ten r.mono
  let q := layoutOf (bufAddr c w.handle) x.codedW x.codedH ten
  let n := if dcReduced b = 1 then 2 else 4
  let rw := reducedSize r.width (dcReduced b)
  let rh := reducedSize r.height (dcReduced b)
  let p := layoutOf (bufAddr c w.reduced) rw rh ten
  q.rows f (up16 x.codedW) 0 (up16 x.codedH) ++
    [(q.base + q.stride * up16 x.codedH * 3 / 2, (List.range (up16 x.codedW * up16 x.codedH / 16)).map (fun k => BitVec.ofNat 8 (Config.motionByte d k)))] ++
    (if w.reduced = 0 then [] else
      p.rows (fun pl x y => reducedSample f n r.width r.height pl (min x (if pl = 0 then rw - 1 else rw / 2 - 1)) (min y (if pl = 0 then rh - 1 else rh / 2 - 1)))
        (up16 rw) 0 (up16 rh))

/-- A frame's parameters are taken: the stream is refused, or accepted, which ends the refused state at a keyframe (R329). -/
def takeParams (g : Cfg) (i : Nat) (b : List Word) (core : Nat) (key : Bool) (p : DecParams) (c : Chip) : Chip :=
  let kind := srcKind (g.body tSource i)
  let n := refuseReason b kind p
  let x := getDec c i
  let y := { x with profileIdc := p.profile, levelIdc := p.level, bit10 := p.bit10, codedW := p.width, codedH := p.height }
  if n = 0 then putDec i { y with st := if x.st = .refused ∧ key then .waitKey else x.st, reason := if x.st = .refused ∧ !key then x.reason else 0 } c
  else
    let c1 := putDec i { y with st := .refused, reason := n, concealedRun := 0, recoverAt := none, recovery := none } c
    if x.st = .refused then c1
    else raise (decodeIsland core) 0x603 (g.owner tSource i) (g.idAt tSource i) (n + 2 ^ 16 * p.width + 2 ^ 32 * p.height) c1

/-- `DECODE_DONE` (R321 to R329): the core has finished the context's frame and reports what it found. -/
def decodeDone (i : Nat) (r : DecReport) (c : Chip) (m : Mem) : Chip × List MemOp :=
  match (getDec c i).busy with
  | none => (c, [])
  | some w =>
    let g := cfgAt c w.epoch
    let b := g.decode i
    let f := w.frame
    let excess := fun (c : Chip) => decReady (cfg c) i (endTask w.task (unitDone w.task 0 0 false false c))
    let c0 := dropFrame i f c
    if r.poisonIn then (excess (countDec i 8 1 (countDec i 3 1 (decLeave i c0))), [])
    else if r.poisonState then (excess (decSweep i (decWaitKey g i (countDec i 8 1 (decLeave i c0)))), [])
    else
      let c1 := match r.params with | some p => takeParams g i b w.core f.key p c0 | none => c0
      let x := getDec c1 i
      let d := draw c1
      if x.st = .refused ∨ (x.st = .waitKey ∧ !f.key) then (excess (countDec i 2 1 (decLeave i c1)), [])
      else if r.rasl then (excess (decLeave i c1), [])
      else
        (excess (decodeFrame g i b w r (modDec i (fun x => { x with st := if x.st = .waitKey then .decoding else x.st }) d.2)),
          storeAll m c (pictureWrites b x w r d.1 c))

def execDecodeDone (source : Nat) (report : DecReport) (s : State) : Host.Outcome State Fault Refusal := actMem s (decodeDone source report)

/-- The context whose frame is on a core. -/
def decOn (core : Nat) (c : Chip) : Option (Nat × DecRun) :=
  c.vid.decs.find? (fun e => match e.2.busy with | some b => b.core == core | none => false)

/-- `DEC_CORE_FAULT` (R316): the core's frame is retried once on another core; a second failure loses it. -/
def decCoreFault (core : Nat) (c : Chip) : Chip :=
  match decOn core c with
  | none => unitFault 1 core (raise (decodeIsland core) 0x606 none (decodeIsland core) 0 c)
  | some (i, x) =>
    match x.busy with
    | none => c
    | some w =>
      let g := cfg c
      let again := w.frame.retried
      let c1 := raise (decodeIsland core) 0x606 none (decodeIsland core) (dcContext (g.decode i) + 2 ^ 16 * b2n again) c
      let c2 := endTask w.task (unitDone w.task 0x8008 0 false false (decLeave i c1))
      let c3 := if again then decLost i w.frame c2 else modDec i (fun x => { x with waiting := { w.frame with retried := true } :: x.waiting }) c2
      decReady g i (unitFault 1 core c3)

def execDecCoreFault (core : Nat) (s : State) : Host.Outcome State Fault Refusal := act s (decCoreFault core)

/-- `DEC_PLI_REPEAT` (R327). -/
def pliRepeat (i : Nat) (c0 : Chip) : Chip :=
  let x := getDec c0 i
  if (cfg c0).hasDecode i ∧ x.begun ∧ (x.st = .concealed ∨ x.st = .waitKey) then
    let c := waitSvc x.pliAt c0
    decAskKey (cfg c) i c
  else c0

def execDecPliRepeat (source : Nat) (s : State) : Host.Outcome State Fault Refusal := act s (pliRepeat source)

/-! Epochs (R330). -/

/-- A frame of an epoch is on a core. -/
def decodeBusy (c : Chip) (epoch : Nat) : Bool :=
  c.vid.decs.any (fun e => match e.2.busy with | some b => b.epoch == epoch | none => false)

/-- The drain limit: pictures of the epoch are discarded, and their contexts keep the marks they had. -/
def decodeForce (epoch : Nat) (c : Chip) : Chip :=
  (c.vid.decs.filter (fun e => match e.2.busy with | some b => b.epoch == epoch | none => false)).foldl (fun c e =>
    match e.2.busy with
    | none => c
    | some w =>
      let c1 := endTask w.task (unitDone w.task 0x8004 0 false false (decLeave e.1 (dropFrame e.1 w.frame c)))
      decReady (cfg c) e.1 (drainForced (decodeIsland w.core) ((cfgAt c epoch).idAt tSource e.1) 2 epoch (countDec e.1 11 1 c1))) c

/-- Declared figures whose change can move the pool (R330). -/
def decShape (b : List Word) (kind : Nat) : Nat × Nat × Bool × Nat := (dcW b, dcH b, dc10 b, dcDpb b kind)

/-- A new epoch: new contexts enter WAIT_KEY and ask for a keyframe, as does one whose pool changes; those that are gone stop. -/
def decodeActivate (old g : Cfg) (c : Chip) : Chip :=
  let here := ((g.cardsOf 0x0600).map (fun e => keyIndex e.1))
  let c1 := here.foldl (fun c i =>
    let b := g.decode i
    let kind := srcKind (g.body tSource i)
    let x := getDec c i
    let same := old.hasDecode i && sameObj c old tSource i && x.begun
    if !same then
      decAskKey g i (putDec i { DecRun.zero with begun := true, tap := { EdgeRun.zero with tgtS := dcMaxS b, tgtT := dcMaxT b, waitStart := nowMs c },
                                                 bucket := max 2 (dcFps b / 10) * 1000000000, refillNs := localNs c } c)
    else
      let c2 := modDec i (fun x => { x with tap := { x.tap with tgtS := dcMaxS b, tgtT := dcMaxT b } }) c
      if decShape (old.decode i) kind ≠ decShape b kind ∧ decPool (old.decode i) ≠ decPool b then decSweep i (decWaitKey g i c2) else c2) c
  (c1.vid.decs.filter (fun e => !g.hasDecode e.1)).foldl (fun c e =>
    let x := e.2
    let c2 := (x.asm ++ x.waiting).foldl (fun c f => dropFrame e.1 f c) c
    modDec e.1 (fun x => { x with asm := [], waiting := [] }) c2) c1

/-- Contexts that are gone give their buffers back, but for those a compositor holds (R330). -/
def decodeRetire (c : Chip) : Chip :=
  let g := cfg c
  (c.vid.decs.filter (fun e => !g.hasDecode e.1 && e.2.busy.isNone)).foldl (fun c e =>
    let c1 := decSweep e.1 (modDec e.1 (fun x =>
      { x with bufs := x.bufs.map (fun b => { b with short := false, long := false, slot := 0, outPending := false, latest := false }) }) c)
    if (getDec c1 e.1).bufs.isEmpty then modVid (fun v => { v with decs := tdel v.decs e.1 }) c1 else c1) c

/-! Commands. -/

def DecSt.code : DecSt → Nat | .waitKey => 0 | .decoding => 1 | .concealed => 2 | .refused => 3

/-- A picture record: 64 bytes (R323). -/
def PicRec.words (p : PicRec) : List Word :=
  [wd (p.context % 2 ^ 14 + 2 ^ 16 * (p.spatial % 8) + 2 ^ 19 * (p.temporal % 8) + 2 ^ 22 * b2n p.key + 2 ^ 23 * b2n p.concealed +
      2 ^ 24 * b2n p.poisonRegion + 2 ^ 25 * b2n p.mono + 2 ^ 26 * b2n p.bit10 + 2 ^ 27 * b2n p.reducedValid + 2 ^ 28 * b2n p.epochTag),
   wd p.full, wd p.reduced, wd (p.width % 65536 + 2 ^ 16 * (p.height % 65536)), wd (p.stride % 65536), wd p.chromaOffset, wd p.rtpTs,
   wd p.outputSeq] ++ wd2 (p.arrivalNs % 2 ^ 48) ++ wd2 (p.doneNs % 2 ^ 48) ++
  [wd (p.matrix % 256 + 2 ^ 8 * (p.transfer % 256) + 2 ^ 16 * (p.primaries % 256) + 2 ^ 24 * b2n p.fullRange), wd p.substSeq,
   wd (p.source % 2 ^ 19), 0]

def decodeQuery (x : Ctx) (c : Chip) : Chip :=
  let id := bw x.body 0
  x.withObj id tSource (fun _ c =>
    let i := idIndex id
    if !(cfg c).hasDecode i then x.done (Res.err 0x0008) c
    else
      let d := getDec c i
      let holds := (d.bufs.map (·.holds)).sum
      x.done (Res.ok ([wd (d.st.code + 2 ^ 4 * d.reason + 2 ^ 8 * (d.profileIdc % 256) + 2 ^ 16 * (d.levelIdc % 256) + 2 ^ 24 * b2n d.bit10 +
          2 ^ 25 * (d.tap.curS % 8) + 2 ^ 28 * (d.tap.curT % 8)), wd (d.codedW % 65536 + 2 ^ 16 * d.codedH),
          wd ((d.bufs.length + b2n d.busy.isSome) % 256 + 2 ^ 8 * (holds % 256)), wd d.waiting.length] ++ d.newest.words)) c) c

/-- `GX_DECODE_QUERY` (R329). -/
def execGxDecodeQuery (cmd : CmdRef) (s : State) : Host.Outcome State Fault Refusal := act s (serve 0x0601 cmd noFields decodeQuery)

/-- A counter command with an object and a device scope: `scope` 0 reads the object's counters, 1 the device's. -/
def scopedCounters (op ty n : Nat) (x : Ctx) (c : Chip) : Chip :=
  let id := bw x.body 4
  let go := fun (scope : Nat) (c : Chip) =>
    x.done (Res.ok (ctrWords c op scope n)) (if bit (bw x.body 8) 0 then ctrClear op scope n c else c)
  if bit (bw x.body 0) 0 then (if x.operator then go scopeDev c else x.done (Res.err 0x0004) c)
  else x.withObj id ty (fun _ c => go (idIndex id) c) c

/-- `GX_DECODE_COUNTERS` (R615). -/
def execGxDecodeCounters (cmd : CmdRef) (s : State) : Host.Outcome State Fault Refusal :=
  act s (serve 0x0602 cmd noFields (scopedCounters 0x0602 tSource 12))

end Sys2Proof.Machine
end

