-- ==== Sys2Proof/Machine/Rate.lean ====
section
/-!
DEFINITION. Rate control (R390 to R393): fractions, the target, budgets, the QP of a frame, and the split of a frame into parts. What an
engine program may round, the manual does not say: whole numbers beside a value that is not whole are a free choice (log 67).
-/
namespace Sys2Proof.Machine
open Sys2Proof

/-! The target (R390). -/

/-- Least whole number whose cube is not below `n`, less one where it is above. -/
def cubeFloor (n hi : Nat) : Nat := (List.range 64).foldl (fun a i => let m := a + 2 ^ (63 - i); if m ≤ hi ∧ m ^ 3 ≤ n then m else a) 0

/-- The rate of a bin in b/s: 32,000 × 2^(b ÷ 3), between whole numbers where it is not whole. -/
def binRate (b : Nat) : Nat :=
  let n := 32000 ^ 3 * 2 ^ b
  let f := cubeFloor n (32000 * 2 ^ 12)
  if b % 3 = 0 then 32000 * 2 ^ (b / 3) else f + Config.roundPick b % 2

/-- The first bin at which the cumulative count reaches a percentage of the total. -/
def votedBin (pct : Nat) (votes : Tbl Nat) : Option Nat :=
  let total := (votes.map Prod.snd).sum
  if total = 0 then none
  else (List.range 32).find? (fun b => decide (pct * total ≤ 100 * ((votes.filter (fun e => decide (e.1 ≤ b))).map Prod.snd).sum))

/-- A voted target within MIN_KBPS and MAX_KBPS. -/
def clampT (b : List Word) (t : Frac) : Frac := .max (.int (rdMin b * 1000)) (.min (.int (rdMax b * 1000)) t)

/-- T after a completed window: it falls at once and rises by at most a factor of 1.08. -/
def windowT (b : List Word) (votes : Tbl Nat) (t : Frac) : Frac :=
  match votedBin (rdPctile b) votes with
  | none => clampT b t
  | some k => clampT b (.min (.int (binRate k)) (t.scale 108 100))

/-- T in force (R390). -/
def RendRun.target (b : List Word) (r : RendRun) : Frac := if rdVoted b then clampT b r.t else .int (rdTarget b * 1000)

/-! Budgets (R391). -/

/-- Temporal weight in tenths. -/
def temporalWeight (layers t : Nat) : Nat :=
  if layers = 2 then (if t = 0 then 13 else 7) else if layers = 3 then (if t = 0 then 16 else if t = 1 then 10 else 7) else 10

/-- σ as a fraction. -/
def spatialShare (layers s : Nat) : Nat × Nat :=
  if layers = 2 then (s + 1, 3) else if layers = 3 then (2 ^ s, 7) else (1, 1)

/-- N in bits. -/
def frameSize (b cv : List Word) (t : Frac) : Frac := t.scale (rdDiv b) (cvFps cv)

/-- The base budget of a layer frame under a weight in tenths. -/
def baseBudget (b : List Word) (n : Frac) (w s : Nat) : Frac := let q := spatialShare (rdS b) s; n.scale (w * q.1) (10 * q.2)

/-- B. -/
def budgetOf (base d : Frac) : Frac := .max (base.scale 1 10) (base.sub (.min d (base.scale 1 2)))

/-! QP (R392). -/

/-- 2^(k ÷ 12) × 2^64, rounded down, for k from 0 to 11. -/
def root12 (k : Nat) : Nat :=
  [18446744073709551616, 19543644557186313404, 20705770137614810475, 21936999301089678046, 23241441160490167842,
   24623449169262403529, 26087635650665564424, 27638887190972005997, 29282380947994691627, 31023601929370129896,
   32868361298261480554, 34822815767575411577].getD k 0

/-- 2^(e ÷ 12) × 2^64 from below and from above. -/
def powLo (e : Nat) : Nat := root12 (e % 12) * 2 ^ (e / 12)
def powHi (e : Nat) : Nat := (root12 (e % 12) + b2n (e % 12 != 0)) * 2 ^ (e / 12)

/-- The least QP whose upper half-step bound exceeds a value: round(12 + 6 × log2) with 2^64 × 2^-2 as the common scale. -/
def qpBelow (x : Frac) (p : Nat → Nat) : Nat := ((List.range 52).find? (fun q => x.lt (.int (p (2 * q + 1))))).getD 51

/-- round(12 + 6 × log2(K × S ÷ B)) from the class's history of bits, QP and S. -/
def qpFormula (hist : List (Nat × Nat × Nat)) (s : Nat) (b : Frac) (pick : Nat) : Nat :=
  let k := fun (p : Nat → Nat) =>
    (hist.foldl (fun (a : Frac) h => a.add (.of (h.1 * p (2 * h.2.1)) h.2.2)) (.int 0)).mul (.of (s * b.den) (hist.length * b.num.toNat))
  let lo := qpBelow (k powLo) powHi
  let hi := qpBelow (k powHi) powLo
  lo + Config.roundPick pick % (hi + 1 - lo)

/-- Class of a frame: key, or temporal layer (R392). -/
def classOf (key : Bool) (t : Nat) : Nat := if key then 0 else t + 1

/-- The frame QP of a layer: by formula or 30 without history, within QP_MIN to QP_MAX and, but for keyframes, ±4 of the class's last. -/
def frameQp (b : List Word) (r : RendRun) (cls s satd : Nat) (bud : Frac) (pick : Nat) : Nat :=
  let k := 4 * cls + s
  let h := tget [] r.hist k
  let q := if h = [] then 30 else qpFormula h satd bud pick
  let last := tget 0 r.lastQp k
  let q1 := if cls = 0 ∨ last = 0 then q else max (last - 1 - 4) (min (last - 1 + 4) q)
  max (rdQpMin b) (min (rdQpMax b) q1)

/-- Codec QP of an internal one: itself, or for VP8 and AV1 the index whose luma AC step, divided by 4 or 8, is nearest 2^((QP − 4) ÷ 6); between
two as near, a free choice (R392). -/
def codecQp (b : List Word) (q pick : Nat) : Nat :=
  if rdCodec b = 3 ∨ rdCodec b = 4 then q
  else
    let den := if rdCodec b = 2 then 4 else if rd10 b then 32 else 8
    let miss := fun (i : Nat) => ((4 * Config.acStep (rdCodec b) (rd10 b) i * 2 ^ 64 : Int) - den * powLo (2 * q + 16)).natAbs
    let l := List.range (if rdCodec b = 2 then 128 else 256)
    let best := l.filter (fun i => l.all (fun j => decide (miss i ≤ miss j)))
    best.getD (Config.roundPick pick % best.length) 0

/-! Parts (R380, R393). -/

/-- Coding-block rows of each of `p` parts: whole rows, at least 64 luma rows each. How the rest is shared is open. -/
def splitRows (least : Nat) : Nat → Nat → List Nat
  | 0, _ => []
  | 1, r => [r]
  | p + 2, r =>
    let n := least + Config.partExtra r (p + 2) % (r + 1 - least * (p + 2))
    n :: splitRows least (p + 1) (r - n)

/-- Rows and luma rows of the parts of a layer frame of a height: in wavefront mode every P-th row. -/
def partRows (b : List Word) (h p : Nat) : List (Nat × Nat) :=
  let cb := rdBlock b
  let r := (h + cb - 1) / cb
  let l := if rdCodec b = 4 ∧ rdWave b then (List.range p).map (fun k => (r + p - 1 - k) / p) else splitRows ((64 + cb - 1) / cb) p r
  let extra := r * cb - h
  let at_ := if rdCodec b = 4 ∧ rdWave b then (r - 1) % p else p - 1
  (List.range l.length).map (fun k => let n := l.getD k 0; (n, n * cb - if k = at_ then extra else 0))

/-- Size of a P5 bitstream buffer less its margin, in bits. -/
def maxPartBits : Nat := 8384512

/-- The parts of a frame, none begun. -/
def newParts (b cv : List Word) : List EncPart :=
  let l := rdLayers b
  (List.range l.length).flatMap (fun s =>
    let p := rdParts b (cvFps cv)
    let rows := partRows b (l.getD s (0, 0)).2 p
    (List.range rows.length).map (fun k =>
      { layer := s, part := k, core := none, task := 0, begun := false, done := false, luma := (rows.getD k (0, 0)).2, rows := (rows.getD k (0, 0)).1,
        rowsDone := 0, bits := 0, qp := 0, b := 0, h := 0, steps := 0, guardRows := 0, capped := false, sizes := [] }))

/-- Rate control of a frame: base budgets, QP and each part's share of B and H (R391 to R393). -/
def rateFrame (b cv : List Word) (r : RendRun) (pick : Nat) (f : EncFrame) : EncFrame :=
  let n := frameSize b cv (r.target b)
  let w := temporalWeight (rdT b) f.temporal
  let ss := List.range (rdS b)
  let baseNk := ss.map (fun s => baseBudget b n w s)
  let base := ss.map (fun s => baseBudget b n (if f.key then 10 * rdKeyWeight b else w) s)
  let bud := base.map (fun x => budgetOf x r.d)
  let qps := ss.map (fun s => frameQp b r (classOf f.key f.temporal) s (f.satd.getD s 1) (bud.getD s (.int 1)) (pick + s))
  let dims := rdLayers b
  { f with
    base := base, baseNk := baseNk, qps := qps, codecQps := qps.map (fun q => codecQp b q pick),
    parts := f.parts.map (fun (p : EncPart) =>
      let x := (bud.getD p.layer (.int 1)).scale p.luma (dims.getD p.layer (1, 1)).2
      { p with qp := qps.getD p.layer 30, b := x.ceil, h := min maxPartBits (x.scale (rdCapPct b) 100).ceil }) }

/-- K, D and the last QP of a layer after its frame (R391, R392). -/
def RendRun.spent (b cv : List Word) (f : EncFrame) (s : Nat) (r : RendRun) : RendRun :=
  let ps := f.parts.filter (fun p => p.layer == s)
  let bits := (ps.map (·.bits)).sum
  let guarded := ps.any (fun p => p.guardRows != 0 || p.capped)
  let q := f.qps.getD s 30
  let k := 4 * classOf f.key f.temporal + s
  let n := frameSize b cv (r.target b)
  { r with
    d := .max ((Frac.int 0).sub (n.scale 1 4)) ((r.d.add (.int bits)).sub (f.baseNk.getD s (.int 0))),
    lastQp := tput r.lastQp k (q + 1),
    hist := if guarded then r.hist else tput r.hist k (((bits, q, f.satd.getD s 1) :: tget [] r.hist k).take 4) }

end Sys2Proof.Machine
end

