-- ==== Sys2Proof/Machine/Motion.lean ====
section
/-!
DEFINITION. Motion search (R376, R383 to R386): the input stage, the references that a frame may use, the candidates of a block, their cost, the
search around the best one, and the use of a leader's vectors. Vectors are in quarter samples.
-/
namespace Sys2Proof.Machine
open Sys2Proof

/-! The input stage (R376). -/

/-- Size of the rotated crop. -/
def turnedSize (b cv : List Word) : Nat × Nat := if rdRotate b % 2 = 1 then (rdInH b cv, rdInW b cv) else (rdInW b cv, rdInH b cv)

/-- Canvas place of a sample of the rotated, mirrored crop. -/
def canvasPlace (b cv : List Word) (pl x y : Nat) : Nat × Nat :=
  let k := if pl = 0 then 1 else 2
  let w := rdInW b cv / k
  let h := rdInH b cv / k
  let p := if rdRotate b = 0 then (x, y) else if rdRotate b = 1 then (y, h - 1 - x) else if rdRotate b = 2 then (w - 1 - x, h - 1 - y) else (w - 1 - y, x)
  (rdInX b / k + (if rdMirror b then w - 1 - p.1 else p.1), rdInY b / k + p.2)

/-- A sample of the top layer's input at the rendition's depth. -/
def inputSample (m : Mem) (q : Layout) (b cv : List Word) (pl x y : Nat) : Nat :=
  let k := if pl = 0 then 1 else 2
  let t := turnedSize b cv
  toDepth (rd10 b) (scaled 2 2 (fun i j => let p := canvasPlace b cv pl i j; q.get m pl p.1 p.2) (t.1 / k) (t.2 / k) (rdOutW b / k) (rdOutH b / k) 4095 x y)

/-- A canvas vector through mirror, rotation and scale. -/
def mapVector (b cv : List Word) (v : Int × Int) : Int × Int :=
  let u := if rdMirror b then (-v.1, v.2) else v
  let p := if rdRotate b = 0 then u else if rdRotate b = 1 then (-u.2, u.1) else if rdRotate b = 2 then (-u.1, -u.2) else (u.2, -u.1)
  let t := turnedSize b cv
  ((Frac.of (p.1 * rdOutW b) t.1).whole, (Frac.of (p.2 * rdOutH b) t.2).whole)

/-! What a block is compared with. -/

/-- Columns and rows of 16×16 blocks of the analysis picture. -/
def blockCols (b : List Word) : Nat := (rdOutW b + 15) / 16
def blockRows (b : List Word) : Nat := (rdOutH b + 15) / 16

/-- References of the top layer that a frame may predict from: with LTR_MODE acknowledged long-term pictures, for a recovery frame the newest
acknowledged one, none for a keyframe (R388, R389). -/
def permitted (b : List Word) (r : RendRun) (f : EncFrame) : List RecPic :=
  if f.key then []
  else
    r.recs.filter (fun x => x.layer + 1 == rdS b && x.marked &&
      (if f.recovery then x.frame == r.newestAck else !rendLtrMode b || r.ltrs.any (fun y => y.frame == x.frame && y.acked)))

/-- A vector within the codec's range and the padding of the reference, for a block's place. -/
def clampVector (b : List Word) (bx by_ : Nat) (v : Int × Int) : Int × Int :=
  let reach : Int := Config.vectorReach (rdCodec b)
  let pad : Int := Config.refPadding (rdCodec b)
  let side := fun (n at_ : Nat) (x : Int) => max (max (-reach) (-(4 * (16 * at_ + pad)))) (min (min reach (4 * (n + pad - 16 - 16 * at_))) x)
  (side (rdOutW b) bx v.1, side (rdOutH b) by_ v.2)

/-- A sample of a reference at a whole place, its edges repeated. -/
def refSample (m : Mem) (q : Layout) (b : List Word) (x y : Int) : Nat :=
  q.get m 0 (clampTo (rdOutW b - 1) x) (clampTo (rdOutH b - 1) y) / (if rd10 b then 4 else 16)

/-- The sample that a vector predicts: one of the reference, or a value that the codec interpolates between those around it. -/
def predicted (m : Mem) (q : Layout) (b : List Word) (x y : Nat) (v : Int × Int) : Nat :=
  let px := x + v.1 / 4
  let py := y + v.2 / 4
  if v.1 % 4 = 0 ∧ v.2 % 4 = 0 then refSample m q b px py
  else
    Config.interpolate (rdCodec b) (v.1 % 4).toNat (v.2 % 4).toNat
      ((List.range 8).flatMap (fun j => (List.range 8).map (fun i => refSample m q b (px + i - 3) (py + j - 3))))

/-- What the analysis looks at: memory, the frame's output buffer, the rendition and its canvas. -/
structure Scene where
  mem : Mem
  source : Layout
  body : List Word
  canvas : List Word
  deriving DecidableEq, Repr

/-- SATD plus rate cost of a vector in a reference. -/
def Scene.cost (a : Scene) (q : Layout) (ref bx by_ : Nat) (around : List (Int × Int)) (v : Int × Int) : Nat :=
  Config.satd ((List.range 16).flatMap (fun j => (List.range 16).map (fun i =>
    let x := 16 * bx + i
    let y := 16 * by_ + j
    ((inputSample a.mem a.source a.body a.canvas 0 x y : Int) - predicted a.mem q a.body x y v)))) + Config.rateCost ref v.1 v.2 around

/-- The cheapest of a list by a cost, the first of equals. -/
def cheapest {α : Type} (cost : α → Nat) : List α → Option α
  | [] => none
  | x :: l => match cheapest cost l with | some y => some (if cost y < cost x then y else x) | none => some x

/-! Candidates and search (R385, R386). -/

/-- Vector of a block of a field. -/
def fieldAt (t : Tbl BlockMv) (cols bx by_ : Nat) : Option (Int × Int) := (tfind t (by_ * cols + bx)).map (fun v => (v.x, v.y))

/-- Vectors of the left, above and above-right neighbours that have one. -/
def neighbours (b : List Word) (t : Tbl BlockMv) (bx by_ : Nat) : List (Int × Int) :=
  let n := blockCols b
  (if bx = 0 then [] else (fieldAt t n (bx - 1) by_).toList) ++
    (if by_ = 0 then [] else (fieldAt t n bx (by_ - 1)).toList ++ (if bx + 1 < n then (fieldAt t n (bx + 1) (by_ - 1)).toList else []))

/-- The hint map's vector for a block, when valid: the entry of the canvas block at the block's centre, mapped to the output (R383). -/
def hintVector (m : Mem) (map : Nat) (b cv : List Word) (bx by_ : Nat) : Option (Int × Int) :=
  let t := turnedSize b cv
  let p := canvasPlace b cv 0 (min (t.1 - 1) ((16 * bx + 8) * t.1 / rdOutW b)) (min (t.2 - 1) ((16 * by_ + 8) * t.2 / rdOutH b))
  let w := ((wordsOf (m.bytes (map + 4 * (p.2 / 16 * (up16 (cvW cv) / 16) + p.1 / 16)) 4)).getD 0 0).toNat
  if bit w 28 then some (mapVector b cv (signed 14 (bits w 0 14), signed 14 (bits w 14 14))) else none

/-- Displacement of the crop origin between a frame and a reference, in output samples. -/
def inputVector (b cv : List Word) (x : RecPic) : Int × Int := mapVector b cv (4 * ((rdInX b : Int) - x.inX), 4 * ((rdInY b : Int) - x.inY))

/-- The best of a reference's positions around a start: every whole position within `reach`, then eight half and eight quarter positions. -/
def refine (cost : Int × Int → Nat) (limit : Int × Int → Int × Int) (reach : Nat) (v : Int × Int) : Int × Int :=
  let ring := fun (step : Int) (p : Int × Int) =>
    (p :: [(-step, -step), (0, -step), (step, -step), (-step, 0), (step, 0), (-step, step), (0, step), (step, step)].map
      (fun (d : Int × Int) => limit (p.1 + d.1, p.2 + d.2)))
  let span := (List.range (2 * reach + 1)).map (fun k => 4 * ((k : Int) - reach))
  let whole := span.flatMap (fun dy => span.map (fun dx => limit (v.1 / 4 * 4 + dx, v.2 / 4 * 4 + dy)))
  let p := (cheapest cost whole).getD v
  let h := (cheapest cost (ring 2 p)).getD p
  (cheapest cost (ring 1 h)).getD h

/-- One block: the candidates in each permitted reference, the cheapest of them, and the search around it in its reference. A follower's
only candidate is its leader's vector, refined within ±2. -/
def Scene.block (a : Scene) (refs : List (RecPic × Layout)) (now old : Tbl BlockMv) (lead hint : Option (Int × Int)) (bx by_ : Nat) : Option BlockMv :=
  let b := a.body
  let near := neighbours b now bx by_
  let limit := clampVector b bx by_
  let cost := fun (e : (RecPic × Layout) × (Int × Int)) => a.cost e.1.2 e.1.1.frame bx by_ near e.2
  let vectors := fun (x : RecPic) =>
    match lead with
    | some v => [v]
    | none => near ++ (fieldAt old (blockCols b) bx by_).toList ++ [(0, 0), inputVector b a.canvas x] ++ hint.toList
  (cheapest cost (refs.flatMap (fun x => (vectors x.1).map (fun v => (x, limit v))))).map (fun e =>
    let v := refine (fun v => cost (e.1, v)) limit (if lead.isSome then 2 else 16) e.2
    { ref := e.1.1.frame, x := v.1, y := v.2 })

/-- The leader's vector for a block of a follower, scaled to its size. -/
def leadVector (b lb : List Word) (t : Tbl BlockMv) (bx by_ : Nat) : Option (Int × Int) :=
  let x := min (blockCols lb - 1) ((16 * bx + 8) * rdOutW lb / rdOutW b / 16)
  let y := min (blockRows lb - 1) ((16 * by_ + 8) * rdOutH lb / rdOutH b / 16)
  (fieldAt t (blockCols lb) x y).map (fun v => ((Frac.of (v.1 * rdOutW b) (rdOutW lb)).whole, (Frac.of (v.2 * rdOutH b) (rdOutH lb)).whole))

/-- The blocks of some block rows, in raster order, added to a frame's field. -/
def Scene.rows (a : Scene) (refs : List (RecPic × Layout)) (old : Tbl BlockMv) (lead hint : Nat → Nat → Option (Int × Int)) (y0 n : Nat) (now : Tbl BlockMv) :
    Tbl BlockMv :=
  let cols := blockCols a.body
  (List.range (n * cols)).foldl (fun t k =>
    let x := k % cols
    let y := y0 + k / cols
    if y < blockRows a.body then
      match a.block refs t old (lead x y) (hint x y) x y with | some v => tput t (y * cols + x) v | none => t
    else t) now

/-- The field of a leader for a frame: of the frame it codes, or of its last coded one. -/
def leaderField (l : RendRun) (num : Nat) : Tbl BlockMv :=
  match l.busy with
  | some f => if f.num = num then f.field else if l.lastNum = num then l.field else []
  | none => if l.lastNum = num then l.field else []

/-- The analysis of some block rows of a rendition's frame: its vectors so far and the new ones. -/
def analyse (g : Cfg) (i : Nat) (f : EncFrame) (y0 n : Nat) (m : Mem) (c : Chip) : Tbl BlockMv :=
  let b := g.body tRend i
  let cv := g.rendCv i
  let r := tget RendRun.zero c.vid.rends i
  let a : Scene := { mem := m, source := layoutOf (bufAddr c f.buffer) (cvW cv) (cvH cv) (cv10 cv), body := b, canvas := cv }
  let refs := (permitted b r f).map (fun x => (x, layoutOf (bufAddr c x.handle) (rdOutW b) (rdOutH b) (rd10 b)))
  let map := ((tget CanvasRun.zero c.vid.canvases (g.rendCanvas i)).bufs.find? (fun e => e.1 == [5, wd (f.num % cvOutBufs cv)])).map (fun e => bufAddr c e.2)
  let j := idIndex (rdLeader b)
  let lead := fun (x y : Nat) =>
    if rdLeader b = 0 ∨ f.fallback then none else leadVector b (g.body tRend j) (leaderField (tget RendRun.zero c.vid.rends j) f.num) x y
  a.rows refs r.field lead (fun x y => map.bind (fun p => hintVector m p b cv x y)) y0 n f.field

end Sys2Proof.Machine
end

