-- ==== Sys2Proof/Machine/Encoder.lean ====
section
/-!
DEFINITION. Encoding (chapter 11): band items, frames and their parts on the encode cores, the row guard, release of packets, reference
pictures, long-term references, faults, epochs, and the encode commands.
-/
namespace Sys2Proof.Machine
open Sys2Proof

/-! Access. -/

def getRend (c : Chip) (i : Nat) : RendRun := tget RendRun.zero c.vid.rends i
def putRend (i : Nat) (x : RendRun) (c : Chip) : Chip := modRend i (fun _ => x) c
def modBusy (i : Nat) (f : EncFrame → EncFrame) : Chip → Chip := modRend i (fun r => { r with busy := r.busy.map f })
def modPart (s p : Nat) (f : EncPart → EncPart) (x : EncFrame) : EncFrame :=
  { x with parts := x.parts.map (fun y => if y.layer = s ∧ y.part = p then f y else y) }

/-- Count an event at rendition and device scope of GX_ENC_COUNTERS. -/
def countEnc (i pos n : Nat) (c : Chip) : Chip := bump 0x0803 scopeDev pos n (bump 0x0803 i pos n c)

/-- Encoder requester identity of a rendition's owner. -/
def encIdent (g : Cfg) (i : Nat) : Nat := identity ((g.owner tRend i).getD 0) 4

/-- Reconstructed pictures without a mark return their buffers. -/
def recSweep (i : Nat) (c : Chip) : Chip :=
  let l := (getRend c i).recs
  (l.filter (fun x => !x.marked)).foldl (fun c x => drop x.handle c)
    (modRend i (fun r => { r with recs := l.filter RecPic.marked }) c)

/-! Frames (R378, R379, R381). -/

/-- The rate-control task of the frame that comes next, unless it is on its way. -/
def rateTask (g : Cfg) (i : Nat) (c : Chip) : Chip :=
  if fwPending c fwRate i || (fwRunning c fwRate i).isSome then c else fwCreate fwRate 5 ((g.owner tRend i).getD 0) i c

/-- Takes up the next frame once the previous one has completed; the first one after a change of shape finds no old references (R394). -/
def encNext (i : Nat) (c : Chip) : Chip :=
  let r := getRend c i
  match r.busy, r.queue with
  | some f, _ => if f.rcDone then c else rateTask (cfgAt c f.epoch) i c
  | none, [] => c
  | none, it :: _ =>
    let g := cfgAt c it.epoch
    let b := g.body tRend i
    let c := if r.keyEpoch ≠ 0 ∧ r.keyEpoch ≤ it.epoch then recSweep i (modRend i (fun r =>
      { r with recs := r.recs.map (fun x => { x with short := false, long := false, slot := 0 }), ltrs := [] }) c) else c
    let r := getRend c i
    let f : EncFrame :=
      { num := it.frame, epoch := it.epoch, deadlineNs := cvDeadline (g.rendCv i) it.frame, buffer := it.buffer, key := false, recovery := false,
        temporal := 0, spatialUp := false, rcDone := false, satd := [], base := [], baseNk := [], qps := [], codecQps := [], parts := newParts b (g.rendCv i),
        begun := false, retried := false, poisonIn := false, overshoot := false, recs := [], streams := [], field := [],
        fallback := false }
    rateTask g i (putRend i { r with busy := some f } c)

/-- Tasks of the parts that run end; a task that waits finds no frame when it starts. -/
def endParts (f : EncFrame) (status : Nat) (c : Chip) : Chip :=
  (f.parts.filter (fun p => p.core.isSome && !p.done)).foldl (fun c p => endTask p.task (unitDone p.task status 0 false false c)) c

/-- A frame leaves the encoder: its items, its output buffer, and the buffers it took, but for those of `kept`. -/
def encLeave (i : Nat) (f : EncFrame) (kept : List Nat) (c : Chip) : Chip :=
  let c1 := modRend i (fun r => { r with busy := none, queue := r.queue.filter (fun it => it.frame != f.num) }) c
  (f.streams ++ f.recs.filter (fun h => !kept.contains h)).foldl (fun c h => drop h c) (drop f.buffer c1)

/-- A frame goes for a reason that a leader's followers do not share. -/
def noteGone (i num : Nat) : Chip → Chip := modRend i (fun r => { r with gone := num :: r.gone.filter (fun n => decide (num < n + 256)) })

/-- A frame is discarded: nothing is released and the references stay as they were (R378). `alone` says that the leader's frame goes
for a reason that its followers do not share (R386). -/
def encDiscard (i : Nat) (alone : Bool) (status : Nat) (c : Chip) : Chip :=
  match (getRend c i).busy with
  | none => c
  | some f =>
    let c1 := encLeave i f [] (endParts f status c)
    encNext i (countEnc i 3 1 (if alone then noteGone i f.num c1 else c1))

/-- A frame that has not begun is skipped because the next one is there: it counts as that and among the skipped frames (R379, R391). -/
def behindSkip (g : Cfg) (i island num : Nat) (c : Chip) : Chip :=
  raiseRated island 0x802 (g.owner tRend i) (g.idAt tRend i) (fun n => n) 1
    (countEnc i 4 1 (countEnc i 2 1 (noteGone i num c)))

/-- Items of a frame that waits leave the queue, with the hold on its output buffer. -/
def unqueue (i num : Nat) (c : Chip) : Chip :=
  match (getRend c i).queue.find? (fun it => it.frame == num) with
  | none => c
  | some it => drop it.buffer (modRend i (fun r => { r with queue := r.queue.filter (fun x => x.frame != num) }) c)

/-- Frames that wait unbegun when the first band of the next one arrives are skipped. -/
def skipBehind (g : Cfg) (i island : Nat) (c : Chip) : Chip :=
  let r := getRend c i
  let gone := r.queue.map (·.frame) |>.foldl linsert []
  let num := fun (n : Nat) => match r.busy with | some f => f.num == n && f.begun | none => false
  (gone.filter (fun n => !num n)).foldl (fun c n =>
    match (getRend c i).busy with
    | some f => behindSkip g i island n (if f.num = n then encLeave i f [] (endParts f 0 c) else unqueue i n c)
    | none => behindSkip g i island n (unqueue i n c)) c

/-- A band item reaches the cut-through queue of a rendition (R363, R378, R379). Items of frames that the rendition does not code pass
it by. -/
def encItem (i island : Nat) (it : BandItem) (c : Chip) : Chip :=
  let g := cfgAt c it.epoch
  if !g.has tRend i || it.frame % rdDiv (g.body tRend i) != 0 then c
  else if it.skip then countEnc i 2 1 c
  else if it.discard then
    match (getRend c i).busy with
    | some f => if f.num = it.frame then encDiscard i false 0 c else if (getRend c i).queue.any (fun x => x.frame == it.frame) then countEnc i 3 1 (unqueue i it.frame c) else c
    | none => c
  else if it.firstRow = 0 then
    encNext i (modRend i (fun r => { r with queue := r.queue ++ [it] }) (keep it.buffer (skipBehind g i island c)))
  else if (getRend c i).queue.any (fun x => x.frame == it.frame) then modRend i (fun r => { r with queue := r.queue ++ [it] }) c
  else c

/-! Rate control (R381, R388 to R392). -/

/-- Temporal layer at a place of the pattern (R372). -/
def patternAt (layers p : Nat) : Nat := if layers = 2 then p % 2 else if layers = 3 then [0, 2, 1, 2].getD (p % 4) 0 else 0

/-- The frame is a keyframe: it is the first, it was asked for, it opens a changed shape, or KEY_INTERVAL or poison demands it (R389,
R394). -/
def mustKey (b : List Word) (r : RendRun) (f : EncFrame) : Bool :=
  !r.begun || r.keyAsked || f.key || (r.keyEpoch != 0 && decide (r.keyEpoch ≤ f.epoch)) || (rdKeyEvery b != 0 && r.coded % rdKeyEvery b == 0)

/-- Kind and layer of the frame as things stand. A keyframe belongs to temporal layer 0 and starts the pattern again. -/
def frameKind (b : List Word) (r : RendRun) (f : EncFrame) : EncFrame :=
  let key := mustKey b r f
  let t := if key then 0 else patternAt (rdT b) r.pattern
  { f with key := key, recovery := !key && (r.recoveryAsked || f.recovery), temporal := t,
           spatialUp := key || (rdSpatial b != 0 && t == 0 && r.units0 % rdSpatial b == 0) }

/-- The newest acknowledged picture is more than 10 s older than the frame (R388). -/
def staleLtr (g : Cfg) (i island : Nat) (f : EncFrame) (c : Chip) : Chip :=
  let r := getRend c i
  if rendLtrMode (g.body tRend i) ∧ r.begun ∧ r.newestAckNs + 10000000000 < f.deadlineNs ∧ !r.ltrStale then
    raise island 0x804 (g.owner tRend i) (g.idAt tRend i) ((svc c - r.ackNs) / 1000000) (modRend i (fun r => { r with ltrStale := true, keyAsked := true }) c)
  else c

/-- Tasks of a frame's parts, once rate control has run: level 5, any core of any die (R381). -/
def partTasks (g : Cfg) (i : Nat) (f : EncFrame) (c : Chip) : Chip :=
  f.parts.foldl (fun c p =>
    (createTask ((g.owner tRend i).getD 0)
      { TaskDesc.zero with target := 2, prio := 5, etag := f.epoch % 2 == 1, affinity := 0xF, work := i,
                           args := [wd f.num, wd p.layer, wd p.part] } c).2) c

/-- `RATE_CONTROL_RUN`: the task that runs for the rendition sets budgets and QP of its frame from S of each layer, at least 1. -/
def rateRow (i : Nat) (satd : List Nat) (c : Chip) : Chip :=
  match fwRunning c fwRate i with
  | none => c
  | some slot =>
    let isl := clusterIsland ((getTask c slot).unit / 32)
    let c0 := fwFinish slot c
    match (getRend c0 i).busy with
    | some f =>
      if f.rcDone then c0
      else
        let g := cfgAt c0 f.epoch
        let b := g.body tRend i
        let c1 := staleLtr g i isl f c0
        let d := draw c1
        let r := getRend c1 i
        let s := (List.range (rdS b)).map (fun k => max 1 (satd.getD k 1))
        let f1 := rateFrame b (g.rendCv i) r d.1 { frameKind b r f with satd := s, rcDone := true }
        let live := sameObj c0 g tRend i
        let c2 := if live then d.2 else staleWrite d.2
        partTasks g i f1 (putRend i { r with t := if live then r.target b else r.t, busy := some f1 } c2)
    | none => c0

def execRateControlRun (rend : Nat) (satd : List Nat) (s : State) : Host.Outcome State Fault Refusal := act s (rateRow rend satd)

/-- `VOTE_WINDOW_END` (R390): the window that fills is completed at its end, or one already completed is looked at. -/
def voteWindow (i : Nat) (c : Chip) : Chip :=
  let r := getRend c i
  let g := cfg c
  let b := g.body tRend i
  let c1 := if r.voteSeen < r.voteWin then c else waitSvc ((r.voteWin + 1) * 200000000) c
  let r1 := r.rollVotes (svc c1)
  if !g.has tRend i then c
  else putRend i { r1 with t := if rdVoted b then windowT b r1.votesDone r1.t else r1.t, voteSeen := r1.voteWin } c1

def execVoteWindowEnd (rend : Nat) (s : State) : Host.Outcome State Fault Refusal := act s (voteWindow rend)

/-! Starting (R378, R381, R386, R387, R389). -/

/-- A part's task starts on a core; one whose frame is gone ends at once. -/
def encStart (slot core : Nat) (c0 : Chip) : Chip :=
  let c := startTask slot core c0
  let d := (getTask c slot).desc
  let a := fun (k : Nat) => bw d.args (4 * k)
  match (getRend c d.work).busy with
  | some f =>
    if f.num % 2 ^ 32 = a 0 ∧ f.rcDone ∧ f.parts.any (fun p => p.layer == a 1 && p.part == a 2 && p.core.isNone) then
      modBusy d.work (modPart (a 1) (a 2) (fun p => { p with core := some core, task := slot })) c
    else endTask slot (unitDone slot 0 0 false false c)
  | none => endTask slot (unitDone slot 0 0 false false c)

/-- Rows of the canvas that are present for a frame, and whether the last band is. -/
def rowsHere (r : RendRun) (num : Nat) : Nat × Bool :=
  let l := r.queue.filter (fun it => it.frame == num)
  ((l.map (·.rows)).sum, l.any (fun it => it.last))

/-- Enough rows for a part to begin (R378). -/
def mayBegin (b cv : List Word) (h : Nat × Bool) : Bool := h.2 || (rdRotate b % 2 == 0 && decide (cvCtRows cv ≤ h.1))

/-- What a follower finds of its leader's analysis of a frame (R386): none while it must wait for its end, else whether it falls back. -/
def leaderState (g : Cfg) (b : List Word) (num : Nat) (c : Chip) : Option Bool :=
  if rdLeader b = 0 then some false
  else
    let l := getRend c (idIndex (rdLeader b))
    let top := rdS (g.body tRend (idIndex (rdLeader b)))
    if l.gone.contains num then some true
    else if l.coded ≠ 0 ∧ l.lastNum = num then some false
    else match l.busy with
      | some f =>
        if f.num = num then (if f.parts.all (fun p => p.layer + 1 != top || p.rowsDone == p.rows) then some false else none)
        else if l.queue.any (fun it => it.frame == num) then none else some true
      | none => if l.queue.any (fun it => it.frame == num) then none else some true

/-- Buffers of a frame: one for the reconstruction of each layer, and one for each part's bitstream (R387). -/
def takeBuffers (g : Cfg) (i : Nat) (c : Chip) : (List Nat × List Nat) × Chip :=
  let b := g.body tRend i
  let who := encIdent g i
  let get := fun (p : Nat) (a : List Nat × Chip) => let q := allocIn who p a.2; (a.1 ++ [if q.1 = 0 then q.2.1 else 0], q.2.2)
  let recs := (rdLayers b).foldl (fun a d => get ((fitPool [5, 6, 7] (pictureBytes d.1 d.2 (rd10 b))).getD 7) a) ([], c)
  let strs := (List.range (rdS b * rdParts b (cvFps (g.rendCv i)))).foldl (fun a _ => get 5 a) ([], recs.2)
  ((recs.1, strs.1), strs.2)

/-- The first part of a frame begins: the kind of the frame is settled, and it takes its buffers. -/
def frameBegin (g : Cfg) (i : Nat) (f : EncFrame) (fallback : Bool) (c : Chip) : Chip :=
  let b := g.body tRend i
  let d := draw c
  let t := takeBuffers g i (if fallback ∧ !f.fallback then countEnc i 11 1 d.2 else d.2)
  let r := getRend t.2 i
  let k := frameKind b r f
  let f1 := if k.key = f.key ∧ k.temporal = f.temporal then k else rateFrame b (g.rendCv i) r d.1 k
  putRend i { r with
    busy := some { f1 with begun := true, recs := t.1.1, streams := t.1.2, fallback := fallback }, begun := true, keyAsked := false,
    recoveryAsked := r.recoveryAsked && !f1.recovery && !f1.key, keyEpoch := if f1.key ∧ r.keyEpoch ≤ f.epoch then 0 else r.keyEpoch } t.2

/-- `ENCODE_PART_START` (R378): a part on a core begins the frame when its rows, and its leader's analysis, are there. -/
def partStart (i s p : Nat) (c : Chip) : Chip :=
  let r := getRend c i
  match r.busy with
  | none => c
  | some f =>
    let g := cfgAt c f.epoch
    let b := g.body tRend i
    let ready := f.parts.any (fun x => x.layer == s && x.part == p && x.core.isSome && !x.begun) && mayBegin b (g.rendCv i) (rowsHere r f.num)
    match (if !ready then none else if f.begun then some f.fallback else leaderState g b f.num c) with
    | none => c
    | some fallback =>
      modBusy i (modPart s p (fun x => { x with begun := true })) (if f.begun then c else frameBegin g i f fallback c)

def execEncodePartStart (rend layer part : Nat) (s : State) : Host.Outcome State Fault Refusal := act s (partStart rend layer part)

/-! Rows (R393, R394). -/

/-- Canvas rows, from the top, that the output rows up to `e` of a layer of a height need at least, before the reach of the filter. -/
def needRows (b cv : List Word) (e h : Nat) : Nat :=
  if rdRotate b = 0 then rdInY b + (e * rdInH b cv + h - 1) / h else if rdRotate b = 2 then rdInY b + rdInH b cv else cvH cv

/-- One coding-block row of a part: bits, guard and cap. -/
def encRow (b : List Word) (n : Nat) (p : EncPart) : EncPart :=
  let bits := p.bits + n
  let excess := decide (p.b ≤ bits) && decide (p.rowsDone + 1 < p.rows)
  let up := excess && (rdCodec b != 2 || decide (p.steps < 3))
  { p with bits := bits, rowsDone := p.rowsDone + 1, capped := p.capped || decide (p.h ≤ bits),
           qp := if up then min (rdQpMax b) (p.qp + rdRowStep b) else p.qp, steps := if excess then p.steps + 1 else p.steps,
           guardRows := if excess then p.guardRows + 1 else p.guardRows }

/-- References read with poison: the marks go, and without one left the next frame is a keyframe (R394). -/
def poisonRefs (i : Nat) (frames : List Nat) (c : Chip) : Chip :=
  if frames = [] then c
  else modRend i (fun r =>
    let l := r.recs.map (fun (x : RecPic) => if frames.contains x.frame then { x with short := false, long := false, slot := 0 } else x)
    { r with recs := l, ltrs := r.ltrs.filter (fun x => !frames.contains x.frame), keyAsked := r.keyAsked || l.all (fun x => !x.marked) }) c

/-- Coding-block row of the layer that a part codes next: in wavefront mode every P-th, else those after the parts above. -/
def codingRow (b : List Word) (f : EncFrame) (s : Nat) (x : EncPart) : Nat :=
  let ps := f.parts.filter (fun y => y.layer == s)
  if rdCodec b = 4 ∧ rdWave b then x.rowsDone * ps.length + x.part else ((ps.filter (fun y => decide (y.part < x.part))).map (·.rows)).sum + x.rowsDone

/-- `ENCODE_ROW_DONE` (R385, R393): the blocks of the row of the top layer are analysed, and the row is coded at a cost in bits; whether its input
read as poison, and the frames of references that did. A row whose canvas rows are not present is not reached yet. -/
def rowDone (i s p n : Nat) (poisonIn : Bool) (badRefs : List Nat) (m : Mem) (c : Chip) : Chip :=
  let r := getRend c i
  match r.busy with
  | none => c
  | some f =>
    match f.parts.find? (fun x => x.layer == s && x.part == p) with
    | none => c
    | some x =>
      let g := cfgAt c f.epoch
      let b := g.body tRend i
      let h := rowsHere r f.num
      let hh := ((rdLayers b).getD s (1, 1)).2
      let before := ((f.parts.filter (fun y => y.layer == s && decide (y.part < p))).map (·.luma)).sum
      let here := h.2 || decide (needRows b (g.rendCv i) (min hh (before + rdBlock b * (x.rowsDone + 1))) hh ≤ h.1)
      if !x.begun || x.done || x.rows ≤ x.rowsDone || !here then c
      else
        let y := encRow b n x
        let own := g.owner tRend i
        let id := g.idAt tRend i
        let isl := encodeIsland (x.core.getD 0)
        let field := if s + 1 = rdS b then analyse g i f (codingRow b f s x * (rdBlock b / 16)) (rdBlock b / 16) m c else f.field
        let c1 := modBusy i (fun f => { modPart s p (fun _ => y) f with field := field }) c
        let c2 := if x.guardRows < y.guardRows then countEnc i 5 1 c1 else c1
        let c3 := if y.capped ∧ !f.overshoot then
            raiseRated isl 0x801 own id (fun n => n) 1 (countEnc i 6 1 (modBusy i (fun f => { f with overshoot := true }) c2)) else c2
        let c4 := if poisonIn ∧ !f.poisonIn then
            raiseRated isl 0x805 own id (fun n => n) 1 (countEnc i 9 1 (modBusy i (fun f => { f with poisonIn := true }) c3)) else c3
        poisonRefs i badRefs c4

def execEncodeRowDone (rend layer part bits : Nat) (poisonIn : Bool) (badRefs : List Nat) (s : State) : Host.Outcome State Fault Refusal :=
  act s (rowDone rend layer part bits poisonIn badRefs s.mem)

/-! Release (R372 to R375). -/

/-- Decode targets of an output source for which a frame is a switch point: bit d for the layer that DT_MAP gives it. -/
def switchMask (b : List Word) (sb : List Word) (f : EncFrame) (s : Nat) : Nat :=
  if rdCodec b ≠ 1 then 0
  else ((List.range 8).map (fun d =>
    match srcDt sb d with
    | some (ds, dt) => if f.key ∨ (dt ≤ f.temporal ∧ (ds = s ∨ f.spatialUp)) then 2 ^ d else 0
    | none => 0)).sum

/-- Header bytes of a packet: 12, and for AV1 the dependency descriptor in its extension block (R373). -/
def rendHeader (b : List Word) (structure_ : Bool) : Nat :=
  if rdCodec b ≠ 1 then 12
  else 16 + (Config.ddBytes (rdS b) (rdT b) structure_ + (if rdTwoByte b then 2 else 1) + 3) / 4 * 4

/-- A packet of a frame: layer, payload bytes, first and last of its layer frame, last of the unit. -/
structure RelPkt where
  layer : Nat
  bytes : Nat
  first : Bool
  last : Bool
  unitEnd : Bool
  deriving DecidableEq, Repr

/-- Packets of a frame in spatial-layer order. -/
def framePkts (b : List Word) (f : EncFrame) : List RelPkt :=
  (List.range (rdS b)).flatMap (fun s =>
    let l := (f.parts.filter (fun p => p.layer == s)).flatMap (·.sizes)
    (List.range l.length).map (fun k =>
      { layer := s, bytes := min (rdMaxPayload b) (l.getD k 0), first := k == 0, last := k + 1 == l.length,
        unitEnd := k + 1 == l.length && s + 1 == rdS b }))

/-- One packet to the forwarder; it keeps its sequence number when it finds no buffer (R375). -/
def releasePkt (g : Cfg) (i src ts n k : Nat) (f : EncFrame) (p : RelPkt) (c : Chip) : Chip :=
  let b := g.body tRend i
  let r := getRend c i
  let hdr := rendHeader b (f.key && k == 0)
  let c1 := modRend i (fun r => { r with seq := (r.seq + 1) % 65536 }) c
  let a := alloc (encIdent g i) (p.bytes + hdr) 2 c1
  if a.1 ≠ 0 then countEnc i 8 1 a.2.2
  else
    let d := draw a.2.2
    let vp8 := rdCodec b == 2
    let period := k * rdSpread b * 1000000000 * rdDiv b / (100 * n * cvFps (g.rendCv i))
    admitPkt g (g.srcPipe src)
      { source := src, seq := r.seq, ts := ts, pt := 0, marker := p.unitEnd, bytes := p.bytes, hdrBytes := hdr, b0 := if hdr = 12 then 0x80 else 0x90,
        tail := if hdr = 12 then 0 else ((if rdTwoByte b then 0x1000 else 0xBEDE) * 65536 + (hdr / 4 - 4)) * 256 ^ (hdr - 16) + Config.ddOctets d.1 % 256 ^ (hdr - 16),
        frameBytes := p.bytes + hdr,
        desc := descWord p.layer f.temporal f.key true p.first p.last 127 false (switchMask b (g.body tSource src) f p.layer) src,
        cacheRef := 0, pid := if vp8 then r.pid else 0, pidBits := if vp8 then 15 else 0, tl0 := if vp8 then r.tl0 else 0, hasTl0 := vp8, stampNs := svc d.2,
        payload := d.1, buf := a.2.1, epoch := 0, walk := [], late := false,
        launchNs := if rdSpread b = 0 then 0 else svc c + period } d.2

/-- RTP timestamp of a frame (R374). -/
def frameTs (base deadline : Nat) : Nat := (base + (2 * deadline * 90000 + 1000000000) / 2000000000) % 2 ^ 32

/-- Legs that forward a source and receive RFC 8888 feedback (R388). -/
def ackLegs (g : Cfg) (src : Nat) (c : Chip) : List Nat :=
  ((g.edgesOf src).map (fun e => edLeg (g.body tEdge e))).foldl linsert [] |>.filter (fun l => (getLeg c l).ccfbSeen)

/-- Long-term slot of lowest index that does not hold the newest acknowledged picture. -/
def ltrSlot (b : List Word) (r : RendRun) : Nat :=
  ((List.range (rdLtrSlots b)).find? (fun k => !r.ltrs.any (fun x => x.slot == k && x.frame == r.newestAck && x.acked))).getD 0

/-- Reference marks after a frame (R387, R388): a keyframe clears the others; without LTR the newest NUM_REFS of a layer stay. AV1 and VP8
refresh a slot, which no other picture keeps: the lowest that is free, else the last (log 218). -/
def markRefs (b : List Word) (f : EncFrame) (ltr : Bool) (gone : List Nat) (l : List RecPic) : List RecPic :=
  let mode := rendLtrMode b
  let slots := rdCodec b == 1 || rdCodec b == 2
  let old := if f.key then l.map (fun (x : RecPic) => { x with short := false, long := false, slot := 0 })
    else l.map (fun (x : RecPic) => if gone.contains x.frame then { x with long := false } else x)
  let held := fun (x : RecPic) => x.short || x.slot != 0
  let kept := old.map (fun (x : RecPic) =>
    if held x && decide (rdRefs b ≤ 1 + (old.filter (fun y => y.layer == x.layer && held y && decide (x.frame < y.frame))).length) then { x with short := false, slot := 0 }
    else x)
  (List.range f.recs.length).foldl (fun l s =>
    let n := if rdCodec b = 2 then 3 else 8
    let k := ((List.range n).find? (fun k => !l.any (fun x => x.slot.getLsbD k))).getD (n - 1)
    let bit_ : BitVec 8 := if slots && !mode then BitVec.twoPow 8 k else 0
    { layer := s, handle := f.recs.getD s 0, frame := f.num, short := !mode && !slots, long := mode && ltr, slot := bit_, inX := rdInX b, inY := rdInY b } ::
      l.map (fun (x : RecPic) => { x with slot := x.slot &&& ~~~bit_ })) kept

/-- A frame whose parts are all done: rate control takes its bits, its packets go to the forwarder, references are marked. For a rendition that
the current epoch has removed what rate control keeps is a stale write (R37). -/
def finishFrame (i : Nat) (f : EncFrame) (c : Chip) : Chip :=
  let g := cfgAt c f.epoch
  let b := g.body tRend i
  let cv := g.rendCv i
  let src := (g.rendSource i).getD 0
  let bits := (f.parts.map (·.bits)).sum
  let pkts := framePkts b f
  let r0 := getRend c i
  let live := sameObj c g tRend i
  let r1 := (if live then List.range (rdS b) else []).foldl (fun r s => r.spent b cv f s) { r0 with pid := (r0.pid + 1) % 32768, tl0 := if f.temporal = 0 then (r0.tl0 + 1) % 256 else r0.tl0 }
  let c1 := countEnc i 7 bits (countEnc i 0 1 (if f.key then countEnc i 1 1 (putRend i r1 c) else putRend i r1 c))
  let first := r1.seq
  let c2 := (List.range pkts.length).foldl (fun c k =>
    match pkts[k]? with | some p => releasePkt g i src (frameTs r1.tsBase f.deadlineNs) pkts.length k f p c | none => c) (if live then c1 else staleWrite c1)
  let legs := ackLegs g src c2
  let ltr := rendLtrMode b && (f.key || r1.coded % rdLtrEvery b == 0)
  let slot := if f.key then 0 else ltrSlot b r1
  let gone := if ltr then (r1.ltrs.filter (fun (x : Ltr) => x.slot == slot)).map (fun (x : Ltr) => x.frame) else []
  let mark : Ltr :=
    { slot := slot, frame := f.num, acked := f.key, atNs := svc c,
      open_ := if f.key then [] else legs.flatMap (fun l => (List.range pkts.length).map (fun k => (l, (first + k) % 65536))) }
  let c3 := modRend i (fun r =>
    { r with coded := r.coded + 1, pattern := if f.key then 1 else r.pattern + 1, units0 := if f.temporal = 0 then r.units0 + 1 else r.units0,
             lastNum := f.num, field := f.field, lastBits := bits, lastQpUsed := f.qps.getD (rdS b - 1) 0, overshoot := f.overshoot, lastKey := f.key,
             recs := markRefs b f ltr gone r.recs,
             ltrs := if ltr then (if f.key then [] else r.ltrs.filter (fun x => x.slot != slot)) ++ [mark] else if f.key then [] else r.ltrs : RendRun }.settleAcks (svc c)) c2
  encNext i (recSweep i (encLeave i f f.recs c3))

/-- What the cores have written of a frame: its reconstructed layers in the layout of R319 with motion data, and its bitstreams (R387). The
codec's own results are free functions of the frame's number `d` among the free values (log 84). -/
def frameWrites (b : List Word) (f : EncFrame) (d : Nat) (c : Chip) : List (Nat × List Byte) :=
  let ten := rd10 b
  ((List.range f.recs.length).flatMap (fun s =>
    let h := f.recs.getD s 0
    let e := (rdLayers b).getD s (0, 0)
    let q := layoutOf (bufAddr c h) e.1 e.2 ten
    if h = 0 then [] else
      q.rows (fun pl x y => Config.rebuilt (4 * d + s) pl x y % (if ten then 1024 else 256)) (up16 e.1) 0 (up16 e.2) ++
        [(q.base + q.stride * up16 e.2 * 3 / 2, (List.range (up16 e.1 * up16 e.2 / 16)).map (fun k => BitVec.ofNat 8 (Config.motionByte (4 * d + s) k)))])) ++
  ((List.range f.parts.length).filterMap (fun k =>
    match f.streams.getD k 0, f.parts[k]? with
    | h + 1, some p => some (bufAddr c (h + 1), (List.range ((p.bits + 63) / 64 * 8)).map (fun j => BitVec.ofNat 8 (Config.streamByte (64 * d + k) j)))
    | _, _ => none))

/-- `ENCODE_PART_DONE` (R375): a part whose rows are all coded ends with the payload sizes of its packets. A bitstream or context state
that reads with poison discards the frame, and the next one is a keyframe (R394). -/
def partDone (i s p : Nat) (sizes : List Nat) (poison : Bool) (c : Chip) (m : Mem) : Chip × List MemOp :=
  match (getRend c i).busy with
  | none => (c, [])
  | some f =>
    match f.parts.find? (fun x => x.layer == s && x.part == p) with
    | none => (c, [])
    | some x =>
      if !x.begun || x.done then (c, [])
      else if poison then (modRend i (fun r => { r with keyAsked := true }) (encDiscard i true 0x8007 c), [])
      else if x.rowsDone < x.rows then (c, [])
      else
        let f1 := modPart s p (fun y => { y with done := true, sizes := sizes }) f
        let c1 := endTask x.task (unitDone x.task 0 0 false false (modRend i (fun r => { r with busy := some f1 }) c))
        let d := draw c1
        if f1.parts.all (·.done) then (finishFrame i f1 d.2, storeAll m c (frameWrites ((cfgAt c f.epoch).body tRend i) f d.1 c)) else (c1, [])

def execEncodePartDone (rend layer part : Nat) (sizes : List Nat) (poison : Bool) (s : State) : Host.Outcome State Fault Refusal :=
  actMem s (partDone rend layer part sizes poison)

/-! Faults (R382). -/

/-- The rendition of which a part is on a core. -/
def rendOn (core : Nat) (c : Chip) : Option (Nat × RendRun) :=
  c.vid.rends.find? (fun e => match e.2.busy with | some f => f.parts.any (fun p => p.core == some core && !p.done) | none => false)

/-- `ENC_CORE_FAULT`: the frame is coded again once from its output buffer; a second failure discards it. -/
def encCoreFault (core : Nat) (c : Chip) : Chip :=
  let isl := encodeIsland core
  match rendOn core c with
  | none => unitFault 2 core (raise isl 0x803 none isl 0 c)
  | some (i, x) =>
    match x.busy with
    | none => c
    | some f =>
      let g := cfgAt c f.epoch
      let c1 := unitFault 2 core (raise isl 0x803 none isl (i + 2 ^ 16 * b2n f.retried) c)
      if f.retried then encDiscard i true 0x8008 c1
      else
        let c2 := (f.streams ++ f.recs).foldl (fun c h => drop h c) (endParts f 0x8008 c1)
        let d := draw c2
        let blank := { f with retried := true, begun := false, recs := [], streams := [], field := [], parts := newParts (g.body tRend i) (g.rendCv i) }
        let f1 := rateFrame (g.body tRend i) (g.rendCv i) x d.1 blank
        partTasks g i f1 (modRend i (fun r => { r with busy := some f1 }) d.2)

def execEncCoreFault (core : Nat) (s : State) : Host.Outcome State Fault Refusal := act s (encCoreFault core)

/-- `LTR_ACK_TIMEOUT` (R388): the oldest candidate that is not acknowledged within LTR_ACK_MS is unmarked. -/
def ltrTimeout (i : Nat) (c0 : Chip) : Chip :=
  match (getRend c0 i).ltrs.find? (fun x => !x.acked) with
  | none => c0
  | some x =>
    let c := waitSvc (x.atNs + rdAckMs ((cfg c0).body tRend i) * 1000000) c0
    recSweep i (modRend i (fun r =>
      { r with ltrs := r.ltrs.filter (fun y => y.frame != x.frame),
               recs := r.recs.map (fun y => if y.frame = x.frame then { y with long := false } else y) }) c)

def execLtrAckTimeout (rend : Nat) (s : State) : Host.Outcome State Fault Refusal := act s (ltrTimeout rend)

/-! Epochs (R394). -/

/-- A frame of an epoch is being coded or waits. -/
def encodeBusy (c : Chip) (epoch : Nat) : Bool :=
  c.vid.rends.any (fun e => (match e.2.busy with | some f => f.epoch == epoch | none => false) || e.2.queue.any (fun it => it.epoch == epoch))

/-- The drain limit: frames of the epoch are discarded. -/
def encodeForce (epoch : Nat) (c : Chip) : Chip :=
  c.vid.rends.foldl (fun c e =>
    let r := getRend c e.1
    let waiting := ((r.queue.filter (fun it => it.epoch == epoch && it.firstRow == 0 && (match r.busy with | some f => f.num != it.frame | none => true)))).map (·.frame)
    let gone := (match r.busy with | some f => f.epoch == epoch | none => false) || !waiting.isEmpty
    let isl := match r.busy with | some f => encodeIsland ((f.parts.findSome? (·.core)).getD 0) | none => encodeIsland 0
    let c1 := waiting.foldl (fun c n => countEnc e.1 3 1 (unqueue e.1 n c)) c
    let c2 := if (match r.busy with | some f => f.epoch == epoch | none => false) then encDiscard e.1 true 0x8004 c1 else c1
    if gone then drainForced isl ((cfgAt c epoch).idAt tRend e.1) 3 epoch c2 else c2) c

/-- Settings whose change makes the first frame of an epoch a keyframe (R394): codec, profile, depth, layers, parts, rotation, mirror,
crop and size. -/
def rendShape (b : List Word) : List Nat :=
  [bw b 12 % 2 ^ 6, bf b 12 8 12, bw b 16, bw b 20, bw b 24]

/-- Rates at creation (R394): TARGET_KBPS, or MIN_KBPS for voted rate control. -/
def firstRate (b : List Word) : Frac := .int ((if rdVoted b then rdMin b else rdTarget b) * 1000)

/-- A new epoch: a new rendition starts with free base values; a change of shape asks for a keyframe from its first frame on; legs that
are gone are no longer waited for. -/
def encodeActivate (old g : Cfg) (c : Chip) : Chip :=
  (g.indexes tRend).foldl (fun c i =>
    let b := g.body tRend i
    if old.idAt tRend i ≠ g.idAt tRend i then
      let d := draw c
      let e := draw d.2
      putRend i { RendRun.zero with
        t := firstRate b, seq := d.1 % 65536, tsBase := d.1 / 65536 % 2 ^ 32, pid := e.1 % 32768, tl0 := e.1 / 32768 % 256,
        voteWin := svc c / 200000000, voteSeen := svc c / 200000000 } e.2
    else
      modRend i (fun r =>
        { r with keyEpoch := if rendShape (old.body tRend i) = rendShape b then r.keyEpoch else g.epoch,
                 ltrs := r.ltrs.map (fun (x : Ltr) => { x with open_ := x.open_.filter (fun o => g.has tLeg o.1) }) : RendRun }.settleAcks (svc c)) c) c

/-- Renditions that are gone give their references back. -/
def encodeRetire (c : Chip) : Chip :=
  let g := cfg c
  (c.vid.rends.filter (fun e => !g.has tRend e.1 && e.2.busy.isNone && e.2.queue.isEmpty)).foldl (fun c e =>
    modVid (fun v => { v with rends := tdel v.rends e.1 }) (e.2.recs.foldl (fun c x => drop x.handle c) c)) c

/-! Commands. -/

/-- The next frame whose parts have not begun (R389). -/
def nextKeyFrame (g : Cfg) (i : Nat) (c : Chip) : Nat :=
  let r := getRend c i
  let n := rdDiv (g.body tRend i)
  let coming := (tget CanvasRun.zero c.vid.canvases (g.rendCanvas i)).next
  match r.busy with
  | some f =>
    if !f.begun then f.num
    else ((r.queue.find? (fun it => it.frame != f.num)).map (·.frame)).getD ((coming + n - 1) / n * n)
  | none => (coming + n - 1) / n * n

def rendKeyframe (x : Ctx) (c : Chip) : Chip :=
  x.withObj (bw x.body 0) tRend (fun _ c =>
    let i := idIndex (bw x.body 0)
    x.done (Res.ok (wd2 (nextKeyFrame (cfg c) i c))) (countEnc i 10 1 (modRend i (fun r => { r with keyAsked := true }) c))) c

/-- `GX_RENDITION_KEYFRAME` (R389). -/
def execGxRenditionKeyframe (cmd : CmdRef) (s : State) : Host.Outcome State Fault Refusal := act s (serve 0x0801 cmd noFields rendKeyframe)

def rendQuery (x : Ctx) (c : Chip) : Chip :=
  x.withObj (bw x.body 0) tRend (fun _ c =>
    let i := idIndex (bw x.body 0)
    let g := cfg c
    let r := getRend c i
    let refs := (r.recs.filter RecPic.marked).length
    x.done (Res.ok (wd2 r.lastNum ++ [wd ((r.target (g.body tRend i)).scale 1 1000).floor.toNat, wd (unsigned 32 r.d.floor),
        wd (r.lastQpUsed % 64 + 2 ^ 8 * b2n r.overshoot + 2 ^ 9 * b2n r.lastKey + 2 ^ 10 * b2n r.ltrStale), wd r.lastBits] ++ wd2 r.newestAck ++
      [wd (refs % 256 + 2 ^ 8 * (rdParts (g.body tRend i) (cvFps (g.rendCv i)) % 16)), 0, 0, 0])) c) c

/-- `GX_RENDITION_QUERY`: 48 bytes; T and D as whole numbers, rounded down (log 67). -/
def execGxRenditionQuery (cmd : CmdRef) (s : State) : Host.Outcome State Fault Refusal := act s (serve 0x0802 cmd noFields rendQuery)

/-- `GX_ENC_COUNTERS` (R615). -/
def execGxEncCounters (cmd : CmdRef) (s : State) : Host.Outcome State Fault Refusal :=
  act s (serve 0x0803 cmd noFields (scopedCounters 0x0803 tRend 12))

end Sys2Proof.Machine
end

