-- ==== Sys2Proof/Machine/Compose.lean ====
section
/-!
DEFINITION. Composition (chapter 10): frame deadlines, the choice of pictures, layer states, bands with hint maps and occlusion, the end of a
frame with its beacon and host-ring write, faults, epochs, and the canvas commands.
-/
namespace Sys2Proof.Machine
open Sys2Proof

/-! Access. -/

def getCv (c : Chip) (i : Nat) : CanvasRun := tget CanvasRun.zero c.vid.canvases i
def putCv (i : Nat) (x : CanvasRun) : Chip → Chip := modVid (fun v => { v with canvases := tput v.canvases i x })
def modCv (i : Nat) (f : CanvasRun → CanvasRun) (c : Chip) : Chip := putCv i (f (getCv c i)) c
def modFrame (i : Nat) (f : CFrame → CFrame) : Chip → Chip := modCv i (fun r => { r with busy := r.busy.map f })
def modLayer (i l : Nat) (f : LayerRun → LayerRun) : Chip → Chip := modCv i (fun r => { r with layers := tmod LayerRun.zero r.layers l f })

/-- Count an event at canvas and device scope of GX_COMP_COUNTERS. -/
def countCv (i pos n : Nat) (c : Chip) : Chip := bump 0x0707 scopeDev pos n (bump 0x0707 i pos n c)

/-- Island of the task scheduler, which brings frames to their deadline (log 71). -/
def deadlineIsland : Nat := 22

/-- First frame of a canvas whose deadline is not before a service time (R336). -/
def firstFrame (b : List Word) (t : Nat) : Nat := ((t - cvPhase b * 1000) * cvFps b + 999999999) / 1000000000

/-- An item for the cut-through queue of every rendition of a canvas (R363). -/
def toRends (g : Cfg) (cv island : Nat) (it : BandItem) (c : Chip) : Chip := (g.rendsOf cv).foldl (fun c i => encItem i island it c) c

def skipItem (frame epoch : Nat) : BandItem :=
  { frame := frame, firstRow := 0, rows := 0, buffer := 0, last := false, discard := false, skip := true, epoch := epoch }
def discardItem (frame epoch : Nat) : BandItem := { skipItem frame epoch with skip := false, discard := true }

/-- A frame is skipped (R337). -/
def cvSkip (g : Cfg) (cv n : Nat) (noBuffer : Bool) (c : Chip) : Chip :=
  let bare := (getCv c cv).skipBare || noBuffer
  toRends g cv deadlineIsland (skipItem n g.epoch)
    (raiseRated deadlineIsland 0x704 (g.owner tCanvas cv) (g.idAt tCanvas cv) (fun k => k + 2 ^ 32 * b2n bare) 1
      (modCv cv (fun r => { r with skipBare := bare && !rateOpen 0x704 (g.idAt tCanvas cv) c }) (countCv cv (if noBuffer then 2 else 1) 1 c)))

/-! Pictures (R338, R350, R351, R361). -/

/-- A hold of the compositor on a picture is taken or given back (R321). -/
def decHold (i handle : Nat) (up : Bool) (c : Chip) : Chip :=
  let c1 := modDec i (fun x => { x with bufs := x.bufs.map (fun b => if b.handle = handle then { b with holds := if up then b.holds + 1 else b.holds - 1 } else b) }) c
  if up then c1 else decSweep i c1

/-- The newest picture of a context that was done at a deadline; a context in WAIT_KEY has none. -/
def newestPic (c : Chip) (i d : Nat) : Option PicRec :=
  let x := getDec c i
  if x.st = .waitKey ∨ !x.begun then none
  else (x.bufs.filter (fun b => b.shown && decide (b.pic.doneNs ≤ d))).foldl
    (fun (a : Option PicRec) b => match a with
      | some p => if (b.pic.outputSeq + 2 ^ 32 - p.outputSeq) % 2 ^ 32 < 2 ^ 31 then some b.pic else some p
      | none => some b.pic) none

/-- What a layer reads of a picture: whether the reduced copy, the cropped size, and the factors d and e where it is decimated. -/
def readOf (g : Cfg) (b : List Word) (p : PicRec) : Bool × (Nat × Nat) × Option (Nat × Nat) :=
  let mode := dcReduced (g.decode (idIndex (lySource b)))
  let full := cropSize b p.width p.height
  let small := cropSize b (reducedSize p.width mode) (reducedSize p.height mode)
  let want := p.reducedValid && (lyPick b == 1 || (lyPick b == 2 && decide (lyW b ≤ small.1 ∧ lyH b ≤ small.2)))
  let q := if want then small else full
  if linesOk b q.1 q.2 then (want, q, none)
  else if p.reducedValid && linesOk b small.1 small.2 then (true, small, none)
  else
    let e := if 8 * lyW b < q.1 then (q.1 + 8 * lyW b - 1) / (8 * lyW b) else 1
    let w := (q.1 + e - 1) / e
    let units := fun (d : Nat) =>
      let n := if q.2 ≤ 2 * d * lyH b then 6 else (3 * q.2 + d * lyH b - 1) / (d * lyH b)
      if w ≤ 2048 then n else 2 * n
    let d := ((List.range 4096).find? (fun k => decide (units (k + 1) ≤ 12))).getD 0 + 1
    (want, q, some (d, e))

/-- A layer enters or leaves DEGRADED_SCALE (R351). -/
def noteScale (g : Cfg) (cv l : Nat) (new : Option (Nat × Nat)) (c : Chip) : Chip :=
  let old := (tget LayerRun.zero (getCv c cv).layers l).degraded
  let f := (if new.isSome then new else old).getD (1, 1)
  let c1 := if old.isSome = new.isSome then c
    else raise deadlineIsland 0x702 (g.owner tCanvas cv) (g.idAt tCanvas cv) (l + 2 ^ 8 * b2n new.isSome + 2 ^ 16 * (f.1 % 256) + 2 ^ 24 * (f.2 % 256)) c
  modLayer cv l (fun x => { x with degraded := new }) c1

/-- A layer takes a state (R361). -/
def noteState (g : Cfg) (cv l n st : Nat) (c : Chip) : Chip :=
  let old := (tget LayerRun.zero (getCv c cv).layers l).st
  if old = st then c
  else raise deadlineIsland 0x701 (g.owner tCanvas cv) (g.idAt tCanvas cv) (l + 2 ^ 8 * old + 2 ^ 10 * st + 2 ^ 32 * (n % 2 ^ 32))
    (modLayer cv l (fun x => { x with st := st }) c)

/-- A video layer at the deadline of a frame: its state, its picture with the frame's hold, and the layer's own hold on the newest one. -/
def layerStep (g : Cfg) (cv n d l : Nat) (b : List Word) (c : Chip) : Option LayerUse × Chip :=
  let i := idIndex (lySource b)
  let cb := g.body tCanvas cv
  let x := tget LayerRun.zero (getCv c cv).layers l
  let new := newestPic c i d
  let c1 := match new with
    | some p =>
      if x.held.map (fun q => (q.source, q.full)) = some (p.source, p.full) then c
      else
        let c2 := modLayer cv l (fun x => { x with held := some p }) (decHold i p.full true c)
        match x.held with | some q => decHold q.source q.full false c2 | none => c2
    | none => c
  let ready := match new with | some p => decide (d ≤ p.doneNs + cvReadyMs cb * 1000000) | none => false
  let gone := (getDec c i).st == .waitKey || !(getDec c i).begun
  let shown := (tget LayerRun.zero (getCv c1 cv).layers l).held
  let stale := if ready then 0 else if gone ∨ shown.isNone then x.stale else x.stale + 1
  let st := if ready then 0 else if !gone ∧ shown.isSome ∧ stale ≤ cvStale cb then 1 else 2
  let c3 := noteState g cv l n st (modLayer cv l (fun x => { x with stale := stale, poison := false }) c1)
  match (if st = 2 then none else shown) with
  | none => (none, noteScale g cv l none (modLayer cv l (fun x => { x with reducedInUse := false }) c3))
  | some p =>
    let r := readOf g b p
    let same := x.held.map (fun q => (q.source, q.full)) = some (p.source, p.full)
    (some { layer := l, pic := p, repeated := decide same, reduced := r.1, w := r.2.1.1, h := r.2.1.2 },
      noteScale g cv l r.2.2 (modLayer cv l (fun x => { x with reducedInUse := r.1 }) (decHold p.source p.full true c3)))

/-! The deadline (R336 to R338, R356). -/

/-- Dynamic images whose frame has come are shown. -/
def showImages (cv n : Nat) (c : Chip) : Chip :=
  modCv cv (fun r =>
    let due := r.spare.filter (fun e => decide (e.2.1 ≤ n))
    let turn := fun (l : Nat) => (r.swapped.contains l) != (due.any (fun e => e.1 == l))
    { r with shown := due.foldl (fun t e => tput t e.1 e.2.2) r.shown, spare := r.spare.filter (fun e => decide (n < e.2.1)),
             swapped := ((r.swapped ++ due.map Prod.fst).foldl linsert []).filter turn }) c

/-- The holds and the output buffer of a frame that ends. -/
def cvRelease (cv : Nat) (f : CFrame) (c : Chip) : Chip :=
  drop f.buffer (f.uses.foldl (fun c u => decHold u.pic.source u.pic.full false c) (modCv cv (fun r => { r with busy := none }) c))

/-- A frame whose task ended without a compositor is given up as skipped. -/
def cvLost (cv : Nat) (c : Chip) : Chip :=
  match (getCv c cv).busy with
  | some f => if f.compositor.isNone ∧ !(getTask c f.task).st.live then cvSkip (cfgAt c f.epoch) cv f.num false (cvRelease cv f c) else c
  | none => c

/-- The frame of a deadline takes its epoch, its buffer and its pictures, and becomes a ready task of level 4. -/
def cvBegin (g : Cfg) (cv n d buffer : Nat) (c : Chip) : Chip :=
  let cb := g.body tCanvas cv
  let vids := (g.blend cv).filter (fun e => lyKind e.2 == 1)
  let r := vids.foldl (fun (a : List LayerUse × Chip) e =>
    let q := layerStep g cv n d e.1 e.2 a.2
    (match q.1 with | some u => a.1 ++ [u] | none => a.1, q.2)) ([], showImages cv n c)
  let ls := (getCv r.2 cv).layers
  let st := fun (k : Nat) => vids.any (fun e => (tget LayerRun.zero ls e.1).st == k)
  let t := createTask ((g.owner tCanvas cv).getD 0)
    { TaskDesc.zero with target := 3, prio := 4, etag := g.epoch % 2 == 1, affinity := 0xF, work := cv, args := [wd n] } r.2
  let f : CFrame :=
    { num := n, epoch := g.epoch, buffer := buffer, row := 0, task := t.1.getD 0, compositor := none, uses := r.1, fetched := [], poison := false,
      record := { FrameRec.zero with
        frame := n, bit10 := cv10 cb, epoch := g.epoch, beaconPresent := g.hasBeacon cv, degraded := vids.any (fun e => (tget LayerRun.zero ls e.1).degraded.isSome),
        anyStale := st 1, anySlate := st 2, deadlineNs := d, width := cvW cb, height := cvH cb, stride := strideOf (cvW cb) (cv10 cb),
        chromaOffset := strideOf (cvW cb) (cv10 cb) * up16 (cvH cb), matrix := cvMatrix cb, fullRange := cvFull cb } }
  if t.1.isNone then cvSkip g cv n false (cvRelease cv f t.2) else modCv cv (fun r => { r with busy := some f }) t.2

/-- `CANVAS_FRAME_DEADLINE` (R337). -/
def frameDeadline (cv : Nat) (c0 : Chip) : Chip :=
  if !(cfg c0).has tCanvas cv then c0
  else
    let n := (getCv c0 cv).next
    let d := cvDeadline ((cfg c0).body tCanvas cv) n
    let c := cvLost cv (modCv cv (fun r => { r with next := n + 1 }) (waitSvc d c0))
    let g := cfg c
    if (getCv c cv).busy.isSome then cvSkip g cv n false c
    else
      let a := allocIn (identity ((g.owner tCanvas cv).getD 0) 3) (canvasPool (g.body tCanvas cv)) c
      if a.1 ≠ 0 then cvSkip g cv n true a.2.2 else cvBegin g cv n d a.2.1 a.2.2

def execCanvasFrameDeadline (canvas : Nat) (s : State) : Host.Outcome State Fault Refusal := act s (frameDeadline canvas)

/-- A frame's task starts on a compositor; one whose frame is gone ends at once. -/
def compStart (slot unit : Nat) (c0 : Chip) : Chip :=
  let c := startTask slot unit c0
  let cv := (getTask c slot).desc.work
  match (getCv c cv).busy with
  | some f =>
    if f.task = slot ∧ f.compositor.isNone then modFrame cv (fun f => { f with compositor := some unit }) c
    else endTask slot (unitDone slot 0 0 false false c)
  | none => endTask slot (unitDone slot 0 0 false false c)

/-! Hint maps (R383, R384). -/

/-- Whole part of a quotient, or one of its two neighbours where it is not whole. -/
def nearBy (num : Int) (den free : Nat) : Int := num / den + (if num % den = 0 then 0 else (Config.roundPick free % 2 : Nat))

/-- The planes of a configuration that hold what a run holds, by the run's number. -/
def planeKey (g : Cfg) (cv k : Nat) : List Word := ((g.planes cv).getD k { holds := [], bytes := 0, pool := 0, reserve := 0, operator := false }).holds

/-- A run of this frame's epoch is the same plane in the last composed frame's epoch. -/
def sharedPlane (c : Chip) (g : Cfg) (cv k : Nat) : Bool :=
  let e := (getCv c cv).last.epoch
  e == g.epoch || ((cfgAt c e).epoch == e && ((cfgAt c e).planes cv).any (fun p => p.holds == planeKey g cv k))

/-- The beacon has a pixel in a tile. -/
def beaconIn (g : Cfg) (cv : Nat) (px : List (Nat × Nat)) : Bool := g.hasBeacon cv && px.any (fun p => beaconFull (g.beacon cv) [p])

/-- The entry of a block of which `beacon` says whether the beacon shows in it: `mv` is the decoder's vector of the co-located block, in quarter samples of its picture. -/
def hintEntry (c : Chip) (g : Cfg) (cv : Nat) (f : CFrame) (view : List Stack) (beacon : Bool) (mv : Int × Int) (free : Nat) : Word :=
  let r := getCv c cv
  let last := r.begun && r.lastNum + 1 == f.num
  let still := !beacon && view.all (fun e => match e with | .run k _ => sharedPlane c g cv k | .moving _ _ => false)
  if still ∧ last then wd (2 ^ 28 + 2 ^ 29)
  else
    match view.getLast? with
    | some (.moving l b) =>
      match f.uses.find? (fun u => u.layer == l), r.lastPlace.find? (fun p => p.1 == l) with
      | some u, some (_, px, py, pw, ph) =>
        let ok := last && pw == lyW b && ph == lyH b && (tget LayerRun.zero r.layers l).st == 0 && !(u.pic.key || u.pic.concealed)
        if !ok then 0
        else
          let x := (if u.repeated then 0 else nearBy (mv.1 * lyW b) u.w free) + 4 * (lyX b - px)
          let y := (if u.repeated then 0 else nearBy (mv.2 * lyH b) u.h (free + 1)) + 4 * (lyY b - py)
          wd (unsigned 14 x + 2 ^ 14 * unsigned 14 y + 2 ^ 28)
      | _, _ => 0
    | _ => 0

/-! Bands (R355, R363, R366). -/

/-- From the top: what is seen in a tile. A tile that the beacon fills shows nothing else. -/
def viewOf (g : Cfg) (cv tx ty : Nat) : List Stack :=
  let px := tilePixels (g.body tCanvas cv) tx ty
  if g.hasBeacon cv && beaconFull (g.beacon cv) px then [] else seen px ((stackOf (g.blend cv) 0 []).reverse)

/-- `COMPOSE_BAND_DONE` (R363): the next 16 rows are composed and written, the hint map's row before the band item; `mvs` are the decoder's
vectors for the band's blocks, and `poison` says what read so. -/
def bandDone (cv : Nat) (mvs : List (Int × Int)) (poison : Spoiled) (c : Chip) (m : Mem) : Chip × List MemOp :=
  match (getCv c cv).busy with
  | none => (c, [])
  | some f =>
    match f.compositor with
    | none => (c, [])
    | some u =>
      let g := cfgAt c f.epoch
      let cb := g.body tCanvas cv
      if cvH cb ≤ f.row then (c, [])
      else
        let ty := f.row / 16
        let cols := up16 (cvW cb) / 16
        let n := min 16 (cvH cb - f.row)
        let moving := (g.blend cv).filter (fun e => !lyStatic e.2)
        let views := (List.range cols).map (fun tx => (tilePixels cb tx ty, viewOf g cv tx ty))
        let sees := fun (l : Nat) (v : List Stack) => v.any (fun e => match e with | .moving k _ => k == l | .run _ _ => false)
        let skipped := ((moving.map (fun e => (views.filter (fun v => touches e.2 v.1 && !sees e.1 v.2)).length)).sum)
        let got := (moving.filter (fun e => views.any (fun v => touches e.2 v.1 && sees e.1 v.2))).map Prod.fst
        let bad := !poison.layers.isEmpty || !poison.planes.isEmpty
        let c1 := if skipped = 0 then c else countCv cv 6 skipped c
        let c2 := if bad && !f.poison then countCv cv 8 1 c1 else c1
        let c3 := poison.layers.foldl (fun c e => modLayer cv e.1 (fun x => { x with poison := true }) c) c2
        let hints := (List.range cols).map (fun tx => hintEntry c g cv f (views.getD tx ([], [])).2 (beaconIn g cv (views.getD tx ([], [])).1) (mvs.getD tx (0, 0)) (c.free + 2 * tx))
        let rows := bandWrites m c g cv f.buffer f.row poison (movingContent f.uses (getCv c cv).shown (fun b p => (readOf g b p).2.2))
        let map : List MemOp × Chip := if (g.rendsOf cv).isEmpty then ([], c3) else
          match (getCv c cv).bufs.find? (fun e => e.1 == [5, wd (f.num % cvOutBufs cb)]) with
          | some e => memWrite m (bufAddr c e.2 + ty * cols * 4) (bytesOf hints) false c3
          | none => ([], c3)
        let c4 := modCv cv (fun r => { r with
          rebuild := poison.planes.foldl (fun t e => tput t e.1 (tget 0 t e.1 + 1)) r.rebuild,
          busy := some { f with row := f.row + 16, fetched := got.foldl linsert f.fetched, poison := f.poison || bad,
                                record := { f.record with poisonRegion := f.record.poisonRegion || bad } } }) { map.2 with free := map.2.free + 2 * cols }
        let it : BandItem := { frame := f.num, firstRow := f.row, rows := n, buffer := f.buffer, last := decide (cvH cb ≤ f.row + 16),
                               discard := false, skip := false, epoch := f.epoch }
        (toRends g cv (compIsland u) it c4, storeAll m c rows ++ map.1)

def execComposeBandDone (canvas : Nat) (mvs : List (Int × Int)) (badLayers : List (Nat × Nat)) (badPlanes : StillErrors) (s : State) :
    Host.Outcome State Fault Refusal := actMem s (bandDone canvas mvs { layers := badLayers, planes := badPlanes.planes, blocks := badPlanes.blocks })

/-! The end of a frame (R359, R360, R364, R365). -/

/-- The frame record's 64 bytes. -/
def FrameRec.words (r : FrameRec) : List Word :=
  [wd r.frame, wd (b2n r.bit10 + 2 * (r.epoch % 2) + 4 * b2n r.beaconPresent + 8 * b2n r.beaconOk + 16 * b2n r.poisoned + 32 * b2n r.degraded +
     64 * b2n r.anyStale + 128 * b2n r.anySlate + 256 * b2n r.poisonRegion)] ++ wd2 (r.deadlineNs % 2 ^ 48) ++
    [wd (r.width + 2 ^ 16 * r.height), wd (r.stride % 65536), wd r.chromaOffset, wd r.beaconCrc] ++ wd2 (r.doneNs % 2 ^ 48) ++
    [wd (r.matrix % 256 + 2 ^ 24 * b2n r.fullRange), 0, 0, 0, 0, 0]

/-- Where the planes of a frame stand. -/
def frameLayout (c : Chip) (f : CFrame) : Layout :=
  { base := bufAddr c f.buffer, stride := f.record.stride, chroma := f.record.chromaOffset, ten := f.record.bit10 }

/-- Bytes of the two planes of a frame. -/
def FrameRec.planeBytes (r : FrameRec) : Nat := r.chromaOffset + r.chromaOffset / 2

/-- The host-ring write of a composed frame; `data` are the bytes of its planes, `head` is the word at
HEAD_ADDR, `bad` says that written data was poisoned in memory. -/
def ringFrame (g : Cfg) (cv : Nat) (f : FrameRec) (data : List Byte) (num head : Nat) (bad : Bool) (c : Chip) : Chip :=
  let r := getCv c cv
  if r.ring.entries = 0 ∨ num % r.decimate ≠ 0 then c
  else if r.ringPaused then countCv cv 11 1 c
  else
    let fn := (g.owner tCanvas cv).getD 0
    let next := (r.ring.tail + 1) % r.ring.entries
    let full := next = r.ring.head
    let ring := if full then { r.ring with head := head % r.ring.entries } else r.ring
    let c1 := if full then emit (.hostRead fn r.ring.headAddr 4) c else c
    let c2 := modCv cv (fun r => { r with ring := ring }) c1
    if next = ring.head then countCv cv 10 1 c2
    else if !hostReach c fn then c2
    else
      let at_ := ring.base + ring.tail * r.slotStride
      let c3 := emit (.hostPlanes fn (at_ + 0x1000) data) c2
      let c4 := if bad then emit (.hostPoison fn (at_ + 0x1000)) c3 else c3
      let c5 := emit (.hostWrite fn ring.tailAddr [wd next]) (emit (.hostWrite fn at_ { f with poisoned := bad }.words) c4)
      countCv cv 9 1 (msix fn ring.vec (modCv cv (fun r => { r with ring := { ring with tail := next } }) c5))

/-- `COMPOSE_DONE` (R359, R360, R364): the whole frame is written; the CRC is that of the beacon region as it stands in the buffer, with the bits
that a transient fault of the compositor turned on its way, `fault`; `bad` says that the ring write finds an uncorrectable word there (log 217). -/
def composeDone (cv fault head : Nat) (bad : Bool) (m : Mem) (c : Chip) : Chip :=
  match (getCv c cv).busy with
  | none => c
  | some f =>
    let g := cfgAt c f.epoch
    match (if f.record.height ≤ f.row then f.compositor else none) with
    | none => c
    | some u =>
      let own := g.owner tCanvas cv
      let id := g.idAt tCanvas cv
      let there := f.record.beaconPresent
      let crc := if there then crc32 (beaconRead m (frameLayout c f) (g.beacon cv)) ^^^ (fault % 2 ^ 32) else 0
      let ok := there && crc == bcCrc (g.beacon cv)
      let base := bufAddr c f.buffer
      let rec_ := { f.record with beaconOk := ok, beaconCrc := crc, doneNs := svc c }
      let c1 := if there && !ok then raiseRated (compIsland u) 0x703 own id (fun n => n) 1 (countCv cv 7 1 c) else c
      let c2 := if rec_.anyStale then countCv cv 3 1 c1 else c1
      let c3 := if rec_.anySlate then countCv cv 4 1 c2 else c2
      let c4 := countCv cv 0 1 (if rec_.degraded then countCv cv 5 1 c3 else c3)
      let moving := (g.blend cv).filter (fun e => !lyStatic e.2)
      let c5 := modCv cv (fun r =>
        { r with begun := true, lastNum := f.num, last := rec_, lastPlace := moving.map (fun e => (e.1, lyX e.2, lyY e.2, lyW e.2, lyH e.2)),
                 layers := moving.foldl (fun t e => tmod LayerRun.zero t e.1 (fun x => { x with occluded := !f.fetched.contains e.1 })) r.layers }) c4
      let c6 := ringFrame g cv rec_ (m.bytes base rec_.planeBytes) f.num head (bad || m.anyBad base rec_.planeBytes) c5
      endTask f.task (unitDone f.task 0 0 false false (cvRelease cv f c6))

def execComposeDone (canvas fault head : Nat) (bad : Bool) (s : State) : Host.Outcome State Fault Refusal := act s (composeDone canvas fault head bad s.mem)

/-- A frame ends early: its bands not yet placed become an item with DISCARD, and it makes no ring write (R366). -/
def cvCut (cv status : Nat) (c : Chip) : Chip :=
  match (getCv c cv).busy with
  | none => c
  | some f =>
    let c1 := toRends (cfgAt c f.epoch) cv (match f.compositor with | some u => compIsland u | none => deadlineIsland) (discardItem f.num f.epoch) (cvRelease cv f c)
    if f.compositor.isSome then endTask f.task (unitDone f.task status 0 false false c1) else schedRun [.stop f.task status] c1

/-- The canvas whose frame a compositor works on. -/
def canvasOn (unit : Nat) (c : Chip) : Option (Nat × CanvasRun) :=
  c.vid.canvases.find? (fun e => match e.2.busy with | some f => f.compositor == some unit | none => false)

/-- `COMP_FAULT` (R366); `out` says that the Keeper takes the compositor out of service. -/
def compFault (unit : Nat) (out : Bool) (c : Chip) : Chip :=
  let isl := compIsland unit
  let hit := canvasOn unit c
  let cv := match hit with | some e => e.1 | none => 0
  let c1 := raise isl 0x706 none isl (cv + 2 ^ 16 * b2n out) c
  let c2 := match hit with | some e => cvCut e.1 0x8008 c1 | none => c1
  if out then endLost (putUnit 3 unit { getUnit c2 3 unit with st := .retired } c2) else c2

def execCompFault (unit : Nat) (out : Bool) (s : State) : Host.Outcome State Fault Refusal := act s (compFault unit out)

/-- What is written into a new buffer of a canvas: images, slates and beacons as fetched, planes in a layout of the device's own (R341, R352). -/
def CvBuf.content (b : CvBuf) : List Byte :=
  match b.holds with
  | 2 :: _ :: l => (bytesOf l).take b.bytes
  | 3 :: _ :: l => (bytesOf l).take b.bytes
  | 4 :: l => (bytesOf (bcImage l)).take b.bytes
  | 5 :: _ => []
  | 6 :: _ => []
  | l => (List.range b.bytes).map (fun k => BitVec.ofNat 8 (Config.planeByte l k))

/-- Planes whose poisoned tiles are flattened again, with their buffers. -/
def rebuildWrites (cv : Nat) (c : Chip) : List (Nat × List Byte) :=
  (getCv c cv).rebuild.filterMap (fun e =>
    match ((cfg c).planes cv)[e.1]? with
    | none => none
    | some b => ((getCv c cv).bufs.find? (fun x => x.1 == b.holds)).map (fun x => (bufAddr c x.2, b.content)))

/-- `DAYMARK_REBUILD` (R366): firmware flattens the poisoned tiles of a plane again. -/
def daymarkRebuild (cv : Nat) (c : Chip) : Chip :=
  let g := cfg c
  (getCv c cv).rebuild.foldl (fun c e =>
    raise 1 0x707 (g.owner tCanvas cv) (g.idAt tCanvas cv) (e.1 % 8 + 2 ^ 16 * (e.2 % 65536)) c) (modCv cv (fun r => { r with rebuild := [] }) c)

def execDaymarkRebuild (canvas : Nat) (s : State) : Host.Outcome State Fault Refusal :=
  actMem s (fun c m => (daymarkRebuild canvas c, storeAll m c (rebuildWrites canvas c)))

/-! Epochs (R353, R354, R366). -/

/-- A frame of an epoch is ready or being composed. -/
def canvasBusy (c : Chip) (epoch : Nat) : Bool := c.vid.canvases.any (fun e => match e.2.busy with | some f => f.epoch == epoch | none => false)

/-- The drain limit: frames of the epoch end at the next row boundary. -/
def canvasForce (epoch : Nat) (c : Chip) : Chip :=
  (c.vid.canvases.filter (fun e => match e.2.busy with | some f => f.epoch == epoch | none => false)).foldl (fun c e =>
    let isl := match e.2.busy with | some f => (match f.compositor with | some u => compIsland u | none => deadlineIsland) | none => deadlineIsland
    drainForced isl ((cfgAt c epoch).idAt tCanvas e.1) 3 epoch (cvCut e.1 0x8004 c)) c

/-- Identity that a buffer of a canvas is charged to. -/
def cvIdent (g : Cfg) (cv : Nat) (op : Bool) (c : Chip) : Nat := identity (if op then operatorFn c else (g.owner tCanvas cv).getD 0) 3

/-- Buffers of the new epoch's planes, slates, images, beacons and hint maps, as far as the present one does not have them (R354). -/
def canvasTables (g : Cfg) (c : Chip) : Chip :=
  (g.indexes tCanvas).foldl (fun c cv =>
    (g.cvBufs cv).foldl (fun c b =>
      if (getCv c cv).bufs.any (fun e => e.1 == b.holds) then c
      else
        let a := allocIn (cvIdent g cv b.operator c) b.pool c
        if a.1 = 0 then modCv cv (fun r => { r with bufs := r.bufs ++ [(b.holds, a.2.1)] }) a.2.2 else a.2.2) c) c

/-- Writes of the buffers that a new epoch's tables took. -/
def canvasFills (g : Cfg) (old c : Chip) : List (Nat × List Byte) :=
  (g.indexes tCanvas).flatMap (fun cv =>
    (g.cvBufs cv).filterMap (fun b =>
      match (getCv c cv).bufs.find? (fun e => e.1 == b.holds) with
      | some e => if (getCv old cv).bufs.contains e then none else some (bufAddr c e.2, b.content)
      | none => none))

/-- Frames count from the epoch's T_act on: 5 ms later for a new canvas. What a removed or changed layer held is given back. -/
def canvasActivate (old g : Cfg) (tAct : Nat) (c : Chip) : Chip :=
  (g.indexes tCanvas).foldl (fun c cv =>
    let b := g.body tCanvas cv
    if old.idAt tCanvas cv ≠ g.idAt tCanvas cv then
      putCv cv { CanvasRun.zero with next := firstFrame b (tAct + 5000000), bufs := (getCv c cv).bufs } c
    else
      let c1 := if (cvFps (old.body tCanvas cv), cvPhase (old.body tCanvas cv)) = (cvFps b, cvPhase b) then c
        else modCv cv (fun r => { r with next := firstFrame b tAct }) c
      let key := mkKey tCanvas cv
      (getCv c1 cv).layers.foldl (fun c e =>
        let new := g.card 0x0701 key e.1
        let was := old.card 0x0701 key e.1
        if lyKind new = 1 ∧ g.hasCard 0x0701 key e.1 ∧ lySource new = lySource was then c
        else
          let c2 := match e.2.held with | some q => decHold q.source q.full false c | none => c
          modCv cv (fun r => { r with layers := tdel r.layers e.1 }) c2) (modCv cv (fun r =>
        let keeps := fun (l : Nat) => g.hasCard 0x0701 key l && old.card 0x0701 key l == g.card 0x0701 key l
        { r with shown := r.shown.filter (fun e => keeps e.1), spare := r.spare.filter (fun e => keeps e.1), swapped := r.swapped.filter keeps }) c1)) c

/-- Buffers that the configuration no longer holds return; a canvas that is gone loses its run-time state. -/
def canvasRetire (c : Chip) : Chip :=
  let g := cfg c
  c.vid.canvases.foldl (fun c e =>
    let cv := e.1
    let want := if g.has tCanvas cv then (g.cvBufs cv).map (·.holds) else []
    let out := e.2.bufs.filter (fun b => !want.contains b.1)
    let c1 := out.foldl (fun c b => drop b.2 c) (modCv cv (fun r => { r with bufs := r.bufs.filter (fun b => want.contains b.1) }) c)
    if g.has tCanvas cv ∨ e.2.busy.isSome then c1
    else
      let c2 := e.2.layers.foldl (fun c l => match l.2.held with | some q => decHold q.source q.full false c | none => c) c1
      modVid (fun v => { v with canvases := tdel v.canvases cv }) c2) c

/-! Commands. -/

def imageUpdate (x : Ctx) (c : Chip) : Chip :=
  x.withObj (bw x.body 0) tCanvas (fun _ c =>
    let cv := idIndex (bw x.body 0)
    let l := bf x.body 4 0 6
    let b := (cfg c).card 0x0701 (mkKey tCanvas cv) l
    if b = [] ∨ lyKind b ≠ 3 then x.done (Res.field 4) c
    else
      x.withImages [(bd x.body 8, lyImageBytes b)] (fun data c =>
        let n := max (getCv c cv).next (firstFrame ((cfg c).body tCanvas cv) (svc c + 1))
        x.done (Res.ok (wd2 n)) (modCv cv (fun r => { r with spare := tput r.spare l (n, data) }) c)) c) c

/-- The buffer of a dynamic image that is not shown. -/
def spareBuf (r : CanvasRun) (l : Nat) : Option (List Word × Nat) :=
  r.bufs.find? (fun e => e.1.take 2 == [if r.swapped.contains l then 2 else 6, wd l])

/-- Images fetched into the spare buffers of their layers. -/
def imageFills (old c : Chip) : List (Nat × List Byte) :=
  c.vid.canvases.flatMap (fun e => e.2.spare.filterMap (fun s =>
    if (getCv old e.1).spare.contains s then none
    else (spareBuf e.2 s.1).map (fun b => (bufAddr c b.2, (bytesOf s.2.2).take (lyImageBytes ((cfg c).card 0x0701 (mkKey tCanvas e.1) s.1))))))

/-- `GX_LAYER_IMAGE_UPDATE` (R356). -/
def execGxLayerImageUpdate (cmd : CmdRef) (s : State) : Host.Outcome State Fault Refusal :=
  actMem s (fun c m =>
    let c1 := serve 0x0703 cmd noFields imageUpdate c
    (c1, storeAll m c (imageFills c c1)))

def hostRingFields (b : List Word) : Option Nat :=
  firstBad [(decide (bd b 8 % 4096 ≠ 0), 8), (decide (bd b 0x10 % 4 ≠ 0), 0x10), (decide (bd b 0x18 % 4 ≠ 0), 0x18),
    (decide (8 < bf b 0x20 0 4), 0x20), (decide (bw b 0x24 % 4096 ≠ 0), 0x24)]

def hostRingSet (x : Ctx) (c : Chip) : Chip :=
  x.withObj (bw x.body 0) tCanvas (fun _ c =>
    let cv := idIndex (bw x.body 0)
    let b := (cfg c).body tCanvas cv
    let n := bf x.body 0x20 0 4
    let planes := strideOf (cvW b) (cv10 b) * up16 (cvH b) * 3 / 2
    if n ≠ 0 ∧ (bw x.body 0x24 < 0x1000 + planes ∨ bd x.body 8 = 0 ∨ bd x.body 0x10 = 0 ∨ bd x.body 0x18 = 0) then x.done (Res.err 0x070B) c
    else
      let ring := { HostRing.zero with base := bd x.body 8, headAddr := bd x.body 0x10, tailAddr := bd x.body 0x18,
                                       entries := if n = 0 then 0 else 2 ^ n, vec := bf x.body 0x20 8 8 }
      x.done (Res.ok []) (modCv cv (fun r =>
        { r with ring := if n = 0 then .zero else ring, decimate := orDefault (bf x.body 0x20 16 8) 1, slotStride := bw x.body 0x24,
                 ringPaused := false }) c |> ringPauses (getPool c (canvasPool b)).st)) c

/-- `GX_HOST_RING_SET` (R364). -/
def execGxHostRingSet (cmd : CmdRef) (s : State) : Host.Outcome State Fault Refusal := act s (serve 0x0705 cmd hostRingFields hostRingSet)

/-- C of R333. -/
def canvasCharge (b : List Word) : Nat := (cvW b * cvH b * cvFps b + 999999) / 1000000

/-- Status of a layer in 16 bits. -/
def LayerRun.status (x : LayerRun) : Nat :=
  x.st % 4 + 4 * b2n x.degraded.isSome + 8 * b2n x.reducedInUse + 16 * b2n x.occluded + 32 * b2n x.poison

def canvasQuery (x : Ctx) (c : Chip) : Chip :=
  x.withObj (bw x.body 0) tCanvas (fun o c =>
    let cv := idIndex (bw x.body 0)
    let g := cfg c
    let r := getCv c cv
    let st := fun (l : Nat) => (tget LayerRun.zero r.layers l).status
    x.done (Res.ok (wd2 r.lastNum ++ [wd r.last.beaconCrc, wd (if g.hasBeacon cv then bcCrc (g.beacon cv) else 0), wd (g.runs cv).length,
      wd (canvasCharge o.body), wd (r.ring.head + 2 ^ 16 * r.ring.tail), 0] ++ (List.range 32).map (fun k => wd (st (2 * k) + 2 ^ 16 * st (2 * k + 1))))) c) c

/-- `GX_CANVAS_QUERY`: 160 bytes. -/
def execGxCanvasQuery (cmd : CmdRef) (s : State) : Host.Outcome State Fault Refusal := act s (serve 0x0706 cmd noFields canvasQuery)

/-- `GX_COMP_COUNTERS` (R615). -/
def execGxCompCounters (cmd : CmdRef) (s : State) : Host.Outcome State Fault Refusal :=
  act s (serve 0x0707 cmd noFields (scopedCounters 0x0707 tCanvas 12))

end Sys2Proof.Machine
end

