-- ==== Sys2Proof/Machine/Capacity.lean ====
section
/-!
DEFINITION. Capacities and usage (R27, R46, R47, R96, R97, R119): what each object charges, what the device has, quotas; and the buffer
reserves of objects (R320, R335, R353, R383, R387, R464).
-/
namespace Sys2Proof.Machine
open Sys2Proof

/-! Charges. -/

def ceilDiv (a b : Nat) : Nat := (a + b - 1) / b

/-- C of a decode context (R309) and its DRAM charge (R310). -/
def decCharge (b : List Word) : Nat := ceilDiv ((up16 (dcW b) * up16 (dcH b) + 4096) * dcFps b) 1000000
def decDram (b : List Word) : Nat :=
  ceilDiv (decCharge b * (49 + (if dcReduced b = 1 then 4 else if dcReduced b = 2 then 1 else 0)) * (if dc10 b then 2 else 1)) 10

/-- DRAM charge of a canvas (R334) and of a rendition (R370). -/
def canvasDram (b : List Word) : Nat := ceilDiv (canvasCharge b * (if cv10 b then 70 else 35)) 10
def Cfg.rendCharge (g : Cfg) (i : Nat) : Nat :=
  let b := g.body tRend i
  let fps := cvFps (g.rendCv i)
  rdCharge b fps (rdParts b fps)
def Cfg.rendDram (g : Cfg) (i : Nat) : Nat := g.rendCharge i * (if rd10 (g.body tRend i) then 14 else 8)

/-- The fully processed audio legs and masters: their object keys (R276). -/
def Cfg.fullAudio (g : Cfg) : List Nat :=
  (g.audioIns ++ g.audioOuts.filter (fun l => !auIn (g.audio l))).map (mkKey tLeg) ++ g.masters.map (mkKey tGroup)

/-- What each object charges under a limit kind, by object key (R119): kinds 1 to 8 count objects and contexts, 9 to 11 rates, 12
M cycles/s of fully processed audio, 13 DRAM in MB/s, 15 audio legs. -/
def Cfg.charges (g : Cfg) (kind : Nat) : List (Nat × Nat) :=
  let dec := (g.cardsOf 0x0600).map (fun e => (e.1, e.2.2))
  if 1 ≤ kind ∧ kind ≤ 7 then (g.objs.filter (fun e => keyType e.1 == kind)).map (fun e => (e.1, 1))
  else match kind with
    | 8 => dec.map (fun e => (e.1, 1))
    | 9 => dec.map (fun e => (e.1, decCharge e.2))
    | 10 => (g.indexes tRend).map (fun i => (mkKey tRend i, g.rendCharge i))
    | 11 => (g.indexes tCanvas).map (fun i => (mkKey tCanvas i, canvasCharge (g.body tCanvas i)))
    | 12 => g.fullAudio.map (fun k => (k, 40))
    | 13 => dec.map (fun e => (e.1, decDram e.2)) ++ (g.indexes tRend).map (fun i => (mkKey tRend i, g.rendDram i)) ++
        (g.indexes tCanvas).map (fun i => (mkKey tCanvas i, canvasDram (g.body tCanvas i)))
    | 15 => g.fullAudio.map (fun k => (k, 1))
    | _ => []

/-- Charges of two configurations together: an object of both counts once, with the larger charge (R39, R97). -/
def joinCharges (a b : List (Nat × Nat)) : List (Nat × Nat) :=
  b.map (fun e => match a.find? (fun x => x.1 == e.1) with | some x => (e.1, max x.2 e.2) | none => e) ++
    a.filter (fun x => !b.any (fun e => e.1 == x.1))

/-- The kinds of quotas, in table order (R96). -/
def quotaKinds : List Nat := [1, 2, 3, 4, 5, 6, 7, 8, 9, 10, 11, 15]

/-- Charges of the current and the draining epoch. -/
def liveCharges (c : Chip) (kind : Nat) : List (Nat × Nat) :=
  let now := (cfg c).charges kind
  if c.gx.draining = 0 then now else joinCharges ((cfgAt c c.gx.draining).charges kind) now

/-- Owner of an object in one of two configurations. -/
def ownerIn (a b : Cfg) (k : Nat) : Option Nat := match b.keyOwner k with | some o => some o | none => a.keyOwner k

def total (l : List (Nat × Nat)) : Nat := (l.map Prod.snd).sum

/-- Usage of a function in the current and draining epochs (R97). -/
def usageOf (c : Chip) (fn kind : Nat) : Nat :=
  let old := if c.gx.draining = 0 then cfg c else cfgAt c c.gx.draining
  total ((liveCharges c kind).filter (fun e => ownerIn old (cfg c) e.1 == some fn))

/-! Capacities. -/

/-- Active units of a class in granted domains. -/
def unitsActive (c : Chip) (cls n : Nat) : Nat := ((List.range n).filter (fun i => unitActive c cls i)).length

/-- Rate of the active units of a class, each in proportion to its island's clock (R309, R333, R369, R627). -/
def unitRate (c : Chip) (cls n rate : Nat) : Nat :=
  (((List.range n).filter (fun i => unitActive c cls i)).map (fun i => rate * clockCap c (unitIsland cls i) / 1400)).sum

/-- Engines in service of a cluster. -/
def clusterActive (c : Chip) (cl : Nat) : Nat := ((List.range 34).filter (fun i => unitActive c 0 (cl * 64 + i))).length

/-- Engine cycles in M cycles/s that admission counts: 1,145,100 of the 1,433,600 that 1,024 engines at 1,400 MHz provide, in proportion
to engines and clocks (R46; log 72). -/
def engineCapacity (c : Chip) : Nat :=
  ((List.range 32).map (fun cl => clusterActive c cl * tget 0 c.pwr.clkNow cl)).sum * 11451 / 14336

/-- Device capacity of a limit kind (R119), scaled with the data rate where R47 says so; no capacity lies in a domain that is off (R27). -/
def capacity (c : Chip) (kind : Nat) : Nat :=
  let scaled := fun (n : Nat) => n * c.dram.rate / 7200
  match kind with
  | 8 => 16384
  | 9 => scaled (unitRate c 1 52 400)
  | 10 => scaled (unitRate c 2 68 200)
  | 11 => scaled (unitRate c 3 16 960)
  | 12 => engineCapacity c
  | 13 => scaled 426000
  | 14 => 192 * unitsActive c 3 16
  | 15 => if domOn c 11 ∧ !c.pwr.withdrawn.contains 11 then 16384 else 0
  | 16 => engineCapacity c
  | k => if k ≤ 7 then typeCount k else 0

/-- The share of packet spill and the retransmission cache in the DRAM admission budget, in MB/s, scaled with the data rate (R47); with the
edge reads and the engines, and the shares of decode, encode and composition that kind 13 charges, it makes up the budget. -/
def spillAllowance (c : Chip) : Nat := 120000 * c.dram.rate / 7200

/-- Amount of a kind in a reserve. -/
def reserveIn (l : List (Nat × Nat)) (kind : Nat) : Nat := ((l.filter (fun e => e.1 == kind)).map Prod.snd).sum

/-- Reserve held for the twin under a limit kind (R560): of each conference the larger of what is in force and what a commit has asked
for. -/
def twinReserve (c : Chip) (kind : Nat) : Nat :=
  let at_ := fun (k : Nat) => match c.twin.reserves.find? (fun r => r.1 == k) with | some r => reserveIn r.2 kind | none => 0
  (((c.twin.reserves.map (fun r => r.1 / 2)).foldl linsert []).map (fun k => max (at_ (2 * k)) (at_ (2 * k + 1)))).sum

/-- Charges of adaptation, RTCP and audio forwarding under kind 12, which the manual gives for the rated load only: they are at most
what it states for that load, and nothing without legs and sources (log 73). -/
def baseCycles (g : Cfg) : Nat :=
  let legs := (g.indexes tLeg).length
  let sources := (g.indexes tSource).length
  if legs = 0 ∧ sources = 0 then 0 else min 489700 (Config.engineBase legs sources)

/-- Usage of the device under a kind, the reserves of the twin included. -/
def usage (c : Chip) (kind : Nat) : Nat :=
  let k := if kind = 16 then 12 else kind
  total (liveCharges c k) + twinReserve c k + (if k = 12 then baseCycles (cfg c) else 0)

/-- Capacity less usage. -/
def available (c : Chip) (kind : Nat) : Nat := capacity c kind - usage c kind

/-- The device comes into service: the quotas of the operator function equal the device capacities (R96). -/
def setOpQuota (c : Chip) : Chip :=
  { c with gx := { c.gx with opQuota := some (operatorFn c, quotaKinds.map (fun k => (k, capacity c k))) } }

/-- Quota of a function: what GX_QUOTA_SET gave it; without it that of the last device warm reset, which is 0 for a tenant (R96). Before
the device comes into service the operator function's are the capacities of the moment. -/
def quota (c : Chip) (g : Cfg) (fn kind : Nat) : Nat :=
  if g.hasCard 0x0003 fn kind then bd (g.card 0x0003 fn kind) 0
  else match c.gx.opQuota with
    | some (f, t) => if fn = f then tget 0 t kind else 0
    | none => if isOperator c fn then capacity c kind else 0

/-! Buffer reserves of objects: object key, requester identity, pool and count. -/

/-- A reserve that firmware sets up. -/
structure Reserve where
  key : Nat
  ident : Nat
  pool : Nat
  count : Nat
  deriving DecidableEq, Repr

/-- Reserves of a decode context (R320), a canvas (R335, R353, R383) and a rendition (R387). -/
def Cfg.decReserves (g : Cfg) (i : Nat) : List Reserve :=
  let b := g.decode i
  let id := identity ((g.owner tSource i).getD 0) 2
  { key := mkKey tSource i, ident := id, pool := decPool b, count := dcDpb b (srcKind (g.body tSource i)) + 1 + dcExtra b } ::
    (if dcReduced b = 0 then []
     else [{ key := mkKey tSource i, ident := id, pool := copyPool b,
             count := 1 + dcExtra b }])

def Cfg.canvasReserves (g : Cfg) (opFn i : Nat) : List Reserve :=
  let b := g.body tCanvas i
  let fn := (g.owner tCanvas i).getD 0
  { key := mkKey tCanvas i, ident := identity fn 3, pool := canvasPool b, count := cvOutBufs b } ::
    (g.cvBufs i).map (fun x => { key := mkKey tCanvas i, ident := identity (if x.operator then opFn else fn) 3, pool := x.pool, count := x.reserve })

def Cfg.rendReserves (g : Cfg) (i : Nat) : List Reserve :=
  let b := g.body tRend i
  let id := identity ((g.owner tRend i).getD 0) 4
  (rdLayers b).flatMap (fun d =>
    [{ key := mkKey tRend i, ident := id, pool := (fitPool [5, 6, 7] (pictureBytes d.1 d.2 (rd10 b))).getD 7,
       count := rdRefs b + 1 + (if rendLtrMode b then rdLtrSlots b else 0) },
     { key := mkKey tRend i, ident := id, pool := 5, count := 2 * rdParts b (cvFps (g.rendCv i)) }])

def Cfg.reservesOf (g : Cfg) (opFn k : Nat) : List Reserve :=
  let i := keyIndex k
  match keyType k with
  | 2 => if g.hasDecode i then g.decReserves i else []
  | 6 => if g.has tCanvas i then g.canvasReserves opFn i else []
  | 7 => if g.has tRend i then g.rendReserves i else []
  | _ => []

/-- Reserves of every object. -/
def Cfg.reserves (g : Cfg) (opFn : Nat) : List Reserve := (g.objs.map Prod.fst).flatMap (g.reservesOf opFn)

/-- What one object keeps of a pool for an identity. -/
def keeps (l : List Reserve) (key ident pool : Nat) : Nat :=
  ((l.filter (fun r => r.key == key && r.ident == ident && r.pool == pool)).map (·.count)).sum

/-- Reserve of an identity in a pool under two configurations: of each object the larger. -/
def joinReserve (a b : List Reserve) (ident pool : Nat) : Nat :=
  (((a ++ b).map (·.key)).foldl linsert []).foldl (fun n k => n + max (keeps a k ident pool) (keeps b k ident pool)) 0

/-- Identity and pool pairs of a list of reserves. -/
def reservePairs (l : List Reserve) : List Nat := (l.map (fun r => useKey r.ident r.pool)).foldl linsert []

/-- Explicit reserve of the operator for an identity and pool. -/
def Cfg.explicit (g : Cfg) (key : Nat) : Nat := bf (g.card 0x0A01 0 key) 8 0 24

/-- Sum of all reserves in a pool (R464). -/
def Cfg.poolReserve (g : Cfg) (opFn pool : Nat) : Nat :=
  (((g.reserves opFn).filter (fun r => r.pool == pool)).map (·.count)).sum +
    (((g.cardsOf 0x0A01).filter (fun e => e.2.1 % 8 == pool)).map (fun e => bf e.2.2 8 0 24)).sum

/-- Object reserves, explicit reserves and limits of every requester as the live epochs give them (R464, R465). -/
def applyReserves (c : Chip) : Chip :=
  let g := cfg c
  let op := operatorFn c
  let now := g.reserves op
  let old := if c.gx.draining = 0 then [] else (cfgAt c c.gx.draining).reserves op
  let keys := ((reservePairs (now ++ old)) ++ (g.cardsOf 0x0A01).map (fun e => e.2.1) ++ c.pools.uses.map Prod.fst).foldl linsert []
  let c1 := keys.foldl (fun c k =>
    let r := joinReserve old now (k / 8) (k % 8)
    modUse (k / 8) (k % 8) (fun u => { u with objReserve := r, reserve := g.explicit k, limit := bf (g.card 0x0A01 0 k) 12 0 24 }) c) c
  (List.range 8).foldl (fun c p => watermark p c) c1

end Sys2Proof.Machine
end

