-- ==== Sys2Proof/Machine/Power.lean ====
section
/-!
DEFINITION. Power domains and the switch governor (R577 to R587), the start credit and VDD_CORE (R581, R582), rails
(R588 to R592), resets (R593) and start-up (R597).
-/
namespace Sys2Proof.Machine
open Sys2Proof

/-! What happens to a domain's islands as it goes on or off. -/

/-- Ports of a network domain (3 NETA, 4 NETB). -/
def domainLports (d : Nat) : List Nat := portLports (d - 3)

/-- Islands of a domain, whose event sequences restart when it is switched on (R24, R25, R543). -/
def domainIslands (d : Nat) : List Nat :=
  match d with
  | 0 => [0] | 1 => [1] | 2 => [2] | 3 => [3] | 4 => [4] | 5 => [5] | 6 => [6, 7, 8, 9]
  | 7 => [10, 11, 12, 13, 14, 15] | 8 => [16, 17, 18, 19, 20, 21] | 9 => [22, 23, 24, 27, 28] | 10 => [25, 26] | 11 => [29]
  | _ =>
    if isVideoDomain d then (List.range 34).map (fun i => 38 + 42 * dieOf d + i)
    else (domainClusters d).map clusterIsland

/-- Engine indexes of a cluster. -/
def clusterEngines (cl : Nat) : List Nat := (List.range 32).map (fun i => cl * 32 + i)

/-- Take PWR_ON of a domain away: its links and engines lose what they held (R28, R140, R431), and ready
tasks that no other unit may run end (R444). -/
def domainLost (d : Nat) (c : Chip) : Chip :=
  let c1 := modPwr (fun p => { p with on := p.on &&& ~~~(BitVec.ofNat 24 (2 ^ d)) }) c
  if d = 3 ∨ d = 4 then (domainLports d).foldl (fun c lp => linkDown lp c) c1
  else if d = 5 then twinLinkLoss c1
  else if isEngineDomain d then
    let cl := domainClusters d
    let eng := { c1.eng with engines := c1.eng.engines.filter (fun e => !cl.contains (e.1 / 32)),
                             clusters := c1.eng.clusters.filter (fun e => !cl.contains e.1) }
    endLost { c1 with eng := eng, pwr := { c1.pwr with clkNow := c1.pwr.clkNow.filter (fun e => !cl.contains e.1) } }
  else endLost c1

/-- Remaps recorded for units of a domain that was off are applied when it is switched on (R629). -/
def applyRecordedRemaps (d : Nat) (c : Chip) : Chip :=
  let here := c.mgmt.remapLater.filter (fun e => unitDomain (e.1 / 2 ^ 16) (e.1 % 2 ^ 16) == d)
  here.foldl (fun c e => beginRetire (e.1 / 2 ^ 16) (e.1 % 2 ^ 16) e.2 c)
    (modMgmt (fun m => { m with remapLater := m.remapLater.filter (fun e => !here.contains e) }) c)

/-- A domain becomes usable: its bit of PWR_ON, its islands' sequences, its links and clocks (R140, R543, R550, R580). -/
def domainUsable (d : Nat) (c : Chip) : Chip :=
  let c1 := { c with pwr := { c.pwr with on := c.pwr.on ||| BitVec.ofNat 24 (2 ^ d) },
                     mgmt := { c.mgmt with iseq := c.mgmt.iseq.filter (fun e => !(domainIslands d).contains e.1) } }
  let c2 :=
    if d = 3 ∨ d = 4 then (domainLports d).foldl (fun c lp => restartLport lp c) c1
    else if d = 5 then restartLport twinLport c1
    else if isEngineDomain d then
      (domainClusters d).foldl (fun c cl =>
        let mhz := tget 1400 c.pwr.clkTarget cl
        modPwr (fun p => { p with clkNow := tput p.clkNow cl (min mhz (clockCap c (clusterIsland cl))), clkTarget := tput p.clkTarget cl mhz }) c) c1
    else c1
  applyRecordedRemaps d c2

/-- A domain's units run nothing, so that its switch-off can begin (R584). -/
def domainIdle (c : Chip) (d : Nat) : Bool :=
  let die := dieOf d
  if isEngineDomain d then
    (domainClusters d).all (fun cl => (clusterEngines cl).all (fun e =>
      let x := tget Engine.zero c.eng.engines e
      x.prim.task == 0 && x.shad.task == 0))
  else if isVideoDomain d then
    c.vid.decs.all (fun e => match e.2.busy with | some b => b.core / 13 != die | none => true) &&
      c.vid.rends.all (fun e => match e.2.busy with
        | some f => f.parts.all (fun p => p.done || (match p.core with | some n => n / 17 != die | none => true)) | none => true) &&
      c.vid.canvases.all (fun e => match e.2.busy with | some f => (match f.compositor with | some n => n / 4 != die | none => true) | none => true)
  else true

/-! The governor (R578, R579). -/

/-- The device waits for running work before it switches a domain off, but not once EJECT_BUDGET has ended (R584, R592). -/
def waitsForWork (c : Chip) : Bool := c.pwr.phase == .service || (c.pwr.phase == .ejecting && c.twin.ejectEnd != 1)

/-- The next switch the request asks for: on in ascending order, then off in descending order (R583). -/
def nextSwitch (c : Chip) : Option (Nat × Bool) :=
  match c.pwr.req.on, c.pwr.req.off with
  | d :: _, _ => some (d, true)
  | [], d :: _ => if waitsForWork c && isMediaDomain d && !domainIdle c d then none else some (d, false)
  | [], [] => none

/-- The ramp of a switch begins. -/
def beginRamp (d : Nat) (on : Bool) (c : Chip) : Chip :=
  let now := localNs c
  let w : Switch := { dom := d, on := on, phase := .ramp, startNs := now, deadline := now + rampUs d * 1000 }
  let c1 := modPwr (fun p => { p with switch := some w }) c
  if on then c1 else domainLost d c1

/-- `POWER_SWITCH_BEGIN` (R578, R579): after the gap the governor begins the next switch, or warns on LOADSTEP_N first. -/
def switchBegin (c0 : Chip) : Chip :=
  if c0.pwr.switch.isSome ∨ c0.mgmt.keeperReset ≠ 0 then c0
  else
    match nextSwitch c0 with
    | none => c0
    | some (d, on) =>
      let c := waitLocal c0.pwr.gapEnd c0
      if 10 < stepAmps d then
        let now := localNs c
        let w : Switch := { dom := d, on := on, phase := .lead, startNs := now, deadline := now + c.pwr.leadUs * 1000 }
        modPwr (fun p => { p with switch := some w, loadstepN := false, loadstepEnd := 0 }) c
      else beginRamp d on c

def execPowerSwitchBegin (s : State) : Host.Outcome State Fault Refusal := act s switchBegin

/-- `LOADSTEP_LEAD_EXPIRY` (R579). -/
def loadstepLead (c : Chip) : Chip :=
  match c.pwr.switch with
  | some w => if w.phase = .lead then beginRamp w.dom w.on (waitLocal w.deadline c) else c
  | none => c

def execLoadstepLeadExpiry (s : State) : Host.Outcome State Fault Refusal := act s loadstepLead

/-- Bits of a list of domains. -/
def domainMask (l : List Nat) : Nat := (l.map (fun d => 2 ^ d)).sum

/-- Adaptive target of VDD_CORE in mV: the fused target plus 5 mV for each begun 1 % of the largest drift, at most 850
(R627), and never below the 650 of R582. A retired core and a spare are not in service, and their drift does not count. -/
def vcoreTarget (c : Chip) : Nat :=
  let worst := ((c.mgmt.drift.filter (fun e => islandServes c e.1)).map Prod.snd).foldl max 0
  max 650 (min 850 (Config.fusedMv + 5 * ((worst + 99) / 100)))

/-! Start-up and power-down sequences. -/

/-- Start-up begins after a reset, from step 2 (R593, R597): BOOT_MODE has been sampled. -/
def beginStart (cause bootMode : Nat) (c : Chip) : Chip :=
  let c1 := warmReset c
  modPwr (fun p => { p with phase := .starting, step := 1, cause := cause, bootMode := bootMode, tried := [],
                            failReason := 0, fromHost := false, fallback := false, ejectComplete := false,
                            releaseNs := localNs c }) c1

/-- VDD_CORE is lowered to 0.65 V at 1 mV/µs and turned off over 1 ms; EJECT_COMPLETE is set (R592). -/
def vcoreOff (c : Chip) : Chip :=
  let c1 := waitLocal (localNs c + (c.pwr.mvNow - 650) * 1000 + 1000000) c
  modPwr (fun p => { p with vcoreOn := false, mvNow := 0, mvTarget := 0, ejectComplete := true }) c1

/-- Every domain but AON is off. -/
def allOff (c : Chip) : Bool := (c.pwr.on &&& 0xFFFFFE) == 0

/-- The power-down has switched its last domain off: the rail follows, and a device warm reset starts the device (R592). -/
def powerDownEnd (c : Chip) : Chip :=
  if !allOff c ∨ !c.pwr.vcoreOn then c
  else
    match c.pwr.phase with
    | .warmDown => beginStart c.pwr.resetCause c.pwr.bootMode (vcoreOff c)
    | .ejecting => modPwr (fun p => { p with phase := .ejectComplete }) (vcoreOff c)
    | .fatal => vcoreOff c
    | .startFailed => vcoreOff c
    | _ => c

/-- The request has nothing left to switch: its command ends (R583). -/
def requestDone (c : Chip) : Chip :=
  let r := c.pwr.req
  if r.on ≠ [] ∨ r.off ≠ [] ∨ c.pwr.switch.isSome then c
  else
    let c1 := modPwr (fun p => { p with req := .none, withdrawn := [] }) c
    if r.cmd ≠ 0 then
      finish (r.cmd - 1) (if r.fault then { Res.err 0x0E03 with body := [wd c.pwr.on.toNat] } else
        if r.cancelled then { Res.err 0x0003 with body := [wd c.pwr.on.toNat] } else Res.ok [wd c.pwr.on.toNat]) c1
    else powerDownEnd c1

/-- A switch is complete: the event with its duration, the gap, and the request's next state. -/
def switchDone (w : Switch) (c : Chip) : Chip :=
  let now := localNs c
  let r := c.pwr.req
  let r1 := { r with on := lremove r.on w.dom, off := lremove r.off w.dom,
                     doneOn := if w.on then r.doneOn ++ [w.dom] else r.doneOn,
                     doneOff := if w.on then r.doneOff else r.doneOff ++ [w.dom] }
  let c1 := raise 0 0xE01 none w.dom (b2n w.on + 2 ^ 16 * ((now - w.startNs) / 1000))
    (modPwr (fun p => { p with switch := none, gapEnd := now + p.gapUs * 1000, req := r1,
                               withdrawn := lremove p.withdrawn w.dom }) c)
  requestDone (if r.cmd ≠ 0 then progress (r.cmd - 1) (4096 * (r1.doneOn ++ r1.doneOff).length / (r1.doneOn ++ r1.doneOff ++ r1.on ++ r1.off).length) [] c1 else c1)

/-- `POWER_RAMP_END` (R578, R579, R586): a header ramp ends. -/
def rampEnd (c0 : Chip) : Chip :=
  match c0.pwr.switch with
  | none => c0
  | some w =>
    if w.phase = .ramp ∨ w.phase = .undo then
      let c := waitLocal w.deadline c0
      let now := localNs c
      let c1 := if c.pwr.loadstepN then c else modPwr (fun p => { p with loadstepEnd := now + 10000 }) c
      if w.phase = .undo then
        let r := c1.pwr.req
        let r1 := if c1.pwr.phase = .starting then r else { r with on := [], off := [] }
        requestDone (modPwr (fun p => { p with switch := none, gapEnd := now + p.gapUs * 1000, req := r1 }) c1)
      else if w.on then
        modPwr (fun p => { p with switch := some { w with phase := .wake, deadline := w.startNs + wakeUs w.dom * 1000 } }) c1
      else switchDone w c1
    else c0

def execPowerRampEnd (s : State) : Host.Outcome State Fault Refusal := act s rampEnd

/-- `LOADSTEP_RELEASE` (R579): 10 µs after the ramp's end LOADSTEP_N is released. -/
def execLoadstepRelease (s : State) : Host.Outcome State Fault Refusal :=
  act s (fun c =>
    if !c.pwr.loadstepN ∧ c.pwr.loadstepEnd ≠ 0 then
      modPwr (fun p => { p with loadstepN := true, loadstepEnd := 0 }) (waitLocal c.pwr.loadstepEnd c)
    else c)

/-- `POWER_DOMAIN_USABLE` (R577, R583): the wake latency ends. -/
def domainWoke (c0 : Chip) : Chip :=
  match c0.pwr.switch with
  | some w => if w.phase = .wake then let c := waitLocal w.deadline c0; switchDone w (domainUsable w.dom c) else c0
  | none => c0

def execPowerDomainUsable (s : State) : Host.Outcome State Fault Refusal := act s domainWoke

/-- `POWER_GOOD_TIMEOUT` (R586): power good is not reached within twice the header ramp; the domain is switched off again and
marked failed. -/
def powerGoodTimeout (c0 : Chip) : Chip :=
  match c0.pwr.switch with
  | some w =>
    if w.on ∧ (w.phase = .ramp ∨ w.phase = .wake) then
      let c := waitLocal (w.startNs + 2 * rampUs w.dom * 1000) c0
      let now := localNs c
      raise 0 0xE02 none w.dom ((now - w.startNs) / 1000)
        (modPwr (fun p =>
          { p with switch := some { w with on := false, phase := .undo, deadline := now + rampUs w.dom * 1000 },
                   failed := linsert p.failed w.dom, events := p.events ||| 2,
                   req := { p.req with fault := true, on := lremove p.req.on w.dom } }) c)
    else c0
  | none => c0

def execPowerGoodTimeout (s : State) : Host.Outcome State Fault Refusal := act s powerGoodTimeout

/-! Credit and VDD_CORE. -/

/-- Nominal current of a unit kind in 10 mA: 0 encode or decode core, 1 compositor, 2 DMA channel, 3 engine (R581). -/
def unitAmps (kind : Nat) : Nat := match kind with | 0 => 100 | 1 => 70 | 2 => 10 | _ => 4

/-- Credit after `n` cycles of 1.25 ns: 25 A/µs up to 2 A. -/
def creditAfter (credit n : Nat) : Nat := min 200 (credit + n * 25 / 8)

/-- `UNIT_START_CREDIT` (R581): a unit's change draws on the credit; with too little, it waits until the credit suffices. -/
def startCredit (kind : Nat) (c : Chip) : Chip :=
  let need := unitAmps kind
  let have_ := creditAfter c.pwr.credit (c.time.cyc - c.pwr.creditCyc)
  let waitCyc := if need ≤ have_ then 0 else ((need - have_) * 8 + 24) / 25
  let c1 := { c with time := c.time.cycles waitCyc }
  modPwr (fun p => { p with credit := creditAfter p.credit (c1.time.cyc - p.creditCyc) - need, creditCyc := c1.time.cyc }) c1

def execUnitStartCredit (kind : Nat) (s : State) : Host.Outcome State Fault Refusal := act s (startCredit kind)

/-- `VCORE_STEP` (R582): VDD_CORE moves by at most 5 mV toward its target, at least 100 µs after the last step and only while
no domain is switching. -/
def vcoreStep (c0 : Chip) : Chip :=
  let p := c0.pwr
  if ¬ p.vcoreOn ∨ p.switch.isSome ∨ p.mvNow = p.mvTarget then c0
  else
    let c := waitLocal (p.vcoreStepNs + 100000) c0
    modPwr (fun p => { p with vcoreStepNs := localNs c,
                              mvNow := if p.mvNow < p.mvTarget then min (p.mvNow + 5) p.mvTarget else max (p.mvNow - 5) p.mvTarget }) c

def execVcoreStep (s : State) : Host.Outcome State Fault Refusal := act s vcoreStep

/-- `PMB_ALERT` (R582): the regulator's STATUS_WORD is read; `fatal` says that it reports an output undervoltage or
overcurrent fault. -/
def execPmbAlert (status : BitVec 16) (fatal : Bool) (s : State) : Host.Outcome State Fault Refusal :=
  act s (fun c =>
    let c1 := raise 0 0xE03 none 0 status.toNat (modPwr (fun p => { p with events := p.events ||| 1 }) c)
    if fatal then fatalAlarm 1 status.toNat [] c1 else c1)

/-! Power-on reset, rails, clocks. -/

/-- What a power-on reset leaves: fuses, pins and the non-volatile store (R593, R622). -/
def powerOnReset (c : Chip) : Chip :=
  let m := c.mgmt
  let mgmt := { Mgmt.reset with config := m.config, log := m.log, pinned := m.pinned, severity := m.severity,
                                drift := m.drift, history := m.history, hours := m.hours, porCount := m.porCount, bins := m.bins,
                                units := m.units.map (fun e => (e.1, { e.2 with faultNs := 0, testEnd := 0 })),
                                retiredCount := m.retiredCount, lowered := m.lowered }
  let t := c.twin
  let links := c.host.links.map (fun e => (e.1, e.2.afterReset))
  { Chip.reset with
      host := { HostIf.reset with links := links }
      net := { Net4.reset with rootFused := c.net.rootFused, pairing := c.net.pairing }
      dram := { Dram.reset with freeze := c.dram.freeze, repairMap := c.dram.repairMap, sramRepairs := c.dram.sramRepairs }
      twin := { Twin.reset with journal := t.journal, jTx := t.jTx, jAck := t.jAck, twinJournal := t.twinJournal,
                                sessionNum := t.sessionNum }
      pwr := { Power.reset with pgLow := c.pwr.pgLow, refclk := c.pwr.refclk, activeB := c.pwr.activeB }
      mgmt := mgmt, out := c.out, free := c.free }

/-- All of memory. -/
def clearMemory : List MemOp := [.zero 0 (2 * packetBase)]

/-- `POWER_ON_RESET` (R591, R593): PWRGD_AON (rail 0) or PWRGD_IO (rail 1) is low. -/
def execPowerOnReset (rail : Nat) (s : State) : Host.Outcome State Fault Refusal :=
  actMem s (fun c _ =>
    if rail < 2 then (powerOnReset (modPwr (fun p => { p with pgLow := linsert p.pgLow rail }) c), clearMemory) else (c, []))

/-- Organisation of DDR_CONFIG (R491, R607): x4, density, ranks, capacity in GiB. -/
def ddrOrg (org : Nat) : Bool × Nat × Bool × Nat :=
  match org with
  | 0 => (false, 0, false, 192) | 1 => (false, 0, true, 384) | 2 => (false, 1, false, 288) | 3 => (false, 2, false, 384)
  | _ => (true, 0, false, 384)

/-- Data rate in MT/s. -/
def ddrRate (n : Nat) : Nat := 4800 + 800 * n

/-- `POWER_ON_RESET_RELEASE` (R48, R492, R597): the supplies and SYS_REFCLK are there; the Keeper runs from ROM and reads its
configuration items. -/
def powerOnRelease (bootMode : Nat) (c : Chip) : Chip :=
  if c.pwr.phase = .held then
    let d := config c 5
    let o := ddrOrg (bits d 0 3)
    let valid := bit d 7 && decide (bits d 0 3 < 5)
    let dram := { c.dram with x4 := o.1, density := o.2.1, ranks2 := o.2.2.1, rate := ddrRate (bits d 4 2),
                              capGib := if valid then o.2.2.2 else 0 }
    let pins := { c.pwr with pgLow := lremove (lremove c.pwr.pgLow 0) 1, refclk := true }
    beginStart 1 (bootMode % 8)
      { c with dram := dram, pwr := pins, host := { c.host with split := config c 1, operatorPf := config c 2,
                                                                pfBar4 := config c 3, vfBar4 := config c 4 },
               mgmt := { c.mgmt with porCount := c.mgmt.porCount + 1 } }
  else c

def execPowerOnResetRelease (bootMode : Nat) (s : State) : Host.Outcome State Fault Refusal := act s (powerOnRelease bootMode)

/-- `PWRGD_LOSS` (R591): a power-good input falls, by rail number of R588. -/
def pwrgdLoss (rail : Nat) (c : Chip) : Chip × List MemOp :=
  let c1 := modPwr (fun p => { p with pgLow := linsert p.pgLow rail }) c
  if 7 ≤ rail then (c, [])
  else if rail < 2 then (powerOnReset c1, clearMemory)
  else if inService c then (fatalAlarm 2 rail [] c1, [])
  else (c1, [])

def execPwrgdLoss (rail : Nat) (s : State) : Host.Outcome State Fault Refusal := actMem s (fun c _ => pwrgdLoss rail c)

/-- `PWRGD_RESTORE` (R591): once every input is high again, a device stopped by power-good loss starts as after a device warm
reset. -/
def pwrgdRestore (rail bootMode : Nat) (c : Chip) : Chip :=
  let c1 := modPwr (fun p => { p with pgLow := lremove p.pgLow rail }) c
  if c1.pwr.pgLow = [] ∧ c1.pwr.phase = .fatal ∧ c1.mgmt.fatalCause = 2 then
    beginStart 4 (bootMode % 8) (modPwr (fun p => { p with on := 1, switch := none, vcoreOn := false, mvNow := 0 }) c1)
  else c1

def execPwrgdRestore (rail bootMode : Nat) (s : State) : Host.Outcome State Fault Refusal := act s (pwrgdRestore rail bootMode)

/-- `SYS_REFCLK_LOSS` (R619, R638). -/
def execSysRefclkLoss (s : State) : Host.Outcome State Fault Refusal :=
  act s (fun c => fatalAlarm 5 0 [] (modPwr (fun p => { p with refclk := false }) c))

/-- `TWIN_REFCLK_LOSS` (R638): link loss under R564; bring-up goes on once the clock is back (log 74). -/
def execTwinRefclkLoss (s : State) : Host.Outcome State Fault Refusal :=
  act s twinLinkLoss

/-- `DEVICE_WARM_RESET` (R565, R593): due 10 ms after its request; the twin is asked to take over and the orderly power-down
begins. BOOT_MODE is sampled. -/
def deviceWarmReset (bootMode : Nat) (c0 : Chip) : Chip :=
  if c0.pwr.resetAt = 0 then c0
  else
    let c := requestTakeover (waitLocal c0.pwr.resetAt c0)
    powerDown [] (modPwr (fun p => { p with phase := .warmDown, resetAt := 0, bootMode := bootMode % 8 }) c)

def execDeviceWarmReset (bootMode : Nat) (s : State) : Host.Outcome State Fault Refusal := act s (deviceWarmReset bootMode)

/-! Boot (R595, R596). -/

/-- An image's checks: 0, or the detail of BOOT_FALLBACK for the first that fails. -/
def imageFault (readOk keyOk sigOk : Bool) (version : Nat) : Nat :=
  if !readOk then 4 else if !keyOk then 1 else if !sigOk then 2 else if version < Config.minSecurityVersion then 3 else 0

/-- Step 5 of start-up ends with an authenticated image. -/
def bootDone (slotB fromHost : Bool) (fall : Option Nat) (c : Chip) : Chip :=
  let c1 := modPwr (fun p => { p with step := 5, slotB := slotB, fromHost := fromHost, fallback := fall.isSome }) c
  match fall with
  | some why => raise 0 0xE06 none (if fromHost then 2 else b2n slotB) why c1
  | none => c1

/-- `BOOT_IMAGE_READ_DONE` (R596): a flash slot has been read and authenticated, or the other slot or source is tried. -/
def bootImage (readOk keyOk sigOk : Bool) (version : Nat) (c : Chip) : Chip :=
  let p := c.pwr
  if ¬ (p.phase = .starting ∧ p.step = 4 ∧ (p.bootMode = 0 ∨ p.bootMode = 2) ∧ p.tried.length < 2) then c
  else
    let slotB := if p.tried = [] then p.activeB else !p.activeB
    let why := imageFault readOk keyOk sigOk version
    if why = 0 then bootDone slotB false p.tried.head? c
    else
      let c1 := modPwr (fun p => { p with tried := p.tried ++ [why] }) c
      if p.tried = [] then c1
      else if p.bootMode = 2 then modMgmt (fun m => { m with waitImage := true }) c1
      else startFail 1 c1

def execBootImageReadDone (readOk keyOk sigOk : Bool) (version : Nat) (s : State) : Host.Outcome State Fault Refusal :=
  act s (bootImage readOk keyOk sigOk version)

/-- Ask the governor for domains during start-up. -/
def wantOn (l : List Nat) (c : Chip) : Chip := modPwr (fun p => { p with req := { PowerCmd.none with on := l } }) c

/-- Every domain of a list is usable and no switch is under way. -/
def haveOn (c : Chip) (l : List Nat) : Bool := l.all (fun d => domOn c d) && c.pwr.req.on == [] && c.pwr.switch.isNone

/-- Domains of START_DOMAINS, ascending. One that R586 marks failed during this start stays off, and the start goes on
without it. -/
def startDomains (c : Chip) : List Nat :=
  (List.range 24).filter (fun d => (isInterfaceDomain d || isMediaDomain d) && bit (config c 6) d && !c.pwr.failed.contains d)

/-- The next start-up step of R597 completes. `ok`: PWRGD_CORE is confirmed (step 3). `units`: the cipher units that pass the
tests of R194 (step 7). -/
def startupStep (ok : Bool) (units : BitVec 20) (c : Chip) : Chip :=
  let p := c.pwr
  let at_ := fun n => modPwr (fun p => { p with step := n })
  if p.phase ≠ .starting then c
  else
    match p.step with
    | 1 => if 4 ≤ p.bootMode then startFail 5 (at_ 2 c) else at_ 2 c
    | 2 =>
      if [2, 3, 4, 5].any (fun r => p.pgLow.contains r) then c
      else if !ok then startFail 4 c
      else wantOn [1, 9, 10, 2] (modPwr (fun p => { p with step := 3, vcoreOn := true, mvNow := 800, mvTarget := 800 }) c)
    | 3 =>
      if haveOn c [1, 9, 10, 2] then
        let c1 := at_ 4 c
        if p.bootMode = 1 then modMgmt (fun m => { m with waitImage := true }) c1 else c1
      else c
    | 5 => wantOn [6] (modPwr (fun p => { p with step := 6, mvTarget := vcoreTarget c }) { c with sched := { c.sched with mode := 0 } })
    | 6 =>
      if haveOn c [6] then
        let c1 := { c with net := { c.net with cryUnits := units } }
        let c2 := (List.range 20).foldl (fun c i =>
          if units.getLsbD i then c
          else raise (6 + (if i < 16 then i / 4 else i - 16)) 0x214 none i (draw c).1 (draw c).2) c1
        if units.toNat / 2 ^ 16 = 0 then startFail 3 (at_ 7 c2)
        else if c.dram.capGib = 0 then startFail 2 (at_ 7 c2)
        else wantOn [7, 8] (at_ 7 c2)
      else c
    | 7 => if haveOn c [7, 8] then at_ 8 c else c
    | 8 => if (List.range 24).all (fun s => (getSub c s).st == 1) then at_ 9 { c with dram := { c.dram with scrubPos := 0 } } else c
    | 9 =>
      let c1 := layOutPools (capBytes c / 16) defaultShares c
      let d := draw c1
      wantOn (startDomains c) (at_ 11 { d.2 with net := { d.2.net with keyTblReady := true, bootNonce := d.1 % 2 ^ 64 } })
    | 11 =>
      if haveOn c (startDomains c) then
        let ms := (localNs c - p.releaseNs) / 1000000
        let c0 := setSchedMode 3 c
        let c1 := { c0 with
          twin := { c.twin with hbStopped := false, silent := false }
          mgmt := { c.mgmt with foghornN := true, fatalCause := 0, kicks := (List.range 4).map (fun i => (i, localNs c)) }
          pwr := { p with step := 12, phase := .service, startTimeMs := ms } }
        raise 0 0xE04 none (p.cause + 16 * b2n p.slotB + 32 * b2n p.fromHost + 128 * b2n p.fallback) ms c1
      else c
    | _ => c

/-! Commands. -/

/-- GX_DEVICE_RESET: DONE, and the device warm reset begins 10 ms later. -/
def deviceReset (x : Ctx) (c : Chip) : Chip :=
  x.done (Res.ok []) (modPwr (fun p => { p with resetAt := localNs c + 10000000, resetCause := 2 }) c)

def execGxDeviceReset (cmd : CmdRef) (s : State) : Host.Outcome State Fault Refusal :=
  act s (serve 0x0E02 cmd (fun b => firstBad [(bf b 0 0 16 != 0xD0A7, 0)]) deviceReset)

/-- GX_IMAGE_VERIFY begins by fetching the image from host memory. -/
def imageVerify (x : Ctx) (c : Chip) : Chip :=
  if !hostReach c x.fn then x.done (Res.err 0x0001) (errBit x.fn 7 c)
  else
    emit (.hostRead x.fn (bd x.body 0) (bw x.body 8))
      (modSlot x.k (fun s => { s with fetch := .waiting (bd x.body 0) (bw x.body 8) }) (progress x.k 1 [bw x.body 8] c))

def execGxImageVerify (cmd : CmdRef) (s : State) : Host.Outcome State Fault Refusal :=
  act s (serve 0x0E10 cmd (fun b => firstBad [(outside (bw b 8) 1 16777216, 8)]) imageVerify)

/-- Steps of GX_IMAGE_VERIFY after its fetch: the checks, then the marking of the slot written. Whether the image fetched
authenticates and its security version are facts about its bytes that the model takes as free values (log 27). -/
def imageVerifyStep (k : Nat) (w : List Nat) (c : Chip) : Chip :=
  match w with
  | [_] =>
    let keyOk := Config.fresh c.free % 2 = 0
    let version := Config.fresh (c.free + 1) % 65536
    let c1 := { c with free := c.free + 2 }
    if ¬ keyOk then finish k (Res.err 0x0E04) c1
    else if version < Config.minSecurityVersion then finish k (Res.err 0x0E05) c1
    else progress k 2048 [w.getD 0 0, version] c1
  | _ => finish k (Res.ok [wd (b2n (!c.pwr.activeB) + 2 ^ 16 * w.getD 1 0)]) (modPwr (fun p => { p with activeB := !p.activeB }) c)

end Sys2Proof.Machine
end

