-- ==== Sys2Proof/Machine/HostIf.lean ====
section
/-!
DEFINITION. The host interface (R48 to R88): doorbells and slots, function registers, event queues and MSI-X, BAR2 locks,
BAR4 accesses, and the resets of links and functions; with the collector that fills the log rings and queues (R612, R613).
-/
namespace Sys2Proof.Machine
open Sys2Proof

/-! Doorbells and slots (R60 to R67). -/

/-- The low words of a command, as DB_SUBMIT captures it. -/
def captureSlot (fn slot : Nat) (c : Chip) : Chip :=
  let k := slotKey fn slot
  let s := getSlot c k
  let c1 := { c with host := { c.host with nextOrder := c.host.nextOrder + 1 } }
  putSlot k { s with st := .busy, tag := bits (s.word 0) 16 16, submitNs := svc c % 2 ^ 32, order := c.host.nextOrder,
                     opAtCapture := isOperator c fn, duringRestart := c.host.fwRestarting, taken := false, cancel := false,
                     fetch := .idle, steps := 0, work := [], fraction := 0 } c1

/-- `DB_SUBMIT` (R61, R65). An access that finds both ENABLE 0 and a slot that is not EMPTY sets both bits of ERR_STATUS and is
counted once (log 166). -/
def dbSubmit (fn : Nat) (v : Word) (c : Chip) : Chip :=
  let slot := bits v.toNat 0 6
  let off := !(getFn c fn).enable
  let used := (getSlot c (slotKey fn slot)).st != .empty
  if off || used then
    errCount fn ((fun c => if off then errBit fn 8 c else c) ((fun c => if used then errBit fn 0 c else c) c))
  else captureSlot fn slot c

def execDbSubmit (fn : Nat) (v : Word) (s : State) : Host.Outcome State Fault Refusal :=
  act s (fun c => if barReach c fn then dbSubmit fn v c else c)

/-- `DB_RETIRE` (R61, R65). -/
def dbRetire (fn : Nat) (v : Word) (c : Chip) : Chip :=
  let k := slotKey fn (bits v.toNat 16 6)
  let s := getSlot c k
  if s.st = .done ∧ s.tag = bits v.toNat 0 16 then putSlot k Slot.zero c else errAccess fn 2 c

def execDbRetire (fn : Nat) (v : Word) (s : State) : Host.Outcome State Fault Refusal :=
  act s (fun c => if barReach c fn then dbRetire fn v c else c)

/-- `DB_CANCEL` (R65, R66): the mark has no effect on an immediate or transactional command. -/
def dbCancel (fn : Nat) (v : Word) (c : Chip) : Chip :=
  let k := slotKey fn (bits v.toNat 16 6)
  let s := getSlot c k
  if s.open_ ∧ s.tag = bits v.toNat 0 16 then
    if steppedOps.contains s.op then modSlot k (fun s => { s with cancel := true }) c else c
  else errAccess fn 3 c

def execDbCancel (fn : Nat) (v : Word) (s : State) : Host.Outcome State Fault Refusal :=
  act s (fun c => if barReach c fn then dbCancel fn v c else c)

/-- `SLOT_WRITE` (R60, R65): word `word` of an EMPTY slot. -/
def slotWrite (fn slot word : Nat) (v : Word) (c : Chip) : Chip :=
  let k := slotKey fn (slot % 64)
  if (getSlot c k).st = .empty then modSlot k (fun s => { s with words := tput s.words (word % 128) v }) c
  else errAccess fn 1 c

def execSlotWrite (fn slot word : Nat) (v : Word) (s : State) : Host.Outcome State Fault Refusal :=
  act s (fun c => if barReach c fn then slotWrite fn slot word v c else c)

/-! Function registers (R57, R71, R73). -/

/-- The event queue settings allow an enable (R71). -/
def evqValid (f : Fn) : Bool := f.evqBase != 0 && f.evqTailAddr != 0 && decide (6 ≤ f.evqLog2 ∧ f.evqLog2 ≤ 20)

/-- `FN_CTRL_WRITE` (R57, R71). What EVQ_COALESCE has not signalled yet stays counted when the queue is disabled or enabled again
(log 168). -/
def fnCtrlWrite (fn : Nat) (v : Word) (c : Chip) : Chip :=
  let f := getFn c fn
  let evq := v.getLsbD 1
  if evq ∧ !f.evqEnable ∧ !evqValid f then errAccess fn 5 c
  else
    modFn fn (fun f =>
      { f with enable := v.getLsbD 0, evqEnable := evq, purgeOnReset := v.getLsbD 2, errIrqEn := v.getLsbD 3,
               evqHead := if evq && !f.evqEnable then 0 else f.evqHead,
               evqTail := if evq && !f.evqEnable then 0 else f.evqTail }) c

def execFnCtrlWrite (fn : Nat) (v : Word) (s : State) : Host.Outcome State Fault Refusal :=
  act s (fun c => if barReach c fn then fnCtrlWrite fn v c else c)

/-- `EVQ_HEAD_WRITE` (R71): a head outside the range from the present head to the tail is refused. -/
def evqHeadWrite (fn : Nat) (v : Word) (c : Chip) : Chip :=
  let f := getFn c fn
  let size := 2 ^ f.evqLog2
  if v.toNat < size ∧ (v.toNat + size - f.evqHead) % size ≤ (f.evqTail + size - f.evqHead) % size then
    modFn fn (fun f => { f with evqHead := v.toNat }) c
  else errAccess fn 5 c

def execEvqHeadWrite (fn : Nat) (v : Word) (s : State) : Host.Outcome State Fault Refusal :=
  act s (fun c => if barReach c fn then evqHeadWrite fn v c else c)

/-- `EVQ_LOST_READ` (R13, R15): read and clear. -/
def execEvqLostRead (fn : Nat) (s : State) : Host.Outcome State Fault Refusal :=
  act s (fun c =>
    if barReach c fn then emit (.readData fn [wd (getFn c fn).evqLost]) (modFn fn (fun f => { f with evqLost := 0 }) c) else c)

/-- `ERR_COUNT_READ` (R13, R15): read and clear. -/
def execErrCountRead (fn : Nat) (s : State) : Host.Outcome State Fault Refusal :=
  act s (fun c =>
    if barReach c fn then emit (.readData fn [wd (getFn c fn).errCount]) (modFn fn (fun f => { f with errCount := 0 }) c) else c)

/-- `B2_DOMAIN_MISS_READ` (R77): read and clear. -/
def execB2DomainMissRead (fn : Nat) (s : State) : Host.Outcome State Fault Refusal :=
  act s (b2Read fn 0xC (fun c => emit (.readData fn [wd c.host.b2DomainMiss]) { c with host := { c.host with b2DomainMiss := 0 } }))

/-- The function whose BAR an access addresses: for BAR2 it is the operator function. -/
def accessFn (c : Chip) (fn : Nat) (bar2 : Bool) : Nat := if bar2 then operatorFn c else fn

/-- An access reaches BAR0 of a function, or BAR2. -/
def accessReach (c : Chip) (fn : Nat) (bar2 : Bool) : Bool := if bar2 then bar2Reach c fn else barReach c fn

/-- `UNALIGNED_ACCESS` (R12): no effect, a read returns all ones, and it is counted. BAR2 of a function without the operator
role is unoccupied (R11, R56). -/
def execUnalignedAccess (fn : Nat) (bar2 read : Bool) (s : State) : Host.Outcome State Fault Refusal :=
  act s (fun c =>
    if accessReach c fn bar2 then
      errCount (accessFn c fn bar2) (if read then emit (.readData fn [0xFFFFFFFF]) c else c)
    else if bar2 ∧ read ∧ bar2Blank c fn then emit (.readData fn [0]) c
    else c)

/-- `POISONED_WRITE_TLP` (R69): discarded, reported through AER, and marked in ERR_STATUS. -/
def execPoisonedWriteTlp (fn : Nat) (bar2 : Bool) (s : State) : Host.Outcome State Fault Refusal :=
  act s (fun c =>
    if accessReach c fn bar2 then errAccess (accessFn c fn bar2) 6 (emit (.aer (accessFn c fn bar2) 0) c) else c)

/-! BAR4 (R80 to R83). -/

/-- Pieces of a BAR4 range by page: offset in the range, length, and device address where the page is mapped. -/
def bar4Pieces (c : Chip) (fn addr n : Nat) : List (Nat × Nat × Option Nat) :=
  if n = 0 then []
  else (List.range ((addr + n - 1) / pageBytes - addr / pageBytes + 1)).map (fun i =>
    let pg := addr / pageBytes + i
    let lo := max addr (pg * pageBytes)
    let hi := min (addr + n) (pg * pageBytes + pageBytes)
    (lo - addr, hi - lo, windowAddr c fn lo))

/-- `BAR4_WRITE` (R69, R80, R515). Of a write across a mapped and an unmapped page the mapped part is written, and the access is
counted once (log 169). -/
def bar4Write (fn addr : Nat) (data : List Byte) (poisoned : Bool) (c : Chip) (m : Mem) : Chip × List MemOp :=
  let ps := bar4Pieces c fn addr data.length
  let r := ps.foldl (fun (r : Chip × List MemOp) p =>
    match p.2.2 with
    | some a => let w := memWrite m a ((data.drop p.1).take p.2.1) poisoned r.1; (w.2, r.2 ++ w.1)
    | none => r) (c, [])
  (if ps.any (fun p => p.2.2.isNone) then errCount fn r.1 else r.1, r.2)

def execBar4Write (fn addr : Nat) (data : List Byte) (poisoned : Bool) (s : State) : Host.Outcome State Fault Refusal :=
  actMem s (fun c m => if barReach c fn then bar4Write fn addr data poisoned c m else (c, []))

/-- `BAR4_READ` (R80, R82): an unmapped page reads zero; a poisoned word makes the completion a poisoned TLP. -/
def bar4Read (fn addr n : Nat) (c : Chip) (m : Mem) : Chip :=
  let r := (bar4Pieces c fn addr n).foldl (fun (r : List Byte × Bool × Chip) p =>
    match p.2.2 with
    | some a => let x := memRead m a p.2.1 r.2.2; (r.1 ++ x.1, r.2.1 || !x.2.1.isEmpty, x.2.2)
    | none => (r.1 ++ List.replicate p.2.1 0, r.2.1, r.2.2)) ([], false, c)
  emit (if r.2.1 then .readPoison fn else .readData fn (wordsOf r.1)) r.2.2

def execBar4Read (fn addr bytes : Nat) (s : State) : Host.Outcome State Fault Refusal :=
  actMem s (fun c m => (if barReach c fn then bar4Read fn addr bytes c m else c, []))

/-! BAR2 window control (R77 to R79). -/

/-- `B2_UNLOCK` (R77, R78). -/
def b2Unlock (v : Word) (c : Chip) : Chip :=
  if bits v.toNat 16 16 = 0xB2C1 then
    { c with host := { c.host with b2Lock := c.host.b2Lock &&& ~~~(BitVec.ofNat 10 (bits v.toNat 1 9 * 2)) } }
  else lockViolation 8 v c

def execB2Unlock (fn : Nat) (v : Word) (s : State) : Host.Outcome State Fault Refusal :=
  act s (fun c => if bar2Reach c fn then b2Unlock v c else c)

/-- `BAR2_DOMAIN_OFF_ACCESS` (R79). -/
def execBar2DomainOffAccess (fn addr : Nat) (read : Bool) (s : State) : Host.Outcome State Fault Refusal :=
  act s (fun c => if bar2Reach c fn ∧ blockOff c addr then blockMiss fn read c else c)

/-! MSI-X (R75). -/

/-- Send the pending messages that nothing holds back any more. -/
def sendPending (fn : Nat) (c : Chip) : Chip :=
  let f := getFn c fn
  if f.busMaster then
    let due := f.msixPend.filter (fun v => f.msixOpen.contains v)
    due.foldl (fun c v => emit (.msix fn v) c) (modFn fn (fun f => { f with msixPend := f.msixPend.filter (fun v => !f.msixOpen.contains v) }) c)
  else c

/-- `MSIX_UNMASK` (R75). -/
def execMsixUnmask (fn vec : Nat) (s : State) : Host.Outcome State Fault Refusal :=
  act s (fun c =>
    if fnExists c fn ∧ vec < msixSize fn then
      sendPending fn (modFn fn (fun f => { f with msixOpen := linsert f.msixOpen vec }) c)
    else c)

/-- `BUS_MASTER_ENABLE` (R75). -/
def execBusMasterEnable (fn : Nat) (enable : Bool) (s : State) : Host.Outcome State Fault Refusal :=
  act s (fun c => if fnExists c fn then sendPending fn (modFn fn (fun f => { f with busMaster := enable }) c) else c)

/-! Event records, log rings and event queues (R70 to R74, R610 to R613). -/

/-- The 32 bytes of a record. -/
def EvRec.words (r : EvRec) (lap : Bool) : List Word :=
  wd2 r.sec ++ [wd r.ns, wd (r.island + 2 ^ 8 * r.iseq),
    wd (r.code + 2 ^ 16 * r.severity + 2 ^ 20 * b2n (r.fn != 0) + 2 ^ 21 * b2n lap + 2 ^ 24 * (r.fn - 1)), wd r.object] ++ wd2 r.detail

/-- Append to a ring of `n` slots (R612). -/
def LogRing.append (l : LogRing) (n : Nat) (r : EvRec) : LogRing :=
  { slots := tput l.slots l.head (r, l.lap), head := if l.head + 1 = n then 0 else l.head + 1,
    lap := if l.head + 1 = n then !l.lap else l.lap }

def logSlots : Nat := 64512
def pinnedSlots : Nat := 1024

/-- Signal entries of an event queue under coalescing (R74). -/
def evqSignal (fn : Nat) (c : Chip) : Chip :=
  let f := getFn c fn
  if f.coalCount ≤ f.unsignalled then
    msix fn (bits f.vecMap.toNat 8 8) (modFn fn (fun f => { f with unsignalled := 0 }) c)
  else c

/-- Write a record to a function's event queue, or count it as lost (R72, R73). -/
def deliver (fn : Nat) (r : EvRec) (c : Chip) : Chip :=
  let f := getFn c fn
  let size := 2 ^ f.evqLog2
  if r.code = 0x4 ∧ r.object = fn then c
  else if !f.evqEnable || !f.busMaster then modFn fn (fun f => { f with evqLost := min (f.evqLost + 1) 0xFFFFFFFF }) c
  else if (f.evqTail + 1) % size = f.evqHead then
    let c1 := modFn fn (fun f => { f with evqLost := min (f.evqLost + 1) 0xFFFFFFFF }) c
    if f.errStatus.getLsbD 4 then c1 else raise 2 0x4 none fn (getFn c1 fn).evqLost (errBit fn 4 c1)
  else
    let tail := (f.evqTail + 1) % size
    let c1 := emit (.hostWrite fn f.evqTailAddr.toNat [wd tail])
      (emit (.hostWrite fn (f.evqBase.toNat + 32 * f.evqTail) (r.words false)) c)
    evqSignal fn (modFn fn (fun f => { f with evqTail := tail, unsignalled := f.unsignalled + 1,
                                              oldestNs := if f.unsignalled = 0 then localNs c else f.oldestNs }) c1)

/-- The collector stores a record in the rings, while its buffer has room (R612, R613), and the alert pin follows (R604). -/
def logRecord (r : EvRec) (c : Chip) : Chip :=
  let m := c.mgmt
  if 4096 ≤ m.buffered then raiseRated 0 0xF08 none 0 (fun n => n) 1 c
  else
    { c with mgmt := { m with buffered := m.buffered + 1, log := m.log.append logSlots r,
                              pinned := if 4 ≤ r.severity then m.pinned.append pinnedSlots r else m.pinned,
                              alert := m.alert || decide (config c 15 ≤ r.severity) } }

/-- `EVENT_COLLECT` (R612): the oldest record on its way reaches the collector: log rings, its function's queue, the twin. -/
def eventCollect (c : Chip) : Chip :=
  match c.mgmt.incoming with
  | [] => c
  | r :: rest =>
    let c1 := logRecord r (modMgmt (fun m => { m with incoming := rest }) c)
    let c2 := deliver (if r.fn = 0 then operatorFn c1 else r.fn - 1) r c1
    twinSend (.event (r.words false)) c2

def execEventCollect (s : State) : Host.Outcome State Fault Refusal := act s eventCollect

/-- `LOG_STORE_WRITE` (R613): a buffered record is written to the store. -/
def execLogStoreWrite (s : State) : Host.Outcome State Fault Refusal :=
  act s (modMgmt (fun m => { m with buffered := m.buffered - 1 }))

/-- `EVQ_COALESCE_TIMEOUT` (R74): TIME_US has passed since the oldest unsignalled entry. -/
def evqTimeout (fn : Nat) (c : Chip) : Chip :=
  let f := getFn c fn
  if 0 < f.unsignalled ∧ 0 < f.coalCount ∧ 0 < f.coalUs then
    msix fn (bits f.vecMap.toNat 8 8) (modFn fn (fun f => { f with unsignalled := 0 }) (waitLocal (f.oldestNs + f.coalUs * 1000) c))
  else c

def execEvqCoalesceTimeout (fn : Nat) (s : State) : Host.Outcome State Fault Refusal := act s (evqTimeout fn)

/-! Resets of functions and links (R84 to R87). -/

/-- Record a ticket's outcome, keeping the newest 256 of each function (GX_TXN_STATUS). -/
def putOutcome (o : Outcome4) (c : Chip) : Chip :=
  let l := o :: c.gx.outcomes.filter (fun x => x.ticket != o.ticket)
  let mine := (l.filter (fun x => x.fn == o.fn)).take 256
  { c with gx := { c.gx with outcomes := l.filter (fun x => x.fn != o.fn || mine.contains x) } }

/-- Identifiers that a staged list reserves. -/
def reservedBy (l : List Staged) : List Nat :=
  l.flatMap (fun x => (if x.create then [idKey x.obj] else []) ++ x.more.map idKey)

/-- Roll an open transaction back: its reserved identifiers are free again (R113). -/
def dropTxn (t : Txn) (c : Chip) : Chip :=
  let ids := reservedBy t.staged
  { c with gx := { c.gx with reserved := c.gx.reserved.filter (fun k => !ids.contains k) } }

/-- A function's sessions end and their transactions roll back (R85, R109). -/
def dropSessions (fn : Nat) (c : Chip) : Chip :=
  let mine := c.gx.sessions.filter (fun e => e.2.fn == fn)
  let c1 := mine.foldl (fun c e => match e.2.txn with | some t => dropTxn t c | none => c) c
  { c1 with gx := { c1.gx with sessions := c1.gx.sessions.filter (fun e => e.2.fn != fn) } }

/-- Held commits of the function are withdrawn (R85). -/
def withdrawHeld (fn : Nat) (c : Chip) : Chip :=
  let gone := c.gx.held.filter (fun x => x.fn == fn && (x.kind == .host || x.kind == .bulk))
  let c1 := { c with gx := { c.gx with held := c.gx.held.filter (fun x => !(x.fn == fn && (x.kind == .host || x.kind == .bulk))) } }
  gone.foldl (fun c x =>
    raise 1 0x101 none x.ticket 0x108
      (putOutcome { ticket := x.ticket, fn := fn, state := 3, status := 0x108, epoch := 0 }
        (dropTxn { staged := x.staged, bytes := 0 } c))) c1

/-- The purge of a function, waiting in the commit queue (R86). -/
def purgeCommit (fn : Nat) : Commit :=
  { kind := .purge, fn := fn, slot := none, session := 0, ticket := 0, staged := [], stage := .queued, next := .empty,
    deadline := 0, unmirrored := false, auto := false, asking := [], journal := 0, discard := false, more := [], cause := 0, start := 0, ids := [],
    left := 0, only := false, asked := 0 }

/-- Work that stepped commands of the function have under way stops at the step boundary (R85). -/
def stopStepped (fn : Nat) (c : Chip) : Chip :=
  let mine := c.host.slots.filter (fun e => e.1 / 64 == fn && e.2.open_)
  let c1 := if mine.any (fun e => (e.2.op == 0x0B02 || e.2.op == 0x0B03) && e.2.st == .progress) then
      { c with dram := { c.dram with busy := false, pausedBank := none } } else c
  let c2 := if c1.pwr.req.cmd ≠ 0 ∧ (c1.pwr.req.cmd - 1) / 64 = fn then
      modPwr (fun p => { p with req := { p.req with cmd := 0, on := [], off := [] }, withdrawn := [] }) c1 else c1
  match c2.twin.handover with
  | some h => if h.cmd ≠ 0 ∧ (h.cmd - 1) / 64 = fn then modTwin (fun t => { t with handover := some { h with cmd := 0 } }) c2 else c2
  | none => c2

/-- Rings in host memory that the reset disables: the function's tunnel ring and the frame rings of its canvases; for the
operator PF also the PTP ring and the twin event ring (R163, R364, R547). -/
def disableRings (fn : Nat) (c : Chip) : Chip :=
  let mine := (cfg c).indexes tCanvas |>.filter (fun i => (cfg c).owner tCanvas i == some fn)
  let vid := { c.vid with canvases := c.vid.canvases.map (fun e => (e.1, if mine.contains e.1 then { e.2 with ring := .zero } else e.2)) }
  let c1 := { c with vid := vid, net := { c.net with tunnel := tdel c.net.tunnel fn } }
  if isOperator c fn then { c1 with time := { c1.time with ring := .zero }, twin := { c1.twin with ring := .zero } } else c1

/-- Reset one function (R84 to R86). `kind`: 0 PERST_N, 1 hot reset, 2 link down, 3 FLR. -/
def resetFn (kind fn : Nat) (c : Chip) : Chip :=
  let f := getFn c fn
  let c1 := raise 2 0x3 none fn kind (disableRings fn (stopStepped fn (endHostDma fn (withdrawHeld fn (dropSessions fn c)))))
  let act_ := match c1.gx.active with
    | some a => if a.fn = fn ∧ (a.kind = .host ∨ a.kind = .bulk) then some { a with slot := none, discard := true } else some a
    | none => none
  let checks := c1.gx.checks.map (fun a => if a.fn = fn then { a with slot := none, discard := true } else a)
  let c2 := { c1 with gx := { c1.gx with active := act_, checks := checks.filter (fun a => a.stage != .validating || a.slot.isSome) },
                      host := { c1.host with slots := c1.host.slots.filter (fun e => e.1 / 64 != fn),
                                             vfs := if isVf fn then c1.host.vfs else tdel c1.host.vfs (fn / 64) } }
  let c3 := modFn fn (fun _ => { Fn.zero with purgePending := f.purgePending || f.purgeOnReset, flrBusy := kind == 3 }) c2
  if f.purgeOnReset then { c3 with gx := { c3.gx with held := c3.gx.held ++ [purgeCommit fn] } } else c3

/-- Virtual functions of a physical function that exist. -/
def vfsOf (c : Chip) (pf : Nat) : List Nat := (List.range (tget 0 c.host.vfs pf)).map (fun i => 64 * pf + i + 1)

/-- Physical functions of a link, in ascending order (R48). -/
def linkPfs (split link : Nat) : List Nat := (List.range 4).filter (fun pf => linkOf split (64 * pf) == link)

/-- Lanes of a link under a split (R48). -/
def linkLanes (split link : Nat) : Nat :=
  match split with
  | 0 => 16
  | 1 => 8
  | 2 => if link = 0 then 8 else 4
  | _ => 4

/-- Place of a function's PF among the PFs of its link. -/
def pfPlace (split fn : Nat) : Nat := ((linkPfs split (linkOf split fn)).filter (fun pf => decide (pf < fn / 64))).length

/-- Function number of a function on its link (R52). -/
def pciNumber (split fn : Nat) : Nat :=
  if isVf fn then (linkPfs split (linkOf split fn)).length + 63 * pfPlace split fn + fn % 64 - 1 else pfPlace split fn

/-- What configuration space states of a function (R50, R52, R53). -/
def pciConfig (c : Chip) (fn : Nat) : PciConfig :=
  let split := c.host.split
  { vendorId := 0x1F7C, deviceId := if isVf fn then 0x4109 else 0x4108, number := pciNumber split fn,
    sriov := if isVf fn then none else some ((linkPfs split (linkOf split fn)).length + 62 * pfPlace split fn, 1, 63),
    maxPayload := 512, maxReadRequest := 4096, tenBitTags := true, aer := true, ari := true, msixVectors := msixSize fn,
    aspmL1 := true, aspmL0s := false }

/-- Functions of a link, each physical function after its virtual functions. -/
def linkFns (c : Chip) (link : Nat) : List Nat :=
  (List.range 4).flatMap (fun pf => if linkOf c.host.split (64 * pf) = link then vfsOf c pf ++ [64 * pf] else [])

def modLink (n : Nat) (f : PcieLink → PcieLink) (c : Chip) : Chip :=
  { c with host := { c.host with links := tmod PcieLink.zero c.host.links n f } }

/-- LINK_STATE of a link. -/
def raiseLinkState (n : Nat) (c : Chip) : Chip :=
  let l := getLink c n
  raise 2 0x5 none n (l.speed + 2 ^ 4 * l.width + 2 ^ 9 * b2n l.up) c

/-- A link and its functions are reset. LINK_STATE of a link that goes down carries speed 0 and width 0 (log 170). -/
def linkReset (kind n : Nat) (c : Chip) : Chip :=
  let was := (getLink c n).up
  let c1 := (linkFns c n).foldl (fun c fn => resetFn kind fn c) c
  let c2 := modLink n (fun l => { l with up := false, speed := 0, width := 0 }) c1
  if was then raiseLinkState n c2 else c2

/-- The split creates the link (R49). -/
def linkExists (c : Chip) (n : Nat) : Bool := (List.range 4).any (fun pf => linkOf c.host.split (64 * pf) == n)

/-- `PERST_ASSERT` (R49, R84). -/
def execPerstAssert (link : Nat) (s : State) : Host.Outcome State Fault Refusal :=
  act s (fun c =>
    if linkExists c link ∧ !(getLink c link).perst then linkReset 0 link (modLink link (fun l => { l with perst := true }) c) else c)

/-- `PERST_RELEASE` (R85): configuration requests are answered with retry status until the functions are set up. -/
def execPerstRelease (link : Nat) (s : State) : Host.Outcome State Fault Refusal :=
  act s (fun c =>
    if linkExists c link ∧ (getLink c link).perst then emit (.retry link) (modLink link (fun l => { l with perst := false }) c) else c)

/-- `PCIE_HOT_RESET` (R84). -/
def execPcieHotReset (link : Nat) (s : State) : Host.Outcome State Fault Refusal :=
  act s (fun c => if linkExists c link ∧ (getLink c link).up then linkReset 1 link c else c)

/-- `PCIE_LINK_DOWN` (R84). -/
def execPcieLinkDown (link : Nat) (s : State) : Host.Outcome State Fault Refusal :=
  act s (fun c => if linkExists c link ∧ (getLink c link).up then linkReset 2 link c else c)

/-- `PCIE_REFCLK_LOSS` (R638): link n goes down. -/
def execPcieRefclkLoss (link : Nat) (s : State) : Host.Outcome State Fault Refusal :=
  act s (fun c =>
    let c1 := modLink link (fun l => { l with refclk := false }) c
    if linkExists c link ∧ (getLink c link).up then linkReset 2 link c1 else c1)

/-- A link can train to a speed index and width (R48, R50, R88): 1 to 5, and a power of two of lanes up to those of the split. -/
def linkTrains (c : Chip) (link speed width : Nat) : Bool :=
  !outside speed 1 5 && [1, 2, 4, 8, 16].contains width && decide (width ≤ linkLanes c.host.split link)

/-- `PCIE_LINK_UP` (R50, R85): the link reaches L0. -/
def execPcieLinkUp (link speed width : Nat) (s : State) : Host.Outcome State Fault Refusal :=
  act s (fun c =>
    if linkExists c link ∧ !(getLink c link).perst ∧ domOn c 2 ∧ linkTrains c link speed width then
      raiseLinkState link (modLink link (fun l => { l with up := true, speed := speed, width := width, refclk := true }) c)
    else c)

/-- `FLR` (R84): of a physical function with its virtual functions, or of a virtual function. -/
def execFlr (fn : Nat) (s : State) : Host.Outcome State Fault Refusal :=
  act s (fun c =>
    if fnExists c fn ∧ (getLink c (linkOf c.host.split fn)).up then
      (if isVf fn then [fn] else vfsOf c (fn / 64) ++ [fn]).foldl (fun c f => resetFn 3 f c) c
    else c)

/-- `FLR_COMPLETE` (R85): READY becomes 1 when the FLR completes, if the device is in service. -/
def execFlrComplete (fn : Nat) (s : State) : Host.Outcome State Fault Refusal :=
  act s (fun c => if (getFn c fn).flrBusy then modFn fn (fun f => { f with flrBusy := false, ready := inService c }) c else c)

/-- `FUNCTION_READY` (R85): within 50 ms of L0, once the device is in service. -/
def execFunctionReady (link : Nat) (s : State) : Host.Outcome State Fault Refusal :=
  act s (fun c =>
    if inService c ∧ (getLink c link).up then
      (linkFns c link).foldl (fun c fn => if (getFn c fn).flrBusy then c else modFn fn (fun f => { f with ready := true }) c) c
    else c)

/-- `D3HOT_TRANSITION` (R50). -/
def execD3hotTransition (fn : Nat) (d3hot : Bool) (s : State) : Host.Outcome State Fault Refusal :=
  act s (fun c => if fnExists c fn then modFn fn (fun f => { f with d3hot := d3hot }) c else c)

/-- A virtual function ceases to exist: its registers, slots, sessions and DMA go, its held commits and objects stay (R54; log 165). -/
def removeVf (fn : Nat) (c : Chip) : Chip :=
  let c1 := disableRings fn (stopStepped fn (endHostDma fn (dropSessions fn c)))
  { c1 with host := { c1.host with slots := c1.host.slots.filter (fun e => e.1 / 64 != fn), fns := tdel c1.host.fns fn } }

/-- `VF_ENABLE_CHANGE` (R54): VF Enable of a physical function with NumVFs, 0 when it is cleared. A new virtual function takes
READY from its physical function (log 165). -/
def vfEnable (pf n : Nat) (c : Chip) : Chip :=
  if 4 ≤ pf ∨ 63 < n then c
  else
    let gone := (vfsOf c pf).filter (fun f => decide (n < f % 64))
    let c1 := gone.foldl (fun c f => removeVf f c) c
    let c2 := { c1 with host := { c1.host with vfs := if n = 0 then tdel c1.host.vfs pf else tput c1.host.vfs pf n } }
    (vfsOf c2 pf).foldl (fun c f => modFn f (fun x => { x with ready := (getFn c (64 * pf)).ready }) c) c2

def execVfEnableChange (pf numVfs : Nat) (s : State) : Host.Outcome State Fault Refusal := act s (vfEnable pf numVfs)

/-! Payload fetches and opcodes. -/

/-- `PAYLOAD_FETCH_DONE` (R100): the fetch of a command's extension or image completes with its words. -/
def execPayloadFetchDone (cmd : CmdRef) (data : List Word) (s : State) : Host.Outcome State Fault Refusal :=
  act s (fun c =>
    let k := slotKey cmd.fn cmd.slot
    match (getSlot c k).fetch with
    | .waiting _ n => modSlot k (fun s => { s with fetch := .got ((data ++ List.replicate ((n + 3) / 4) 0).take ((n + 3) / 4)) }) c
    | _ => c)

/-- `PAYLOAD_FETCH_FAIL` (R68): the command ends with GX_E_HOST_FETCH. -/
def execPayloadFetchFail (cmd : CmdRef) (s : State) : Host.Outcome State Fault Refusal :=
  act s (fun c =>
    let k := slotKey cmd.fn cmd.slot
    match (getSlot c k).fetch with
    | .waiting _ _ => finish k (Res.err 0x0001) (errBit cmd.fn 7 c)
    | _ => c)

/-- `UNASSIGNED_OPCODE` (R103): a command whose opcode no table assigns ends with GX_E_OPCODE. -/
def execUnassignedOpcode (cmd : CmdRef) (s : State) : Host.Outcome State Fault Refusal :=
  act s (fun c =>
    let k := slotKey cmd.fn cmd.slot
    let x := getSlot c k
    if firmwareUp c && (getFn c cmd.fn).ready && slotTurn c k x && !assignedOp x.op then finish k (Res.err 0x0006) c else c)

end Sys2Proof.Machine
end

