-- ==== Sys2Proof/Machine/Valid.lean ====
section
/-!
DEFINITION. Steps 2 and 3 of validation (R117, R119): quotas, the rules that the subject chapters own, capacities and the buffer reserves.
-/
namespace Sys2Proof.Machine
open Sys2Proof

/-- A broken rule: its status, the object that breaks it, the body offset of a field, the limit of R119, and the staged commands that can
have caused it: those of an opcode (0: any) on the object, with a layer number where that matters. -/
structure Bad where
  status : Nat
  key : Nat
  off : Nat
  kind : Nat
  needed : Nat
  avail : Nat
  op : Nat
  layer : Option Nat
  /-- no single command causes it, however many are staged -/
  whole : Bool
  /-- objects whose charges rise, and the opcodes of the commands that set such charges -/
  keys : List Nat
  ops : List Nat
  deriving DecidableEq, Repr

def Bad.of (status key : Nat) : Bad :=
  { status := status, key := key, off := noField, kind := 0, needed := 0, avail := 0, op := 0, layer := none, whole := false, keys := [], ops := [] }
def Bad.field (key off : Nat) : Bad := { Bad.of 0x0007 key with off := off }

/-- The first rule of a list that is broken. -/
def broken : List (Bool × Bad) → Option Bad
  | [] => none
  | (b, x) :: l => if b then some x else broken l

/-- The staged command can have caused the failure. -/
def Bad.by_ (x : Bad) (s : Staged) : Bool :=
  if x.key = 0 then x.ops.contains s.op && (x.keys.contains (idKey s.obj) || s.more.any (fun m => x.keys.contains (idKey m)))
  else (x.op == 0 || x.op == s.op) && (idKey s.obj == x.key || (keyType x.key == 10 && s.op == 0x0202 && bf s.body 0 0 12 == keyIndex x.key) ||
    (keyType x.key == 11 && s.op == 0x0A01 && useKey (bf s.body 0 0 12) (bf s.body 4 0 3) == keyIndex x.key)) &&
    (match x.layer with | some l => s.op == 0x0701 && bf s.body 8 0 6 == l | none => true)

/-- ERR_INDEX: the staged command that alone causes the failure, else 0xFFFF (R117). -/
def Bad.index (x : Bad) (l : List Staged) : Nat :=
  if x.whole then 0xFFFF
  else if l.length = 1 then 0
  else match (List.range l.length).filter (fun i => match l[i]? with | some s => x.by_ s | none => false) with
    | [i] => i
    | _ => 0xFFFF

/-- A list has no repeats. -/
def distinctNat (l : List Nat) : Bool := (l.foldl linsert []).length == l.length

/-! Keys (R175, R178, R183; GX_KEY_INSTALL). -/

/-- The slots of a receive set, the alternate in NEXT among them, agree (R175). -/
def keyBad (c : Chip) (base g : Cfg) (k : Nat) : Option Bad :=
  let cur := g.key k 1
  let alt := (tget RxSet.zero c.net.rxSets k).alt
  let nxt := if g.key k 2 = [] then alt else g.key k 2
  let both := cur != [] && nxt != []
  broken [(both && (keySuite cur != keySuite nxt || keyMkiLen cur != keyMkiLen nxt), Bad.of 0x0210 k),
    (both && keyMkiLen cur != 0 && keyMki cur == keyMki nxt, Bad.of 0x0213 k),
    (g.key k 2 != [] && g.key k 2 != base.key k 2 && alt != [], Bad.of 0x0211 k)]

/-! Sources (R143, R203, R307 to R309, R338, R340). -/

/-- A bound object and its service address have one owner (R143); an address that does not exist has none. -/
def ownerBad (g : Cfg) (addr owner : Nat) : Bool := match g.addr addr with | some a => addrOwner a != owner | none => true

/-- Layers on the device that name a source. -/
def Cfg.layersNaming (g : Cfg) (i : Nat) : List (List Word) :=
  ((g.cardsOf 0x0701).filter (fun e => lyKind e.2.2 == 1 && idIndex (lySource e.2.2) == i)).map (fun e => e.2.2)

/-- A layer may show its source (R340). -/
def sourceShows (g : Cfg) (cv : Nat) (b : List Word) : Bool :=
  match g.obj (lySource b) with
  | some o => idType (lySource b) == tSource && idKey o.parent == g.confOf tCanvas cv && srcKind o.body != 0 &&
      g.hasDecode (idIndex (lySource b))
  | none => false

def simulBad (g : Cfg) (i : Nat) : Bool :=
  let base := g.baseOf i
  let m := g.members base
  decide (1 < m.length) &&
    (decide (8 < m.length) || !g.has tSource base || srcSimul (g.body tSource base) != 0 ||
      !distinctNat (m.map (fun k => srcFixedS (g.body tSource k))) || m.any (fun k => g.confOf tSource k != g.confOf tSource base))

def decodeBad (g : Cfg) (i : Nat) : Option Bad :=
  let k := mkKey tSource i
  let b := g.decode i
  let s := g.body tSource i
  let size := fun (n : Nat) => outside n 64 4096
  let ls := g.layersNaming i
  if !g.hasDecode i then none
  else broken [(srcKind s == 0 || srcInternal s, Bad.of 0x0601 k),
    (size (dcW b) || size (dcH b) || decide (8912896 < dcW b * dcH b), Bad.of 0x0603 k),
    (decide (400 < decCharge b), Bad.of 0x0602 k),
    (decide (4 < ls.length), Bad.of 0x0708 k)]

def sourceBad (c : Chip) (base g : Cfg) (i : Nat) : Option Bad :=
  let k := mkKey tSource i
  match g.at tSource i with
  | none =>
    broken [((g.cardsOf 0x0701).any (fun e => lyKind e.2.2 == 1 && idKey (lySource e.2.2) == k), Bad.of 0x0709 k),
      (g.audioIns.any (fun l => idKey (bw (g.audio l) 12) == k), Bad.of 0x0503 k),
      ((g.indexes tSource).any (fun j => srcSimul (g.body tSource j) != 0 && idKey (srcSimul (g.body tSource j)) == k), Bad.of 0x0303 k)]
  | some o =>
    let b := o.body
    let fb := srcFeedback b
    let fan := broken [(decide (65536 < (g.edgesOf i).length), Bad.of 0x0301 k)]
    if srcInternal b then fan
    else
      (broken [(ownerBad g (srcAddr b) o.owner, Bad.of 0x0203 k),
        (fb != 0 && !(match g.obj fb with | some l => legAddr l.body == srcAddr b | none => false), Bad.field k 0x1C),
        (simulBad g i, Bad.of 0x0303 k)]).or
      (fan.or ((keyBad c base g k).or ((decodeBad g i).or
        (broken [(!g.hasDecode i && !(g.layersNaming i).isEmpty, Bad.of 0x0709 k)]))))

/-! Legs (R143, R178, R203, R269, R276 to R281). -/

/-- Committed kb/s of the legs of a port exceed 95 % of its rate (R269). -/
def portOver (c : Chip) (g : Cfg) (lp : Nat) : Bool := decide (95 * portMbps c lp * 10 < committedKbps g lp)

/-- They do so by what the transaction has changed. -/
def portBad (c : Chip) (base g : Cfg) (lp : Nat) : Bool := portOver c g lp && decide (committedKbps base lp < committedKbps g lp)

/-- Some port is over its rate, though no command of the transaction causes it. -/
def portsBad (c : Chip) (g : Cfg) : Option Bad := broken [((List.range 8).any (portOver c g), { Bad.of 0x0402 0 with whole := true })]

/-- The codec table of R280: rate code and frame. -/
def codecRates (codec rate : Nat) : Bool :=
  match codec with | 0 => decide (rate ≤ 4) | 1 => rate == 2 | 2 => rate == 0 | 3 => rate == 0 | _ => false
def codecOk (e : EncSet) : Bool :=
  codecRates e.codec e.rate && (if e.codec = 0 then [10, 20, 40, 60].contains e.ms else [10, 20, 30, 40, 50, 60].contains e.ms) &&
    !(e.codec == 0 && outside e.kbps 6 256)

/-- IN_SOURCE of a leg (R277). -/
def inSourceBad (g : Cfg) (l : Nat) : Bool :=
  let id := bw (g.audio l) 12
  match g.obj id with
  | some o => !(idType id == tSource) || srcKind o.body != 0 || srcInternal o.body || idKey o.parent != g.confOf tLeg l ||
      g.audioIns.any (fun m => m != l && bw (g.audio m) 12 == id)
  | none => true

def detectorsOn (b : List Word) : Bool := (List.range 8).any (fun d => bit (bw b (8 + 8 * d)) 18)

def audioBad (g : Cfg) (l : Nat) : Option Bad :=
  let k := mkKey tLeg l
  let b := g.audio l
  let needsIn := !(g.groupsOf l).isEmpty || detectorsOn (g.detCard l) || (b != [] && (auDtmfMode b || auSuppress b || auInDtmfPt b != 0))
  broken [(auIn b && inSourceBad g l, Bad.of 0x0503 k),
    ((auIn b && !codecRates (auInCodec b) (auDecRate b)) || (auOut b && !codecOk (auEnc b)), Bad.of 0x0501 k),
    (!auIn b && needsIn, Bad.of 0x0504 k),
    (decide (4 < (g.groupsOf l).length), Bad.of 0x0502 k)]

def legBad (c : Chip) (base g : Cfg) (l : Nat) : Option Bad :=
  let k := mkKey tLeg l
  match g.at tLeg l with
  | none => none
  | some o =>
    let sh := g.shape l
    let spk := g.speakerSlots l
    let used := g.ssrcsInUse l
    let had := tget [] c.net.counted l
    let freshKey := g.key k 0 != [] && g.key k 0 != base.key k 0
    let ice := g.ice l
    let sameFrag := fun (m : Nat) => m != l && legAddr (g.body tLeg m) == legAddr o.body && g.ice m != [] &&
      iceLocal (g.ice m) == iceLocal ice && bf (g.ice m) 8 0 8 == bf ice 8 0 8
    let edges := g.edgesTo l
    (broken [(ownerBad g (legAddr o.body) o.owner, Bad.of 0x0203 k),
      (decide (4096 < edges.length), Bad.of 0x0302 k),
      (decide (8 < spk.length) || !distinctNat (spk.map (fun e => osRank e.2)), Bad.of 0x0304 k),
      (decide (16 < used.length) || (!freshKey && decide (16 < (used.foldl linsert had).length)), Bad.of 0x0212 k),
      (!(decide (shMin sh ≤ shStart sh) && decide (shStart sh ≤ shMax sh)), Bad.of 0x0401 k),
      (portBad c base g (g.legLport l), { Bad.of 0x0402 k with whole := false }),
      (ice != [] && (g.indexes tLeg).any sameFrag, Bad.of 0x0207 k)]).or ((keyBad c base g k).or (audioBad g l))

/-! Edges. -/

def edgeBad (g : Cfg) (e : Nat) : Option Bad :=
  let k := mkKey tEdge e
  let b := g.body tEdge e
  if g.has tEdge e then
    broken [((g.edgesOf (edSource b)).any (fun f => f != e && edLeg (g.body tEdge f) == edLeg b), Bad.of 0x0305 k)]
  else none

/-! Mix groups (R279). -/

def groupBad (g : Cfg) (i : Nat) : Option Bad :=
  let k := mkKey tGroup i
  let b := g.body tGroup i
  let cs := g.contribs i
  if g.has tGroup i then
    broken [(decide (1024 < cs.length), Bad.of 0x0502 k), (decide (mgTopK b < (cs.filter (fun e => mcAlways e.2)).length), Bad.of 0x0502 k),
      (mgMaster b && !codecOk (mgEnc b), Bad.of 0x0501 k)]
  else broken [((g.audioOuts).any (fun l => idKey (bw (g.audio l) 24) == k) || !cs.isEmpty, Bad.of 0x0109 k)]

/-! Renditions (R369 to R371, R376, R377, R380, R386). -/

/-- The beacon lies within the crop of a rendition. -/
def cropHolds (g : Cfg) (i : Nat) : Bool :=
  let cv := g.rendCanvas i
  let b := g.body tRend i
  let bc := g.beacon cv
  !g.hasBeacon cv ||
    decide (rdInX b ≤ bcX bc ∧ bcX bc + bcW bc ≤ rdInX b + rdInW b (g.rendCv i) ∧
      rdInY b ≤ bcY bc ∧ bcY bc + bcH bc ≤ rdInY b + rdInH b (g.rendCv i))

/-- Layer structures of each codec (R371, R388). -/
def structureOk (b : List Word) : Bool :=
  let s := rdS b
  let t := rdT b
  (match rdCodec b with
   | 1 => outside s 1 3 == false && outside t 1 3 == false
   | 2 => s == 1 && outside t 1 3 == false
   | 3 => s == 1 && outside t 1 3 == false
   | 4 => s == 1 && t == 1
   | _ => false) && (!rendLtrMode b || (s == 1 && t == 1)) && (rdLayers b).all (fun d => decide (16 ≤ d.1 ∧ 16 ≤ d.2))

/-- Members of a shared-analysis group: a leader and its followers (R386). -/
def Cfg.shareGroup (g : Cfg) (lead : Nat) : List Nat :=
  (g.indexes tRend).filter (fun i => i == lead || (rdLeader (g.body tRend i) != 0 && idIndex (rdLeader (g.body tRend i)) == lead))

def shareBad (g : Cfg) (i : Nat) : Bool :=
  let b := g.body tRend i
  let lead := if rdLeader b = 0 then i else idIndex (rdLeader b)
  let m := g.shareGroup lead
  let lb := g.body tRend lead
  let same := fun (k : Nat) =>
    let x := g.body tRend k
    let cv := g.rendCv k
    g.rendCanvas k == g.rendCanvas lead && (rdInX x, rdInY x, rdInW x cv, rdInH x cv) == (rdInX lb, rdInY lb, rdInW lb cv, rdInH lb cv) &&
      rdMirror x == rdMirror lb && rdRotate x == rdRotate lb && rdDiv x == rdDiv lb && decide (rdOutW x ≤ rdOutW lb ∧ rdOutH x ≤ rdOutH lb)
  decide (1 < m.length) && (decide (4 < m.length) || rdLeader lb != 0 || !m.all same) ||
    (rdLeader b != 0 && (g.obj (rdLeader b)).isNone)

def rendBad (g : Cfg) (i : Nat) : Option Bad :=
  let k := mkKey tRend i
  let b := g.body tRend i
  let cv := g.rendCv i
  let fps := cvFps cv
  let p := rdParts b fps
  let turned := rdRotate b % 2 == 1
  let w := if turned then rdInH b cv else rdInW b cv
  let h := if turned then rdInW b cv else rdInH b cv
  let odd := fun (off : Nat) => bf b off 0 16 % 2 != 0 || bf b off 16 16 % 2 != 0
  let ratio := fun (s d : Nat) => decide (d ≤ 2 * s ∧ s ≤ 8 * d)
  let rows := ((rdLayers b).map (fun d => d.2))
  let blk := fun (hh : Nat) => (hh + rdBlock b - 1) / rdBlock b
  if !g.has tRend i then
    broken [((g.indexes tRend).any (fun j => rdLeader (g.body tRend j) != 0 && idKey (rdLeader (g.body tRend j)) == k), Bad.of 0x0806 k)]
  else
    broken [(outside (rdCodec b) 1 4 || (rd10 b && (rdCodec b == 2 || rdCodec b == 3)), Bad.of 0x0801 k),
      (!structureOk b, Bad.of 0x0802 k),
      (odd 16 || odd 20 || odd 24 || outside (rdOutW b) 64 3840 || outside (rdOutH b) 64 3840 || decide (8294400 < rdOutW b * rdOutH b) ||
        decide (cvW cv < rdInX b + rdInW b cv ∨ cvH cv < rdInY b + rdInH b cv), Bad.of 0x0804 k),
      (!(ratio w (rdOutW b) && ratio h (rdOutH b)), Bad.of 0x0805 k),
      (decide (8 < rdPartsAsked b) || (rdCodec b == 2 && decide (1 < p)), Bad.of 0x0808 k),
      (decide (200 * p < rdCharge b fps p) || decide (8 < p), Bad.of 0x0803 k),
      (decide (1 < p) && rows.any (fun hh => decide (blk hh < p) || decide (hh < 64 * p - 63)), Bad.of 0x0808 k),
      (shareBad g i, Bad.of 0x0806 k),
      (!cropHolds g i, Bad.of 0x0706 k)]

/-! Canvases (R332, R333, R338 to R349, R352, R357, R358, R377). -/

/-- The order table lists every layer exactly once, and no other (R346). -/
def orderOk (g : Cfg) (cv : Nat) : Bool :=
  let l := (g.layersOf cv).map Prod.fst
  let t := g.orderTable cv
  !cvOrdered (g.body tCanvas cv) || (distinctNat t && t.foldl linsert [] == l.foldl linsert [])

/-- NOM of a video layer exceeds the maximum of its context. -/
def nomBad (g : Cfg) (b : List Word) : Bool :=
  let d := g.decode (idIndex (lySource b))
  lyKind b == 1 && (decide (dcW d < lyNomW b) || decide (dcH d < lyNomH b))

def layersBad (g : Cfg) (cv : Nat) : Option Bad :=
  let k := mkKey tCanvas cv
  (g.layersOf cv).findSome? (fun e =>
    let named := fun (x : Bad) => { x with op := 0x0701, layer := some e.1 }
    broken [(lyKind e.2 == 1 && !sourceShows g cv e.2, named (Bad.of 0x0709 k)),
      (nomBad g e.2, named (Bad.field k 0x2C)),
      (lyKind e.2 == 1 && decide (4 < (g.layersNaming (idIndex (lySource e.2))).length), named (Bad.of 0x0708 k))])

def scaleBad (g : Cfg) (cv : Nat) : Option Bad :=
  let k := mkKey tCanvas cv
  match g.layerBreak cv with
  | some (l, 0) => some { Bad.of 0x0702 k with op := 0x0701, layer := some l }
  | some (l, n) => some { Bad.of 0x0701 k with op := 0x0701, layer := some l, kind := 14, needed := n, avail := 12 }
  | none =>
    match g.rowBreak cv with
    | some n => some { Bad.of 0x0701 k with kind := 14, needed := 12 * n, avail := 192, whole := true }
    | none => none

def canvasBad (g : Cfg) (cv : Nat) : Option Bad :=
  let k := mkKey tCanvas cv
  let b := g.body tCanvas cv
  let bc := g.beacon cv
  let bcOut := g.hasBeacon cv && (decide (cvW b < bcX bc + bcW bc) || decide (cvH b < bcY bc + bcH bc) ||
    (g.layersOf cv).any (fun e => e.1 == 63) || (g.rendsOf cv).any (fun i => !cropHolds g i))
  if !g.has tCanvas cv then none
  else
    (broken [(outside (cvW b) 64 3840 || outside (cvH b) 64 2160 || cvW b % 2 != 0 || cvH b % 2 != 0, Bad.of 0x0704 k),
      (decide (960 < canvasCharge b), Bad.of 0x0703 k)]).or
    ((layersBad g cv).or ((scaleBad g cv).or
      (broken [(!orderOk g cv, Bad.of 0x070A k), (bcOut, Bad.of 0x0706 k), (decide (8 < (g.runs cv).length), Bad.of 0x0707 k)])))

/-! Service addresses (R143; GX_ADDR_SET). -/

def addrBad (g : Cfg) (i : Nat) : Option Bad :=
  let k := mkKey 10 i
  let bound := ((g.indexes tSource).filter (fun j => !srcInternal (g.body tSource j) && srcAddr (g.body tSource j) == i)).map (mkKey tSource) ++
    ((g.indexes tLeg).filter (fun j => legAddr (g.body tLeg j) == i)).map (mkKey tLeg)
  match g.addr i with
  | none => broken [(!bound.isEmpty, Bad.of 0x0204 k)]
  | some a =>
    let tag := fun (b : List Word) => (addrLport b, addrV6 b, addrTags b, addrIp b, addrPort b)
    broken [(g.addrs.any (fun e => e.1 != i && tag e.2 == tag a), Bad.of 0x0202 k),
      (bound.any (fun o => g.keyOwner o != some (addrOwner a)), Bad.of 0x0203 k)]

/-! Pool reserves (R320, R335, R353, R383, R387, R464): at most 7/8 of a pool. -/

/-- Buffers that a canvas reserves for its hint ring (R383). -/
def Cfg.hintShare (g : Cfg) (k : Nat) : Nat :=
  if (g.rendsOf (keyIndex k)).isEmpty then 0 else cvOutBufs (g.body tCanvas (keyIndex k))

/-- The reserves of an object have risen, and those of a pool exceed 7/8 of its buffers. -/
def poolBad (c : Chip) (base g : Cfg) (k : Nat) : Option (Nat × Nat) :=
  let op := operatorFn c
  (List.range 8).findSome? (fun p =>
    let mine := fun (x : Cfg) =>
      (((x.reservesOf op k).filter (fun r => r.pool == p)).map (·.count)).sum + (if keyType k = 11 ∧ k % 8 = p then x.explicit (keyIndex k) else 0)
    if mine base < mine g ∧ 7 * (getPool c p).count < 8 * g.poolReserve op p then
      some (p, if keyType k = 11 then 0x0A06 else if keyType k = 2 then 0x0604
        else if keyType k = 6 then (if p = 4 ∧ base.hintShare k < g.hintShare k then 0x0807 else 0x0705) else 0x0807)
    else none)

def reserveBad (c : Chip) (base g : Cfg) (k : Nat) : Option Bad := (poolBad c base g k).map (fun e => Bad.of e.2 k)

/-! One object. -/

def objectBad (c : Chip) (base g : Cfg) (k : Nat) : Option Bad :=
  let i := keyIndex k
  (match keyType k with
   | 2 => sourceBad c base g i
   | 3 => legBad c base g i
   | 4 => edgeBad g i
   | 5 => groupBad g i
   | 6 => canvasBad g i
   | 7 => rendBad g i
   | 10 => addrBad g i
   | _ => none).or (reserveBad c base g k)

/-- Objects to check: those that commands name, in staging order, then the others that the transaction touches (R117). -/
def Build.toCheck (b : Build) : List Nat :=
  b.order ++ (b.changed.reverse.filter (fun k => !b.order.contains k)) ++
    ((b.base.objs.map Prod.fst).filter (fun k => !thas b.g.objs k && !b.order.contains k && !b.changed.contains k)) ++
    ((b.order.filter (fun k => keyType k == 6)).flatMap (fun k => (b.g.rendsOf (keyIndex k)).map (mkKey tRend))).filter
      (fun k => !b.order.contains k && !b.changed.contains k)

/-! Step 2: quotas (R97, R98). -/

/-- Usage of a function under the live epochs and the new one. -/
def usageWith (c : Chip) (next : Cfg) (fn kind : Nat) : Nat :=
  let own := fun (k : Nat) => match next.keyOwner k with
    | some o => some o
    | none => ownerIn (if c.gx.draining = 0 then cfg c else cfgAt c c.gx.draining) (cfg c) k
  total ((joinCharges (liveCharges c kind) (next.charges kind)).filter (fun e => own e.1 == some fn))

/-- Opcodes of the commands that set charges of a kind (R119). -/
def chargeOps (kind : Nat) : List Nat :=
  match kind with
  | 1 => [0x0300] | 2 => [0x0301, 0x0500, 0x0501, 0x0800] | 3 => [0x0302] | 4 => [0x0304] | 5 => [0x0500] | 6 => [0x0700] | 7 => [0x0800]
  | 8 => [0x0600] | 9 => [0x0600] | 10 => [0x0700, 0x0800] | 11 => [0x0700] | 12 => [0x0500, 0x0501] | 13 => [0x0600, 0x0700, 0x0800]
  | 15 => [0x0500, 0x0501] | _ => []

/-- A limit of a kind is exceeded: the objects whose charges rise cause it. -/
def limitBad (c : Chip) (next : Cfg) (status kind : Nat) : Bad :=
  let was := liveCharges c kind
  { Bad.of status 0 with ops := chargeOps kind, keys := ((next.charges kind).filter (fun e =>
      match was.find? (fun x => x.1 == e.1) with | some x => decide (x.2 < e.2) | none => true)).map Prod.fst }

/-- The first quota of the issuing function that its usage would rise above. -/
def quotaBad (c : Chip) (next : Cfg) (fn : Nat) : Option Bad :=
  quotaKinds.findSome? (fun k =>
    let u := usageWith c next fn k
    if quota c (cfg c) fn k < u ∧ usageOf c fn k < u then some (limitBad c next 0x0009 k) else none)

/-! Step 3: capacities (R119). -/

/-- Kinds of R119 that are checked against device capacities. -/
def capacityKinds : List Nat := [1, 2, 3, 4, 5, 6, 7, 8, 9, 10, 11, 12, 13, 15]

def usageNext (c : Chip) (next : Cfg) (kind : Nat) : Nat :=
  total (joinCharges (liveCharges c kind) (next.charges kind)) + twinReserve c kind +
    (if kind = 12 then max (baseCycles (cfg c)) (baseCycles next) else 0)

/-- The first capacity that the transaction would rise above: what it needs, and what is available to it. -/
def capacityBad (c : Chip) (next : Cfg) : Option Bad :=
  capacityKinds.findSome? (fun k =>
    let u := usageNext c next k
    if capacity c k < u ∧ usage c k < u then
      some { limitBad c next 0x000A k with kind := k, needed := u - usage c k, avail := available c k }
    else none)

/-! Validation. -/

/-- What validation gives: the new configuration, or a failure with its limit. -/
structure Verdict where
  res : Res
  kind : Nat
  needed : Nat
  avail : Nat
  next : Cfg
  deriving DecidableEq, Repr

def Bad.verdict (x : Bad) (b : Build) (l : List Staged) : Verdict :=
  let id := if thas b.g.objs x.key then b.g.keyId x.key else b.base.keyId x.key
  { res := { ({ Res.err x.status with errOffset := x.off }).withObj id ((b.base.obj id).getD .none).version with errIndex := x.index l },
    kind := x.kind, needed := x.needed, avail := x.avail, next := b.base }

/-- Steps 1 to 3 of R117 on staged commands of a function. -/
def validate (fn : Nat) (l : List Staged) (c : Chip) : Verdict :=
  match applyAll (Build.start c) l with
  | .error r =>
    { res := r, kind := if r.status ≠ 0x000A then 0 else if (l[r.errIndex]?.map (·.op)) = some 0x0600 then 8 else 2,
      needed := if r.status = 0x000A then 1 else 0, avail := 0, next := cfg c }
  | .ok b =>
    match (quotaBad c b.g fn).or ((b.toCheck.findSome? (objectBad c b.base b.g)).or ((portsBad c b.g).or (capacityBad c b.g))) with
    | some x => x.verdict b l
    | none => { res := Res.ok [], kind := 0, needed := 0, avail := 0, next := { b.base.bump b.g with epoch := b.epoch } }

end Sys2Proof.Machine
end

