-- ==== Sys2Proof/Machine/Standby.lean ====
section
/-!
DEFINITION. Standby copies as configuration (chapter 17): journal records applied to them (R557, R558), identifiers of their own (R556), the
parts of a conference, and conferences renamed from one device's names to the other's (R566, R567, R571).
-/
namespace Sys2Proof.Machine
open Sys2Proof

/-! Conferences and their parts. -/

/-- Conference key of an object, by its parents; 0 for an object of no conference. -/
def Cfg.rootOf (g : Cfg) : Nat → Nat → Nat
  | 0, _ => 0
  | d + 1, k =>
    if keyType k = tConf then k
    else match tfind g.objs k with
      | some o => if o.parent = 0 then 0 else g.rootOf d (idKey o.parent)
      | none => 0

def Cfg.root (g : Cfg) (k : Nat) : Nat := g.rootOf 4 k

/-- Service addresses that a source or leg is bound to. -/
def addrUsed (k : Nat) (b : List Word) : List Nat :=
  if keyType k = tSource ∧ !srcInternal b then [srcAddr b] else if keyType k = tLeg then [legAddr b] else []

/-- Objects, cards and service addresses of some conferences. -/
def Cfg.partOf (g : Cfg) (confs : List Nat) : Cfg :=
  let os := g.objs.filter (fun e => confs.contains (g.root e.1))
  let used := (os.flatMap (fun e => addrUsed e.1 e.2.body)).foldl linsert []
  { epoch := g.epoch, objs := os,
    cards := g.cards.filter (fun e => if e.1 / 2 ^ 64 = 0x0202 then used.contains (e.1 % 2 ^ 32) else thas os (e.1 / 2 ^ 32 % 2 ^ 32)),
    sobjs := [], scards := [] }

/-- What is left without some conferences; service addresses stay while something else uses them. -/
def Cfg.without (g : Cfg) (confs : List Nat) : Cfg :=
  let p := g.partOf confs
  let os := g.objs.filter (fun e => !thas p.objs e.1)
  let used := (os.flatMap (fun e => addrUsed e.1 e.2.body)).foldl linsert []
  { g with objs := os, cards := g.cards.filter (fun e => !thas p.cards e.1 || (e.1 / 2 ^ 64 == 0x0202 && used.contains (e.1 % 2 ^ 32))) }

/-- Conferences with PROTECTED, rising. -/
def Cfg.protectedConfs (g : Cfg) : List Nat := (g.indexes tConf).filterMap (fun i => if confProtected (g.body tConf i) then some (mkKey tConf i) else none)

/-- Usage of a conference by limit kind 1 to 15 (R560). -/
def Cfg.confUsage (g : Cfg) (k : Nat) : List (Nat × Nat) :=
  ([1, 2, 3, 4, 5, 6, 7, 8, 9, 10, 11, 12, 13, 15] : List Nat).map (fun kind => (kind, total ((g.charges kind).filter (fun e => g.root e.1 == k))))

/-- Protected conferences of a new configuration that differ from the old one. -/
def confsChanged (old g : Cfg) : List Nat := g.protectedConfs.filter (fun k => { old.partOf [k] with epoch := 0 } != { g.partOf [k] with epoch := 0 })

/-! Standby copies as a configuration by themselves, under the twin's names. -/

def Cfg.standby (g : Cfg) : Cfg := { epoch := g.epoch, objs := g.sobjs, cards := g.scards, sobjs := [], scards := [] }
def Cfg.setStandby (g s : Cfg) : Cfg := { g with sobjs := s.objs, scards := s.cards }

/-- Application of the twin's journal records in order (R558): a commit waits until its publication record, a voided one goes. What comes
out besides the copies is the records still waiting, and the number applied. -/
def applyTwin (opFn : Nat) : List (Nat × JRec) → Cfg → List (Nat × JRec) → Nat → Cfg × List (Nat × JRec) × Nat
  | [], g, kept, n => (g, kept, n)
  | (q, r) :: l, g, kept, n =>
    match r with
    | .commit _ => applyTwin opFn l g (kept ++ [(q, r)]) n
    | .purge _ => applyTwin opFn l g (kept ++ [(q, r)]) n
    | .void s => applyTwin opFn l g (kept.filter (fun e => e.1 != s)) n
    | .snapshot e => applyTwin opFn l { epoch := e, objs := [], cards := [], sobjs := [], scards := [] } kept (n + 1)
    | .object k o cards =>
      applyTwin opFn l { g with objs := tput g.objs k o, cards := cards.foldl (fun t x => tput t (cardKey x.1 k x.2.1) x.2.2) g.cards } kept (n + 1)
    | .addr i w => applyTwin opFn l { g with cards := tput g.cards (cardKey 0x0202 0 i) w } kept (n + 1)
    | .publish s e =>
      let g1 := match kept.find? (fun x => x.1 == s) with
        | some (_, .commit staged) =>
          (match applyAll { base := g, g := g, epoch := e, opFn := opFn, changed := [], order := [] } staged with
           | .ok b => { g.bump b.g with epoch := e }
           | .error _ => g)
        | some (_, .purge fn) => { g.purge fn with epoch := e }
        | _ => g
      applyTwin opFn l g1 (kept.filter (fun x => x.1 != s)) (n + 1)

/-- A publication record, a snapshot or a part of one waits to be applied. -/
def JRec.applies : JRec → Bool
  | .commit _ => false
  | .purge _ => false
  | _ => true

/-- Identifiers that standby copies have on the twin; a decode context counts as type 9. -/
def Cfg.standbyIds (g : Cfg) : List Nat :=
  (g.sobjs.map (fun e => mkId (keyType e.1) e.2.gen (keyIndex e.1))) ++
    ((g.scards.filter (fun e => e.1 / 2 ^ 64 == 0x0600)).map (fun e => mkId 9 0 (dcContext e.2)))

/-- Every standby copy has an identifier of this device (R556); those of copies that are gone are free again. -/
def mapIds (g : Cfg) (c : Chip) : Chip :=
  let ids := g.standbyIds
  let c1 := { c with twin := { c.twin with map := c.twin.map.filter (fun e => ids.contains e.1) } }
  ids.foldl (fun c id =>
    if c.twin.map.any (fun e => e.1 == id) then c
    else match freshId c (idType id) with
      | none => c
      | some n => { c with twin := { c.twin with map := c.twin.map ++ [(id, n)] },
                           gx := { c.gx with gens := tput c.gx.gens (idKey n) ((idGen n + 1) % 8) } }) c1

/-! Renaming. -/

/-- Names of one device for things of the other: identifiers, service addresses, function indexes; and the epoch that key stamps take. -/
structure Naming where
  ids : List (Nat × Nat)
  addrs : List (Nat × Nat)
  fns : Tbl Nat
  fnElse : Nat
  epoch : Nat
  /-- wrapping keys that keys come from and go to (R193) -/
  keyFrom : Nat
  keyTo : Nat
  deriving DecidableEq, Repr

def Naming.id (n : Naming) (i : Nat) : Nat := match n.ids.find? (fun e => e.1 == i) with | some e => e.2 | none => 0
/-- Identifier by type and index, whatever the generation. -/
def Naming.key (n : Naming) (k : Nat) : Option Nat := (n.ids.find? (fun e => idKey e.1 == k)).map Prod.snd
def Naming.index (n : Naming) (ty i : Nat) : Nat := match n.key (mkKey ty i) with | some x => idIndex x | none => 0
def Naming.addr (n : Naming) (i : Nat) : Nat := match n.addrs.find? (fun e => e.1 == i) with | some e => e.2 | none => 0
def Naming.fn (n : Naming) (f : Nat) : Nat := (tfind n.fns f).getD n.fnElse

/-- Words of a body that hold identifiers. -/
def Naming.words (n : Naming) (at_ : List Nat) (b : List Word) : List Word :=
  at_.foldl (fun w i => if (w.getD i 0).toNat = 0 then w else setWord w i (n.id (w.getD i 0).toNat)) b

/-- A field of a word replaced. -/
def setField (w : List Word) (i lo len v : Nat) : List Word :=
  let x := (w.getD i 0).toNat
  setWord w i (x % 2 ^ lo + v % 2 ^ len * 2 ^ lo + x / 2 ^ (lo + len) * 2 ^ (lo + len))

/-- Body of an object. -/
def Naming.body (n : Naming) (ty : Nat) (b : List Word) : List Word :=
  match ty with
  | 1 => n.words [0] b
  | 2 =>
    if srcInternal b then
      let ty := match srcMake b with | 0 => tRend | 3 => tGroup | _ => tLeg
      setField (n.words [0, 1] b) 22 8 24 (n.index ty (srcRend b))
    else setField (n.words [0, 1, 7, 12] b) 6 0 12 (n.addr (srcAddr b))
  | 3 => setField (n.words [0, 1] b) 3 0 12 (n.addr (legAddr b))
  | 4 => n.words [0, 1, 2] b
  | 5 => n.words [0, 1, 7] b
  | 6 => n.words [0, 1] b
  | 7 => n.words [0, 1, 15] b
  | _ => b

def Naming.obj (n : Naming) (e : Nat × Obj) : Option (Nat × Obj) :=
  match n.ids.find? (fun x => idKey x.1 == e.1 && idGen x.1 == e.2.gen) with
  | none => none
  | some x => some (idKey x.2, { owner := n.fn e.2.owner, gen := idGen x.2, version := e.2.version,
                                 parent := if e.2.parent = 0 then 0 else n.id e.2.parent, epoch := n.epoch, body := n.body (keyType e.1) e.2.body })

/-- Body of a card. -/
def Naming.card (n : Naming) (op sub : Nat) (b : List Word) : List Word :=
  match op with
  | 0x0202 => setField b 1 8 8 (n.fn (addrOwner b))
  | 0x0303 => setField (n.words [0] b) 5 12 19 (n.index tSource (osSelect b))
  | 0x0501 => n.words [0, 3, 6, 11, 12] b
  | 0x0502 => n.words [0, 1] b
  | 0x0210 => if sub = 3 then b else (keyRewrap n.keyFrom n.keyTo (n.words [0] b)).take 30 ++ wd2 (4 * n.epoch + sub)
  | 0x0600 => setWord (n.words [0] b) 6 (n.index 9 (dcContext b))
  | 0x0701 => n.words [0, 3] (b.take 16) ++ b.drop 16
  | _ => n.words [0] b

def Naming.cardEntry (n : Naming) (e : Nat × List Word) : Option (Nat × List Word) :=
  let op := e.1 / 2 ^ 64
  let sub := e.1 % 2 ^ 32
  if op = 0x0202 then (n.addrs.find? (fun x => x.1 == sub)).map (fun x => (cardKey op 0 x.2, n.card op sub e.2))
  else match n.key (e.1 / 2 ^ 32 % 2 ^ 32) with
    | none => none
    | some id => some (cardKey op (idKey id) (if op = 0x0502 then n.index tLeg sub else sub), n.card op sub e.2)

/-- A part of the other device's configuration added under this device's names. -/
def Cfg.addPart (g : Cfg) (n : Naming) (p : Cfg) : Cfg :=
  { g with objs := (p.objs.filterMap n.obj).foldl (fun t e => tput t e.1 e.2) g.objs,
           cards := (p.cards.filterMap n.cardEntry).foldl (fun t e => tput t e.1 e.2) g.cards }

/-- Numbers for service addresses that come from the other device: that of the same address where it is here already, else the lowest free
one. -/
def addrNumbers (n : Naming) : List (Nat × List Word) → List (Nat × List Word) → List (Nat × Nat)
  | _, [] => []
  | have_, (i, w) :: l =>
    let w1 := n.card 0x0202 0 w
    match have_.find? (fun e => e.2 == w1) with
    | some e => (i, e.1) :: addrNumbers n have_ l
    | none =>
      let k := lowestGap ((have_.map Prod.fst).foldl linsert []) 0
      (i, k) :: addrNumbers n (have_ ++ [(k, w1)]) l

def Naming.withAddrs (n : Naming) (g p : Cfg) : Naming := { n with addrs := addrNumbers n g.addrs p.addrs }

/-- This device's names for a part of the standby copies. -/
def namingFor (c : Chip) (g p : Cfg) (epoch : Nat) : Naming :=
  ({ ids := c.twin.map, addrs := [], fns := c.twin.funcMap, fnElse := operatorFn c, epoch := epoch, keyFrom := journalKey,
     keyTo := keyTableKey c.net.bootNonce } : Naming).withAddrs g p

/-! The takeover epoch (R566, R567). -/

/-- A takeover epoch being made: configuration, conferences taken (twin keys), those dropped with their limit kind. -/
structure Taking where
  g : Cfg
  taken : List Nat
  dropped : List (Nat × Nat)
  deriving DecidableEq, Repr

/-- The first limit that a configuration exceeds. -/
def limitOver (c : Chip) (next : Cfg) : Option Nat := capacityKinds.find? (fun k => decide (capacity c k < usageNext c next k))

def takeConf (c : Chip) (epoch : Nat) (t : Taking) (k : Nat) : Taking :=
  let s := t.g.standby
  let p := s.partOf [k]
  let g1 := t.g.addPart (namingFor c t.g p epoch) p
  let g2 := g1.setStandby (s.without [k])
  match (if confProtected (s.body tConf (keyIndex k)) then none else limitOver c g2) with
  | some kind => { t with dropped := t.dropped ++ [(k, kind)] }
  | none => { t with g := g2, taken := t.taken ++ [k] }

/-- Conferences of the twin taken into one epoch: the protected first, then the others by index as far as capacity goes. `only` names those
of a hand-over. -/
def takeover (only : Option (List Nat)) (c : Chip) : Taking :=
  let g := cfg c
  let s := g.standby
  let all := ((s.indexes tConf).map (mkKey tConf)).filter (fun k => match only with | some l => l.contains k | none => true)
  let ordered := all.filter (fun k => confProtected (s.body tConf (keyIndex k))) ++ all.filter (fun k => !confProtected (s.body tConf (keyIndex k)))
  ordered.foldl (takeConf c (c.gx.current + 1)) { g := g, taken := [], dropped := [] }

/-- Conferences given away become standby copies under the twin's names. -/
def giveAway (ids : List (Nat × Nat)) (confs : List Nat) (c : Chip) : Cfg :=
  let g := cfg c
  let p := g.partOf confs
  let s := g.standby
  let n : Naming := { ids := ids, addrs := [], fns := [], fnElse := operatorFn c, epoch := c.gx.current + 1,
                      keyFrom := keyTableKey c.net.bootNonce, keyTo := journalKey }
  (g.without confs).setStandby (s.addPart (n.withAddrs s p) p)

end Sys2Proof.Machine
end

