-- ==== Sys2Proof/Machine/Mirror.lean ====
section
/-!
DEFINITION. Run-time state that the survivor sets from mirror records (R185, R186, R562, R566): send indexes, usage counters and receive
windows of the legs and sources it takes over.
-/
namespace Sys2Proof.Machine
open Sys2Proof

/-- Identifier on the twin of something with an identifier here, 0 for none. -/
def Twin.theirId (t : Twin) (id : Nat) : Nat := match t.map.find? (fun e => e.2 == id) with | some e => e.1 | none => 0

/-- The newest mirror record of a leg, by the twin's identifier, and the service time of its arrival. -/
def Twin.mirrorOf (t : Twin) (id : Nat) : Option (MirrorLeg × Nat) :=
  t.mirrors.findSome? (fun e => match e.2.1 with | .leg m => if m.leg = id then some (m, e.2.2) else none | .rend _ _ => none)

/-- The newest mirror record of a rendition: T in kb/s. -/
def Twin.mirrorT (t : Twin) (id : Nat) : Option Nat :=
  t.mirrors.findSome? (fun e => match e.2.1 with | .rend i k => if i = id then some k else none | .leg _ => none)

/-- Objects of a type in a configuration that another does not have. -/
def Cfg.newOf (g old : Cfg) (ty : Nat) : List Nat := (g.indexes ty).filter (fun i => old.idAt ty i != g.idAt ty i)

/-- Guards of R185; a hand-over takes the exact values (R571). -/
def guardSrtp (cause : Nat) : Nat := if cause = 3 then 0 else 28672
def guardSrtcp (cause : Nat) : Nat := if cause = 3 then 0 else 4096

/-- Index state of a taken leg: each SSRC at the larger of its mirrored and its initial index, plus the guard. An SSRC in use that no record
names starts at the initial index plus the guard. -/
def takenTx (g : Cfg) (cause now l : Nat) (m : Option MirrorLeg) : List TxSsrc :=
  let b := g.key (mkKey tLeg l) 0
  let known := match m with | some x => x.ssrcs | none => []
  let rest := if cause = 3 then [] else ((g.ssrcsInUse l).filter (fun s => !known.any (fun e => e.1 == s))).map (fun s => (s, 0, 0))
  (known ++ rest).map (fun e =>
    let x := TxSsrc.new b e.1 now
    { x with next := max e.2.1 x.next + guardSrtp cause, nextRtcp := max e.2.2 x.nextRtcp + guardSrtcp cause })

/-- Usage counters of a taken leg's send slot: the mirrored ones plus the guards; a warning value or a limit that they reach acts at once
(R184, R185). -/
def takenUse (g : Cfg) (cause l : Nat) (m : Option MirrorLeg) (c : Chip) : Chip :=
  let b := g.key (mkKey tLeg l) 0
  if b = [] then c
  else
    let n := (match m with | some x => x.useSrtp | none => 0) + guardSrtp cause
    let r := (match m with | some x => x.useSrtcp | none => 0) + guardSrtcp cause
    let obj := mkKey tLeg l
    keyLevels g (g.legPipe l) obj b 0 true true (keyLevels g (g.legPipe l) obj b 0 true false (modKey obj b (fun k => { k with srtp := n, srtcp := r }) c))

/-- The receive windows of an object are empty. -/
def emptyWindows (obj : Nat) : Chip → Chip :=
  modNet (fun n => { n with replay := n.replay.filter (fun e => e.1 / 2 ^ 97 != obj) })

/-- What a takeover sets before its epoch is published, and the legs whose newest record is older than 150 ms at its first step, or that
have none (R185, R186; log 75). -/
def takeRuntime (old g : Cfg) (cause start : Nat) (c : Chip) : List Nat × Chip :=
  let legs := g.newOf old tLeg
  let rec_ := fun (l : Nat) => c.twin.mirrorOf (c.twin.theirId (g.idAt tLeg l))
  let stale := if cause = 3 then [] else legs.filter (fun l => match rec_ l with | some r => decide (r.2 + 150000000 < start) | none => true)
  let c1 := legs.foldl (fun c l =>
    let m := (rec_ l).map Prod.fst
    emptyWindows (mkKey tLeg l) (takenUse g cause l m (modNet (fun n => { n with tx := tput n.tx l (takenTx g cause (localNs c) l m) }) c))) c
  (stale, (g.newOf old tSource).foldl (fun c i => emptyWindows (mkKey tSource i) c) c1)

end Sys2Proof.Machine
end

