-- ==== Sys2Proof/Machine/Commit.lean ====
section
/-!
DEFINITION. The life of a commit (R31 to R44, R117 to R127, R557, R560): the queue, validation and the twin's reserve, the journal, tables
and publication, activation, draining and retirement; sessions and transactions.
-/
namespace Sys2Proof.Machine
open Sys2Proof

def modGx (f : Guxus → Guxus) (c : Chip) : Chip := { c with gx := f c.gx }
def modTw (f : Twin → Twin) (c : Chip) : Chip := { c with twin := f c.twin }

/-- Island that firmware's own records name (R24). -/
def fwIsland : Nat := 1

/-! Records to the twin (R554, R557, R559). -/

/-- A record as the link carries it: keys stand open inside the authenticated frame (R193). -/
def TwinMsg.onLink : TwinMsg → TwinMsg
  | .journal q r => .journal q (r.mapKeys (keyReveal journalKey))
  | m => m

/-- Send a numbered record on a channel and keep it until it is acknowledged (R554). -/
def chanSend (chan seq : Nat) (msg : TwinMsg) (c : Chip) : Chip :=
  if c.twin.session then twinSend msg.onLink (modTw (fun t => { t with unacked := t.unacked ++ [(chan, seq, msg, localNs c)] }) c) else c

/-- The next record of a channel. -/
def recNext (chan : Nat) (msg : TwinMsg) (c : Chip) : Chip :=
  let q := tget 0 c.twin.chanSeq chan + 1
  chanSend chan q msg (modTw (fun t => { t with chanSeq := tput t.chanSeq chan q }) c)

def Staged.words (s : Staged) : Nat := s.body.length
def JRec.words : JRec → Nat
  | .commit l => (l.map Staged.words).sum
  | .object _ o cards => o.body.length + (cards.map (fun e => e.2.2.length)).sum
  | .addr _ w => w.length
  | _ => 0

/-- Half of the journal region (R557). -/
def journalHalf : Nat := 2097152

/-- Drop the oldest records beyond the size of the ring (R559). -/
def ringKeep (l : List (Nat × JRec)) : List (Nat × JRec) :=
  (l.reverse.foldl (fun (r : List (Nat × JRec) × Nat) e =>
    let n := r.2 + Config.journalBytes e.2.words
    (if n ≤ journalHalf then e :: r.1 else r.1, n)) ([], 0)).1

/-- Keys of this device's records, wrapped for its key table, as the journal holds them (R193). -/
def JRec.forJournal (c : Chip) (r : JRec) : JRec := r.mapKeys (keyRewrap (keyTableKey c.net.bootNonce) journalKey)

/-- A journal record: into the own-commit half, and to the twin on channel 2. A record that overwrites one still needed marks the twin. -/
def journalStore (r : JRec) (c : Chip) : Nat × Chip :=
  let q := c.twin.jTx
  let r1 := r.forJournal c
  let l := c.twin.journal ++ [(q, r1)]
  let kept := ringKeep l
  (q, chanSend 2 q (.journal q r1) (modTw (fun t =>
    { t with jTx := q + 1, journal := kept, twinNeedsFull := t.twinNeedsFull || decide (kept.length < l.length) }) c))

/-- The snapshot for a twin without the full journal (R569): one record for each object that this device holds as primary, with its cards,
and one for each service address, numbered like journal records; what the ring holds is part of it. -/
def sendSnapshot (c : Chip) : Chip :=
  let g := cfg c
  let recs := [JRec.snapshot g.epoch] ++ g.addrs.map (fun e => JRec.addr e.1 e.2) ++ g.objs.map (fun e =>
    JRec.object e.1 e.2 ((g.cards.filter (fun k => k.1 / 2 ^ 32 % 2 ^ 32 == e.1 && k.1 / 2 ^ 64 != 0x0202)).map (fun k => (k.1 / 2 ^ 64, k.1 % 2 ^ 32, k.2))))
  recs.foldl (fun c r => chanSend 2 c.twin.jTx (.journal c.twin.jTx (r.forJournal c)) (modTw (fun t => { t with jTx := t.jTx + 1 }) c))
    (modTw (fun t => { t with journal := [], twinNeedsFull := true, unacked := t.unacked.filter (fun e => e.1 != 2) }) c)

/-- Whether a record that overwrote one still needed has just marked the twin: the snapshot follows (R559, R569). -/
def snapshotIfMarked (was : Bool) (c : Chip) : Chip := if c.twin.twinNeedsFull && !was && c.twin.session then sendSnapshot c else c

/-- A journal record, with what follows when it overwrites one still needed. -/
def journalPut (r : JRec) (c : Chip) : Nat × Chip :=
  let x := journalStore r c
  (x.1, snapshotIfMarked c.twin.twinNeedsFull x.2)

/-- The twin is in service as standby. -/
def standbyUp (c : Chip) : Bool := c.twin.session && !c.twin.twinNeedsFull

/-! Results. -/

/-- The body of GX_TXN_COMMIT. -/
def commitBody (epoch tAct ticket flags count kind needed avail : Nat) : List Word :=
  wd2 epoch ++ wd2 (tAct / 1000000000) ++ [wd (tAct % 1000000000), wd ticket, wd flags, wd count, wd kind, 0] ++ wd2 needed ++ wd2 avail

/-- The body that a card gives for its command when it is committed (R112). -/
def cardBody (g : Cfg) (s : Staged) : List Word :=
  let i := idIndex s.obj
  let reserved := fun (k pool : Nat) => (((g.reservesOf 0 k).filter (fun r => r.pool == pool)).map (·.count)).foldl max 0
  match s.op with
  | 0x0500 => [wd (mgMasterSource (g.body tGroup i))]
  | 0x0501 => [wd (auOutSource (g.audio i)), wd (auEventSource (g.audio i))]
  | 0x0600 =>
    let b := g.decode i
    [wd (dcContext b), wd (decCharge b), wd (decDram b), wd (decPool b + 2 ^ 8 * reserved (mkKey tSource i) (decPool b))]
  | 0x0700 =>
    let b := g.body tCanvas i
    [wd (canvasCharge b), wd (canvasDram b), wd (canvasPool b + 2 ^ 8 * cvOutBufs b), wd (g.planes i).length]
  | 0x0704 => [wd (bcCrc (g.beacon i))]
  | 0x0800 =>
    let b := g.body tRend i
    [wd (match g.rendSource i with | some k => g.idAt tSource k | none => 0), wd (g.rendCharge i), wd (g.rendDram i), wd (rdParts b (cvFps (g.rendCv i)))]
  | 0x0900 =>
    let b := g.body tProgram i
    [wd ((bw b (5 * 4 + 8) + 8191) / 8192), wd (bw b (5 * 4 + 0x1C))]
  | _ => []

/-- The commit's command ends with a result. -/
def answer (a : Commit) (r : Res) (c : Chip) : Chip :=
  match a.slot with
  | some k => if a.discard then c else finish k r c
  | none => c

/-- Identifiers that a commit reserved are free again, or in use. -/
def unreserve (a : Commit) (c : Chip) : Chip := dropTxn { staged := a.staged, bytes := 0 } c

/-- A bulk command writes its identifiers, or zeros when it fails (GX_LEG_BULK_CREATE). -/
def bulkResult (a : Commit) (ok : Bool) (c : Chip) : Chip :=
  match a.kind, a.more with
  | .bulk, addr :: _ => if (getFn c a.fn).busMaster ∧ !a.discard then emit (.hostWrite a.fn addr (a.staged.map (fun s => if ok then wd s.obj else 0))) c else c
  | _, _ => c

/-- The outcome of a ticket (R121). -/
def ticketOutcome (a : Commit) (state status epoch : Nat) (c : Chip) : Chip :=
  if a.ticket = 0 then c
  else raise fwIsland 0x101 (some a.fn) a.ticket (status + 2 ^ 16 * (epoch % 2 ^ 48))
    (putOutcome { ticket := a.ticket, fn := a.fn, state := state, status := status, epoch := epoch } c)

/-- Reserves that the twin confirmed for a commit that goes no further are released (R560). -/
def releaseAsked (a : Commit) (c : Chip) : Chip :=
  (if a.kind = .bulk then a.more.drop 1 else a.more).foldl (fun c k => recNext 7 (.reserveRelease (a.next.keyId k)) c) c

/-- The commit under way, or one with VALIDATE_ONLY beside it (R125). -/
def putCommit (a : Commit) : Chip → Chip :=
  modGx (fun g => if a.only then { g with checks := g.checks.filter (fun x => x.slot != a.slot) ++ [a] } else { g with active := some a })

/-- It is under way no longer. -/
def endCommit (a : Commit) : Chip → Chip :=
  modGx (fun g => if a.only then { g with checks := g.checks.filter (fun x => x.slot != a.slot) } else { g with active := none })

/-- A commit fails, in validation or by abandonment. `state`: 2 failed, 3 abandoned. With VALIDATE_ONLY the transaction stays (R125). -/
def failCommit (a : Commit) (state : Nat) (v : Verdict) (c : Chip) : Chip :=
  let r := { v.res with body := commitBody 0 0 0 (2 * b2n a.only) a.staged.length v.kind v.needed v.avail }
  if a.only then answer a r (releaseAsked a (endCommit a c))
  else bulkResult a false (ticketOutcome a state r.status 0 (answer a r (releaseAsked a (unreserve a (endCommit a c)))))

/-! Stages. -/

/-- The tables of the free bank are to be written next. -/
def goWrite (a : Commit) : Chip → Chip := modGx (fun g => { g with active := some { a with stage := .writing } })

/-- What the journal holds of a commit. -/
def Commit.record (a : Commit) : JRec := if a.kind = .purge then .purge a.fn else .commit a.staged

/-- Step 2 of R33: the journal entry, and the wait for its acknowledgement (R123). -/
def goJournal (a : Commit) (c : Chip) : Chip :=
  if a.kind = .standby ∨ a.kind = .takeover ∨ a.kind = .handover then goWrite a c
  else
    let up := standbyUp c
    let r := journalPut a.record c
    if up then modGx (fun g => { g with active := some { a with stage := .journalled, journal := r.1, deadline := localNs c + 20000000 } }) r.2
    else
      let open_ := confsChanged (cfg c) a.next
      raise fwIsland 0x104 (some a.fn) a.next.epoch 0
        (goWrite { a with journal := r.1, unmirrored := true } (modTw (fun t => { t with exposed := open_.foldl linsert t.exposed }) r.2))

/-- The twin is asked for the next reserve, or the commit goes on; with VALIDATE_ONLY it ends there (R125, R560). -/
def goReserve (a : Commit) (c : Chip) : Chip :=
  match a.asking with
  | k :: _ =>
    recNext 7 (.reserveReq (a.next.keyId k) (a.next.confUsage k))
      (putCommit { a with deadline := localNs c + 20000000, asked := tget 0 c.twin.chanSeq 7 + 1 } c)
  | [] =>
    if a.only then answer a (Res.ok (commitBody 0 0 0 2 a.staged.length 0 0 0)) (releaseAsked a (endCommit a c))
    else goJournal a c

/-- Protected conferences that a commit which waits no longer for the twin leaves exposed (R561). -/
def exposeConfs (a : Commit) (l : List Nat) (c : Chip) : Chip :=
  if a.only then c else modTw (fun t => { t with exposed := l.foldl linsert t.exposed }) c

/-- Protected conferences for which the twin is to be asked; without a twin they become exposed. The removal of a purge needs no reserve
(R86). -/
def goValidated (a : Commit) (c : Chip) : Chip :=
  let k := confsChanged (cfg c) a.next
  if a.kind = .purge then goReserve { a with asking := [] } c
  else if standbyUp c then goReserve { a with asking := k } c
  else goReserve { a with asking := [] } (exposeConfs a k c)

/-! Validation in steps (R105, R120). -/

/-- Staged commands of one step of validation (log 174). -/
def validBatch : Nat := 64

/-- The last step of validation: what a commit of a host makes of the tables (R117), with every identifier it needs. -/
def validated (a : Commit) (c : Chip) : Chip :=
  let r := restage a.staged c
  let c1 := if a.only then c else r.2
  let v := validate a.fn r.1 c1
  let b := if a.only then a else { a with staged := r.1 }
  if v.res.status ≠ 0 then failCommit b 2 v c1 else goValidated { b with next := v.next, stage := .reserve } c1

/-- The next step of a commit's validation: the last one gives its verdict, after any other the commit goes behind every command captured
so far. -/
def validateStep (a : Commit) (c : Chip) : Chip :=
  if validBatch < a.left then
    let c1 := putCommit { a with stage := .validating, left := a.left - validBatch } c
    match a.slot with
    | some k => goBehind k id c1
    | none => c1
  else validated a c

/-- The service addresses of standby copies and the identifiers of this device keep step with them. -/
def standbyNext (c : Chip) : Cfg × Twin :=
  let g := cfg c
  let r := applyTwin (operatorFn c) c.twin.twinJournal g.standby [] 0
  let last := ((c.twin.twinJournal.filter (fun e => e.2.applies)).getLast?).map Prod.fst
  (g.setStandby r.1, { c.twin with twinJournal := r.2.1, jApplied := last.getD c.twin.jApplied, applied := c.twin.applied + r.2.2,
                                    created := c.twin.created + (r.1.objs.length - g.sobjs.length) })

/-- Carry out a commit at the head of the queue (R33, R117, R118). -/
def startCommit (a : Commit) (c : Chip) : Chip :=
  let n := c.gx.current + 1
  match a.kind with
  | .purge => goValidated { a with next := { (cfg c).purge a.fn with epoch := n }, stage := .reserve } c
  | .standby =>
    let r := standbyNext c
    let c1 := { c with twin := r.2 }
    goWrite { a with next := { r.1 with epoch := n } } (mapIds r.1 c1)
  | .takeover =>
    let r := standbyNext c
    let c1 := mapIds r.1 { c with twin := r.2 }
    let bank := fun (g : Guxus) => if c.gx.current % 2 = 0 then { g with bank0 := { r.1 with epoch := g.current } } else { g with bank1 := { r.1 with epoch := g.current } }
    let t := takeover (if a.more = [] then none else some a.more) (modGx bank c1)
    let lost := if a.more = [] then t.g.setStandby { epoch := 0, objs := [], cards := [], sobjs := [], scards := [] } else t.g
    let c2 := t.dropped.foldl (fun c k => raise 5 0xD06 none (r.1.standby.keyId k.1) k.2 c) c1
    let x := takeRuntime (cfg c) t.g a.cause a.start c2
    goWrite { a with next := { lost with epoch := n } } (modTw (fun w => { w with
      taking := some { cause := a.cause, startNs := a.start, tAct := 0, epoch := n, taken := t.taken.length, dropped := t.dropped.length, stale := x.1 } }) x.2)
  | .handover =>
    let c1 := modTw (fun w => { w with map := w.map ++ a.ids.map (fun e => (e.2, e.1)), moves := a.more.foldl (fun m k => tmod 0 m k (· + 1)) w.moves }) c
    goWrite { a with next := { giveAway a.ids a.more c with epoch := n } } c1
  | _ => validateStep { a with left := a.staged.length } c

/-- A new commit would have to wait (R41): an epoch drains or is not active yet, another commit is on its way, or commits are held. -/
def mustHold (c : Chip) : Bool := c.gx.draining != 0 || c.gx.published != 0 || c.gx.active.isSome || !c.gx.held.isEmpty

/-- Commits held that count toward the limit of R122. -/
def heldCount (c : Chip) : Nat := (c.gx.held.filter (fun a => a.kind == .host || a.kind == .bulk)).length

/-! Publication (R33, R120, R123). -/

/-- Generations given to what a configuration holds beyond another (R91, R113). -/
def stepGens (old g : Cfg) (t : Tbl Nat) : Tbl Nat :=
  g.objs.foldl (fun t e => if old.keyId e.1 = g.keyId e.1 then t else tput t e.1 ((e.2.gen + 1) % 8)) t

/-- Constants of new program images, in a buffer of the operator's engine identity (R428). -/
def programBuffers (old g : Cfg) (c : Chip) : Chip :=
  (g.indexes tProgram).foldl (fun c i =>
    match g.at tProgram i with
    | none => c
    | some o =>
      let n := bw o.body (5 * 4 + 0x10)
      if n = 0 ∨ old.at tProgram i = some o then c
      else
        let r := alloc (identity (operatorFn c) 5) n 3 c
        if r.1 = 0 then modProg i (fun p => { p with bufs := tput p.bufs o.version r.2.1 }) r.2.2 else r.2.2) c

/-- Constants of a program image in its buffer, at publication. -/
def programWrites (old g : Cfg) (c : Chip) : List MemOp :=
  (g.indexes tProgram).flatMap (fun i =>
    match g.at tProgram i with
    | none => []
    | some o =>
      let h := tget 0 (tget ProgRun.zero c.eng.progs i).bufs o.version
      if old.at tProgram i = some o ∨ h = 0 then []
      else [.write (poolBase c (handlePool h) + handleIndex h * poolBytes (handlePool h))
              (bytesOf ((o.body.drop (5 + 16 + bw o.body (5 * 4 + 8) / 4)).take (bw o.body (5 * 4 + 0x10) / 4)))])

/-- The tables are complete: T_act at least 50 µs ahead; `extra` ns is what firmware adds to that lead. -/
def publish (a : Commit) (extra : Nat) (c : Chip) : Chip :=
  let n := a.next.epoch
  let t := svc c + 50000 + extra
  let c1 := modGx (fun g =>
    let g1 := if n % 2 = 0 then { g with bank0 := a.next } else { g with bank1 := a.next }
    { g1 with published := n, tActSec := t / 1000000000, tActNs := t % 1000000000, active := none, gens := stepGens (cfg c) a.next g.gens }) c
  let c2 := programBuffers (cfg c) a.next (canvasTables a.next (unreserve a c1))
  let c3 := if a.kind = .host ∨ a.kind = .purge ∨ a.kind = .bulk then (journalPut (.publish a.journal n) c2).2 else c2
  let gone := (cfg c).protectedConfs.filter (fun k => !a.next.protectedConfs.contains k)
  let c4 := if standbyUp c3 ∧ a.kind ≠ .standby then gone.foldl (fun d k => recNext 7 (.reserveRelease ((cfg c).keyId k)) d) c3 else c3
  let c5 := modTw (fun t => { t with exposed := t.exposed.filter (fun k => a.next.protectedConfs.contains k) }) c4
  let s := a.staged.head?
  let card := match s with | some s => if a.auto then cardBody a.next s else [] | none => []
  let id := match s with | some s => if a.auto then s.obj else 0 | none => 0
  let r := { (Res.ok (commitBody n t 0 (b2n a.unmirrored) a.staged.length 0 0 0 ++ card)).withObj id ((a.next.obj id).getD .none).version with
               status := if a.kind = .bulk ∧ !(getFn c a.fn).busMaster then 0x0005 else 0 }
  let c6 := ticketOutcome a 1 0 n (answer a r c5)
  let c7 := if a.ticket = 0 then bulkResult a true c6 else c6
  match a.kind with
  | .purge => raise fwIsland 0x101 (some a.fn) 0 (2 ^ 16 * (n % 2 ^ 48)) (modFn a.fn (fun f => { f with purgePending := c7.gx.held.any (fun x => x.kind == .purge && x.fn == a.fn) }) c7)
  | _ => c7

/-- `COMMIT_TABLES_WRITTEN` (R33, R120, R354): the free bank's tables and new planes are complete, the epoch is published. -/
def tablesWritten (extra : Nat) (c : Chip) : Chip :=
  match c.gx.active with
  | some a => if firmwareUp c ∧ a.stage = .writing ∧ a.kind ≠ .takeover then publish a extra c else c
  | none => c

def execCommitTablesWritten (extra : Nat) (s : State) : Host.Outcome State Fault Refusal :=
  actMem s (fun c m =>
    let c1 := tablesWritten extra c
    let g := cfgAt c1 c1.gx.published
    (c1, if c1.gx.published ≠ 0 ∧ c.gx.published = 0 then programWrites (cfg c) g c1 ++ storeAll m c (canvasFills g c c1) else []))

/-! Activation and drain (R34 to R43). -/

/-- Work that still carries the tag of an epoch. -/
def epochBusy (c : Chip) (e : Nat) : Bool :=
  c.net.pipes.any (fun x => x.2.repl.any (fun k => k.epoch == e)) || c.eg.missq.any (fun x => x.2.any (fun m => m.epoch == e)) ||
    c.chans.any (fun x => x.2.active && x.2.epoch == e) ||
    audioBusy c e || decodeBusy c e || encodeBusy c e || canvasBusy c e || decide (0 < liveTag c (e % 2 == 1))

/-- The draining epoch retires: what only it held is gone (R38, R40). -/
def retireEpoch (c : Chip) : Chip :=
  applyReserves (canvasRetire (encodeRetire (decodeRetire (audioRetire (legsRetire (keySweep (modGx (fun g => { g with draining := 0 }) c)))))))

/-- The last work item of the draining epoch has ended. -/
def settle (c : Chip) : Chip := if c.gx.draining ≠ 0 ∧ !epochBusy c c.gx.draining then retireEpoch c else c

def settleMem (r : Chip × List MemOp) : Chip × List MemOp := (settle r.1, r.2)

/-- Work-item kind and object of a task that the drain limit ends (R131). -/
def drainKind (g : Cfg) (d : TaskDesc) : Nat × Nat :=
  let i := (d.args.getD 0 0).toNat
  if d.target ≠ 0 then (5, 0)
  else if d.work = fwAdapt then (4, g.idAt tLeg i)
  else if d.work = fwSpeaker then (4, g.idAt tConf i)
  else if d.work = fwRate then (3, g.idAt tRend i)
  else if d.work = fwAudIn ∨ d.work = fwAudOut then (1, g.idAt tLeg i)
  else if d.work = fwMix ∨ d.work = fwMaster then (1, g.idAt tGroup i)
  else (5, 0)

/-- `TASK_END` (R439, R454): with the last work of a draining epoch, the epoch retires (R40). -/
def execTaskEnd (slot : Nat) (s : State) : Host.Outcome State Fault Refusal := act s (fun c => settle (endTask slot c))

/-- `DMA_DESCRIPTOR_START`. -/
def execDmaDescriptorStart (chan : Nat) (s : State) : Host.Outcome State Fault Refusal :=
  actMem s (fun c m => if chan < 64 then settleMem (descStart chan c m) else (c, []))

/-- `DMA_DESCRIPTOR_DONE`. -/
def execDmaDescriptorDone (chan : Nat) (hostSrc hostDst : List Byte) (s : State) : Host.Outcome State Fault Refusal :=
  actMem s (fun c m => if chan < 64 then settleMem (descDone chan hostSrc hostDst c m) else (c, []))

/-- `DMA_ABORT` (R479). -/
def execDmaAbort (fn chan : Nat) (s : State) : Host.Outcome State Fault Refusal :=
  actMem s (dmaWrite fn chan 0 false 2 (fun c m => settleMem (abortChan chan c m)))

/-- `DMA_CQ_HEAD_WRITE` (R482). -/
def execDmaCqHeadWrite (fn chan : Nat) (v : Word) (s : State) : Host.Outcome State Fault Refusal :=
  actMem s (dmaWrite fn chan 0x50 true v (fun c m => settleMem (cqHeadWrite chan v c m)))

/-- `REPLICATION` (R205 to R208). -/
def execReplication (pipe : Nat) (srcBad : Bool) (edgeBad slotBad : List Nat) (legBad : LegErrors) (s : State) : Host.Outcome State Fault Refusal :=
  act s (fun c => settle (replicate pipe srcBad { edges := edgeBad, slots := slotBad, legs := legBad.states, sets := legBad.sets } c))

/-- `EDGE_CACHE_FILL` (R204). -/
def execEdgeCacheFill (pipe : Nat) (line : LineFill) (s : State) : Host.Outcome State Fault Refusal :=
  act s (fun c => settle (edgeFill pipe line.line line.bad c))

/-- An input block whose task the drain limit ends is a gap marker to the mix (R42). -/
def inputGap (g : Cfg) (d : TaskDesc) (c : Chip) : Chip :=
  let l := (d.args.getD 0 0).toNat
  let blk := workBlock c
  if d.target = 0 ∧ d.work = fwAudIn ∧ auIn (g.audio l) ∧ (getIn c l).done ≠ some blk then
    deliverBlock g l { num := blk, marker := true, samples := [], epoch := 0, gaps := 0, fresh := false } (modIn l (fun x => { x with done := some blk }) c)
  else c

/-- A task of firmware that the drain limit ends: its event comes from the scheduler's island (R24, R43). -/
def taskForced (e : Nat) (t : Task) (c : Chip) : Chip :=
  let w := drainKind (cfgAt c e) t.desc
  drainForced 22 w.2 w.1 e (inputGap (cfgAt c e) t.desc c)

/-- Programs of the runs that take an epoch at their start: adaptation, speaker selection and audio input (R35). -/
def runProgs : List Nat := [fwAdapt, fwSpeaker, fwAudIn]

/-- Such a run that is running at the drain limit is abandoned (R42). -/
def runForced (e slot : Nat) (c : Chip) : Chip :=
  endTask slot (unitDone slot 0x8004 0 false false (leaveEngine slot (taskForced e (getTask c slot) c)))

/-- At the drain limit all remaining work of the epoch ends (R42, R43, R455). -/
def forceDrain (c : Chip) : Chip :=
  let e := c.gx.draining
  if e = 0 then c
  else
    let tag := e % 2 == 1
    let c1 := audioForce e (decodeForce e (encodeForce e (canvasForce e c)))
    let running := c1.sched.tasks.filter (fun x => x.2.st == .running && !x.2.done && x.2.desc.target == 0 && x.2.epoch == e && runProgs.contains x.2.desc.work)
    let c2 := running.foldl (fun c x => runForced e x.1 c) c1
    let waiting := c2.sched.tasks.filter (fun x => (x.2.st == .waiting || x.2.st == .delayed || x.2.st == .ready) && x.2.desc.etag == tag)
    retireEpoch (drainTasks tag (waiting.foldl (fun c x => taskForced e x.2 c) c2))

/-- `EPOCH_DRAIN_LIMIT` (R42). -/
def execEpochDrainLimit (s : State) : Host.Outcome State Fault Refusal :=
  act s (fun c => if c.gx.draining = 0 then c else forceDrain (waitLocal c.gx.drainEnd c))

/-- At T_act every island adopts the new epoch; the former one drains (R34, R40). -/
def activateEpoch (c0 : Chip) : Chip :=
  if c0.gx.published = 0 then c0
  else
    let t := c0.gx.tActSec * 1000000000 + c0.gx.tActNs
    let c := waitSvc t c0
    let old := cfg c
    let c1 := modGx (fun g => { g with draining := g.current, drainEnd := localNs c + g.drainLimitMs * 1000000, current := g.published, published := 0 }) c
    let g := cfg c1
    let c2 := canvasActivate old g t (encodeActivate old g (decodeActivate old g (audioActivate old g (legsActivate old g (forwardActivate old g (keysActivate old g c1))))))
    settle (applyReserves c2)

/-! The queue (R41, R121, R122). -/

/-- A commit may be begun. -/
def mayBeginCommit (c : Chip) : Bool := firmwareUp c && c.gx.draining == 0 && c.gx.published == 0 && c.gx.active.isNone

/-- A commit taken from the queue whose validation has a step to come. -/
def heldStep (c : Chip) : Option Commit :=
  c.gx.active.filter (fun a => a.stage == .validating && a.slot.isNone && firmwareUp c)

/-- Begin the commit at the head of the queue, if it is of the kind asked for, or go on with the validation of the last one. -/
def releaseHeld (purge : Bool) (c0 : Chip) : Chip :=
  let c := settle c0
  match (if purge then none else heldStep c), c.gx.held with
  | some a, _ => validateStep a c
  | none, [] => c
  | none, a :: l =>
    let c1 := if a.kind = .takeover ∧ a.cause ≠ 3 then forceDrain c else c
    if (a.kind == .purge) == purge && mayBeginCommit c1 && (a.kind != .takeover || c1.twin.taking.isNone) then startCommit a (modGx (fun g => { g with held := l }) c1) else c

/-- `HELD_COMMIT_RELEASE` (R41, R121). -/
def execHeldCommitRelease (s : State) : Host.Outcome State Fault Refusal := act s (releaseHeld false)
/-- `PURGE_COMMIT` (R86). -/
def execPurgeCommit (s : State) : Host.Outcome State Fault Refusal := act s (releaseHeld true)

/-- `COMMIT_ACK_TIMEOUT` (R123, R561). -/
def ackTimeout (c : Chip) : Chip :=
  match c.gx.active with
  | some a =>
    if a.stage = .journalled ∧ firmwareUp c then
      let c1 := waitLocal a.deadline c
      raise fwIsland 0x104 (some a.fn) a.next.epoch 1
        (goWrite { a with unmirrored := true } (modTw (fun t => { t with exposed := (confsChanged (cfg c1) a.next).foldl linsert t.exposed }) c1))
    else c
  | none => c

def execCommitAckTimeout (s : State) : Host.Outcome State Fault Refusal := act s ackTimeout

/-! Submission (R111, R120 to R122, R125, R573). -/

/-- The commit of a transaction. -/
def newCommit (x : Ctx) (kind : CommitKind) (l : List Staged) (auto : Bool) : Commit :=
  { kind := kind, fn := x.fn, slot := some x.k, session := x.session, ticket := 0, staged := l, stage := .queued, next := .empty, deadline := 0,
    unmirrored := false, auto := auto, asking := [], journal := 0, discard := false, more := [], cause := 0, start := 0, ids := [],
    left := 0, only := false, asked := 0 }

/-- Next ticket, never 0. -/
def takeTicket (c : Chip) : Nat × Chip :=
  let n := c.gx.nextTicket
  (n, modGx (fun g => { g with nextTicket := if n = 0xFFFFFFFF then 1 else n + 1 }) c)

/-- Queue or begin a commit. `keep` is what becomes of the transaction when the queue is full; else it has left the session. -/
def submitCommit (x : Ctx) (a : Commit) (leave back : Chip → Chip) (c0 : Chip) : Chip :=
  let c := settle c0
  if c.pwr.phase = .ejecting ∨ c.twin.st = 5 then bulkResult a false (x.done (Res.err 0x0D01) (unreserve a (leave c)))
  else if mustHold c then
    if 64 ≤ heldCount c then x.done (Res.err 0x0107) (back c)
    else
      let r := takeTicket (leave c)
      let obj := match a.staged.head? with | some s => if a.auto then s.obj else 0 | none => 0
      let c1 := modGx (fun g => { g with held := g.held ++ [{ a with slot := none, ticket := r.1 }] })
        (putOutcome { ticket := r.1, fn := x.fn, state := 0, status := 0, epoch := 0 } r.2)
      let st := if a.kind = .bulk ∧ ¬ (getFn c x.fn).busMaster then 0x0005 else 0x0100
      let res := ({ Res.ok (commitBody 0 0 r.1 0 a.staged.length 0 0 0) with status := st }).withObj obj (((cfg c).obj obj).getD .none).version
      (if a.kind = .bulk then bulkResult a true else id) (x.done res c1)
  else startCommit a (leave c)

/-- Transaction of the session that a command names. -/
def Ctx.txn (x : Ctx) (c : Chip) : Option Txn := (heldSession c x.fn x.session).bind (·.txn)

def setTxn (n : Nat) (t : Option Txn) (c : Chip) : Chip :=
  modGx (fun g => { g with sessions := match tfind g.sessions n with | some s => tput g.sessions n { s with txn := t } | none => g.sessions }) c

/-- `GX_TXN_COMMIT` (R117 to R125). -/
def txnCommit (x : Ctx) (c : Chip) : Chip :=
  match x.txn c with
  | none => x.done (Res.err 0x0104) c
  | some t =>
    let a := newCommit x .host t.staged false
    if x.validateOnly then validateStep { a with only := true, left := t.staged.length } c
    else submitCommit x a (setTxn x.session none) id c

def execGxTxnCommit (cmd : CmdRef) (s : State) : Host.Outcome State Fault Refusal := act s (serve 0x0103 cmd noFields txnCommit)

/-- Bytes of a command's body with its extension (R114). -/
def stagedBytes (x : Ctx) (c : Chip) : Nat :=
  let s := getSlot c x.k
  s.bodyBytes + (if s.ext then s.extBytes else 0)

/-- A transactional command: staged in the open transaction, committed by itself with AUTO_COMMIT, or refused (R110 to R114). -/
def Ctx.stageWith (x : Ctx) (stage : Ctx → List Staged → Chip → Staging) (c : Chip) : Chip :=
  match x.txn c with
  | some t =>
    match stage x t.staged c with
    | .error r => x.done r c
    | .ok (s, c1) =>
      if 4096 ≤ t.staged.length ∨ 2097152 < t.bytes + stagedBytes x c then x.done (Res.err 0x0105) c
      else
        let v := if s.create then 0 else ((cfg c).obj s.obj |>.getD .none).version
        x.done ((Res.ok [wd t.staged.length]).withObj s.obj v)
          (setTxn x.session (some { staged := t.staged ++ [s], bytes := t.bytes + stagedBytes x c }) c1)
  | none =>
    if !x.autoCommit then x.done (Res.err 0x0104) c
    else match stage x [] c with
      | .error r => x.done r c
      | .ok (s, c1) => submitCommit x (newCommit x .host [s] true) id (fun _ => c) c1

/-! Sessions and transactions (R107 to R115). -/

/-- The next session number: 1 to 65,535, after the last given out, and not in use (R107). -/
def nextSession (c : Chip) : Option Nat :=
  (List.range 1025).findSome? (fun i =>
    let n := (c.gx.lastSession + i) % 65535 + 1
    if thas c.gx.sessions n then none else some n)

def sessionOpen (x : Ctx) (c : Chip) : Chip :=
  let mine := (c.gx.sessions.filter (fun e => e.2.fn == x.fn)).length
  match nextSession c with
  | some n =>
    if 16 ≤ mine ∨ 1024 ≤ c.gx.sessions.length then x.done (Res.err 0x0102) c
    else
      x.done (Res.ok [wd n]) (modGx (fun g =>
        { g with lastSession := n, sessions := tput g.sessions n { fn := x.fn, idleS := orDefault (bf x.body 0 0 16) 10, lastNs := localNs c, txn := none } }) c)
  | none => x.done (Res.err 0x0102) c

/-- `GX_SESSION_OPEN`. -/
def execGxSessionOpen (cmd : CmdRef) (s : State) : Host.Outcome State Fault Refusal :=
  act s (serve 0x0100 cmd (fun b => firstBad [(decide (600 < bf b 0 0 16), 0)]) sessionOpen)

/-- `GX_SESSION_CLOSE` (R109). -/
def sessionClose (x : Ctx) (c : Chip) : Chip :=
  match heldSession c x.fn x.session with
  | none => x.done (Res.err 0x0101) c
  | some s =>
    let c1 := match s.txn with | some t => dropTxn t c | none => c
    x.done (Res.ok []) (modGx (fun g => { g with sessions := tdel g.sessions x.session }) c1)

def execGxSessionClose (cmd : CmdRef) (s : State) : Host.Outcome State Fault Refusal := act s (serve 0x0101 cmd noFields sessionClose)

/-- `GX_TXN_BEGIN` (R110). -/
def txnBegin (x : Ctx) (c : Chip) : Chip :=
  match heldSession c x.fn x.session with
  | none => x.done (Res.err 0x0101) c
  | some s => if s.txn.isSome then x.done (Res.err 0x0103) c else x.done (Res.ok []) (setTxn x.session (some { staged := [], bytes := 0 }) c)

def execGxTxnBegin (cmd : CmdRef) (s : State) : Host.Outcome State Fault Refusal := act s (serve 0x0102 cmd noFields txnBegin)

/-- `GX_TXN_ROLLBACK` (R113). -/
def txnRollback (x : Ctx) (c : Chip) : Chip :=
  match x.txn c with
  | none => x.done (Res.err 0x0104) c
  | some t => x.done (Res.ok []) (setTxn x.session none (dropTxn t c))

def execGxTxnRollback (cmd : CmdRef) (s : State) : Host.Outcome State Fault Refusal := act s (serve 0x0104 cmd noFields txnRollback)

/-- `GX_TXN_STATUS`. -/
def txnStatus (x : Ctx) (c : Chip) : Chip :=
  match c.gx.outcomes.find? (fun o => o.ticket == bw x.body 0 && o.fn == x.fn) with
  | some o => x.done (Res.ok ([wd (o.state + 2 ^ 16 * o.status), 0] ++ wd2 o.epoch)) c
  | none => x.done (Res.err 0x010A) c

def execGxTxnStatus (cmd : CmdRef) (s : State) : Host.Outcome State Fault Refusal := act s (serve 0x0105 cmd noFields txnStatus)

/-- `TXN_IDLE_TIMEOUT` (R115). -/
def txnIdle (n : Nat) (c : Chip) : Chip :=
  match tfind c.gx.sessions n with
  | some s =>
    match s.txn with
    | some t =>
      let c1 := waitLocal (s.lastNs + s.idleS * 1000000000) c
      raise fwIsland 0x102 (some s.fn) n t.staged.length (setTxn n none (dropTxn t c1))
    | none => c
  | none => c

def execTxnIdleTimeout (session : Nat) (s : State) : Host.Outcome State Fault Refusal := act s (txnIdle session)

/-! General commands. -/

/-- `GX_NOP`. -/
def execGxNop (cmd : CmdRef) (s : State) : Host.Outcome State Fault Refusal := act s (serve 0x0001 cmd noFields (fun x c => x.done (Res.ok []) c))

def deviceInfo (x : Ctx) (c0 : Chip) : Chip :=
  let c := settle c0
  let purges := (c.gx.held.filter (fun a => a.kind == .purge)).length
  let held := heldCount c + purges
  x.done (Res.ok (wd2 c.gx.current ++ wd2 c.gx.draining ++ [wd (held + 2 ^ 16 * purges), wd c.dram.rate] ++ wd2 (min c.gx.staleWrites ctrMax) ++
    (List.range 16).flatMap (fun k => wd2 (available c (k + 1))))) c

/-- `GX_DEVICE_INFO`. -/
def execGxDeviceInfo (cmd : CmdRef) (s : State) : Host.Outcome State Fault Refusal := act s (serve 0x0002 cmd noFields deviceInfo)

/-- `GX_QUOTA_GET`. -/
def quotaGet (x : Ctx) (c : Chip) : Chip :=
  let fn := bf x.body 0 0 8
  if !x.operator ∧ fn ≠ x.fn then x.done (Res.err 0x0004) c
  else
    x.done (Res.ok (quotaKinds.flatMap (fun k => [wd k, 0] ++ wd2 (usageOf c fn k)) ++ quotaKinds.flatMap (fun k => wd2 (quota c (cfg c) fn k)))) c

def execGxQuotaGet (cmd : CmdRef) (s : State) : Host.Outcome State Fault Refusal := act s (serve 0x0004 cmd noFields quotaGet)

/-- `GX_OBJ_QUERY`: an object of the current epoch is live, one that only the draining epoch holds awaits drain (R38). -/
def objQuery (x : Ctx) (c : Chip) : Chip :=
  let id := bw x.body 0
  let reply := fun (o : Obj) (st : Nat) => x.done ((Res.ok ([wd o.owner, wd o.parent] ++ wd2 o.epoch ++ [wd st])).withObj id o.version) c
  match x.names (cfg c) id with
  | some o => reply o 0
  | none =>
    match (if c.gx.draining = 0 then none else x.names (cfgAt c c.gx.draining) id) with
    | some o => reply o 1
    | none => x.done (noObject id) c

def execGxObjQuery (cmd : CmdRef) (s : State) : Host.Outcome State Fault Refusal := act s (serve 0x0005 cmd noFields objQuery)

/-- `GX_EPOCH_CONFIG` (R127). -/
def epochConfig (x : Ctx) (c : Chip) : Chip :=
  let v := bf x.body 0 0 11
  if v = 0 then x.done (Res.ok [wd c.gx.drainLimitMs]) c
  else if !x.operator then x.done (Res.err 0x0004) c
  else x.done (Res.ok [wd v]) (modGx (fun g => { g with drainLimitMs := v }) c)

def execGxEpochConfig (cmd : CmdRef) (s : State) : Host.Outcome State Fault Refusal :=
  act s (serve 0x0107 cmd (fun b => let v := bf b 0 0 11; firstBad [(v != 0 && outside v 20 2000, 0)]) epochConfig)

end Sys2Proof.Machine
end

