-- ==== Sys2Proof/Machine/Cards.lean ====
section
/-!
DEFINITION. The transactional commands (R104): the ranges of their body fields, and their staging. What they do at commit stands in Apply and
Valid.
-/
namespace Sys2Proof.Machine
open Sys2Proof

/-- A field that is 0 or lies in a range. -/
def zeroOr (v lo hi : Nat) : Bool := v == 0 || !outside v lo hi

/-! Quotas, objects, service addresses, credentials and keys. -/

/-- KIND of each entry is one of R96. -/
def quotaFields (b : List Word) : Option Nat :=
  let n := bf b 4 0 16
  if outside n 1 12 then some 4
  else (List.range n).findSome? (fun j => if quotaKinds.contains (bw b (8 + 16 * j)) then none else some (8 + 16 * j))

/-- `GX_QUOTA_SET` (R96, R97). -/
def execGxQuotaSet (cmd : CmdRef) (s : State) : Host.Outcome State Fault Refusal :=
  act s (serve 0x0003 cmd quotaFields (fun x c => x.stageWith (stagePlain 50) c))

/-- `GX_OBJ_DESTROY` (R95). -/
def execGxObjDestroy (cmd : CmdRef) (s : State) : Host.Outcome State Fault Refusal :=
  act s (serve 0x0106 cmd noFields (fun x c => x.stageWith stageDestroy c))

/-- `GX_ADDR_SET` (R143). -/
def execGxAddrSet (cmd : CmdRef) (s : State) : Host.Outcome State Fault Refusal :=
  act s (serve 0x0202 cmd noFields (fun x c => x.stageWith (stagePlain 8) c))

def iceFields (b : List Word) : Option Nat :=
  let bad := outside (bf b 8 0 8) 4 32 || outside (bf b 8 8 8) 4 32 || outside (bf b 8 16 8) 22 64
  firstBad [(!bit (bw b 4) 0 && bad, 8)]

/-- `GX_ICE_CRED_SET`. -/
def execGxIceCredSet (cmd : CmdRef) (s : State) : Host.Outcome State Fault Refusal :=
  act s (serve 0x0203 cmd iceFields (fun x c => x.stageWith stageIce c))

/-- Ranges of GX_KEY_INSTALL (R172, R183). -/
def keyFields (b : List Word) : Option Nat :=
  let send := bit (bw b 4) 0
  let gone := bit (bw b 4) 2
  firstBad [(send && bit (bw b 4) 1, 4), (!gone && outside (keySuite b) 1 6, 4), (!gone && decide (4 < keyMkiLen b), 4),
    (!gone && !zeroOr (bf b 4 12 4) 6 10, 4), (!gone && decide (2 ^ 48 < keyLimit b false), 0x18),
    (!gone && decide (2 ^ 31 < keyLimit b true), 0x24), (!gone && decide (keyLimit b false ≤ keyWarn b false), 0x10),
    (!gone && decide (keyLimit b true ≤ keyWarn b true), 0x20), (!send && decide (10000 < bf b 0x34 0 14), 0x34)]

/-- `GX_KEY_INSTALL` (R171 to R175). -/
def execGxKeyInstall (cmd : CmdRef) (s : State) : Host.Outcome State Fault Refusal :=
  act s (serve 0x0210 cmd keyFields (fun x c => x.stageWith stageKey c))

/-! The forwarding graph. -/

/-- `GX_CONF_SET`. -/
def execGxConfSet (cmd : CmdRef) (s : State) : Host.Outcome State Fault Refusal :=
  act s (serve 0x0300 cmd (fun b => firstBad [(decide (10000 < bf b 16 0 14), 16)]) (fun x c => x.stageWith stageConf c))

def sourceFields (b : List Word) : Option Nat :=
  firstBad [(decide (4 < srcKind b), 12), (!zeroOr (srcRtxDepth b) 100 3000, 0x3C), (!zeroOr (bf b 60 16 8) 5 200, 0x3C), (!zeroOr (bf b 80 0 13) 50 5000, 0x50)]

/-- `GX_SOURCE_SET`. -/
def execGxSourceSet (cmd : CmdRef) (s : State) : Host.Outcome State Fault Refusal :=
  act s (serve 0x0301 cmd sourceFields (fun x c => x.stageWith stageSource c))

def legFields (b : List Word) : Option Nat :=
  firstBad [(!zeroOr (bf b 36 0 13) 100 5000, 36), (outside (legCnameLen b) 1 32, 36)]

/-- `GX_LEG_SET`. -/
def execGxLegSet (cmd : CmdRef) (s : State) : Host.Outcome State Fault Refusal :=
  act s (serve 0x0302 cmd legFields (fun x c => x.stageWith stageLeg c))

/-- `GX_OUTSLOT_SET` (R201). -/
def execGxOutslotSet (cmd : CmdRef) (s : State) : Host.Outcome State Fault Refusal :=
  act s (serve 0x0303 cmd (fun b => firstBad [(decide (2 < osKind b), 16), (!zeroOr (bf b 20 0 12) 20 4000, 20)]) (fun x c => x.stageWith stageSlot c))

/-- `GX_EDGE_SET` (R94, R209). -/
def execGxEdgeSet (cmd : CmdRef) (s : State) : Host.Outcome State Fault Refusal :=
  act s (serve 0x0304 cmd noFields (fun x c => x.stageWith stageEdge c))

/-! Shaping and feedback. -/

def shapeFields (b : List Word) : Option Nat :=
  let fixed := bf b 12 0 24
  let delay := fun (off lo : Nat) => !zeroOr (bf b off lo 13) 10 5000
  firstBad [(!zeroOr (bf b 8 16 6) 1 50, 8), (!zeroOr (bf b 8 24 7) 50 100, 8), ((shFixed b || fixed != 0) && outside fixed 16 10000000, 12),
    (!zeroOr (bf b 28 0 21) 2048 1048576, 28), (delay 32 0, 32), (delay 32 16, 32), (delay 36 0, 36), (delay 36 16, 36),
    (!zeroOr (bf b 40 0 13) 16 4096, 40), (decide (1000000 < shLaunchUs b), 44), (!zeroOr (bf b 48 0 8) 1 100, 48), (!zeroOr (bf b 48 8 8) 5 250, 48),
    (decide (shQHighMs b ≤ shQLowMs b), 48)]

/-- `GX_LEG_SHAPE_SET`. -/
def execGxLegShapeSet (cmd : CmdRef) (s : State) : Host.Outcome State Fault Refusal :=
  act s (serve 0x0400 cmd shapeFields (fun x c => x.stageWith stageShape c))

/-- `GX_CCFB_SET`. -/
def execGxCcfbSet (cmd : CmdRef) (s : State) : Host.Outcome State Fault Refusal :=
  act s (serve 0x0401 cmd (fun b => firstBad [(!zeroOr (bf b 8 16 9) 20 500, 8)]) (fun x c => x.stageWith stageCcfb c))

/-! Audio. -/

def groupFields (b : List Word) : Option Nat :=
  firstBad [(!zeroOr (bf b 12 0 6) 1 32, 12), (decide (12 < mgBiasDb b), 12), (bit (bw b 12) 31 && decide (960 < bf b 16 0 10), 16)]

/-- `GX_MIX_GROUP_SET`. -/
def execGxMixGroupSet (cmd : CmdRef) (s : State) : Host.Outcome State Fault Refusal :=
  act s (serve 0x0500 cmd groupFields (fun x c => x.stageWith stageGroup c))

def audioFields (b : List Word) : Option Nat :=
  let on := !bit (bw b 8) 0
  firstBad [(on && !zeroOr (bf b 20 0 8) 10 200, 20), (on && !zeroOr (bf b 20 16 10) 40 1000, 20), (on && decide (auJbMax b < auJbMin b), 20),
    (on && auOut b && bw b 24 == 0, 24), (on && !zeroOr (bf b 32 0 9) 6 256, 32), (on && decide (1000 < auHold b), 40)]

/-- `GX_AUDIO_LEG_SET` (R276 to R283). -/
def execGxAudioLegSet (cmd : CmdRef) (s : State) : Host.Outcome State Fault Refusal :=
  act s (serve 0x0501 cmd audioFields (fun x c => x.stageWith stageAudio c))

/-- `GX_MIX_CONTRIB_SET`. -/
def execGxMixContribSet (cmd : CmdRef) (s : State) : Host.Outcome State Fault Refusal :=
  act s (serve 0x0502 cmd (fun b => firstBad [(decide (0x8000 < mcGain b), 12)]) (fun x c => x.stageWith stageContrib c))

def detectorFields (b : List Word) : Option Nat :=
  (List.range 8).findSome? (fun d =>
    let w := bw b (8 + 8 * d)
    let v := bw b (12 + 8 * d)
    if !bit w 18 then none
    else firstBad [(outside (bits w 0 18) 100 200000, 8 + 8 * d), (outside (bits w 19 13) 48 4800, 8 + 8 * d), (bits v 16 4 == 0, 12 + 8 * d), (bits v 20 4 == 0, 12 + 8 * d)])

/-- `GX_DETECTOR_SET`. -/
def execGxDetectorSet (cmd : CmdRef) (s : State) : Host.Outcome State Fault Refusal :=
  act s (serve 0x0503 cmd detectorFields (fun x c => x.stageWith stageDetector c))

/-! Video. -/

def decodeFields (b : List Word) : Option Nat :=
  let on := !bit (bw b 8) 0
  firstBad [(on && decide (2 < dcReduced b), 8), (on && decide (16 < bf b 8 12 5), 8), (on && outside (dcFps b) 1 120, 16),
    (on && !zeroOr (bf b 20 0 10) 10 500, 20), (on && !zeroOr (bf b 20 16 13) 100 5000, 20)]

/-- `GX_DECODE_SET` (R308). -/
def execGxDecodeSet (cmd : CmdRef) (s : State) : Host.Outcome State Fault Refusal :=
  act s (serve 0x0600 cmd decodeFields (fun x c => x.stageWith stageDecode c))

def canvasFields (b : List Word) : Option Nat :=
  firstBad [(outside (cvFps b) 1 120, 16), (cvMatrix b != 1 && cvMatrix b != 9, 16), (decide (999999 < cvPhase b), 20), (!zeroOr (bf b 28 0 4) 2 8, 28),
    (!zeroOr (bf b 28 16 10) 10 1000, 28), (!zeroOr (bf b 32 0 12) 16 2160 || bf b 32 0 12 % 16 != 0, 32)]

/-- `GX_CANVAS_SET` (R332). -/
def execGxCanvasSet (cmd : CmdRef) (s : State) : Host.Outcome State Fault Refusal :=
  act s (serve 0x0700 cmd canvasFields (fun x c => x.stageWith stageCanvas c))

/-- Ranges of a layer (R341, R342). -/
def layerFields (b : List Word) : Option Nat :=
  let on := !bit (bw b 8) 8
  let crop := fun (off : Nat) => decide (bf b off 16 13 ≤ bf b off 0 13) || decide (4096 < bf b off 16 13)
  let pos := fun (v : Int) => decide (v < -4096) || decide (4094 < v) || v % 2 != 0
  let size := fun (v : Nat) => outside v 2 4096 || v % 2 != 0
  firstBad [(on && lyPick b == 3, 8), (on && lyKind b != 0 && crop 0x10, 0x10), (on && lyKind b != 0 && crop 0x14, 0x14), (on && (pos (lyX b) || pos (lyY b)), 0x18),
    (on && (size (lyW b) || size (lyH b)), 0x1C),
    (on && lyHasImage b && (outside (lyNomW b) 2 3840 || outside (lyNomH b) 2 2160 || lyNomW b % 2 != 0 || lyNomH b % 2 != 0), 0x2C)]

/-- What staging would refuse before any image is fetched. -/
def Ctx.preStage (x : Ctx) (stage : Ctx → List Staged → Chip → Staging) (c : Chip) : Option Res :=
  let txn := x.txn c
  if txn.isNone ∧ !x.autoCommit then some (Res.err 0x0104)
  else match stage x (match txn with | some t => t.staged | none => []) c with | .error r => some r | .ok _ => none

/-- Staging of a command with images (R100): its body is `n` words of the slot, what firmware computes from the images, and the images. -/
def Ctx.stageImages (x : Ctx) (n : Nat) (wants : List (Nat × Nat)) (make : List Word → Except Res (List Word)) (stage : Ctx → List Staged → Chip → Staging)
    (c : Chip) : Chip :=
  match { x with body := words n x.body }.preStage stage c with
  | some r => x.done r c
  | none =>
    x.withImages wants (fun got c =>
      match make got with
      | .error r => x.done r c
      | .ok extra => { x with body := words n x.body ++ extra }.stageWith stage c) c

/-- Images that a layer takes from host memory: address and bytes. -/
def layerWants (b : List Word) : List (Nat × Nat) :=
  let on := !bit (bw b 8) 8
  (if on && lyHasImage b then [(lyImgAddr b, lyImageBytes b)] else []) ++ (if on && lySlateImage b then [(lySlateAddr b, slateBytes)] else [])

def layerSet (x : Ctx) (c : Chip) : Chip := x.stageImages 16 (layerWants x.body) (fun w => .ok w) stageLayer c

/-- `GX_LAYER_SET` (R339 to R344). -/
def execGxLayerSet (cmd : CmdRef) (s : State) : Host.Outcome State Fault Refusal := act s (serve 0x0701 cmd layerFields layerSet)

/-- `GX_ORDER_SET` (R346). -/
def execGxOrderSet (cmd : CmdRef) (s : State) : Host.Outcome State Fault Refusal :=
  act s (serve 0x0702 cmd (fun b => firstBad [(outside (bf b 8 0 7) 1 64, 8)]) (fun x c => x.stageWith stageOrder c))

def beaconFields (b : List Word) : Option Nat :=
  let on := !bit (bw b 8) 0
  firstBad [(on && (bcX b % 2 != 0 || bcY b % 2 != 0), 12), (on && (bcW b % 2 != 0 || bcH b % 2 != 0 || bcW b == 0 || bcH b == 0), 16)]

/-- What a beacon adds to its card: the CRC expected of the converted image (R359), and the image. -/
def beaconMake (x : Ctx) (c : Chip) (img : List Word) : Except Res (List Word) :=
  let b := x.body
  let cv := bw b 0
  let ten := match lastStaged (match x.txn c with | some t => t.staged | none => []) 0x0700 cv with | some s => cv10 s.body | none => cv10 ((cfg c).body tCanvas (idIndex cv))
  .ok (wd (crc32 (beaconData img (bcW b) (bcH b) ten)) :: img)

def beaconSet (x : Ctx) (c : Chip) : Chip :=
  let b := x.body
  if bit (bw b 8) 0 then { x with body := words 9 b }.stageWith stageBeacon c
  else x.stageImages 8 [(bcAddr b, beaconBytes (bcW b) (bcH b))] (beaconMake x c) stageBeacon c

/-- `GX_BEACON_SET` (R357). -/
def execGxBeaconSet (cmd : CmdRef) (s : State) : Host.Outcome State Fault Refusal := act s (serve 0x0704 cmd beaconFields beaconSet)

def rendFields (b : List Word) : Option Nat :=
  firstBad [(rdPreset b == 3, 12), (rdCodec b == 3 && rdProfile b == 3, 12), (decide (8 < bf b 12 20 4), 12),
    (!zeroOr (bf b 28 0 7) 1 99, 28), (!zeroOr (bf b 28 8 3) 1 6, 28), (!zeroOr (bf b 28 16 9) 100 400, 28), (decide (rdMax b < rdMin b), 36),
    (decide (rdQpMax b < rdQpMin b), 44), (!zeroOr (bf b 48 24 3) 1 4, 48), (!zeroOr (bf b 48 28 2) 2 3, 48), (!zeroOr (bf b 52 8 12) 100 4000, 52),
    (!zeroOr (bf b 56 0 14) 200 8800, 56)]

/-- `GX_RENDITION_SET` (R368 to R387). -/
def execGxRenditionSet (cmd : CmdRef) (s : State) : Host.Outcome State Fault Refusal :=
  act s (serve 0x0800 cmd rendFields (fun x c => x.stageWith stageRend c))

/-! Programs and requesters. -/

/-- Bytes of an image. -/
def imageBytesOf (l : List Word) (n : Nat) : List Nat := (List.range n).map (imageByte l)

/-- Header and CRC of a program image of `n` bytes (R427). -/
def programCheck (img : List Word) (n : Nat) : Option Nat :=
  let code := bw img 8
  let consts := bw img 0x10
  let shared := bw img 0x14
  if bw img 0 ≠ 0x5552594D ∨ bf img 4 16 8 ≠ 1 then some 0x0901
  else if outside code 4 (if bit (bw img 0x18) 0 then 16384 else 32768) ∨ code % 4 ≠ 0 ∨ 262144 < consts ∨ consts % 8 ≠ 0 ∨ 262144 < shared ∨ shared % 64 ≠ 0 ∨
      n ≠ 64 + code + consts ∨ code ≤ bw img 0x0C ∨ bw img 0x0C % 4 ≠ 0 then some 0x0902
  else if crc32 ((imageBytesOf img n).drop 64) ≠ bw img 0x1C then some 0x0901
  else none

/-- A length that no program image has. -/
def programBadLength (n : Nat) : Bool := decide (n < 64) || decide (64 + 32768 + 262144 < n) || n % 4 != 0

def programMake (n : Nat) (img : List Word) : Except Res (List Word) :=
  match programCheck img n with | some e => .error (Res.err e) | none => .ok img

def programLoad (x : Ctx) (c : Chip) : Chip :=
  let n := bw x.body 16
  if programBadLength n then x.done (Res.err 0x0902) c
  else x.stageImages 5 [(bd x.body 8, n)] (programMake n) stageProgram c

/-- `GX_PROGRAM_LOAD` (R427). -/
def execGxProgramLoad (cmd : CmdRef) (s : State) : Host.Outcome State Fault Refusal :=
  act s (serve 0x0900 cmd (fun b => firstBad [(bd b 8 % 8 != 0, 8)]) programLoad)

/-- `GX_REQUESTER_SET` (R464). -/
def execGxRequesterSet (cmd : CmdRef) (s : State) : Host.Outcome State Fault Refusal :=
  act s (serve 0x0A01 cmd (fun b => let l := bf b 12 0 24; firstBad [(l != 0 && decide (l < bf b 8 0 24), 12)]) (fun x c => x.stageWith (stagePlain 4) c))

/-! Bulk creation (R106, R648). -/

/-- Legs that one step of a bulk command prepares (log 79). -/
def bulkBatch : Nat := 64

/-- Body of entry `i` of a bulk command: a GX_LEG_SET body whose OBJ is 0. -/
def bulkEntry (entries : List Word) (i : Nat) : List Word := words 18 (setWord ((entries.drop (32 * i)).take 32) 0 0)

/-- Entries `i` to `i + n - 1` staged one after another; the first that fails names itself. -/
def bulkStage (x : Ctx) (entries : List Word) : Nat → Nat → List Staged → Chip → Except Res (List Staged × Chip)
  | _, 0, l, c => .ok (l, c)
  | i, n + 1, l, c =>
    let b := bulkEntry entries i
    match (match legFields b with | some off => (Except.error (Res.field off) : Staging) | none => stageLeg { x with op := 0x0302, body := b } l c) with
    | .error r => .error { r with errIndex := i }
    | .ok (s, c1) => bulkStage x entries (i + 1) n (l ++ [s]) c1

def bulkFields (b : List Word) : Option Nat := firstBad [(outside (bf b 0 0 13) 1 4096, 0), (bd b 8 % 8 != 0, 8)]

/-- The command is taken: its own checks, then its legs are prepared in steps. The saved work is the number of legs prepared,
COUNT, RESULT_ADDR, and the words of the entries. -/
def bulkBegin (x : Ctx) (c : Chip) : Chip :=
  let entries := (getSlot c x.k).extension
  if (x.txn c).isSome then x.done (Res.err 0x0103) c
  else if entries.length < 32 * bf x.body 0 0 13 then x.done (Res.err 0x0007) c
  else progress x.k 0 (0 :: bf x.body 0 0 13 :: bd x.body 8 :: entries.map (·.toNat)) c

/-- `GX_LEG_BULK_CREATE`. -/
def execGxLegBulkCreate (cmd : CmdRef) (s : State) : Host.Outcome State Fault Refusal := act s (serve 0x0305 cmd bulkFields bulkBegin)

/-- Zeros in place of the identifiers of a bulk command that fails or is cancelled. -/
def bulkZeros (x : Ctx) (count addr : Nat) (c : Chip) : Chip :=
  if (getFn c x.fn).busMaster then emit (.hostWrite x.fn addr (List.replicate count 0)) c else c

/-- A step of a bulk command: the next legs are prepared, and once all are, the final step is one commit of every leg (R106). A
leg that fails fails the command before anything is created. -/
def bulkStep (x : Ctx) (w : List Nat) (c : Chip) : Chip :=
  let count := w.getD 1 0
  let addr := w.getD 2 0
  let entries := (w.drop 3).map wd
  let n := if w.getD 0 0 < count then min bulkBatch (count - w.getD 0 0) else 0
  match bulkStage x entries 0 (w.getD 0 0 + n) [] c with
  | .error r => x.done { r with body := commitBody 0 0 0 0 count 0 0 0 } (bulkZeros x count addr c)
  | .ok (l, c1) =>
    if 0 < n then progress x.k (4096 * (w.getD 0 0 + n) / (count + 1)) ((w.getD 0 0 + n) :: w.drop 1) c
    else
      let a := { newCommit x .bulk l false with more := [addr] }
      submitCommit x a id (fun c => bulkZeros x count addr (unreserve a c)) (modSlot x.k (fun s => { s with work := [] }) c1)

end Sys2Proof.Machine
end

