-- ==== Sys2Proof/Machine/Keeper.lean ====
section
/-!
DEFINITION. The Keeper (R601 to R629): the management port and mailbox, configuration items, sensors, rails, ageing, units
and spares, lamps, the watchdog, and the commands that read the log and the life counters.
-/
namespace Sys2Proof.Machine
open Sys2Proof

/-! Requests (R602 to R606). -/

/-- What a request ends with: status, response bytes, and the chip after it. -/
structure KRes where
  status : Nat
  resp : List Byte
  chip : Chip

def kOk (words : List Word) (c : Chip) : KRes := { status := 0, resp := bytesOf words, chip := c }

def kErr (status : Nat) (c : Chip) : KRes := { status := status, resp := [], chip := c }

/-- The Keeper answers: a supply is present, and no Keeper reset is under way (R594, R601). -/
def keeperUp (c : Chip) : Bool := c.pwr.phase != .held && c.mgmt.keeperReset == 0

/-- Put a response on its path. -/
def respond (mailbox : Bool) (code : Nat) (r : KRes) : Chip :=
  let p : KeeperPort := { busy := false, code := code, status := r.status, resp := r.resp, once := 0 }
  modMgmt (fun m => if mailbox then { m with mailbox := p } else { m with port := p }) r.chip

/-- Serve one request of a code. `onPort`, `onBox`: the paths that take the code (R602); what the other path answers, the spec
does not give among its status values (log 29). -/
def mgmtServe (code : Nat) (onPort onBox : Bool) (req : MgmtReq) (run : List Nat → Chip → KRes) (c : Chip) : Chip :=
  if !keeperUp c then c
  else
    let refuse := fun (c : Chip) => let d := draw c; kErr (if d.1 % 2 = 0 then 2 else 4) d.2
    match req with
    | .port pecOk fields =>
      if !pecOk then modMgmt (fun m => { m with port := { m.port with once := 5 } }) c
      else if c.mgmt.port.busy then modMgmt (fun m => { m with port := { m.port with once := 4 } }) c
      else respond false code (if onPort then run (fields.map BitVec.toNat) c else refuse c)
    | .mailbox =>
      if c.mgmt.mailbox.busy ∧ c.mgmt.kmbCode = code then
        respond true code
          (if onBox then run ((wordsGet c.mgmt.kmbReq 0 ((c.mgmt.kmbLen + 3) / 4)).map BitVec.toNat) c else refuse c)
      else c

/-- Field `i` of a request. -/
def kf (f : List Nat) (i : Nat) : Nat := f.getD i 0

/-! Lamps (R620, R621). -/

/-- A pattern of a lamp with its N. -/
def lampA (c : Chip) : Nat × Nat :=
  let m := c.mgmt
  if c.pwr.phase = .ejectComplete then (0, 0)
  else if c.pwr.phase = .fatal then (3, 0)
  else if m.lampA.on then (m.lampA.pattern, m.lampA.n)
  else
    match c.pwr.phase with
    | .startFailed => (6, c.pwr.failReason)
    | .service =>
      if c.dram.subs.any (fun e => e.2.st == 2) ∨ m.throttle.any (fun e => e.2.active) ∨ 0 < m.retiredCount then (5, 0) else (1, 0)
    | .ejecting => (1, 0)
    | .held => (0, 0)
    | _ => (4, 0)

def lampB (c : Chip) : Nat × Nat :=
  if c.pwr.phase = .ejectComplete then (6, 2)
  else if c.mgmt.lampB.on ∧ c.pwr.phase ≠ .fatal then (c.mgmt.lampB.pattern, c.mgmt.lampB.n)
  else ((match c.twin.st with | 0 => 0 | 1 => 2 | 2 => 4 | 3 => 1 | 4 => 5 | _ => 3), 0)

/-! Requests that report. -/

def identityWords (c : Chip) : List Word :=
  [0x4108, Config.stepping, Config.serialLo, Config.serialHi, if (getFn c (operatorFn c)).ready then Config.fwVersion else 0]

/-- `IDENTITY` (R602). -/
def execIdentity (req : MgmtReq) (s : State) : Host.Outcome State Fault Refusal :=
  act s (mgmtServe 0x01 true true req (fun _ c => kOk (identityWords c) c))

/-- STATE of the STATUS response. -/
def phaseCode (p : Phase) : Nat :=
  match p with
  | .service => 1 | .startFailed => 2 | .fatal => 3 | .ejecting => 4 | .ejectComplete => 5 | _ => 0

def statusWords (c : Chip) : List Word :=
  [wd (phaseCode c.pwr.phase + 2 ^ 3 * c.mgmt.fatalCause + 2 ^ 7 * c.twin.st + 2 ^ 10 * (lampA c).1 + 2 ^ 13 * (lampB c).1 +
     2 ^ 16 * b2n c.pwr.ejectComplete + 2 ^ 17 * b2n c.mgmt.alert), wd c.pwr.startTimeMs]

/-- `STATUS` (R602). -/
def execStatus (req : MgmtReq) (s : State) : Host.Outcome State Fault Refusal :=
  act s (mgmtServe 0x02 true true req (fun _ c => kOk (statusWords c) c))

/-- Two bytes of a 16-bit value. -/
def halfBytes (v : Nat) : List Byte := [BitVec.ofNat 8 v, BitVec.ofNat 8 (v / 256)]

/-- `THERMAL` (R602, R608). -/
def execThermal (req : MgmtReq) (s : State) : Host.Outcome State Fault Refusal :=
  act s (mgmtServe 0x03 true true req (fun f c =>
    if outside (kf f 1) 1 64 ∨ 64 < kf f 0 + kf f 1 then kErr 3 c
    else
      { status := 0, chip := c,
        resp := (List.range (kf f 1)).flatMap (fun i => halfBytes (unsigned 16 (tget 0 c.mgmt.temps (kf f 0 + i)))) }))

/-- `RAILS` (R602): the rails in mV, then the estimated power of each domain, a value the spec does not compute (log 30). -/
def execRails (req : MgmtReq) (s : State) : Host.Outcome State Fault Refusal :=
  act s (mgmtServe 0x04 true true req (fun _ c =>
    { status := 0, chip := { c with free := c.free + 24 },
      resp := (List.range 7).flatMap (fun r => halfBytes (tget 0 c.mgmt.rails (r * 8))) ++
        bytesOf ((List.range 24).map (fun d => wd (if domOn c d then Config.fresh (c.free + d) % 2 ^ 20 else 0))) }))

/-! Configuration items (R607). -/

/-- A value lies in the range of an item. -/
def configValid (item v : Nat) : Bool :=
  match item with
  | 1 => decide (v ≤ 3) | 2 => decide (v ≤ 3) | 3 => !outside v 28 36 | 4 => !outside v 24 32
  | 5 => decide (v < 256 ∧ bits v 0 3 ≤ 4) && !bit v 3 && !bit v 6
  | 6 => decide (v < 2 ^ 24) && (List.range 24).all (fun d => !bit v d || isInterfaceDomain d || isMediaDomain d)
  | 7 => !outside v 0x08 0x77 | 8 => !outside v 20 1000 | 9 => !outside v 4 15 | 10 => !outside v 5 1000
  | 11 => !outside v 10 1000 | 12 => !outside v 100 10000 | 13 => !outside v 60 105 | 14 => !outside v 90 105
  | 15 => decide (v ≤ 5) | _ => false

/-- The operator role moves (R55): BAR2 stops at the old function, every lock closes, commands submitted from now on are
checked against the new role, BAR2 starts at the new one, and OPERATOR_CHANGED goes to both and to the log. -/
def operatorChange (new : Nat) (c : Chip) : Chip :=
  let old := c.host.operatorPf
  if new = old then c
  else
    let c1 := { c with host := { c.host with operatorPf := new, b2Lock := 0x3FE } }
    raise 0 0x1 (some (64 * new)) new old (raise 0 0x1 (some (64 * old)) new old c1)

/-- `CONFIG_GET` (R607). -/
def execConfigGet (req : MgmtReq) (s : State) : Host.Outcome State Fault Refusal :=
  act s (mgmtServe 0x05 true true req (fun f c => if outside (kf f 0) 1 15 then kErr 3 c else kOk [wd (config c (kf f 0))] c))

/-- `CONFIG_SET` (R607). -/
def configSet (f : List Nat) (c : Chip) : KRes :=
  let item := kf f 0
  let v := kf f 1
  if !configValid item v then kErr 3 c
  else
    let c1 := modMgmt (fun m => { m with config := tput m.config item v }) c
    kOk [] (if item = 2 then operatorChange v c1 else c1)

def execConfigSet (req : MgmtReq) (s : State) : Host.Outcome State Fault Refusal :=
  act s (mgmtServe 0x06 true false req configSet)

/-! The log (R612). -/

/-- A slot of a ring: its record, or zeros when it has never been written. -/
def LogRing.slot (l : LogRing) (i : Nat) : List Word :=
  match tfind l.slots i with
  | some e => e.1.words e.2
  | none => [0, 0, 0, 0, 0, 0, 0, 0]

def ringOf (c : Chip) (pinned : Bool) : LogRing := if pinned then c.mgmt.pinned else c.mgmt.log

def ringSlots (pinned : Bool) : Nat := if pinned then pinnedSlots else logSlots

def LogRing.headWord (l : LogRing) : Word := wd (l.head + 2 ^ 16 * b2n l.lap)

/-- Records from a slot on, wrapping at the end of the ring. -/
def LogRing.read (l : LogRing) (n i count : Nat) : List Word := (List.range count).flatMap (fun j => l.slot ((i + j) % n))

/-- `LOG_READ` (R602, R612). -/
def execLogRead (req : MgmtReq) (s : State) : Host.Outcome State Fault Refusal :=
  act s (mgmtServe 0x07 true true req (fun f c =>
    let p := kf f 0 == 1
    if 1 < kf f 0 ∨ ringSlots p ≤ kf f 1 ∨ outside (kf f 2) 1 7 then kErr 3 c
    else kOk ((ringOf c p).headWord :: (ringOf c p).read (ringSlots p) (kf f 1) (kf f 2)) c))

def logRead (x : Ctx) (c : Chip) : Chip :=
  let p := bit (bw x.body 0) 0
  let i := bf x.body 4 0 16
  if ringSlots p ≤ i then x.done (Res.err 0x0F01) c
  else
    x.done (Res.ok [(ringOf c p).headWord])
      (emit (.hostWrite x.fn (bd x.body 16) ((ringOf c p).read (ringSlots p) i (bf x.body 8 0 13))) c)

/-- GX_LOG_READ (R612). -/
def execGxLogRead (cmd : CmdRef) (s : State) : Host.Outcome State Fault Refusal :=
  act s (serve 0x0F00 cmd (fun b => firstBad [(outside (bf b 8 0 13) 1 4096, 8), (unaligned8 b 16, 16)]) logRead)

/-! Life (R625 to R629). -/

/-- Spares that a class still has. -/
def sparesLeft (c : Chip) (cls : Nat) : Nat :=
  let all := if cls = 0 then (List.range 32).flatMap (fun cl => (List.range 34).map (fun i => cl * 64 + i))
    else List.range (if cls = 1 then 52 else 68)
  (all.filter (fun n => (getUnit c cls n).st == .spare)).length

/-- The island of the largest drift, and the drift. -/
def worstDrift (c : Chip) : Nat × Nat :=
  c.mgmt.drift.foldl (fun (w : Nat × Nat) e => if w.2 < e.2 then e else w) (0, 0)

/-- VDD_CORE margin in mV for a drift in 0.01 % (R627). -/
def marginMv (drift : Nat) : Nat := 5 * ((drift + 99) / 100)

def lifeWords (c : Chip) : List Word :=
  let m := c.mgmt
  let w := worstDrift c
  wd2 m.hours ++ [wd m.porCount, wd w.2, wd (w.1 + 2 ^ 8 * marginMv w.2),
    wd (sparesLeft c 0 + 2 ^ 8 * sparesLeft c 1 + 2 ^ 12 * sparesLeft c 2 + 2 ^ 16 * m.retiredCount)] ++
    (List.range 11).map (fun i => wd (tget 0 m.bins i))

/-- `LIFE` (R602). -/
def execLife (req : MgmtReq) (s : State) : Host.Outcome State Fault Refusal :=
  act s (mgmtServe 0x08 true true req (fun _ c => kOk (lifeWords c) c))

/-- GX_LIFE_STATUS (R625). -/
def execGxLifeStatus (cmd : CmdRef) (s : State) : Host.Outcome State Fault Refusal :=
  act s (serve 0x0F01 cmd noFields (fun x c => x.done (Res.ok (lifeWords c)) c))

/-- Physical units of a class in a cluster or on a die. -/
def unitsOf (cls i : Nat) : List Nat :=
  if cls = 0 then (List.range 34).map (fun j => i * 64 + j) else if cls = 1 then (List.range 13).map (fun j => i * 13 + j)
  else (List.range 17).map (fun j => i * 17 + j)

/-- `SPARE_MAP` (R602): one byte for each physical unit. -/
def execSpareMap (req : MgmtReq) (s : State) : Host.Outcome State Fault Refusal :=
  act s (mgmtServe 0x09 true true req (fun f c =>
    if 2 < kf f 0 ∨ (if kf f 0 = 0 then 32 else 4) ≤ kf f 1 then kErr 3 c
    else
      { status := 0, chip := c,
        resp := (unitsOf (kf f 0) (kf f 1)).map (fun n =>
          if !domOn c (unitDomain (kf f 0) n) then 3
          else match (getUnit c (kf f 0) n).st with | .spare => 1 | .retired => 2 | _ => 0) }))

/-- `AGEING` (R602, R626): the drift now, then the 16 newest history entries. -/
def execAgeing (req : MgmtReq) (s : State) : Host.Outcome State Fault Refusal :=
  act s (mgmtServe 0x0A true true req (fun f c =>
    if 198 ≤ kf f 0 then kErr 3 c
    else
      let h := tget [] c.mgmt.history (kf f 0)
      kOk (wd (tget 0 c.mgmt.drift (kf f 0)) :: (List.range 16).map (fun i =>
        match h[i]? with | some e => wd (e.1 % 2 ^ 16 + 2 ^ 16 * unsigned 16 e.2) | none => 0)) c))

/-! Requests that act. -/

/-- `LAMP_SET` (R621): an override of a lamp, or with SECONDS 0 its release. -/
def lampSet (f : List Nat) (c : Chip) : KRes :=
  let sec := kf f 3
  if 1 < kf f 0 ∨ 6 < kf f 1 ∨ 65535 < sec ∨ (kf f 1 = 6 ∧ outside (kf f 2) 1 6) then kErr 3 c
  else
    let l : Lamp := if sec = 0 then .zero else { on := true, pattern := kf f 1, n := kf f 2, endNs := localNs c + sec * 1000000000 }
    kOk [] (modMgmt (fun m => if kf f 0 = 0 then { m with lampA := l } else { m with lampB := l }) c)

def execLampSet (req : MgmtReq) (s : State) : Host.Outcome State Fault Refusal := act s (mgmtServe 0x0B true true req lampSet)

/-- `LAMP_OVERRIDE_EXPIRY` (R621). -/
def execLampOverrideExpiry (lamp : Nat) (s : State) : Host.Outcome State Fault Refusal :=
  act s (fun c =>
    let l := if lamp = 0 then c.mgmt.lampA else c.mgmt.lampB
    if l.on then
      modMgmt (fun m => if lamp = 0 then { m with lampA := .zero } else { m with lampB := .zero }) (waitLocal l.endNs c)
    else c)

/-- `SEVERITY_SET` (R611). -/
def execSeveritySet (req : MgmtReq) (s : State) : Host.Outcome State Fault Refusal :=
  act s (mgmtServe 0x0C true true req (fun f c =>
    if 65535 < kf f 0 ∨ (5 < kf f 1 ∧ kf f 1 ≠ 15) then kErr 3 c
    else kOk [] (modMgmt (fun m => { m with severity := if kf f 1 = 15 then tdel m.severity (kf f 0) else tput m.severity (kf f 0) (kf f 1) }) c)))

/-- `SPARE_RETIRE` (R628): UNIT of an engine is taken as cluster × 64 + physical engine (log 31). -/
def execSpareRetire (req : MgmtReq) (s : State) : Host.Outcome State Fault Refusal :=
  act s (mgmtServe 0x0D true true req (fun f c =>
    let bad := 2 < kf f 0 ∨ (kf f 0 = 0 ∧ (32 ≤ kf f 1 / 64 ∨ 34 ≤ kf f 1 % 64)) ∨ (kf f 0 = 1 ∧ 52 ≤ kf f 1) ∨ (kf f 0 = 2 ∧ 68 ≤ kf f 1)
    if bad then kErr 3 c
    else if (getUnit c (kf f 0) (kf f 1)).st = .retired then kErr 4 c
    else kOk [] (beginRetire (kf f 0) (kf f 1) 4 c)))

/-- `DEVICE_RESET` (R593, R603): the response first, then the device warm reset. -/
def execDeviceReset (req : MgmtReq) (s : State) : Host.Outcome State Fault Refusal :=
  act s (mgmtServe 0x10 true true req (fun f c =>
    if kf f 0 ≠ 0xD0A7 then kErr 3 c
    else kOk [] (modPwr (fun p => { p with resetAt := localNs c + 1, resetCause := 3 }) c)))

/-- A Keeper reset begins: 20 ms in which the port does not acknowledge its address (R593, R594). -/
def keeperReset (c : Chip) : Chip :=
  modMgmt (fun m => { m with keeperReset := localNs c + 20000000, port := .zero, mailbox := .zero }) c

/-- `KEEPER_RESET` (R602). -/
def execKeeperReset (req : MgmtReq) (s : State) : Host.Outcome State Fault Refusal :=
  act s (fun c =>
    let c1 := mgmtServe 0x11 true false req (fun f c => if kf f 0 = 0x4B45 then kOk [] c else kErr 3 c) c
    match req with
    | .port pecOk f => if keeperUp c ∧ pecOk ∧ !c.mgmt.port.busy ∧ kf (f.map BitVec.toNat) 0 = 0x4B45 then keeperReset c1 else c1
    | .mailbox => c1)

/-- `KEEPER_SELF_CHECK` (R593): the Keeper's own check resets it. -/
def execKeeperSelfCheck (s : State) : Host.Outcome State Fault Refusal := act s (fun c => if keeperUp c then keeperReset c else c)

/-- `KEEPER_RESET_DONE` (R593, R643): the Keeper runs again; a trip that acted without it is now recorded. -/
def execKeeperResetDone (s : State) : Host.Outcome State Fault Refusal :=
  act s (fun c =>
    if c.mgmt.keeperReset = 0 then c
    else
      let c1 := waitLocal c.mgmt.keeperReset c
      let c2 := modMgmt (fun m => { m with keeperReset := 0, kicks := m.kicks.map (fun e => (e.1, localNs c1)) }) c1
      if c2.pwr.phase = .fatal ∧ c2.mgmt.fatalCause = 0 then raise 0 0xF01 none 6 0 (modMgmt (fun m => { m with fatalCause := 6 }) c2) else c2)

/-- Bytes staged into the image, the later chunk winning. -/
def stageBytes : Tbl Byte → Nat → List Byte → Tbl Byte
  | t, _, [] => t
  | t, a, b :: l => stageBytes (tput t a b) (a + 1) l

/-- `IMAGE_CHUNK` (R606). -/
def execImageChunk (req : MgmtReq) (s : State) : Host.Outcome State Fault Refusal :=
  act s (mgmtServe 0x20 false true req (fun f c =>
    let n := kf f 1 % 65536 + 1
    if !c.mgmt.waitImage then kErr 4 c
    else if 16777216 < kf f 0 + n then kErr 3 c
    else
      let img := stageBytes c.mgmt.image (kf f 0) ((bytesOf (wordsGet c.mgmt.kmbStage 0 ((n + 3) / 4))).take n)
      kOk [] (modMgmt (fun m => { m with image := img, received := img.length }) c)))

/-- `IMAGE_END` (R606): the image is authenticated; `keyOk`, `sigOk` and `version` are what the checks of R596 find in it. -/
def execImageEnd (req : MgmtReq) (keyOk sigOk : Bool) (version : Nat) (s : State) : Host.Outcome State Fault Refusal :=
  act s (mgmtServe 0x21 false true req (fun f c =>
    if !c.mgmt.waitImage then kErr 4 c
    else if 16777216 < kf f 0 then kErr 3 c
    else if imageFault true keyOk sigOk version = 0 then
      kOk [] (bootDone false true (if c.pwr.tried = [] then none else c.pwr.tried.head?) (modMgmt (fun m => { m with waitImage := false }) c))
    else kErr 6 c))

/-- Codes of R602. -/
def knownCodes : List Nat := [1, 2, 3, 4, 5, 6, 7, 8, 9, 10, 11, 12, 13, 0x10, 0x11, 0x20, 0x21]

/-- `UNKNOWN_CODE` (R602): a request whose code the table does not list returns status 2. -/
def execUnknownCode (req : MgmtReq) (code : Nat) (s : State) : Host.Outcome State Fault Refusal :=
  act s (fun c => if knownCodes.contains code then c else mgmtServe code true true req (fun _ c => kErr 2 c) c)

/-- `MGMT_RESPONSE_READ` (R602, R604): a Block Read of command code 0xFF. -/
def responseRead (c : Chip) : Chip :=
  let p := c.mgmt.port
  if !keeperUp c then c
  else if p.once ≠ 0 then emit (.mgmtData p.once []) (modMgmt (fun m => { m with port := { m.port with once := 0 } }) c)
  else if p.busy then emit (.mgmtData 1 []) c
  else emit (.mgmtData p.status p.resp) (if p.code = 2 then modMgmt (fun m => { m with alert := false }) c else c)

def execMgmtResponseRead (s : State) : Host.Outcome State Fault Refusal := act s responseRead

/-- Address at which the port answers (R601, R607). -/
def portAddr (c : Chip) : Nat := if c.mgmt.arpAddr = 0 then config c 7 else c.mgmt.arpAddr

/-- `SMBUS_ALERT_RESPONSE` (R604): while MGMT_ALERT_N is low the port answers with MGMT_ADDR. -/
def execSmbusAlertResponse (s : State) : Host.Outcome State Fault Refusal :=
  act s (fun c => if keeperUp c ∧ c.mgmt.alert then emit (.mgmtData 0 [BitVec.ofNat 8 (portAddr c)]) c else c)

/-- `SMBUS_ADDRESS_RESOLUTION` (R601): an address is assigned to the UDID formed from the serial number. -/
def execSmbusAddressResolution (addr : Nat) (s : State) : Host.Outcome State Fault Refusal :=
  act s (fun c => if keeperUp c ∧ 0x08 ≤ addr ∧ addr ≤ 0x77 then modMgmt (fun m => { m with arpAddr := addr }) c else c)

/-! Watchdog (R616, R617). -/

/-- `WDOG_KICK` (R616). -/
def execWdogKick (proc : Nat) (s : State) : Host.Outcome State Fault Refusal :=
  act s (fun c => if proc < 4 ∧ domOn c 1 ∧ c.mgmt.holdEnd = 0 then modMgmt (fun m => { m with kicks := tput m.kicks proc (localNs c) }) c else c)

/-- The processor that has been silent longest, the lowest-numbered of equals, and when it last signalled. -/
def silentProc (c : Chip) : Nat × Nat :=
  (List.range 4).foldl (fun (w : Nat × Nat) i => if tget 0 c.mgmt.kicks i < w.2 then (i, tget 0 c.mgmt.kicks i) else w)
    (0, tget 0 c.mgmt.kicks 0)

/-- The control complex restarts (R616 step 1); a third restart in 10 minutes escalates (R617). -/
def beginRestart (proc : Nat) (c : Chip) : Chip :=
  let now := localNs c
  let recent := now :: c.mgmt.restarts.filter (fun t => decide (now < t + 600000000000))
  let host := { c.host with fwRestarting := true, slots := c.host.slots.map (fun e => (e.1, { e.2 with duringRestart := false })) }
  let c1 := { c with host := host, mgmt := { c.mgmt with holdEnd := now + 1000000, recovering := true, restarts := recent } }
  let c2 := raise 0 0xF02 none proc recent.length c1
  if 3 ≤ recent.length then fatalAlarm 4 proc [1, 2] c2 else c2

/-- `WDOG_RESTART` (R616): a processor has been silent for WDOG_MS, or its access met poison (`poison` names it). -/
def wdogRestart (poison : Option Nat) (c : Chip) : Chip :=
  if !inService c ∨ c.mgmt.keeperReset ≠ 0 ∨ c.mgmt.holdEnd ≠ 0 then c
  else
    match poison with
    | some p => beginRestart (p % 4) c
    | none => beginRestart (silentProc c).1 (waitLocal ((silentProc c).2 + config c 8 * 1000000) c)

def execWdogRestart (poison : Option Nat) (s : State) : Host.Outcome State Fault Refusal := act s (wdogRestart poison)

/-- `CTRL_RESET_HOLD_END` (R449, R616 steps 2 and 3): after 1 ms firmware restarts from its copy, and selects RECOVERY. -/
def execCtrlResetHoldEnd (s : State) : Host.Outcome State Fault Refusal :=
  act s (fun c =>
    if c.mgmt.holdEnd = 0 then c
    else
      let c1 := waitLocal c.mgmt.holdEnd c
      let c2 := setSchedMode 2 c1
      { c2 with mgmt := { c1.mgmt with holdEnd := 0, kicks := (List.range 4).map (fun i => (i, localNs c1)) } })

/-! Sensors and rails (R608, R609, R643). -/

/-- Media die of a sensor, if it lies on one. -/
def sensorDie (n : Nat) : Option Nat := if n < 24 then none else some ((n - 24) / 10)

/-- Hottest temperature of a media die, in 1/8 °C. -/
def dieHottest (c : Chip) (die : Nat) : Int := ((List.range 10).map (fun i => tget 0 c.mgmt.temps (24 + 10 * die + i))).foldl max (-32768)

/-- Clusters of a media die. -/
def dieClusters (die : Nat) : List Nat := (List.range 8).map (fun i => 8 * die + i)

/-- Clock of a cluster that is on. -/
def clusterMhz (c : Chip) (cl : Nat) : Nat := tget 0 c.pwr.clkNow cl

/-- A media die's sensor reading moves its throttle (R609). -/
def throttleCheck (die : Nat) (c : Chip) : Chip :=
  let t := tget Throttle.zero c.mgmt.throttle die
  let h := dieHottest c die
  let lim : Int := config c 14 * 8
  if lim ≤ h then
    let t1 := { t with active := true, restoring := false, nextNs := if t.active && !t.restoring then t.nextNs else localNs c + 10000000 }
    let c1 := modMgmt (fun m => { m with throttle := tput m.throttle die t1 }) c
    if t.active then c1 else raise 0 0xF05 none die (clusterMhz c (8 * die)) c1
  else if t.active ∧ ¬ t.restoring ∧ h ≤ lim - 24 then
    modMgmt (fun m => { m with throttle := tput m.throttle die { t with restoring := true, nextNs := localNs c + 100000000 } }) c
  else c

/-- `THERMAL_SAMPLE` (R608, R609, R643): a sensor is read, in 1/8 °C. -/
def thermalSample (n : Nat) (temp : Int) (c : Chip) : Chip :=
  if 64 ≤ n ∨ c.mgmt.keeperReset ≠ 0 then c
  else
    let warn : Int := config c 13 * 8
    let c1 := modMgmt (fun m => { m with temps := tput m.temps n temp, histMax := max m.histMax temp }) c
    let c2 :=
      if warn ≤ temp ∧ !c.mgmt.warned.contains n then
        raise 0 0xF04 none n (unsigned 64 temp) (modMgmt (fun m => { m with warned := linsert m.warned n }) c1)
      else if temp ≤ warn - 24 then modMgmt (fun m => { m with warned := lremove m.warned n }) c1 else c1
    let c3 := match sensorDie n with | some d => throttleCheck d c2 | none => c2
    let since := tget 0 c.mgmt.tripSince n
    if temp < 880 then modMgmt (fun m => { m with tripSince := tdel m.tripSince n }) c3
    else if since = 0 then modMgmt (fun m => { m with tripSince := tput m.tripSince n (localNs c + 1) }) c3
    else if since + 1000000 ≤ localNs c + 1 ∧ c3.pwr.phase ≠ .fatal then fatalAlarm 6 n [] c3
    else c3

def execThermalSample (sensor : Nat) (temp : Int) (s : State) : Host.Outcome State Fault Refusal := act s (thermalSample sensor temp)

/-- `THERMAL_CLOCK_STEP` (R609): every 10 ms 50 MHz lower down to 350, then every 100 ms 50 MHz back up. -/
def thermalStep (die : Nat) (c0 : Chip) : Chip :=
  let t := tget Throttle.zero c0.mgmt.throttle die
  if ¬ (die < 4 ∧ t.active) then c0
  else
    let c := waitLocal t.nextNs c0
    let full := fun cl => min (tget 1400 c.pwr.clkTarget cl) (clockCap c (clusterIsland cl))
    let clk := c.pwr.clkNow.map (fun e =>
      if e.1 / 8 = die then (e.1, if t.restoring then min (e.2 + 50) (full e.1) else max (e.2 - 50) (min 350 e.2)) else e)
    let c1 := modPwr (fun p => { p with clkNow := clk }) c
    let back := clk.all (fun e => e.1 / 8 != die || decide (full e.1 ≤ e.2))
    let t1 := if t.restoring ∧ back then Throttle.zero
      else { t with nextNs := localNs c + (if t.restoring then 100000000 else 10000000) }
    modMgmt (fun m => { m with throttle := tput m.throttle die t1 }) c1

def execThermalClockStep (die : Nat) (s : State) : Host.Outcome State Fault Refusal := act s (thermalStep die)

/-- `THERMAL_HARD_TRIP` (R643): the comparator in AON switches every other domain off and drives FOGHORN_N low; FATAL_ALARM is
recorded once the Keeper runs. -/
def hardTrip (n : Nat) (temp : Int) (c : Chip) : Chip :=
  if !([0, 24, 34, 44, 54] : List Nat).contains n ∨ temp < 920 then c
  else
    let c1 := (((List.range 24).reverse).filter (fun d => d != 0 && domOn c d)).foldl (fun c d => domainLost d c) c
    let c2 := { c1 with pwr := { c1.pwr with on := 1, switch := none, req := .none, phase := .fatal },
                        mgmt := { c1.mgmt with foghornN := false, fatalCause := if c.mgmt.keeperReset = 0 then 6 else 0 },
                        twin := { c1.twin with hbStopped := true, aliveOut := false } }
    if c.mgmt.keeperReset = 0 then raise 0 0xF01 none 6 n c2 else c2

def execThermalHardTrip (sensor : Nat) (temp : Int) (s : State) : Host.Outcome State Fault Refusal := act s (hardTrip sensor temp)

/-- Nominal value of a rail in mV, or the target for VDD_CORE (R588, R608). -/
def railNominal (c : Chip) (r : Nat) : Nat :=
  match r with | 0 => 800 | 1 => 1800 | 2 => 800 | 3 => 900 | 4 => 1200 | 5 => 1100 | _ => c.pwr.mvTarget

/-- `RAIL_SAMPLE` (R608): a rail outside ±5 % for 1 ms raises RAIL_OUT. Die 0 is the hub die, 1 + n media die n. -/
def railSample (r die mv : Nat) (c : Chip) : Chip :=
  if 7 ≤ r ∨ 5 ≤ die then c
  else
    let k := r * 8 + die
    let nom := railNominal c r
    let now := localNs c
    let c1 := modMgmt (fun m => { m with rails := tput m.rails k mv }) c
    let since := tget 0 c.mgmt.railOut k
    if nom * 95 ≤ mv * 100 ∧ mv * 100 ≤ nom * 105 then modMgmt (fun m => { m with railOut := tdel m.railOut k }) c1
    else if since = 0 then modMgmt (fun m => { m with railOut := tput m.railOut k (now + 2) }) c1
    else if since = 1 then c1
    else if since + 1000000 ≤ now + 2 then
      raise 0 0xF06 none r (mv % 2 ^ 16 + 2 ^ 16 * die) (modMgmt (fun m => { m with railOut := tput m.railOut k 1 }) c1)
    else c1

def execRailSample (rail die mv : Nat) (s : State) : Host.Outcome State Fault Refusal := act s (railSample rail die mv)

/-! Ageing (R626, R627) and units (R628, R629). -/

/-- The cluster of an island, if it is one. -/
def islandCluster (isl : Nat) : Option Nat :=
  if 30 ≤ isl ∧ (isl - 30) % 42 < 8 ∧ isl < 198 then some (8 * ((isl - 30) / 42) + (isl - 30) % 42) else none

/-- A cluster runs no faster than its island's limit (R627). -/
def holdClock (isl : Nat) (c : Chip) : Chip :=
  match islandCluster isl with
  | some cl => modPwr (fun p => { p with clkNow := p.clkNow.map (fun e => if e.1 = cl then (e.1, min e.2 (clockCap c isl)) else e) }) c
  | none => c

/-- Islands of service whose drift VDD_CORE at 0.85 V does not cover: the clock is lowered and AGEING_MARGIN raised. -/
def ageMargin (isl drift : Nat) (c : Chip) : Chip :=
  let covered := (850 - Config.fusedMv) / 5 * 100
  if drift ≤ covered then modMgmt (fun m => { m with lowered := tdel m.lowered isl }) c
  else
    let excess := drift - covered
    holdClock isl (raise 0 0xF0C none isl excess (modMgmt (fun m => { m with lowered := tput m.lowered isl (1400 * (10000 - excess) / 10000 / 50 * 50) }) c))

/-- `AGEING_MEASURE` (R626 to R628): every 24 h the drift of each island, in 0.01 %; the VDD_CORE target follows the largest,
and cores at AGE_RETIRE_PCT give way. -/
def ageingMeasure (drifts : List (Nat × Nat)) (c0 : Chip) : Chip :=
  if c0.mgmt.keeperReset ≠ 0 ∨ c0.pwr.phase = .held then c0
  else
    let c := waitLocal (c0.mgmt.ageNs + 86400000000000) c0
    let c1 := modMgmt (fun m => { m with ageNs := localNs c, drift := drifts.foldl (fun t e => tput t e.1 e.2) m.drift }) c
    let c2 := modPwr (fun p => { p with mvTarget := if p.vcoreOn && decide (6 ≤ p.step) then vcoreTarget c1 else p.mvTarget }) c1
    let c3 := drifts.foldl (fun c e => ageMargin e.1 e.2 c) c2
    drifts.foldl (fun c e =>
      match islandUnit e.1 with
      | some u => if config c 9 * 100 ≤ e.2 then beginRetire u.1 u.2 2 c else c
      | none => c) c3

def execAgeingMeasure (drifts : List (Nat × Nat)) (s : State) : Host.Outcome State Fault Refusal := act s (ageingMeasure drifts)

/-- `AGEING_HISTORY_STORE` (R626): every 30 days one entry for each island, 512 kept. -/
def execAgeingHistoryStore (s : State) : Host.Outcome State Fault Refusal :=
  act s (fun c0 =>
    if c0.mgmt.keeperReset ≠ 0 ∨ c0.pwr.phase = .held then c0
    else
      let c := waitLocal (c0.mgmt.histNs + 2592000000000000) c0
      modMgmt (fun m =>
        { m with histNs := localNs c, histMax := -32768,
                 history := m.drift.foldl (fun h e => tput h e.1 (((e.2, m.histMax) :: tget [] h e.1).take 512)) m.history }) c)

/-- Bin of a temperature in 1/8 °C (R625). -/
def tempBin (t : Int) : Nat := if t < 480 then 0 else if 840 ≤ t then 10 else (t.toNat - 480) / 40 + 1

/-- Hottest of all sensors. -/
def hottest (c : Chip) : Int := (c.mgmt.temps.map Prod.snd).foldl max (-32768)

/-- `LIFE_COUNTER_WRITE` (R624, R625): once per hour. -/
def execLifeCounterWrite (s : State) : Host.Outcome State Fault Refusal :=
  act s (fun c0 =>
    if c0.mgmt.keeperReset ≠ 0 ∨ c0.pwr.phase = .held then c0
    else
      let c := waitLocal (c0.mgmt.lifeNs + 3600000000000) c0
      modMgmt (fun m => { m with lifeNs := localNs c, hours := m.hours + 1, bins := tmod 0 m.bins (tempBin (hottest c)) (· + 1) }) c)

/-- `UNIT_SELF_TEST_DONE` (R628): the unit returns to service, or the failure counts as a second fault. -/
def execUnitSelfTestDone (cls unit : Nat) (passed : Bool) (s : State) : Host.Outcome State Fault Refusal :=
  act s (fun c =>
    let u := getUnit c cls unit
    if u.st = .selfTest then
      let c1 := putUnit cls unit { u with st := .inService, testEnd := 0 } (waitLocal u.testEnd c)
      if !passed then beginRetire cls unit 1 c1
      else if cls = 0 then
        { c1 with eng := { c1.eng with engines := tmod Engine.zero c1.eng.engines (unit / 64 * 32 + u.logical) (fun x => { x with stopped := false }) } }
      else c1
    else c)

/-- The unit runs nothing any more. -/
def unitIdle (c : Chip) (cls n : Nat) : Bool :=
  if cls = 0 then
    let e := tget Engine.zero c.eng.engines (n / 64 * 32 + (getUnit c 0 n).logical)
    e.prim.task == 0 && e.shad.task == 0
  else if cls = 1 then c.vid.decs.all (fun e => match e.2.busy with | some b => b.core != n | none => true)
  else c.vid.rends.all (fun e => match e.2.busy with
    | some f => f.parts.all (fun p => p.done || p.core != some n) | none => true)

/-- Take up the next recorded remap whose domain is on (R629). -/
def nextRemap (c : Chip) : Chip :=
  match c.mgmt.remapLater.find? (fun e => domOn c (unitDomain (e.1 / 2 ^ 16) (e.1 % 2 ^ 16))) with
  | some e => beginRetire (e.1 / 2 ^ 16) (e.1 % 2 ^ 16) e.2 (modMgmt (fun m => { m with remapLater := m.remapLater.filter (· != e) }) c)
  | none => c

/-- `SPARE_REMAP_COMPLETE` (R629, R430): the retiring unit's work has ended; the spare takes its place, or the unit is retired
without replacement. -/
def remapComplete (c : Chip) : Chip :=
  if c.mgmt.remap = 0 then c
  else
    let cls := (c.mgmt.remap - 1) / 2 ^ 16
    let n := (c.mgmt.remap - 1) % 2 ^ 16
    let u := getUnit c cls n
    if !unitIdle c cls n then c
    else
      let phys := if cls = 0 then n % 64 else 0
      let scope := if cls = 0 then clusterIsland (n / 64) else if cls = 1 then n / 13 else n / 17
      let c0 := modMgmt (fun m => { m with remap := 0 }) (putUnit cls n { u with st := .retired } c)
      let e := n / 64 * 32 + u.logical
      let c1 := if cls = 0 then { c0 with eng := { c0.eng with engines := tdel c0.eng.engines e } } else c0
      let done :=
        match (unitPeers cls n).find? (fun i => (getUnit c1 cls i).st == .spare) with
        | some i =>
          let c2 := putUnit cls i { getUnit c1 cls i with st := .inService, logical := u.logical } c1
          let c3 := raise 0 0xF09 none (unitIsland cls n)
            (unitIsland cls i + 2 ^ 8 * phys + 2 ^ 16 * (if cls = 0 then i % 64 else 0) + 2 ^ 24 * cls + 2 ^ 28 * u.trigger) c2
          if (unitPeers cls n).any (fun i => (getUnit c3 cls i).st == .spare) then c3 else raise 0 0xF0A none scope cls c3
        | none =>
          let c2 := raise 0 0xF0B none (unitIsland cls n) (phys + 2 ^ 8 * cls + 2 ^ 12 * u.trigger)
            (modMgmt (fun m => { m with retiredCount := m.retiredCount + 1 }) c1)
          if cls = 0 then
            raise (clusterIsland (n / 64)) 0x903 none (clusterIsland (n / 64))
              ((List.range 32).filter (fun l => (enginePhys c2 (n / 64) l).isSome)).length c2
          else c2
      nextRemap (endLost done)

def execSpareRemapComplete (s : State) : Host.Outcome State Fault Refusal := act s remapComplete

end Sys2Proof.Machine
end

