-- ==== Sys2Proof/Machine/PowerCmds.lean ====
section
/-!
DEFINITION. The power commands (R580, R583 to R587): GX_POWER_DOMAIN_SET, its cancellation, and GX_CLUSTER_CLOCK_SET.
-/
namespace Sys2Proof.Machine
open Sys2Proof

/-- `STARTUP_STEP_DONE` (R597): with the last step the operator function has its quotas (R96). -/
def execStartupStepDone (ok : Bool) (units : BitVec 20) (s : State) : Host.Outcome State Fault Refusal :=
  act s (fun c =>
    let c1 := startupStep ok units c
    if inService c1 ∧ !inService c then setOpQuota c1 else c1)

/-- AON or a base domain (R25). -/
def isBaseDomain (d : Nat) : Bool := !isMediaDomain d && !isInterfaceDomain d

/-- Domains of a 24-bit mask, ascending. -/
def maskDomains (m : Nat) : List Nat := (List.range 24).filter (fun d => bit m d)

/-- Limit kinds that capacity in media domains bears on (R119). -/
def powerKinds : List Nat := [1, 2, 3, 4, 5, 6, 7, 8, 9, 10, 11, 12, 13, 14, 15]

/-- The first limit kind whose capacity would not cover usage and reserves, with what is needed and what remains (R584). -/
def powerShort (c : Chip) : Option (Nat × Nat × Nat) :=
  (powerKinds.find? (fun k => decide (capacity c k < usage c k))).map (fun k => (k, usage c k, capacity c k))

/-- Result of a request that would leave too little (GX_E_PWR_IN_USE). -/
def inUse (c : Chip) (x : Nat × Nat × Nat) : Res := { Res.err 0x0E02 with body := [wd c.pwr.on.toNat, wd x.1] ++ wd2 x.2.1 ++ wd2 x.2.2 }

def powerFail (c : Chip) (status : Nat) : Res := { Res.err status with body := [wd c.pwr.on.toNat] }

/-- The command of R583 to R586: refused, or handed to the governor. -/
def powerSet (x : Ctx) (c : Chip) : Chip :=
  let on := maskDomains (bf x.body 0 0 24)
  let off := maskDomains (bf x.body 4 0 24)
  let goOn := on.filter (fun d => !domOn c d)
  let goOff := (off.filter (fun d => domOn c d)).reverse
  let media := goOff.filter isMediaDomain
  let c1 := modPwr (fun p => { p with withdrawn := media.foldl linsert p.withdrawn }) c
  let groups := (liveCharges c 5).length
  if (on ++ off).any isBaseDomain then x.done (powerFail c 0x0E01) c
  else if (on ++ off).any (fun d => c.pwr.failed.contains d) then x.done (powerFail c 0x0E03) c
  else if goOff.contains 11 ∧ groups ≠ 0 then x.done (inUse c (5, groups, 0)) c
  else
    match (if media = [] then none else powerShort c1) with
    | some s => x.done (inUse c s) c
    | none =>
      if powerBusy c then modSlot x.k (fun s => { s with taken := false }) c
      else requestDone (modPwr (fun p => { p with req := { PowerCmd.none with cmd := x.k + 1, on := goOn, off := goOff } }) c1)

/-- A domain named in both masks is out of range for neither field alone. -/
def powerSetBoth (x : Ctx) (c : Chip) : Chip :=
  if bf x.body 0 0 24 &&& bf x.body 4 0 24 ≠ 0 then x.done (Res.err 0x0007) c else powerSet x c

/-- Cancellation at a step boundary (R106): switches done or begun stay, the rest is withdrawn. -/
def powerCancel (k : Nat) (c : Chip) : Chip :=
  if c.pwr.req.cmd = k + 1 ∧ ¬ c.pwr.req.cancelled then
    let keep := match c.pwr.switch with | some w => [w.dom] | none => []
    requestDone (modPwr (fun p => { p with
      req := { p.req with cancelled := true, on := p.req.on.filter keep.contains, off := p.req.off.filter keep.contains }
      withdrawn := p.withdrawn.filter keep.contains }) c)
  else c

/-- The mark of a power command is acted on. -/
def powerMark (k : Nat) (c : Chip) : Chip :=
  let s := getSlot c k
  if s.st = .progress ∧ s.cancel ∧ s.op = 0x0E00 then powerCancel k c else c

/-- `GX_POWER_DOMAIN_SET`. -/
def execGxPowerDomainSet (cmd : CmdRef) (s : State) : Host.Outcome State Fault Refusal := act s (fun c => powerMark (slotKey cmd.fn cmd.slot) (serve 0x0E00 cmd noFields powerSetBoth c))

/-- The clock that a cluster takes: a die that is being throttled is not raised (R609), and no island passes its limit (R627). -/
def clockFor (c : Chip) (cl mhz : Nat) : Nat :=
  let now := tget 0 c.pwr.clkNow cl
  let top := min mhz (clockCap c (clusterIsland cl))
  if (tget Throttle.zero c.mgmt.throttle (cl / 8)).active then min now top else top

/-- Clocks of the clusters of a mask. A cluster whose domain is off takes the new clock as its target only. -/
def setClocks (mask mhz : Nat) (c : Chip) : Chip :=
  let l := (List.range 32).filter (fun cl => bit mask cl)
  l.foldl (fun c cl =>
    let now := clockFor c cl mhz
    modPwr (fun p => { p with clkTarget := tput p.clkTarget cl mhz,
                              clkNow := if domOn c (clusterDomain cl) then tput p.clkNow cl now else p.clkNow }) c) c

/-- The command of R580. -/
def clockSet (x : Ctx) (c : Chip) : Chip :=
  let c1 := setClocks (bw x.body 0) (bf x.body 4 0 11) c
  if capacity c1 12 < capacity c 12 ∧ capacity c1 12 < usage c 12 then
    x.done { Res.err 0x0E02 with body := [] } c
  else x.done (Res.ok []) c1

/-- `GX_CLUSTER_CLOCK_SET`. -/
def execGxClusterClockSet (cmd : CmdRef) (s : State) : Host.Outcome State Fault Refusal :=
  act s (serve 0x0E01 cmd (fun b =>
    let m := bf b 4 0 11
    firstBad [(outside m 350 1400 || m % 50 != 0, 4)]) clockSet)

end Sys2Proof.Machine
end

