-- ==== Sys2Proof/Machine/TaskRows.lean ====
section
/-!
DEFINITION. Dispatch of ready tasks to the units of each target kind (R440 to R444, R474), the Keeper's check of stuck work (R618), and
what firmware does at the end of a restart of the control complex (R44, R84, R86, R109, R124, R616).
-/
namespace Sys2Proof.Machine
open Sys2Proof

/-! Dispatch (R440 to R444). -/

/-- A unit of a target kind takes no task: it is not in service, or it is at work. -/
def unitBusy (c : Chip) (target unit : Nat) : Bool :=
  match target with
  | 1 => decide (52 ≤ unit) || !unitActive c 1 unit || c.vid.decs.any (fun e => match e.2.busy with | some b => b.core == unit | none => false)
  | 2 => decide (68 ≤ unit) || !unitActive c 2 unit ||
      c.vid.rends.any (fun e => match e.2.busy with | some f => f.parts.any (fun p => p.core == some unit && !p.done) | none => false)
  | 3 => decide (16 ≤ unit) || !unitActive c 3 unit || c.vid.canvases.any (fun e => match e.2.busy with | some f => f.compositor == some unit | none => false)
  | 4 => decide (56 ≤ unit) || (let x := getChan c unit; decide (x.cmd ≠ 0) || decide (x.task ≠ 0) || x.active || !x.chain.isEmpty || x.pause)
  | _ => true

/-- A task's AFFINITY permits a unit: the media die of a core or compositor (R434), or a DMA channel. -/
def unitPermitted (d : TaskDesc) (unit : Nat) : Bool :=
  match d.target with
  | 1 => d.permits (unit / 13)
  | 2 => d.permits (unit / 17)
  | 3 => d.permits (unit / 4)
  | _ => !bit d.affinity.toNat 31 || bits d.affinity.toNat 0 6 == unit

/-- A DMA channel takes a task: its chain is named in its arguments (R474). -/
def dmaTaskStart (slot ch : Nat) (c : Chip) : Chip :=
  let a := fun (i : Nat) => ((getTask c slot).desc.args.getD i 0).toNat
  modChan ch (fun x => { x with task := slot + 1, chainAddr := a 0 + 2 ^ 32 * a 1, chainLeft := a 2, results := [] }) (startTask slot ch c)

/-- The task at the head for a unit, if the unit is free (R440, R444). -/
def dispatchHead (c : Chip) (target unit : Nat) : Option (Nat × Task) :=
  if target = 0 then headFor c 0 (engineMay c)
  else if unitBusy c target unit then none else headFor c target (fun e => unitPermitted e.2.desc unit)

/-- The task starts on the unit. For engines the scheduler chooses cluster and engine itself (R442, R443). -/
def dispatchTo (target unit slot : Nat) (c : Chip) : Chip :=
  match target with
  | 0 => dispatchEngine c
  | 1 => decStart slot unit c
  | 2 => encStart slot unit c
  | 3 => compStart slot unit c
  | _ => dmaTaskStart slot unit c

/-- On-chip slot state with an uncorrectable error: the slot is out of use until device warm reset (R455). -/
def slotLost (slot : Nat) (c : Chip) : Chip :=
  let c1 := schedRun [.stop slot 0x8007] c
  let c2 := modTask slot (fun t => { t with lost := true }) (modSched (fun s => { s with lostSlots := s.lostSlots + 1 }) c1)
  raise 22 0x913 none slot c2.sched.lostSlots c2

/-- `TASK_DISPATCH` (R440, R455). `upset`: 0 none, 1 the descriptor is read with poison, 2 the slot's state has an uncorrectable error. -/
def taskDispatch (target unit upset : Nat) (c : Chip) : Chip :=
  match dispatchHead c target unit with
  | none => c
  | some (slot, _) =>
    if upset = 1 then schedRun [.stop slot 0x8007] c
    else if upset = 2 then slotLost slot c
    else dispatchTo target unit slot c

def execTaskDispatch (target unit upset : Nat) (s : State) : Host.Outcome State Fault Refusal :=
  act s (fun c => if domOn c 9 then settle (taskDispatch target unit upset c) else c)

/-! Stuck work (R618). -/

/-- The oldest running task of a target kind. -/
def oldestRunning (c : Chip) (target : Nat) : Option (Nat × Task) :=
  (c.sched.tasks.filter (fun e => e.2.st == .running && !e.2.done && e.2.desc.target == target)).foldl (fun acc e =>
    match acc with
    | some a => if e.2.startNs < a.2.startNs ∨ (e.2.startNs = a.2.startNs ∧ e.1 < a.1) then some e else some a
    | none => some e) none

/-- `OLDEST_RUN_US` (R450, R456). -/
def oldestRunUs (c : Chip) (target : Nat) : Nat :=
  match oldestRunning c target with
  | some e => min ((svc c - e.2.startNs) / 1000) 0xFFFFFFFF
  | none => 0

/-- Configuration item that limits a target kind, in ms: STUCK_MS_ENG, STUCK_MS_VID or STUCK_MS_DMA (R607). -/
def stuckItem (target : Nat) : Nat := if target = 0 then 10 else if target = 4 then 12 else 11

/-- UNIT of R451 for a unit of a target kind. -/
def unitField (target unit : Nat) : Nat :=
  match target with
  | 1 => decodeIsland unit
  | 2 => encodeIsland unit
  | 3 => compIsland unit
  | _ => unit

/-- The Keeper acts on the unit whose task is stuck (R618). -/
def stuckUnit (target slot unit : Nat) (c : Chip) : Chip :=
  match target with
  | 0 => faultTasks unit 3 c
  | 1 => decCoreFault unit c
  | 2 => encCoreFault unit c
  | 3 => compFault unit false c
  | _ => endTask slot (unitDone slot 0x8008 0 false false (modChan unit (fun _ => Chan.zero) c))

def stuckKind (c : Chip) (target : Nat) : Chip :=
  match oldestRunning c target with
  | some (slot, t) =>
    let us := oldestRunUs c target
    if config c (stuckItem target) * 1000 < us then
      raise 0 0xF03 none (unitField target t.unit) (target + 2 ^ 32 * us) (stuckUnit target slot t.unit c)
    else c
  | none => c

/-- `STUCK_WORK_CHECK` (R618): at the next multiple of 10 ms of local time. -/
def stuckCheck (c : Chip) : Chip :=
  settle ((List.range 5).foldl stuckKind (waitLocal ((localNs c / 10000000 + 1) * 10000000) c))

def execStuckWorkCheck (s : State) : Host.Outcome State Fault Refusal :=
  act s (fun c => if inService c ∧ c.mgmt.keeperReset = 0 then stuckCheck c else c)

/-! End of a restart of the control complex (R616). -/

/-- GX_E_COMMIT_ABANDONED and GX_E_FW_RESTART. -/
def abandoned : Nat := 0x0108
def fwRestart : Nat := 0x0002

/-- The journal entry of a commit is voided in both twins (R124, R557). -/
def voidEntry (a : Commit) (c : Chip) : Chip :=
  if a.stage = .journalled ∨ a.stage = .writing then (journalPut (.void a.journal) c).2 else c

/-- The commit that the restart met before publication (R124): a host's fails, a purge is queued again, and the device's own go on. -/
def recoverActive (c : Chip) : Chip :=
  match c.gx.active with
  | none => c
  | some a =>
    match a.kind with
    | .host | .bulk =>
      failCommit a 3 { res := { Res.err abandoned with errIndex := 0xFFFF }, kind := 0, needed := 0, avail := 0, next := a.next } (voidEntry a c)
    | .purge => modGx (fun g => { g with active := none, held := g.held ++ [purgeCommit a.fn] }) (releaseAsked a (voidEntry a c))
    | _ => c

/-- A commit with VALIDATE_ONLY that was being validated ends too. -/
def recoverChecks (c : Chip) : Chip :=
  c.gx.checks.foldl (fun c a => answer a (Res.err abandoned) (releaseAsked a (endCommit a c))) c

/-- A held commit of a host is abandoned (R124). -/
def recoverHeld (c : Chip) : Chip :=
  let host := fun (a : Commit) => a.kind == .host || a.kind == .bulk
  (c.gx.held.filter host).foldl (fun c a => ticketOutcome a 3 abandoned 0 (unreserve a c))
    (modGx (fun g => { g with held := g.held.filter (fun a => !host a) }) c)

/-- Every open transaction is rolled back, with TXN_ROLLED_BACK for each (R109). -/
def recoverTxns (c : Chip) : Chip :=
  c.gx.sessions.foldl (fun c e =>
    match e.2.txn with
    | some t => raise fwIsland 0x103 (some e.2.fn) e.1 t.staged.length (setTxn e.1 none (dropTxn t c))
    | none => c) c

/-- A command captured before the restart ends (R84, R124). AUTO_COMMIT makes a commit of a command only where its session had no open
transaction (R111); `open_` lists the sessions that had one. -/
def recoverSlot (open_ : List Nat) (k : Nat) (s : Slot) (c : Chip) : Chip :=
  let commit := s.op == 0x0103 || (s.autoCommit && txnOps.contains s.op && !open_.contains s.session)
  finish k (Res.err (if commit then abandoned else fwRestart)) c

/-- DMA channels go on with what a command gave them, without the command. -/
def freeChans (c : Chip) : Chip := { c with chans := c.chans.map (fun e => (e.1, { e.2 with cmd := 0, results := if e.2.cmd = 0 then e.2.results else [] })) }

/-- Sessions with an open transaction. -/
def openTxns (c : Chip) : List Nat := (c.gx.sessions.filter (fun e => e.2.txn.isSome)).map Prod.fst

def recoverSlots (open_ : List Nat) (c : Chip) : Chip :=
  let l := c.host.slots.filter (fun e => e.2.open_ && !e.2.duringRestart)
  l.foldl (fun c e => recoverSlot open_ e.1 e.2 c) (freeChans (l.foldl (fun c e => stopStepped (e.1 / 64) c) c))

/-- `FW_RECOVERY_DONE` (R616 steps 3 and 4): epochs stay, captured commands end, SERVICE is selected, FW_RESTARTING clears. -/
def recoveryDone (c : Chip) : Chip :=
  let c1 := setSchedMode 3 (recoverSlots (openTxns c) (recoverTxns (recoverHeld (recoverChecks (recoverActive c)))))
  { c1 with host := { c1.host with fwRestarting := false }, mgmt := { c1.mgmt with recovering := false } }

def execFwRecoveryDone (s : State) : Host.Outcome State Fault Refusal :=
  act s (fun c => if c.mgmt.recovering ∧ c.mgmt.holdEnd = 0 then recoveryDone c else c)

end Sys2Proof.Machine
end

