-- ==== Sys2Proof/Machine/TimeStep.lean ====
section
/-!
DEFINITION. A step of a PTP domain (R529, R532, R533) and what moves with service time: the audio grid (R274) and the scheduler's ticks
(R448). Gate lists follow service time of themselves (R262).
-/
namespace Sys2Proof.Machine
open Sys2Proof

/-- The step that STEP_SEC and STEP_NS hold, in ns. -/
def Dom.stepOf (x : Dom) : Int := x.stepSec * 1000000000 + x.stepNs

/-- STEP_NS lies in its range (R529). -/
def Dom.stepOk (x : Dom) : Bool := decide (-999999999 ≤ x.stepNs ∧ x.stepNs ≤ 999999999)

/-- A domain counter moves by `ns`, all at once. A second that it will reach again has its pulse again (R540). -/
def Dom.stepBy (x : Dom) (ns : Int) : Dom :=
  let y := { x with t := x.t + ns * 4294967296 }
  { y with lastPulse := min y.lastPulse (y.ahead - 1) }

/-- A slew whose sign has become that of OFF ends (R533). -/
def TimeBase.endWrongSlew (t : TimeBase) : TimeBase :=
  if (0 < t.slewPpb ∧ 0 < t.off) ∨ (t.slewPpb < 0 ∧ t.off < 0) then { t with slewPpb := 0 } else t

/-- The audio grid under a step of service time: the start of the last block keeps its place in time, and the next block takes the new grid
(R274). -/
def stepAudio (ns : Nat) (c : Chip) : Chip :=
  moveGrid (nextGrid c).1 2 ((nextGrid c).2 + (ns * 48000 / 1000000000 : Nat))
    (modAud (fun a => { a with lastStart := if a.begun then a.lastStart + ns else a.lastStart }) c)

/-- The tick grid moves with service time: the next tick is the first multiple after the step, and the delayed tasks whose RELEASE the step
passed become ready there (R448). -/
def stepSched (c : Chip) : Chip :=
  let now := svc c
  let per := c.sched.tickUs * 1000
  modSched (fun s => { s with lastTick := if per = 0 then s.lastTick else now / per * per, tasks := s.tasks.map (fun e =>
    if e.2.st = .delayed ∧ e.2.desc.release ≤ now then (e.1, { e.2 with comparator := false }) else e) }) c

/-- TIME_STEPPED: the step in ns, saturating, and whether it was absorbed. -/
def raiseStepped (d : Nat) (ns : Int) (c : Chip) : Chip :=
  raise 0 0xC02 none d (saturate 63 ns + 2 ^ 63 * b2n (decide (ns < 0))) c

/-- A step of a domain (R529, R532). -/
def stepDomain (d : Nat) (c : Chip) : Chip :=
  let t := c.time
  let x := t.dom d
  let ns := x.stepOf
  if !x.stepOk then timeError c
  else if d ≠ t.selNum then modTime (fun t => t.putDom d (x.stepBy ns)) c
  else if 0 ≤ ns then
    raiseStepped d ns (stepSched (stepAudio ns.toNat (modTime (fun t => t.putDom d (x.stepBy ns)) c)))
  else
    raiseStepped d ns (modTime (fun t =>
      ({ t.putDom d (x.stepBy ns) with off := t.off - ns * (1000000000 * 4294967296), stepAbsorbed := true } : TimeBase).endWrongSlew) c)

/-- `STEP_CMD_GO` (R529, R532). -/
def execStepCmdGo (fn domain : Nat) (v : Word) (s : State) : Host.Outcome State Fault Refusal :=
  act s (fun c =>
    match b2Turned fn (0x100124 + 0x100 * domain) false v c with
    | some c1 => c1
    | none => if domain < 2 ∧ v.getLsbD 0 then stepDomain domain c else c)

end Sys2Proof.Machine
end

