-- ==== Sys2Proof/Machine/Twin.lean ====
section
/-!
DEFINITION. Pairing with the twin (chapter 17): the session, heartbeats, takeover, journal and mirror records, reserves, hand-over, relay and
eject.
-/
namespace Sys2Proof.Machine
open Sys2Proof

/-! The session (R550 to R555). -/

/-- This device has the lower serial number: it is side 0. -/
def Twin.side0 (t : Twin) : Bool := decide (mySerial < t.peerSerial)

def sendHello (c : Chip) : Chip :=
  emit (.twin (.hello mySerial c.twin.random 1)) (modTw (fun t => { t with helloNs := localNs c }) c)

/-- `FLIUSK_LINK_UP` (R550, R552): the link has come up, and the first hello goes out with a fresh random value. -/
def fliuskUp (c : Chip) : Chip :=
  if (getLport c twinLport).linkUp ∧ domOn c 5 ∧ !c.twin.phyUp then
    let d := draw c
    sendHello (modTw (fun t => { t with phyUp := true, session := false, random := d.1 % 2 ^ 64 }) d.2)
  else c

def execFliuskLinkUp (s : State) : Host.Outcome State Fault Refusal := act s fliuskUp

/-- `FLIUSK_LINK_LOSS` (R552, R564). -/
def execFliuskLinkLoss (s : State) : Host.Outcome State Fault Refusal :=
  act s (fun c => if c.twin.phyUp ∨ (getLport c twinLport).linkUp then twinLinkLoss c else c)

/-- `HELLO_TIMER` (R552): 1 ms after the last hello, while there is no session. -/
def execHelloTimer (s : State) : Host.Outcome State Fault Refusal :=
  act s (fun c => if c.twin.phyUp ∧ !c.twin.session then sendHello (waitLocal (c.twin.helloNs + 1000000) c) else c)

/-- Pairing is refused (R553): 1 no secret here, 2 verification failed, 3 version. -/
def pairRefused (serial reason : Nat) (c : Chip) : Chip :=
  raise 5 0xD02 none (serial % 2 ^ 32) reason (modTw (fun t => { t with events := t.events ||| 4 }) c)

/-- An internal commit: nothing staged, no ticket and no command. -/
def ownCommit (c : Chip) (kind : CommitKind) : Commit :=
  { kind := kind, fn := operatorFn c, slot := none, session := 0, ticket := 0, staged := [], stage := .queued, next := .empty, deadline := 0,
    unmirrored := false, auto := false, asking := [], journal := 0, discard := false, more := [], cause := 0, start := 0, ids := [],
    left := 0, only := false, asked := 0 }

/-- Queue an internal commit behind those held, and begin it where nothing is before it (R41). -/
def queueOwn (a : Commit) (c : Chip) : Chip := releaseHeld false (modGx (fun g => { g with held := g.held ++ [a] }) c)

/-- Legs of some conferences. -/
def confLegs (g : Cfg) (confs : List Nat) : List Nat := (g.indexes tLeg).filter (fun l => confs.contains (g.root (mkKey tLeg l)))

/-- The legs of a conference send nothing until host software commits new send keys. -/
def stopLegs (g : Cfg) (legs : List Nat) (reason : Nat) (c : Chip) : Chip :=
  legs.foldl (fun c l =>
    rekeyRequired g (g.legPipe l) (mkKey tLeg l) reason (modNet (fun n => { n with txStopped := linsert n.txStopped l }) c)) c

/-- Conferences that both devices have served as primary (R570): each stays with the device that holds it at the lower move count, and of
equal counts with side 0. `split` gives each by its key here, with the move count on the twin. -/
def resolveSplit (split : List (Nat × Nat)) (c : Chip) : Chip :=
  let g := cfg c
  let here := split.filter (fun e => keyType e.1 == tConf && thas g.objs e.1)
  let keep := fun (e : Nat × Nat) => let m := tget 0 c.twin.moves e.1; decide (m < e.2) || (m == e.2 && c.twin.side0)
  let kept := here.filter keep
  let gone := here.filter (fun e => !keep e)
  let c1 := kept.foldl (fun c e => stopLegs g (confLegs g [e.1]) 2 (raise 5 0xD09 none (g.keyId e.1) 1 c)) c
  let c2 := gone.foldl (fun c e => raise 5 0xD09 none (g.keyId e.1) 0 c) c1
  if gone.isEmpty then c2 else queueOwn { ownCommit c2 .handover with more := gone.map Prod.fst } c2

/-- A session begins: frame counters and record numbers start again, records of the ring are sent from the first not acknowledged, or the
snapshot where the twin needs it (R552, R565, R569). `behind`: this device lacks part of its twin's journal; `theyLack`: the twin lacks
part of this device's. -/
def sessionBegin (serial random num : Nat) (behind theyLack : Bool) (c : Chip) : Chip :=
  let full := theyLack || c.twin.twinNeedsFull
  let key := fun (sender receiver : Nat) => twinSessionKey (twinLinkKey (c.net.pairing.getD 0) sender receiver)
    (if mySerial < serial then c.twin.random else random) (if mySerial < serial then random else c.twin.random) (num % 2 ^ 32)
  let c1 := modTw (fun t =>
    { t with session := true, peerSerial := serial, sessionNum := num % 2 ^ 32, txKey := key mySerial serial, rxKey := key serial mySerial, txSeq := 0, rxHigh := 0, rxSeen := [],
             tagFails := 0, twinEjected := false, wasPaired := false, chanSeq := [], unacked := [],
             missFrame := 0, hbFrame := false, mirrorNext := 0, mirrorPass := 0 }) c
  let c2 := raise 5 0xD01 none 0 3 c1
  let c3 := if c2.twin.st = 5 then c2 else setTwinState (if behind then 2 else 3) c2
  if full then sendSnapshot c3 else c3.twin.journal.foldl (fun c e => chanSend 2 e.1 (.journal e.1 e.2) c) c3

/-- `FLIUSK_HELLO` (R552, R553, R569, R570): serial number, random value and version of the twin's hello, the session number of its header,
and whether its CMAC verifies. -/
def fliuskHello (serial random version num : Nat) (macOk behind theyLack : Bool) (split : List (Nat × Nat)) (c : Chip) : Chip :=
  let t := c.twin
  if !t.phyUp ∨ t.session then c
  else if c.net.pairing.isNone then pairRefused serial 1 c
  else if !macOk then pairRefused serial 2 c
  else if version ≠ 1 then pairRefused serial 3 c
  else
    resolveSplit split (sessionBegin serial random (if mySerial < serial then t.sessionNum + 1 else num) behind theyLack c)

def execFliuskHello (serial random version num : Nat) (macOk behind theyLack : Bool) (split : List (Nat × Nat)) (s : State) :
    Host.Outcome State Fault Refusal :=
  act s (fliuskHello serial random version num macOk behind theyLack split)

/-- A protected frame arrives (R552): it fails its tag, or its number is too old or was seen, and is dropped and counted; or it is accepted.
Sixteen failed tags in a row end the session. -/
def rxFrame (frameSeq : Nat) (tagOk : Bool) (f : Chip → Chip) (c : Chip) : Chip :=
  let t := c.twin
  if !t.session then c
  else if !tagOk then
    let c1 := modTw (fun t => { t with dropped := t.dropped + 1, tagFails := t.tagFails + 1 }) c
    if 16 ≤ t.tagFails + 1 then twinSessionEnd c1 else c1
  else if frameSeq + 1024 ≤ t.rxHigh ∨ t.rxSeen.contains frameSeq then modTw (fun t => { t with dropped := t.dropped + 1, tagFails := 0 }) c
  else
    let high := max t.rxHigh frameSeq
    f (modTw (fun t => { t with rxHigh := high, rxSeen := (frameSeq :: t.rxSeen).filter (fun q => decide (high < q + 1024)), tagFails := 0 }) c)

/-- A numbered record of a channel (R554): the next in order acts, an earlier one is acknowledged again, a later one waits for its
predecessors to be sent again. -/
def rxRecord (chan seq : Nat) (f : Chip → Chip) (c : Chip) : Chip :=
  let high := tget 0 c.twin.chanSeq (100 + chan)
  if seq = high + 1 then twinSend (.ack chan seq none) (f (modTw (fun t => { t with chanSeq := tput t.chanSeq (100 + chan) seq }) c))
  else if seq ≤ high then twinSend (.ack chan seq none) c
  else c

/-! Heartbeats (R563, R564). -/

/-- The next instant of service time that is a multiple of a period. -/
def waitGrid (ns : Nat) (c : Chip) : Chip := waitSvc ((svc c / ns + 1) * ns) c

/-- `HEARTBEAT_SEND` (R563). -/
def heartbeatSend (c0 : Chip) : Chip :=
  if !inService c0 ∨ c0.twin.hbStopped then c0
  else
    let c := waitGrid 100000 c0
    twinSend .heartbeat (if c.twin.ctrl.getLsbD 1 then modTw (fun t => { t with aliveOut := !t.aliveOut }) c else c)

def execHeartbeatSend (s : State) : Host.Outcome State Fault Refusal := act s heartbeatSend

/-- `FLIUSK_HEARTBEAT` (R564). -/
def execFliuskHeartbeat (frameSeq : Nat) (tagOk : Bool) (s : State) : Host.Outcome State Fault Refusal :=
  act s (rxFrame frameSeq tagOk (modTw (fun t => { t with hbFrame := true })))

/-- `TWIN_ALIVE_TRANSITION` (R564). -/
def execTwinAliveTransition (s : State) : Host.Outcome State Fault Refusal := act s (modTw (fun t => { t with hbPin := true }))

/-! Takeover (R566, R567). -/

/-- The commit under way waits for the twin no longer: it goes on, unmirrored, its conferences exposed (R123, R560, R566). -/
def unwaitCommit (c : Chip) : Chip :=
  match c.gx.active with
  | some a =>
    if a.stage = .journalled then
      raise fwIsland 0x104 (some a.fn) a.next.epoch 0
        (goWrite { a with unmirrored := true } (modTw (fun t => { t with exposed := (confsChanged (cfg c) a.next).foldl linsert t.exposed }) c))
    else if a.stage = .reserve then goReserve { a with asking := [] } (exposeConfs a a.asking c)
    else c
  | none => c

/-- The commits under way wait for the twin no longer. -/
def unwaitCommits (c : Chip) : Chip :=
  (c.gx.checks.filter (fun a => a.stage == .reserve)).foldl (fun c a => goReserve { a with asking := [] } c) (unwaitCommit c)

/-- Result of GX_TWIN_HANDOVER: T_h and the conferences moved. -/
def handoverResult (h : Handover) : Res := Res.ok (wd2 (h.th / 1000000000) ++ [wd (h.th % 1000000000), wd h.moved])

/-- A hand-over whose twin is lost: before T_act it is given up and the conferences are served again; its command tells that none has
moved (log 76). -/
def handoverLost (c : Chip) : Chip :=
  match c.twin.handover with
  | some h =>
    if h.relaying then c
    else
      let c1 := modTw (fun t => { t with handover := none }) (modNet (fun n => { n with addrInactive := n.addrInactive.filter (fun i => !h.cards.any (fun e => e.1 == i)) }) c)
      if h.cmd ≠ 0 then finish (h.cmd - 1) (handoverResult { h with moved := 0 }) c1 else c1
  | none => c

/-- Step 1 of R566: the twin is lost or has asked; everything it served is to be taken in one epoch, ahead of every held commit. -/
def takeoverStart (cause : Nat) (c : Chip) : Chip :=
  let c1 := raise 5 0xD04 none (c.twin.peerSerial % 2 ^ 32) cause c
  let c2 := setTwinState 4 (modTw (fun t =>
    { t with session := false, unacked := [], wasPaired := false, reserves := [], takeovers := t.takeovers + 1 }) c1)
  let c3 := forceDrain (unwaitCommits (handoverLost c2))
  releaseHeld false (modGx (fun g => { g with held := { ownCommit c3 .takeover with cause := cause, start := svc c3 } :: g.held }) c3)

/-- `HEARTBEAT_WINDOW` (R564): a window of 100 µs of service time ends. -/
def heartbeatWindow (c0 : Chip) : Chip :=
  if !inService c0 then c0
  else
    let c := waitGrid 100000 c0
    let t := c.twin
    let pins := t.ctrl.getLsbD 1
    let f := if t.hbFrame then 0 else min 3 (t.missFrame + 1)
    let p := if t.hbPin then 0 else min 3 (t.missPin + 1)
    let run := if pins then min f p else f
    let was := if pins then min t.missFrame t.missPin else t.missFrame
    let watch := t.session || t.wasPaired
    let standby := t.st == 3 || t.wasPaired
    let c1 := modTw (fun t =>
      { t with hbFrame := false, hbPin := false, missFrame := f, missPin := p,
               hbMissed := if run ≠ 0 ∧ watch then min (t.hbMissed + 1) 0xFFFFFFFF else t.hbMissed }) c
    if run = 3 ∧ was < 3 ∧ standby ∧ t.st ≠ 5 then
      if t.twinEjected then
        setTwinState 4 (modTw (fun t => { t with session := false, unacked := [], wasPaired := false }) c1)
      else takeoverStart 1 c1
    else if f = 3 ∧ t.missFrame < 3 ∧ t.session then twinSessionEnd c1
    else if f < 3 ∧ p = 3 ∧ t.missPin < 3 ∧ pins ∧ t.session then
      raise 5 0xD01 none 0 5 (modTw (fun t => { t with events := t.events ||| 2 }) c1)
    else c1

def execHeartbeatWindow (s : State) : Host.Outcome State Fault Refusal := act s heartbeatWindow

/-- `TAKEOVER_REQUEST` (R565, R571): the twin is about to stop, or (`confs`) hands conferences over; `eject` says that it is leaving. -/
def takeoverRequest (seq : Nat) (confs : Option (List Nat)) (eject : Bool) (c : Chip) : Chip :=
  match confs with
  | none => if c.twin.st = 3 then takeoverStart 2 c else c
  | some l =>
    rxRecord 7 seq (fun c =>
      let c1 := modTw (fun t => { t with twinEjected := t.twinEjected || eject }) c
      if c.twin.st = 3 ∧ !l.isEmpty then queueOwn { ownCommit c1 .takeover with cause := 3, start := svc c1, more := l.map idKey } c1 else c1) c

def execTakeoverRequest (frameSeq : Nat) (tagOk : Bool) (seq : Nat) (confs : Option (List Nat)) (eject : Bool) (s : State) :
    Host.Outcome State Fault Refusal :=
  act s (rxFrame frameSeq tagOk (takeoverRequest seq confs eject))

/-- Identifiers that this device gives to what it takes: the twin's and its own. -/
def takenIds (c : Chip) (next : Cfg) : List (Nat × Nat) := c.twin.map.filter (fun e => decide (idType e.1 ≤ 8) && (next.obj e.2).isSome)

/-- `TAKEOVER_TABLES_WRITTEN` (R566): the takeover epoch is published; a giver gets T_act and the identifiers back (R571). -/
def takeoverWritten (extra : Nat) (c : Chip) : Chip :=
  match c.gx.active with
  | some a =>
    if firmwareUp c ∧ a.stage = .writing ∧ a.kind = .takeover then
      let c1 := publish a extra c
      let t := c1.gx.tActSec * 1000000000 + c1.gx.tActNs
      let c2 := modTw (fun w => { w with taking := w.taking.map (fun x => { x with tAct := t }) }) c1
      if a.cause = 3 then recNext 7 (.tActReturn c1.gx.tActSec c1.gx.tActNs (takenIds c a.next)) c2 else c2
    else c
  | none => c

def execTakeoverTablesWritten (extra : Nat) (s : State) : Host.Outcome State Fault Refusal := act s (takeoverWritten extra)

/-- One gratuitous ARP or unsolicited Neighbour Advertisement of a service address. -/
def announceAddr (i : Nat) (c : Chip) : Chip :=
  match (cfg c).addr i with
  | some b => if addrActive c (cfg c) i then sendOwn (addrLport b) (.announce (addrIp b) true) (if addrV6 b then 90 else 64) c else c
  | none => c

/-- What a takeover epoch sets at its T_act beside what every epoch does (R266, R394, R566, R570). -/
def takeoverActive (old : Cfg) (x : TakeRun) (c : Chip) : Chip :=
  let g := cfg c
  let t := c.twin
  let c1 := (g.newOf old tLeg).foldl (fun c l =>
    match t.mirrorOf (t.theirId (g.idAt tLeg l)) with
    | some m =>
      let b := g.shape l
      let a := if shFixed b then shFixedRate b * 1000 else clampRate b (m.1.aKbps * 750)
      modLeg l (fun r => { r with a := a, rate := a, bucket := 0, repair := 0, tag := none }) c
    | none => c) c
  let c2 := (g.newOf old tRend).foldl (fun c i =>
    match t.mirrorT (t.theirId (g.idAt tRend i)) with
    | some k => modRend i (fun r => { r with t := .int (k * 1000) }) c
    | none => c) c1
  let confs := (g.newOf old tConf).map (mkKey tConf)
  let ids := (takenIds c g).map Prod.fst
  let addrs := (g.addrs.filter (fun e => addrActive c g e.1)).map Prod.fst
  let now := localNs c
  let c3 := modTw (fun w =>
    { w with moves := confs.foldl (fun m k => tmod 0 m k (· + 1)) w.moves,
             mirrors := w.mirrors.filter (fun e => !ids.contains e.1),
             announce := addrs.flatMap (fun i => [(i, now + 50000000), (i, now + 250000000)]) }) (stopLegs g x.stale 3 c2)
  addrs.foldl (fun c i => announceAddr i c) c3

/-- `EPOCH_ACTIVATE` (R34, R40, R256, R650), and step 5 of R566 for a takeover epoch. Service addresses that are gone leave the list of those
made inactive. -/
def epochActivate (c : Chip) : Chip :=
  let e := c.gx.published
  if e = 0 then c
  else
    let c1 := modTw (fun t => { t with gone := t.gone.filter (fun k => thas (cfgAt c e).objs k) })
      (modNet (fun n => { n with addrInactive := n.addrInactive.filter (fun i => ((cfgAt c e).addr i).isSome) }) (activateEpoch c))
    match c1.twin.taking with
    | some x => if x.epoch = e then takeoverActive (cfg c) x c1 else c1
    | none => c1

def execEpochActivate (s : State) : Host.Outcome State Fault Refusal := act s epochActivate

/-- `ANNOUNCE_REPEAT` (R566): the earliest repeats due. -/
def announceRepeat (c0 : Chip) : Chip :=
  match c0.twin.announce with
  | [] => c0
  | e :: l =>
    let due := l.foldl (fun n x => min n x.2) e.2
    let c := waitLocal due c0
    let now := c.twin.announce.filter (fun x => x.2 == due)
    now.foldl (fun c x => announceAddr x.1 c) (modTw (fun t => { t with announce := t.announce.filter (fun x => x.2 != due) }) c)

def execAnnounceRepeat (s : State) : Host.Outcome State Fault Refusal := act s announceRepeat

/-- `TAKEOVER_DONE` (R566): 5 ms after T_act. -/
def takeoverDone (c : Chip) : Chip :=
  match c.twin.taking with
  | some x =>
    if x.tAct = 0 then c
    else
      raise 5 0xD05 none (x.epoch % 2 ^ 32) (x.taken % 2 ^ 32 + 2 ^ 32 * x.dropped)
        (modTw (fun t => { t with taking := none }) (waitSvc (x.tAct + 5000000) c))
  | none => c

def execTakeoverDone (s : State) : Host.Outcome State Fault Refusal := act s takeoverDone

/-! The journal (R554, R557 to R559). -/

/-- Published records of the twin are applied in a local epoch behind this device's own commits (R558). -/
def queueStandby (c : Chip) : Chip :=
  if c.gx.held.any (fun a => a.kind == .standby) then c else queueOwn (ownCommit c .standby) c

/-- Reserves that a commit asked for are in force once it is published, and given up once it is voided (R560). -/
def promoteReserves (l : List (Nat × List (Nat × Nat))) : List (Nat × List (Nat × Nat)) :=
  let asked := l.filter (fun e => e.1 % 2 == 1)
  (l.filter (fun e => e.1 % 2 == 0 && !asked.any (fun a => a.1 / 2 == e.1 / 2))) ++ asked.map (fun a => (a.1 - 1, a.2))

def dropAsked (l : List (Nat × List (Nat × Nat))) : List (Nat × List (Nat × Nat)) := l.filter (fun e => e.1 % 2 == 0)

/-- Put a record of the twin into the twin half. A record that overwrites one still needed puts this device into CATCHUP (R559). -/
def journalTake (seq : Nat) (r : JRec) (c : Chip) : Chip :=
  let l := c.twin.twinJournal ++ [(seq, r)]
  let kept := ringKeep l
  let c1 := modTw (fun t =>
    { t with twinJournal := kept, jRx := seq + 1,
             reserves := match r with | .publish _ _ => promoteReserves t.reserves | .void _ => dropAsked t.reserves | _ => t.reserves }) c
  if kept.length < l.length ∧ c.twin.st = 3 then setTwinState 2 c1 else c1

/-- A journal record: a snapshot begins afresh, other records are taken in order; each is acknowledged once it is written, and a published
one is applied while the device is PAIRED. -/
def journalRecord (seq : Nat) (r : JRec) (c : Chip) : Chip :=
  let ack := twinSend (.ack 2 seq none)
  match r with
  | .snapshot _ =>
    let c1 := journalTake seq r (modTw (fun t => { t with twinJournal := [], reserves := [] }) c)
    ack (if c.twin.st = 3 then setTwinState 2 c1 else c1)
  | _ =>
    if seq = c.twin.jRx then
      let c1 := journalTake seq r c
      ack (if c1.twin.st = 3 ∧ r.applies then queueStandby c1 else c1)
    else if seq < c.twin.jRx then ack c
    else c

/-- `JOURNAL_RECORD` (R557, R558). -/
def execJournalRecord (frameSeq : Nat) (tagOk : Bool) (seq : Nat) (rec_ : JRec) (s : State) : Host.Outcome State Fault Refusal :=
  act s (rxFrame frameSeq tagOk (journalRecord seq (rec_.mapKeys (keySeal journalKey))))

/-- `JOURNAL_ACK` (R123, R554, R557): records of a channel are acknowledged; the commit whose record it is goes on. `paired` says that the
twin has completed catch-up, and names the conferences it could not reserve. -/
def journalAck (chan seq : Nat) (paired : Option (List Nat)) (c : Chip) : Chip :=
  let c1 := modTw (fun t => { t with unacked := t.unacked.filter (fun e => !(e.1 == chan && decide (e.2.1 ≤ seq))) }) c
  let c2 := match paired with
    | some short => modTw (fun t => { t with twinNeedsFull := false, exposed := (short.map idKey).foldl linsert [] }) c1
    | none => c1
  if chan = 2 then
    let c3 := modTw (fun t => { t with journal := t.journal.filter (fun e => decide (seq < e.1)), jAck := max t.jAck seq }) c2
    match c3.gx.active with
    | some a => if a.stage = .journalled ∧ a.journal ≤ seq then goWrite a c3 else c3
    | none => c3
  else c2

def execJournalAck (frameSeq : Nat) (tagOk : Bool) (chan seq : Nat) (paired : Option (List Nat)) (s : State) : Host.Outcome State Fault Refusal :=
  act s (rxFrame frameSeq tagOk (journalAck chan seq paired))

/-- `FLIUSK_RETRANSMIT` (R554): the record sent longest ago, once 1 ms has passed. -/
def retransmit (c0 : Chip) : Chip :=
  match c0.twin.unacked with
  | [] => c0
  | e :: l =>
    let x := l.foldl (fun m y => if y.2.2.2 < m.2.2.2 then y else m) e
    let c := waitLocal (x.2.2.2 + 1000000) c0
    twinSend x.2.2.1.onLink (modTw (fun t =>
      { t with unacked := t.unacked.map (fun y => if y.1 = x.1 ∧ y.2.1 = x.2.1 then (y.1, y.2.1, y.2.2.1, localNs c) else y) }) c)

def execFliuskRetransmit (s : State) : Host.Outcome State Fault Refusal := act s retransmit

/-! Mirroring (R562). -/

/-- Mirror record of a leg as it stands. -/
def mirrorLeg (g : Cfg) (l : Nat) (c : Chip) : MirrorRec :=
  let b := g.key (mkKey tLeg l) 0
  let k := getKey c (mkKey tLeg l) b
  .leg { leg := g.idAt tLeg l, aKbps := (getLeg c l).a / 1000, useSrtp := if b = [] then 0 else k.srtp, useSrtcp := if b = [] then 0 else k.srtcp,
         ssrcs := ((getTx c l).take 16).map (fun x => (x.ssrc, x.next, x.nextRtcp)) }

def mirrorRend (g : Cfg) (i : Nat) (c : Chip) : MirrorRec :=
  .rend (g.idAt tRend i) (((getRend c i).target (g.body tRend i)).scale 1 1000).floor.toNat

/-- What a pass sends: legs, then renditions. -/
def mirrorItems (g : Cfg) : List (Bool × Nat) := (g.indexes tLeg).map (fun l => (true, l)) ++ (g.indexes tRend).map (fun i => (false, i))

/-- `MIRROR_SEND` (R562): the next record of the pass, at its instant. -/
def mirrorSend (c0 : Chip) : Chip :=
  let n := (mirrorItems (cfg c0)).length
  if !c0.twin.session ∨ n = 0 then c0
  else
    let t := c0.twin
    let again := decide (n ≤ t.mirrorNext) || decide (t.mirrorPass + 100000000 ≤ svc c0)
    let pass := if again then max (t.mirrorPass + 100000000) (svc c0 / 100000000 * 100000000) else t.mirrorPass
    let k := if again then 0 else t.mirrorNext
    let c := waitSvc (pass + k * 100000000 / n) c0
    let c1 := modTw (fun t => { t with mirrorPass := pass, mirrorNext := k + 1 }) c
    match (mirrorItems (cfg c))[k]? with
    | some (true, l) => recNext 4 (.mirror (tget 0 c1.twin.chanSeq 4 + 1) (mirrorLeg (cfg c) l c)) c1
    | some (false, i) => recNext 4 (.mirror (tget 0 c1.twin.chanSeq 4 + 1) (mirrorRend (cfg c) i c)) c1
    | none => c1

def execMirrorSend (s : State) : Host.Outcome State Fault Refusal := act s mirrorSend

def MirrorRec.id : MirrorRec → Nat
  | .leg m => m.leg
  | .rend i _ => i

/-- `MIRROR_RECORD` (R562): stamped with this device's service time. -/
def execMirrorRecord (frameSeq : Nat) (tagOk : Bool) (seq : Nat) (m : MirrorRec) (s : State) : Host.Outcome State Fault Refusal :=
  act s (rxFrame frameSeq tagOk (rxRecord 4 seq (fun c =>
    modTw (fun t => { t with mirrors := (m.id, m, svc c) :: t.mirrors.filter (fun e => e.1 != m.id) }) c)))

/-- `TWIN_EVENT_RECORD` (R545, R554): into the operator's twin event ring. `head` is the word at HEAD_ADDR. -/
def execTwinEventRecord (frameSeq : Nat) (tagOk : Bool) (words : List Word) (head : Nat) (s : State) : Host.Outcome State Fault Refusal :=
  act s (rxFrame frameSeq tagOk (fun c =>
    if c.twin.ring.entries = 0 then c
    else
      let r := ringPush (operatorFn c) c.twin.ring 32 head 5 0x206 (operatorFn c) (words.take 8) c
      modTw (fun t => { t with ring := r.2.1 }) r.2.2))

/-! Reserves (R560, R561). -/

/-- Replace what a conference of the twin has asked for, or holds. -/
def putReserve (k : Nat) (u : List (Nat × Nat)) : Chip → Chip := modTw (fun t => { t with reserves := t.reserves.filter (fun e => e.1 != k) ++ [(k, u)] })

/-- The first limit kind that a reserve would exceed. -/
def reserveShort (c c1 : Chip) : Option Nat := capacityKinds.find? (fun k => decide (capacity c k < usage c1 k) && decide (usage c k < usage c1 k))

/-- Raise TWIN_RESERVE_SHORT. -/
def raiseShort (conf kind : Nat) (c : Chip) : Chip := raise 5 0xD07 none conf kind (modTw (fun t => { t with events := t.events ||| 8 }) c)

/-- `TWIN_RESERVE_REQUEST` (R560): checked against this device's capacity, held from the answer on. -/
def reserveRequest (conf : Nat) (use : List (Nat × Nat)) (c : Chip) : Chip :=
  let k := 2 * idKey conf
  let c1 := putReserve (k + 1) use c
  let bare := modTw (fun t => { t with reserves := t.reserves.filter (fun e => e.1 / 2 != idKey conf) }) c
  match reserveShort c c1 with
  | some kind => recNext 7 (.reserveAnswer false kind (reserveIn use 12) (available bare 12)) (raiseShort conf kind c)
  | none => recNext 7 (.reserveAnswer true 0 (reserveIn use 12) (available bare 12)) c1

def execTwinReserveRequest (frameSeq : Nat) (tagOk : Bool) (seq conf : Nat) (usage : List (Nat × Nat)) (s : State) :
    Host.Outcome State Fault Refusal :=
  act s (rxFrame frameSeq tagOk (rxRecord 7 seq (reserveRequest conf usage)))

/-- A commit that waits for a reserve answer. -/
def Commit.awaits (a : Commit) : Bool := a.stage == .reserve && !a.asking.isEmpty

/-- The commit whose reserve request is the oldest without an answer. -/
def awaiting (c : Chip) : Option Commit :=
  ((c.gx.active.toList ++ c.gx.checks).filter Commit.awaits).foldl (fun acc a =>
    match acc with
    | some b => if a.asked < b.asked then some a else some b
    | none => some a) none

/-- `TWIN_RESERVE_ANSWER` (R560): confirmed, the commit asks for the next conference or passes; short, it fails with LIMIT_KIND 16. -/
def reserveAnswer (ok : Bool) (needed avail : Nat) (c : Chip) : Chip :=
  match awaiting c with
  | none => c
  | some a =>
    if ok then
      goReserve { a with asking := a.asking.drop 1, more := a.more ++ a.asking.take 1 }
        (modTw (fun t => { t with exposed := t.exposed.filter (fun k => !(a.asking.take 1).contains k) }) c)
    else failCommit a 2 { res := Res.err 0x000A, kind := 16, needed := needed, avail := avail, next := a.next } c

def execTwinReserveAnswer (frameSeq : Nat) (tagOk : Bool) (seq : Nat) (ok : Bool) (needed avail : Nat) (s : State) :
    Host.Outcome State Fault Refusal :=
  act s (rxFrame frameSeq tagOk (rxRecord 7 seq (reserveAnswer ok needed avail)))

/-- `TWIN_RESERVE_TIMEOUT` (R560, R561): no answer within 20 ms, the conference is exposed and the commit goes on. -/
def reserveTimeout (c0 : Chip) : Chip :=
  match awaiting c0 with
  | none => c0
  | some a => goReserve { a with asking := a.asking.drop 1 } (exposeConfs a (a.asking.take 1) (waitLocal a.deadline c0))

def execTwinReserveTimeout (s : State) : Host.Outcome State Fault Refusal := act s reserveTimeout

/-- `TWIN_RESERVE_RELEASE` (R560): what a commit asked for, or else what is held. -/
def reserveRelease (conf : Nat) (c : Chip) : Chip :=
  let k := 2 * idKey conf
  let gone := if c.twin.reserves.any (fun e => e.1 == k + 1) then k + 1 else k
  modTw (fun t => { t with reserves := t.reserves.filter (fun e => e.1 != gone) }) c

def execTwinReserveRelease (frameSeq : Nat) (tagOk : Bool) (seq conf : Nat) (s : State) : Host.Outcome State Fault Refusal :=
  act s (rxFrame frameSeq tagOk (rxRecord 7 seq (reserveRelease conf)))

/-! Hand-over (R571, R572). -/

/-- The queues of some legs are emptied. -/
def dropLegQueues (legs : List Nat) (c : Chip) : Chip :=
  legs.foldl (fun c l => dropPkts (getLeg c l).queued (modLeg l (fun r => { r with q0 := [], q1 := [], q2 := [], q3 := [], tag := none }) c)) c

/-- A service address of the conferences is also used by something else. -/
def sharedAddr (g : Cfg) (confs : List Nat) : Bool :=
  let p := g.partOf confs
  let rest := (g.objs.filter (fun e => !thas p.objs e.1)).flatMap (fun e => addrUsed e.1 e.2.body)
  p.addrs.any (fun e => rest.contains e.1)

/-- T_h (R571): replication and egress stop, queues are dropped, a final mirror record of each leg is sent, and the twin is asked to take. -/
def handoverBegin (confs : List Nat) (relay eject : Bool) (cmd : Nat) (c : Chip) : Chip :=
  let g := cfg c
  let p := g.partOf confs
  let legs := confLegs g confs
  let h : Handover := { confs := confs, relay := relay, th := svc c, thLocal := localNs c, cmd := cmd, relaying := false, cards := p.addrs,
                        lastRelay := localNs c, moved := 0 }
  let c1 := modNet (fun n => { n with addrInactive := (p.addrs.map Prod.fst).foldl linsert n.addrInactive }) (modTw (fun t => { t with handover := some h }) c)
  let c2 := legs.foldl (fun c l => recNext 4 (.mirror (tget 0 c.twin.chanSeq 4 + 1) (mirrorLeg g l c)) c) (dropLegQueues legs c1)
  recNext 7 (.handover (confs.map g.keyId) eject) c2

/-- Step 4 of the eject sequence (R573, R592): heartbeats stop, the power-down runs, and EJECT_BUDGET begins. -/
def ejectDown (c : Chip) : Chip :=
  if c.twin.ejectEnd ≠ 0 then c
  else
    powerDown [] (modTw (fun t => { t with hbStopped := true, ejectEnd := localNs c + t.ejectBudget * 1000000 }) c)

/-- Step 2 of the eject sequence: every conference is handed over with relay; with none the power-down follows at once. -/
def ejectHandover (c : Chip) : Chip :=
  let confs := (((cfg c).indexes tConf).map (mkKey tConf)).filter (fun k => !c.twin.gone.contains k)
  if confs.isEmpty ∨ !standbyUp c then ejectDown c else handoverBegin confs true true 0 c

/-- The hand-over is complete. -/
def handoverDone (h : Handover) (c : Chip) : Chip :=
  let c1 := modTw (fun t => { t with handover := none }) c
  let c2 := if h.cmd ≠ 0 then finish (h.cmd - 1) (handoverResult h) c1 else c1
  if c2.twin.st ≠ 5 then c2 else if h.cmd = 0 then ejectDown c2 else ejectHandover c2

/-- `HANDOVER_TACT_RETURN` (R571, R572): what the twin has taken becomes standby here, in one epoch; what it could not take is served here
again. Relay begins. -/
def tActReturn (ids : List (Nat × Nat)) (c : Chip) : Chip :=
  match c.twin.handover with
  | none => c
  | some h =>
    if h.relaying then c
    else
      let g := cfg c
      let gone := h.confs.filter (fun k => ids.any (fun e => e.1 == g.keyId k))
      let back := h.cards.filter (fun e => !((g.partOf gone).addrs.any (fun a => a.1 == e.1)))
      let h1 := { h with confs := gone, relaying := true, lastRelay := localNs c, moved := gone.length,
                         cards := h.cards.filter (fun e => !back.any (fun a => a.1 == e.1)) }
      let c1 := modNet (fun n => { n with addrInactive := n.addrInactive.filter (fun i => !back.any (fun a => a.1 == i)) })
        (modTw (fun t => { t with handover := some h1, gone := gone.foldl linsert t.gone }) c)
      let c2 := if gone.isEmpty then c1 else queueOwn { ownCommit c1 .handover with more := gone, ids := ids } c1
      if h.relay then c2 else handoverDone h1 c2

def execHandoverTactReturn (frameSeq : Nat) (tagOk : Bool) (seq sec ns : Nat) (ids : List (Nat × Nat)) (s : State) :
    Host.Outcome State Fault Refusal :=
  act s (rxFrame frameSeq tagOk (rxRecord 7 seq (fun c => tActReturn ids (waitSvc (sec * 1000000000 + ns) c))))

/-- `RELAY_FRAME` (R572): parsed as arriving on the logical port of its service address, stamped here. -/
def relayIn (f : Frame) (c : Chip) : Chip :=
  let at_ := (cfg c).addrs.find? (fun e => (steerIn [e] (addrLport e.2) f).isSome && addrActive c (cfg c) e.1)
  match at_ with
  | some e => fifoPut (addrPipe e.2) (stamped c (addrLport e.2) e.1 f) c
  | none => c

def execRelayFrame (frameSeq : Nat) (tagOk : Bool) (frame : Frame) (s : State) : Host.Outcome State Fault Refusal :=
  act s (rxFrame frameSeq tagOk (relayIn frame))

/-- `RELAY_END` (R572): RELAY_LIMIT since T_h, or IDLE_MS without a relayed frame. -/
def relayEnd (c : Chip) : Chip :=
  match c.twin.handover with
  | none => c
  | some h =>
    if h.relay ∧ h.relaying then
      handoverDone h (waitLocal (min (h.thLocal + c.twin.relayLimit * 1000000) (h.lastRelay + c.twin.relayIdle * 1000000)) c)
    else c

def execRelayEnd (s : State) : Host.Outcome State Fault Refusal := act s relayEnd

/-! Eject (R573). -/

/-- Held commits of hosts end with GX_E_TWIN_STATE (R573). -/
def endHeld (c : Chip) : Chip :=
  let hosts := fun (a : Commit) => a.kind == .host || a.kind == .bulk || a.kind == .purge
  (c.gx.held.filter hosts).foldl (fun c a =>
    if a.kind = .purge then raise fwIsland 0x101 (some a.fn) 0 0x0D01 (modFn a.fn (fun f => { f with purgePending := false }) c)
    else ticketOutcome a 2 0x0D01 0 (unreserve a c)) (modGx (fun g => { g with held := g.held.filter (fun a => !hosts a) }) c)

/-- `EJECT_REQUEST` (R573): EJECT_REQ_N has been low for 1 ms. -/
def ejectRequest (c : Chip) : Chip :=
  if c.pwr.phase ≠ .service then c
  else
    let paired := c.twin.st == 3
    let c1 := raise 5 0xD08 none 0 (b2n paired) (setTwinState 5 (modPwr (fun p => { p with phase := .ejecting }) c))
    let c2 := endHeld c1
    match c2.twin.handover with
    | some _ => c2
    | none => if paired then ejectHandover c2 else ejectDown c2

def execEjectRequest (s : State) : Host.Outcome State Fault Refusal := act s ejectRequest

/-- `EJECT_BUDGET_EXPIRY` (R573, R592): EJECT_BUDGET has passed since relay ended; the power-down waits for running work no longer. -/
def ejectBudget (c : Chip) : Chip :=
  if c.twin.ejectEnd ≤ 1 then c
  else modTw (fun t => { t with ejectEnd := 1, hbStopped := true }) (waitLocal c.twin.ejectEnd c)

def execEjectBudgetExpiry (s : State) : Host.Outcome State Fault Refusal := act s ejectBudget

/-! Commands. -/

/-- Byte `f` of FUNC_MAP. -/
def funcEntry (b : List Word) (f : Nat) : Nat := bf b (0x20 + f / 4 * 4) (8 * (f % 4)) 8

/-- `GX_TWIN_SET` (R567). -/
def twinSet (x : Ctx) (c : Chip) : Chip :=
  let r := hostRingOf x.body
  if ringZero r then x.done (Res.err 0x0206) c
  else match (List.range 256).find? (fun f => !fnExists c (funcEntry x.body f)) with
    | some f => x.done (Res.field (0x20 + f)) c
    | none => x.done (Res.ok []) (modTw (fun t => { t with ring := r, funcMap := (List.range 256).map (fun f => (f, funcEntry x.body f)) }) c)

def execGxTwinSet (cmd : CmdRef) (s : State) : Host.Outcome State Fault Refusal := act s (serve 0x0D00 cmd (ringFields 16) twinSet)

/-- `GX_TWIN_SECRET_SET` (R553): nothing reads the secret back. -/
def secretSet (x : Ctx) (c : Chip) : Chip :=
  if 1 < c.twin.st then x.done (Res.err 0x0D01) c else x.done (Res.ok []) (modNet (fun n => { n with pairing := some (octetsAt x.body 0 8) }) c)

def execGxTwinSecretSet (cmd : CmdRef) (s : State) : Host.Outcome State Fault Refusal := act s (serve 0x0D01 cmd noFields secretSet)

/-- Records that can be applied wait in the twin half. -/
def replayWaits (c : Chip) : Bool := c.twin.twinJournal.any (fun e => e.2.applies)

/-- A local epoch that applies records is on its way. -/
def replayUnderWay (c : Chip) : Bool :=
  c.gx.held.any (fun a => a.kind == .standby) || (match c.gx.active with | some a => a.kind == .standby | none => false) || c.gx.published != 0

/-- Catch-up ends (R561, R569): protected conferences of the twin are reserved in ascending index, and the device is PAIRED. The twin learns
which could not be. -/
def catchupDone (c : Chip) : Chip :=
  let s := (cfg c).standby
  let one := fun (x : List Nat × Chip) (k : Nat) =>
    let c1 := putReserve (2 * k) (s.confUsage k) x.2
    match reserveShort x.2 c1 with
    | some kind => (x.1 ++ [s.keyId k], raiseShort (s.keyId k) kind x.2)
    | none => (x.1, c1)
  let r := s.protectedConfs.foldl one ([], c)
  twinSend (.ack 2 (c.twin.jRx - 1) (some r.1)) (setTwinState 3 r.2)

/-- One step of `GX_JOURNAL_REPLAY`: the next local epoch, or the end (R569). -/
def replayStep (k : Nat) (c : Chip) : Chip :=
  if c.twin.st ≠ 2 then finish k (Res.err 0x0D01) c
  else if replayUnderWay c then progress k 2048 [] c
  else if replayWaits c then progress k 2048 [] (queueStandby c)
  else
    let c1 := catchupDone c
    finish k (Res.ok (wd2 c.twin.applied ++ [wd c.twin.created])) c1

/-- `GX_JOURNAL_REPLAY` (R569). -/
def journalReplay (x : Ctx) (c : Chip) : Chip :=
  if c.twin.st ≠ 2 then x.done (Res.err 0x0D01) c
  else progress x.k 0 [] (let c1 := modTw (fun t => { t with created := 0, applied := 0 }) c; if replayWaits c1 then queueStandby c1 else c1)

def execGxJournalReplay (cmd : CmdRef) (s : State) : Host.Outcome State Fault Refusal := act s (serve 0x0D02 cmd noFields journalReplay)

/-- Conferences that GX_TWIN_HANDOVER names: all, or those of its list. -/
def handoverConfs (b : List Word) (g : Cfg) : List Nat :=
  if bit (bw b 0) 17 then (g.indexes tConf).map (mkKey tConf) else (List.range (bf b 0 0 16)).map (fun i => idKey (bw b (8 + 4 * i)))

/-- Begin the hand-over of a command at T_h, or wait for another to complete. -/
def handoverGo (k : Nat) (confs : List Nat) (relay : Bool) (c : Chip) : Chip :=
  if c.twin.handover.isSome then progress k 0 (b2n relay :: confs) c
  else if c.twin.st ≠ 3 then finish k (Res.err 0x0D01) c
  else if sharedAddr (cfg c) confs then finish k (Res.err 0x0D02) c
  else if confs.isEmpty then
    finish k (Res.ok (wd2 (svcSec c) ++ [wd (svcNano c), 0])) c
  else progress k 1024 [] (handoverBegin confs relay false (k + 1) c)

/-- `GX_TWIN_HANDOVER` (R571). -/
def twinHandover (x : Ctx) (c : Chip) : Chip :=
  let g := cfg c
  let n := if bit (bw x.body 0) 17 then 0 else bf x.body 0 0 16
  let missing := ((List.range n).map (fun i => bw x.body (8 + 4 * i))).find? (fun id => idType id != tConf || (g.obj id).isNone)
  if c.twin.st ≠ 3 then x.done (Res.err 0x0D01) c
  else match missing with
    | some id => x.done ((Res.err 0x0008).withObj id 0) c
    | none => handoverGo x.k (handoverConfs x.body g) (bit (bw x.body 0) 16) c

def execGxTwinHandover (cmd : CmdRef) (s : State) : Host.Outcome State Fault Refusal :=
  act s (serve 0x0D03 cmd (fun b => firstBad [(decide (4096 < bf b 0 0 16), 0)]) twinHandover)

/-- A step of `GX_TWIN_HANDOVER` that waits: saved work is the RELAY bit, then the conferences. -/
def handoverStep (k : Nat) (c : Chip) : Chip :=
  match (getSlot c k).work with
  | r :: confs => handoverGo k (confs.filter (fun x => thas (cfg c).objs x)) (r == 1) c
  | [] => c

/-- `GX_TWIN_MAP` (R556). -/
def twinMap (x : Ctx) (c : Chip) : Chip :=
  let id := bw x.body 0
  let live := c.twin.map.filter (fun e => decide (idType e.1 ≤ 8) && thas (cfg c).sobjs (idKey e.1))
  match (if bit (bw x.body 4) 0 then (live.find? (fun e => e.2 == id)).map Prod.fst else (live.find? (fun e => e.1 == id)).map Prod.snd) with
  | some n => x.done (Res.ok [wd n]) c
  | none => x.done ((Res.err 0x0008).withObj id 0) c

def execGxTwinMap (cmd : CmdRef) (s : State) : Host.Outcome State Fault Refusal := act s (serve 0x0D04 cmd noFields twinMap)

end Sys2Proof.Machine
end

