-- ==== Sys2Proof/Machine/Registers.lean ====
section
/-!
DEFINITION. The registers of BAR0 and BAR2 (R9 to R15, R57, R59, R77, R196, R267, R456, R488, R489, R524, R548, R575, R599, R605): what
each reads, and what a write does to those that have no row of their own.
-/
namespace Sys2Proof.Machine
open Sys2Proof

/-! Addresses. -/

/-- Block of a BAR2 offset (R76). -/
def b2Block (addr : Nat) : Nat := addr / 0x100000

def shBase : Nat := 0x200000
def memBase : Nat := 0x400000
def memGlobal : Nat := 0x420000
def dmaBase : Nat := 0x500000
def poolRegs : Nat := 0x600000

/-! Reads. -/

/-- FUNC_ID (R57). -/
def funcId (c : Chip) (fn : Nat) : Nat :=
  fn % 256 + 2 ^ 8 * b2n (isVf fn) + 2 ^ 9 * b2n (isOperator c fn) + 2 ^ 10 * linkOf c.host.split fn + 2 ^ 12 * (fn / 64)

/-- FN_STATUS (R57). -/
def fnStatus (c : Chip) (fn : Nat) : Nat :=
  let f := getFn c fn
  b2n f.ready + 2 * b2n (isOperator c fn) + 4 * b2n c.host.fwRestarting + 8 * b2n f.purgePending

def SlotSt.code : SlotSt → Nat
  | .empty => 0 | .busy => 1 | .progress => 2 | .done => 3

/-- Word `i` of a slot-state entry (R59). -/
def slotState (s : Slot) (i : Nat) : Nat :=
  if s.st = .empty then 0
  else match i with
    | 0 => s.st.code + 2 ^ 4 * (if s.st = .progress then s.fraction % 4096 else 0) + 2 ^ 16 * s.tag
    | 1 => if s.st = .done then s.status + 2 ^ 16 * s.resultBytes else 0
    | 2 => s.submitNs
    | 3 => s.doneNs
    | _ => 0

/-- Word `i` of a slot (R59, R62, R64). -/
def slotRead (s : Slot) (i : Nat) : Nat :=
  match s.st with
  | .empty => (tget 0 s.words i).toNat
  | .done => if i < 4 then slotState s i else (tget 0 s.words i).toNat
  | _ => if i = 0 then 1 + 2 ^ 16 * s.tag else 0

/-- Offsets of the MSI-X table and of the pending bits in BAR0 (R56). -/
def msixBase (fn : Nat) : Nat := if isVf fn then 0x0800 else 0x10000
def pbaBase (fn : Nat) : Nat := if isVf fn then 0x0C00 else 0x11000

/-- A word of the MSI-X table: word 3 of an entry holds its Mask bit. -/
def msixRead (f : Fn) (off : Nat) : Nat :=
  if off % 16 = 12 then b2n (!f.msixOpen.contains (off / 16)) else (tget 0 f.msixTable off).toNat

def pbaRead (f : Fn) (off : Nat) : Nat := ((List.range 32).map (fun i => 2 ^ i * b2n (f.msixPend.contains (8 * off + i)))).sum

/-- A 64-bit register of BAR0 by the offset of its low word. -/
def fn64 (f : Fn) (addr : Nat) : Option Nat :=
  match addr with
  | 0x108 => some f.evqBase.toNat
  | 0x110 => some f.evqTailAddr.toNat
  | _ => none

/-- A 32-bit register of BAR0 (R57). -/
def fn32 (c : Chip) (fn addr : Nat) : Nat :=
  let f := getFn c fn
  if msixBase fn ≤ addr ∧ addr < msixBase fn + 16 * msixSize fn then msixRead f (addr - msixBase fn)
  else if pbaBase fn ≤ addr ∧ addr < pbaBase fn + msixSize fn / 8 then pbaRead f (addr - pbaBase fn)
  else if 0x1000 ≤ addr ∧ addr < 0x2000 then slotState (getSlot c (slotKey fn ((addr - 0x1000) / 64))) (addr % 64 / 4)
  else if 0x8000 ≤ addr ∧ addr < 0x10000 then slotRead (getSlot c (slotKey fn ((addr - 0x8000) / 512))) (addr % 512 / 4)
  else match addr with
    | 0x000 => 0x4108
    | 0x004 => Config.stepping.toNat
    | 0x008 => if f.ready then Config.fwVersion.toNat else 0
    | 0x00C => funcId c fn
    | 0x010 => 0x00014940
    | 0x014 => Config.serialLo.toNat
    | 0x018 => Config.serialHi.toNat
    | 0x100 => b2n f.enable + 2 * b2n f.evqEnable + 4 * b2n f.purgeOnReset + 8 * b2n f.errIrqEn
    | 0x104 => fnStatus c fn
    | 0x118 => f.evqLog2
    | 0x11C => f.evqHead
    | 0x120 => f.evqTail
    | 0x124 => f.coalCount + 2 ^ 8 * f.coalUs
    | 0x12C => f.vecMap.toNat
    | 0x130 => f.errStatus.toNat
    | _ => 0

/-- TIME_STATUS (R548). -/
def timeStatus (t : TimeBase) : Nat :=
  b2n (t.slewPpb != 0) + 2 * b2n (t.off == 0) + 4 * b2n t.stepAbsorbed + 8 * b2n t.configError + 16 * b2n t.seenA + 32 * b2n t.seenB

/-- 64-bit registers of the time block, but for those whose read captures a set. -/
def time64 (c : Chip) (off : Nat) : Option Nat :=
  let t := c.time
  let x := t.dom (off / 0x100 - 1)
  if off = 0x20 then some (unsigned 64 (t.offNs.tdiv 1000000000))
  else if off = 0x38 then some (horizon c / 1000000000)
  else if 0x100 ≤ off ∧ off < 0x300 then
    (match off % 0x100 with | 0x10 => some x.inc | 0x18 => some (unsigned 64 x.stepSec) | _ => none)
  else none

/-- Words of the time block; the captured sets return what was captured. -/
def time32 (c : Chip) (off : Nat) : Nat :=
  let t := c.time
  let x := t.dom (off / 0x100 - 1)
  if off < 0x100 then
    match off with
    | 0x00 => 0x41080C10
    | 0x04 => b2n t.selB
    | 0x08 => timeStatus t
    | 0x14 => t.capSec / 2 ^ 32
    | 0x18 => t.capNs
    | 0x1C => t.capFrac
    | 0x28 => unsigned 32 (t.offNs.tmod 1000000000)
    | 0x2C => unsigned 32 t.slewPpb
    | 0x30 => unsigned 32 t.utcOffset
    | 0x40 => horizon c % 1000000000
    | _ => 0
  else if off < 0x300 then
    match off % 0x100 with
    | 0x04 => x.capSec / 2 ^ 32
    | 0x08 => x.capNs
    | 0x0C => x.capFrac
    | 0x20 => unsigned 32 x.stepNs
    | 0x28 => x.ppsCtrl.toNat
    | 0x2C => x.widthUs
    | 0x34 => x.capEdgeSec / 2 ^ 32
    | 0x38 => x.capEdgeNs
    | 0x3C => x.capEdgeSvc
    | _ => 0
  else 0

/-- GATE_STATUS (R267). -/
def gateStatus (p : EgPort) : Nat :=
  b2n p.pend + 2 * b2n p.lateBase + 4 * b2n p.operValid + 8 * b2n p.configError + 16 * b2n p.adminBusy

/-- Registers of a logical port's shaper and gates (R267). -/
def egress64 (p : EgPort) (off : Nat) : Option Nat :=
  match off with
  | 0x10 => some p.admSec
  | 0x30 => some (p.oper.base / 1000000000)
  | 0x48 => some (p.changeNs / 1000000000)
  | _ => none

def gateEntry (l : List (BitVec 4 × Nat)) (off : Nat) : Nat :=
  match l[off / 8]? with
  | some e => if off % 8 = 0 then e.1.toNat else e.2
  | none => 0

def egress32 (p : EgPort) (off : Nat) : Nat :=
  if 0x1000 ≤ off ∧ off < 0x1800 then (tget 0 p.adm ((off - 0x1000) / 4)).toNat
  else if 0x2000 ≤ off ∧ off < 0x2800 then gateEntry p.oper.entries (off - 0x2000)
  else match off with
    | 0x00 => p.ctrl.toNat
    | 0x04 => p.rateMbps
    | 0x08 => p.lateLimit
    | 0x18 => p.admNs
    | 0x1C => p.admCycle
    | 0x20 => p.admLen
    | 0x28 => gateStatus p
    | 0x38 => p.oper.base % 1000000000
    | 0x3C => p.oper.cycle
    | 0x40 => p.oper.entries.length
    | 0x50 => p.changeNs % 1000000000
    | _ => 0

/-- PWR_PENDING (R599). -/
def pwrPending (p : Power) : Nat :=
  domainMask ((List.range 24).filter (fun d => p.req.on.contains d || p.req.off.contains d || (match p.switch with | some w => w.dom == d | none => false)))

/-- Power block (R599) but for PWR_EST. -/
def power32 (c : Chip) (off : Nat) : Nat :=
  let p := c.pwr
  if 0x200 ≤ off ∧ off < 0x280 then
    let cl := (off - 0x200) / 4
    tget 0 p.clkNow cl + 2 ^ 16 * tget 0 p.clkTarget cl
  else match off with
    | 0x00 => 0x41080E01
    | 0x04 => p.on.toNat
    | 0x08 => pwrPending p
    | 0x0C => p.leadUs + 2 ^ 8 * p.gapUs
    | 0x10 => p.mvNow + 2 ^ 16 * p.mvTarget
    | 0x14 => p.events.toNat
    | 0x18 => p.cause + 16 * b2n p.slotB + 32 * b2n p.fromHost + 128 * b2n p.fallback
    | 0x1C => p.startTimeMs
    | _ => 0

/-- Registers of a subchannel and of memory as a whole (R524). -/
def sub64 (x : Sub) (off : Nat) : Option Nat :=
  match off with | 0x10 => some x.ce | 0x18 => some x.ue | 0x20 => some x.poisonReads | _ => none

def sub32 (x : Sub) (off : Nat) : Nat :=
  match off with
  | 0x00 => x.st + 4 * b2n x.selfRefresh + 8 * b2n x.double
  | 0x04 => b2n x.refsb + 2 * b2n x.srEn + 4 * b2n x.rowmatch + 16 * x.srIdleUs
  | 0x08 => x.intervalMs + 2 ^ 16 * x.driftPs
  | 0x28 => x.postponedMax
  | 0x2C => min x.forcedRef 0xFFFFFFFF
  | 0x30 => x.consecFails % 4 + 2 ^ 8 * (x.lastDrift % 256) + 2 ^ 16 * min x.retrains 0xFFFF
  | 0x34 => x.events.toNat
  | _ => 0

def mem64 (d : Dram) (off : Nat) : Option Nat := match off with | 0x10 => some d.scrubPos | 0x20 => some d.injAddr | _ => none

def mem32 (c : Chip) (off : Nat) : Nat :=
  let d := c.dram
  match off with
  | 0x00 => 0x41080B01
  | 0x04 => memConfigWord c
  | 0x08 => b2n d.scrubEn + 16 * d.passHours
  | 0x0C => min d.scrubPasses 0xFFFFFFFF
  | 0x18 => d.rowThresh
  | 0x1C => d.ceStorm
  | 0x28 => d.injMode + 8 * b2n d.injArm
  | _ => 0

/-- Registers of a DMA channel (R489). -/
def dma64 (x : Chan) (off : Nat) : Option Nat :=
  match off with | 0x08 => some x.actSrc | 0x10 => some x.actDst | 0x48 => some x.cqBase | _ => none

def dma32 (x : Chan) (off : Nat) : Nat :=
  if 0x20 ≤ off ∧ off < 0x40 then (tget 0 x.sh ((off - 0x20) / 4)).toNat
  else match off with
    | 0x00 => b2n x.pause + 2 * b2n x.abort + 4 * x.cqSpace + 16 * x.cqLog2
    | 0x04 => b2n x.active + 2 * b2n x.paused + 4 * b2n x.cqFull
    | 0x18 => x.actLen
    | 0x1C => x.actWord0.toNat
    | 0x40 => b2n x.arm + 4 * b2n x.taken + 8 * b2n x.busy
    | 0x50 => x.cqHead
    | 0x54 => x.cqTail
    | _ => 0

/-- Registers of a pool (R488). -/
def pool32 (c : Chip) (p off : Nat) : Nat :=
  let x := getPool c p
  match off with
  | 0x00 => x.count
  | 0x04 => x.free
  | 0x08 => unsigned 32 (sharedFree c p)
  | 0x0C => x.st
  | 0x10 => x.wmCaution
  | 0x14 => x.wmWarning
  | 0x18 => x.wmCritical
  | 0x1C => x.hyst
  | 0x20 => x.events.toNat
  | 0x24 => x.lost
  | _ => 0

/-- U, r and m of an identity and pool. -/
def use32 (c : Chip) (k off : Nat) : Nat :=
  let u := getUse c (k / 8) (k % 8)
  match off with
  | 0 => u.u
  | 4 => u.r
  | 8 => u.m (getPool c (k % 8)).count
  | _ => 0

def pools32 (c : Chip) (off : Nat) : Nat :=
  if off < 0x800 then pool32 c (off / 0x100) (off % 0x100)
  else if 0x8000 ≤ off ∧ off < 0x8000 + 16 * 8 * 4096 then use32 c ((off - 0x8000) / 16) (off % 16)
  else 0

/-- Ready tasks of a target kind at a level (READY_DEPTH). -/
def readyDepth (c : Chip) (k level : Nat) : Nat :=
  (c.sched.tasks.filter (fun e => e.2.st == .ready && e.2.desc.target == k && e.2.level == level)).length

/-- Scheduler block (R456). -/
def sched32 (c : Chip) (off : Nat) : Nat :=
  let s := c.sched
  if 0x100 ≤ off ∧ off < 0x240 then readyDepth c ((off - 0x100) / 64) ((off - 0x100) / 4 % 16)
  else if 0x300 ≤ off ∧ off < 0x314 then oldestRunUs c ((off - 0x300) / 4)
  else match off with
    | 0x00 => 0x41080D01
    | 0x04 => s.mode
    | 0x08 => s.tickNext
    | 0x0C => s.agePeriod + 2 ^ 16 * s.ageCeiling + 2 ^ 20 * b2n s.ageEn
    | 0x10 => s.waitTimeout
    | 0x14 => schedSlots - slotsUsed c
    | 0x18 => liveTag c false
    | 0x1C => liveTag c true
    | 0x20 => s.events.toNat
    | _ => 0

/-- MIRROR_AGE_US: age of the oldest leg record held (R575). -/
def mirrorAgeUs (c : Chip) : Nat :=
  let ages := c.twin.mirrors.filterMap (fun e => match e.2.1 with | .leg _ => some ((svc c - e.2.2) / 1000) | .rend _ _ => none)
  if ages = [] then 0xFFFFFFFF else min (ages.foldl max 0) 0xFFFFFFFF

/-- TWIN_STATUS (R575). -/
def twinStatus (c : Chip) : Nat :=
  let t := c.twin
  t.st + 8 * b2n t.session + 16 * b2n (decide (t.missPin < 3)) + 32 * b2n (decide (t.peerSerial ≠ 0) && !t.side0) +
    64 * b2n (inService c && !standbyUp c)

def twin64 (t : Twin) (off : Nat) : Option Nat :=
  match off with | 0x10 => some t.peerSerial | 0x20 => some t.jTx | 0x28 => some t.jAck | 0x30 => some t.jApplied | _ => none

def twin32 (c : Chip) (off : Nat) : Nat :=
  let t := c.twin
  match off with
  | 0x00 => 0x41080D10
  | 0x04 => t.ctrl.toNat
  | 0x08 => twinStatus c
  | 0x0C => t.events.toNat
  | 0x18 => min t.hbMissed 0xFFFFFFFF
  | 0x1C => mirrorAgeUs c
  | 0x38 => t.takeovers
  | 0x3C => min t.relayDrops 0xFFFFFFFF
  | 0x40 => t.ejectBudget
  | 0x44 => t.relayLimit + 2 ^ 16 * t.relayIdle
  | _ => 0

/-- Keeper mailbox (R605). -/
def kmb32 (c : Chip) (off : Nat) : Nat :=
  let m := c.mgmt
  let p := m.mailbox
  if 0x100 ≤ off ∧ off < 0x200 then (tget 0 m.kmbReq ((off - 0x100) / 4)).toNat
  else if 0x200 ≤ off ∧ off < 0x300 then ((wordsOf p.resp).getD ((off - 0x200) / 4) 0).toNat
  else if 0x10000 ≤ off ∧ off < 0x20000 then (tget 0 m.kmbStage ((off - 0x10000) / 4)).toNat
  else match off with
    | 0x00 => 0x41080F01
    | 0x04 => m.kmbCode + 2 ^ 8 * m.kmbLen + 2 ^ 31 * b2n p.busy
    | 0x08 => b2n p.busy + 2 ^ 8 * p.status + 2 ^ 16 * p.resp.length
    | 0x0C => b2n m.waitImage + 2 ^ 8 * (m.received / 1024)
    | _ => 0

/-- Crypto status (R196). -/
def cry64 (n : Net4) (off : Nat) : Option Nat := match off with | 0x08 => some (min n.dkcHits ctrMax) | 0x10 => some (min n.dkcMisses ctrMax) | _ => none

def cry32 (n : Net4) (off : Nat) : Nat :=
  match off with
  | 0x00 => 0x41080C01
  | 0x04 => n.cryUnits.toNat
  | 0x18 => n.dkc.length
  | 0x1C => n.missqPeak
  | 0x20 => b2n n.keyTblReady + 2 * b2n n.rootFused + 4 * b2n n.pairing.isSome
  | _ => 0

/-- Window control (R77); B2_DOMAIN_MISS has a row of its own. -/
def window32 (c : Chip) (off : Nat) : Nat := match off with | 0 => 0x41080B02 | 4 => c.host.b2Lock.toNat | _ => 0

/-- A 64-bit register by the address of its low word. -/
def reg64 (c : Chip) (fn bar addr : Nat) : Option Nat :=
  if bar = 0 then fn64 (getFn c fn) addr
  else
    let off := addr % 0x100000
    match b2Block addr with
    | 1 => time64 c off
    | 2 => if off / 0x10000 < 8 then egress64 (getEgPort c (off / 0x10000)) (off % 0x10000) else none
    | 4 => if off < 24 * 0x1000 then sub64 (getSub c (off / 0x1000)) (off % 0x1000)
           else if 0x20000 ≤ off ∧ off < 0x21000 then mem64 c.dram (off - 0x20000) else none
    | 5 => if off < 64 * 0x100 then dma64 (getChan c (off / 0x100)) (off % 0x100) else none
    | 8 => twin64 c.twin off
    | 10 => cry64 c.net off
    | _ => none

/-- A word that is no part of a 64-bit register (R11: 0 where there is no register). -/
def reg32 (c : Chip) (fn bar addr : Nat) : Nat :=
  if bar = 0 then fn32 c fn addr
  else
    let off := addr % 0x100000
    match b2Block addr with
    | 0 => window32 c off
    | 1 => time32 c off
    | 2 => if off / 0x10000 < 8 then egress32 (getEgPort c (off / 0x10000)) (off % 0x10000) else 0
    | 3 => power32 c off
    | 4 => if off < 24 * 0x1000 then sub32 (getSub c (off / 0x1000)) (off % 0x1000)
           else if 0x20000 ≤ off ∧ off < 0x21000 then mem32 c (off - 0x20000) else 0
    | 5 => if off < 64 * 0x100 then dma32 (getChan c (off / 0x100)) (off % 0x100) else 0
    | 6 => pools32 c off
    | 7 => sched32 c off
    | 8 => twin32 c off
    | 9 => kmb32 c off
    | 10 => cry32 c.net off
    | _ => 0

/-- What a read of a word returns. The high word of a 64-bit register is the one captured with its low word (R9). -/
def regRead (c : Chip) (fn bar addr : Nat) : Nat :=
  match reg64 c fn bar addr with
  | some v => v % 2 ^ 32
  | none =>
    match (if 4 ≤ addr then reg64 c fn bar (addr - 4) else none) with
    | some v => ((tfind (getFn c fn).rdHigh addr).map BitVec.toNat).getD (v / 2 ^ 32 % 2 ^ 32)
    | none => reg32 c fn bar addr

/-- Registers whose read has a row of its own: the counters that a read clears, and the sets that a read captures (R13, R548). -/
def ownRead (bar addr : Nat) : Bool :=
  if bar = 0 then addr == 0x128 || addr == 0x134
  else addr == 0xC || [0x100010, 0x100100, 0x100130, 0x100200, 0x100230].contains addr

/-- PWR_EST of a domain (R599): the estimate is open (log 30). -/
def isEstimate (bar addr : Nat) : Bool := bar != 0 && decide (0x300100 ≤ addr ∧ addr < 0x300160)

/-- An access that reaches the registers of a BAR: aligned, and its block powered. -/
def regReach (c : Chip) (fn bar : Nat) : Bool := if bar = 0 then barReach c fn else bar == 2 && bar2Reach c fn

/-- A read of a register: it returns its value, and the low word of a 64-bit register captures the pair (R9). BAR2 of a physical
function without the operator role reads 0 (R11, R56). An unaligned read of a block that is off counts in ERR_COUNT alone (log 164). -/
def registerRead (fn bar addr : Nat) (c : Chip) : Chip :=
  if !regReach c fn bar then (if bar = 2 ∧ bar2Blank c fn then emit (.readData fn [0]) c else c)
  else if ownRead bar addr then c
  else if addr % 4 ≠ 0 then errCount fn (emit (.readData fn [0xFFFFFFFF]) c)
  else if bar ≠ 0 ∧ blockOff c addr then blockMiss fn true c
  else if isEstimate bar addr then
    let d := draw c
    emit (.readData fn [if domOn c ((addr - 0x300100) / 4) then wd (d.1 % 2 ^ 20) else 0]) d.2
  else
    let c1 := emit (.readData fn [wd (regRead c fn bar addr)]) c
    match reg64 c fn bar addr with
    | some v => modFn fn (fun f => { f with rdHigh := tput f.rdHigh (addr + 4) (wd (v / 2 ^ 32)) }) c1
    | none => c1

/-- `LOW_WORD_READ` (R9). -/
def execLowWordRead (fn bar addr : Nat) (s : State) : Host.Outcome State Fault Refusal := act s (registerRead fn bar addr)

/-! Writes. -/

/-- What a register write does to the chip and to memory. -/
abbrev RegFx : Type := Chip → Chip × List MemOp

def fx (f : Chip → Chip) : RegFx := fun c => (f c, [])
def noFx : RegFx := fun c => (c, [])

/-- A write to a field that the lock of its block guards (R13, R77). -/
def rwl (addr : Nat) (v : Word) (f : RegFx) : RegFx := fun c => if locked c (b2Block addr) then (lockViolation addr v c, []) else f c

/-- The low word of a 64-bit register waits for its high word (R9). -/
def latchLow (fn addr : Nat) (v : Word) : RegFx := fx (modFn fn (fun f => { f with wrLow := tput f.wrLow addr v }))

/-- The value that the write of a high word commits; with no low word written before, that low word is the one written last, or 0
(log 163). -/
def commit64 (c : Chip) (fn addr : Nat) (v : Word) : Nat := (tget 0 (getFn c fn).wrLow (addr - 4)).toNat + 2 ^ 32 * v.toNat

/-- A mask bit of the MSI-X table; a vector that is unmasked sends what is pending (R75). -/
def msixControl (fn vec : Nat) (v : Word) (c : Chip) : Chip :=
  if v.getLsbD 0 then modFn fn (fun f => { f with msixOpen := lremove f.msixOpen vec }) c
  else sendPending fn (modFn fn (fun f => { f with msixOpen := linsert f.msixOpen vec }) c)

/-- BAR0 (R57, R71, R75). -/
def fnWrite (fn addr : Nat) (v : Word) : RegFx := fun c =>
  let f := getFn c fn
  let n := v.toNat
  if msixBase fn ≤ addr ∧ addr < msixBase fn + 16 * msixSize fn then
    let off := addr - msixBase fn
    (if off % 16 = 12 then msixControl fn (off / 16) v c else modFn fn (fun f => { f with msixTable := tput f.msixTable off v }) c, [])
  else match addr with
    | 0x108 => if f.evqEnable then (c, []) else latchLow fn addr (wd (n / 4096 * 4096)) c
    | 0x10C => if f.evqEnable then (c, []) else fx (modFn fn (fun f => { f with evqBase := BitVec.ofNat 64 (commit64 c fn addr v) })) c
    | 0x110 => if f.evqEnable then (c, []) else latchLow fn addr (wd (n / 8 * 8)) c
    | 0x114 => if f.evqEnable then (c, []) else fx (modFn fn (fun f => { f with evqTailAddr := BitVec.ofNat 64 (commit64 c fn addr v) })) c
    | 0x118 => if f.evqEnable then (c, []) else fx (modFn fn (fun f => { f with evqLog2 := n % 32 })) c
    | 0x124 => fx (modFn fn (fun f => { f with coalCount := bits n 0 8, coalUs := bits n 8 16 })) c
    | 0x12C => fx (modFn fn (fun f => { f with vecMap := v &&& 0x01FFFFFF#32 })) c
    | 0x130 => fx (modFn fn (fun f => { f with errStatus := f.errStatus &&& ~~~v })) c
    | _ => (c, [])

/-- B2_LOCK (R77). -/
def windowWrite (off : Nat) (v : Word) : RegFx :=
  if off = 4 then fx (fun c => { c with host := { c.host with b2Lock := c.host.b2Lock ||| (v.setWidth 10 &&& 0x3FE#10) } }) else noFx

/-- TIME_STATUS: the bits that a 1 clears. -/
def timeStatusWrite (v : Word) : RegFx :=
  let keep := fun (i : Nat) (b : Bool) => b && !v.getLsbD i
  fx (modTime (fun t => { t with stepAbsorbed := keep 2 t.stepAbsorbed, configError := keep 3 t.configError,
                                 seenA := keep 4 t.seenA, seenB := keep 5 t.seenB }))

/-- Time block (R529, R534, R539, R540, R548). -/
def timeRegWrite (fn addr : Nat) (v : Word) : RegFx :=
  let off := addr % 0x100000
  let d := off / 0x100 - 1
  let dom := fun (f : Dom → Dom) => rwl addr v (fx (modTime (fun t => t.putDom d (f (t.dom d)))))
  if off = 0x08 then timeStatusWrite v
  else if off = 0x30 then rwl addr v (fx (modTime (fun t => { t with utcOffset := v.toInt })))
  else if 0x100 ≤ off ∧ off < 0x300 then
    match off % 0x100 with
    | 0x18 => rwl addr v (latchLow fn addr v)
    | 0x1C => rwl addr v (fun c => fx (modTime (fun t => t.putDom d { t.dom d with stepSec := signed 64 (commit64 c fn addr v) })) c)
    | 0x20 => if v.toInt < -999999999 ∨ 999999999 < v.toInt then rwl addr v (fx timeError) else dom (fun x => { x with stepNs := v.toInt })
    | 0x28 => dom (fun x => { x with ppsCtrl := v &&& 0xFFFF001F#32, pulse := x.pulse && v.getLsbD 0 })
    | 0x2C => if outside (v.toNat % 2 ^ 19) 1 500000 then rwl addr v (fx timeError) else dom (fun x => { x with widthUs := v.toNat % 2 ^ 19 })
    | _ => noFx
  else noFx

/-- Shaper and gates: LATE_LIMIT and GATE_STATUS (R267). -/
def egressRegWrite (addr : Nat) (v : Word) : RegFx :=
  let off := addr % 0x100000
  let lp := off / 0x10000
  let n := v.toNat % 2 ^ 24
  if 8 ≤ lp then noFx
  else match off % 0x10000 with
    | 0x08 => rwl addr v (if 10000000 < n then noFx else fx (modEgPort lp (fun p => { p with lateLimit := n })))
    | 0x28 => fx (modEgPort lp (fun p => { p with lateBase := p.lateBase && !v.getLsbD 1, configError := p.configError && !v.getLsbD 3,
                                                  adminBusy := p.adminBusy && !v.getLsbD 4 }))
    | _ => noFx

/-- Power block: PWR_GOVERNOR and PWR_EVENTS (R599). -/
def powerRegWrite (addr : Nat) (v : Word) : RegFx :=
  let lead := bits v.toNat 0 8
  let gap := bits v.toNat 8 8
  match addr % 0x100000 with
  | 0x0C => rwl addr v (fx (modPwr (fun p =>
      if outside lead 5 100 || outside gap 10 255 then { p with events := p.events ||| 4 } else { p with leadUs := lead, gapUs := gap })))
  | 0x14 => fx (modPwr (fun p => { p with events := p.events &&& ~~~(v.setWidth 3) }))
  | _ => noFx

/-- SUB_CTRL of both subchannels of a channel (R524). -/
def subCtrl (s : Nat) (v : Word) (c : Chip) : Chip :=
  let idle := bits v.toNat 4 16
  let set := fun (x : Sub) => { x with refsb := v.getLsbD 0, srEn := v.getLsbD 1, rowmatch := v.getLsbD 2, srIdleUs := idle }
  if outside idle 10 65535 then c else modSub (s / 2 * 2 + 1) set (modSub (s / 2 * 2) set c)

/-- Memory block but for INJECT_ADDR (R524). -/
def memRegWrite (addr : Nat) (v : Word) : RegFx :=
  let off := addr % 0x100000
  let n := v.toNat
  let s := off / 0x1000
  let dram := fun (f : Dram → Dram) => rwl addr v (fx (fun c => { c with dram := f c.dram }))
  if off < 24 * 0x1000 then
    match off % 0x1000 with
    | 0x04 => rwl addr v (fx (subCtrl s v))
    | 0x08 => rwl addr v (if outside (n % 65536) 10 10000 || outside (bits n 16 8) 1 255 then noFx
        else fx (modSub s (fun x => { x with intervalMs := n % 65536, driftPs := bits n 16 8 })))
    | 0x34 => fx (modSub s (fun x => { x with events := x.events &&& ~~~(v.setWidth 4) }))
    | _ => noFx
  else match off - 0x20000 with
    | 0x08 => dram (fun d => if outside (bits n 4 10) 1 720 then d else { d with scrubEn := v.getLsbD 0, passHours := bits n 4 10 })
    | 0x18 => dram (fun d => if outside (n % 256) 1 255 then d else { d with rowThresh := n % 256 })
    | 0x1C => dram (fun d => if outside (n % 65536) 1 65535 then d else { d with ceStorm := n % 65536 })
    | 0x28 => dram (fun d => if 4 < n % 8 then d else { d with injMode := n % 8, injArm := v.getLsbD 3 })
    | _ => noFx

/-- DMA_CTRL: queue settings, then PAUSE and ABORT as their rows act (R479, R489). -/
def dmaCtrl (ch : Nat) (v : Word) (m : Mem) : RegFx := fun c =>
  let c1 := modChan ch (fun x => { x with cqSpace := bits v.toNat 2 2, cqLog2 := bits v.toNat 4 5 }) c
  if !v.getLsbD 0 then
    fx (modChan ch (fun x => if x.pause then handOver c.gx.current { x with pause := false, paused := false, abort := false } else { x with abort := false })) c1
  else
    let c2 := modChan ch (fun x => { x with pause := true, paused := x.paused || !x.active || !x.started }) c1
    if v.getLsbD 1 then abortChan ch c2 m else fx (modChan ch (fun x => { x with abort := false })) c2

/-- DMA block: DMA_CTRL of every channel; SH_CTRL and CQ_BASE of direct ones (R489). -/
def dmaRegWrite (fn addr : Nat) (v : Word) (m : Mem) : RegFx :=
  let off := addr % 0x100000
  let ch := off / 0x100
  if 64 ≤ ch then noFx
  else match off % 0x100 with
    | 0x00 => rwl addr v (fun c => let r := dmaCtrl ch v m c; (settle r.1, r.2))
    | 0x40 => if directChan ch then rwl addr v (fun c => (modChan ch (shadowApply c.gx.current 0x40 v) c, [])) else noFx
    | 0x48 => if directChan ch then rwl addr v (latchLow fn addr (wd (v.toNat / 4096 * 4096))) else noFx
    | 0x4C => if directChan ch then rwl addr v (fun c => fx (modChan ch (fun x => { x with cqBase := commit64 c fn addr v })) c) else noFx
    | _ => noFx

/-- A watermark write that breaks the order of R488 is refused. -/
def setMarks (p : Nat) (f : Pool → Pool) (c : Chip) : Chip :=
  let x := f (getPool c p)
  if x.wmCritical < x.wmWarning ∧ x.wmWarning < x.wmCaution ∧ x.wmCaution ≤ x.count then watermark p (modPool p f c) else poolSticky p 3 c

/-- Pool block (R488). -/
def poolRegWrite (addr : Nat) (v : Word) : RegFx :=
  let off := addr % 0x100000
  let p := off / 0x100
  let n := v.toNat % 2 ^ 24
  let marks := fun (f : Pool → Pool) => rwl addr v (fx (setMarks p f))
  if 8 ≤ p then noFx
  else match off % 0x100 with
    | 0x10 => marks (fun x => { x with wmCaution := n })
    | 0x14 => marks (fun x => { x with wmWarning := n })
    | 0x18 => marks (fun x => { x with wmCritical := n })
    | 0x1C => rwl addr v (fx (fun c => watermark p (modPool p (fun x => { x with hyst := n }) c)))
    | 0x20 => fx (modPool p (fun x => { x with events := x.events &&& ~~~(v.setWidth 4) }))
    | _ => noFx

/-- Scheduler block: AGE_CTRL, WAIT_TIMEOUT and SCHED_EVENTS (R456). -/
def schedRegWrite (addr : Nat) (v : Word) : RegFx :=
  let n := v.toNat
  match addr % 0x100000 with
  | 0x0C => rwl addr v (if outside (n % 65536) 1 65535 || outside (bits n 16 4) 4 15 then fx (schedSticky 4)
      else fx (modSched (fun s => { s with agePeriod := n % 65536, ageCeiling := bits n 16 4, ageEn := v.getLsbD 20 })))
  | 0x10 => rwl addr v (if outside (n % 2 ^ 24) 1 16777215 then fx (schedSticky 4) else fx (modSched (fun s => { s with waitTimeout := n % 2 ^ 24 })))
  | 0x20 => fx (modSched (fun s => { s with events := s.events &&& ~~~(v.setWidth 5) }))
  | _ => noFx

/-- TWIN_CTRL (R550, R555, R575): a change of ENABLE starts or ends pairing, and the link restarts with new settings. -/
def twinCtrl (v : Word) (c : Chip) : Chip :=
  let old := c.twin.ctrl
  let new := v &&& 0xFF#32
  let c1 := modTwin (fun t => { t with ctrl := new }) c
  if 2 < bits v.toNat 2 2 ∨ 8 < bits v.toNat 4 4 then c
  else if !old.getLsbD 0 && new.getLsbD 0 then
    restartLport twinLport (if c.twin.st = 0 then setTwinState 1 c1 else c1)
  else if old.getLsbD 0 && !new.getLsbD 0 then
    let c2 := modTwin (fun t => { t with wasPaired := false }) (twinLinkLoss c1)
    if c2.twin.st = 5 then c2 else setTwinState 0 c2
  else if new.getLsbD 0 ∧ bits old.toNat 2 6 ≠ bits new.toNat 2 6 then twinLinkLoss c1
  else c1

/-- Twin block (R575). -/
def twinRegWrite (addr : Nat) (v : Word) : RegFx :=
  let n := v.toNat
  match addr % 0x100000 with
  | 0x04 => rwl addr v (fx (twinCtrl v))
  | 0x0C => fx (modTwin (fun t => { t with events := t.events &&& ~~~(v.setWidth 5) }))
  | 0x40 => rwl addr v (if outside (n % 4096) 50 2000 then noFx else fx (modTwin (fun t => { t with ejectBudget := n % 4096 })))
  | 0x44 => rwl addr v (if 2000 < n % 4096 || outside (bits n 16 8) 10 255 then noFx
      else fx (modTwin (fun t => { t with relayLimit := n % 4096, relayIdle := bits n 16 8 })))
  | _ => noFx

/-- Keeper mailbox (R605): a write of KMB_CMD while BUSY has no effect, and GO starts a request. -/
def kmbRegWrite (addr : Nat) (v : Word) : RegFx :=
  let off := addr % 0x100000
  let n := v.toNat
  if 0x100 ≤ off ∧ off < 0x200 then rwl addr v (fx (modMgmt (fun m => { m with kmbReq := tput m.kmbReq ((off - 0x100) / 4) v })))
  else if 0x10000 ≤ off ∧ off < 0x20000 then
    rwl addr v (fx (modMgmt (fun m => { m with kmbStage := tput m.kmbStage ((off - 0x10000) / 4) v })))
  else if off = 4 then
    rwl addr v (fx (modMgmt (fun m =>
      if m.mailbox.busy then m
      else { m with kmbCode := bits n 0 8, kmbLen := bits n 8 8, mailbox := { m.mailbox with busy := v.getLsbD 31 } })))
  else noFx

/-- A write to a register without a row of its own; at any other address of a BAR it has no effect (R11, R13; log 78). -/
def regWrite (fn bar addr : Nat) (v : Word) (m : Mem) : RegFx :=
  if bar = 0 then fnWrite fn addr v
  else match b2Block addr with
    | 0 => windowWrite (addr % 0x100000) v
    | 1 => timeRegWrite fn addr v
    | 2 => egressRegWrite addr v
    | 3 => powerRegWrite addr v
    | 4 => memRegWrite addr v
    | 5 => dmaRegWrite fn addr v m
    | 6 => poolRegWrite addr v
    | 7 => schedRegWrite addr v
    | 8 => twinRegWrite addr v
    | 9 => kmbRegWrite addr v
    | _ => noFx

/-- A write of a register word by a host. -/
def registerWrite (fn bar addr : Nat) (v : Word) (c : Chip) (m : Mem) : Chip × List MemOp :=
  if !regReach c fn bar then (c, [])
  else if addr % 4 ≠ 0 then (errCount fn c, [])
  else if bar ≠ 0 ∧ blockOff c addr then (blockMiss fn false c, [])
  else regWrite fn bar addr v m c

/-- `REGISTER_WRITE` (R13). -/
def execRegisterWrite (fn bar addr : Nat) (v : Word) (s : State) : Host.Outcome State Fault Refusal :=
  actMem s (registerWrite fn bar addr v)

end Sys2Proof.Machine
end

