-- ==== Sys2Proof/Machine/Steps.lean ====
section
/-!
DEFINITION. The steps of the stepped commands after their first (R104 to R106).
-/
namespace Sys2Proof.Machine
open Sys2Proof

/-- A step of a command that keeps its work in the slot. -/
def slotStep (k : Nat) (s : Slot) (c : Chip) : Chip :=
  match s.op with
  | 0x0305 => if s.work.isEmpty then c else bulkStep (ctxOf k s []) s.work c
  | 0x0B02 => memPprStep k s.work c
  | 0x0D02 => replayStep k c
  | 0x0D03 => handoverStep k c
  | 0x0E10 => imageVerifyStep k s.work c
  | _ => c

/-- A bulk command with a mark that arrived before its final step begins does not begin it. -/
def finalMarked (s : Slot) : Bool := s.op == 0x0305 && s.cancel && s.work.getD 0 0 == s.work.getD 1 0

/-- The next step, then the mark (R105, R106). Nothing happens while it is not the turn of the command (log 6). -/
def commandStep (k : Nat) (c : Chip) (m : Mem) : Chip × List MemOp :=
  let s := getSlot c k
  let fetching := match s.fetch with | .waiting _ _ => true | _ => false
  if !(firmwareUp c && (getFn c (k / 64)).ready && (s.st == .progress || (slotCommit c k).isSome) && !fetching && firstInLine c k s.turn) then (c, [])
  else if s.st ≠ .progress then ((match slotCommit c k with | some a => validateStep a c | none => c), [])
  else if finalMarked s then (cancelAt k c, [])
  else if s.op = 0x0B03 then
    let r := memTestStep k s.work c m
    (cancelAt k r.1, r.2)
  else (powerMark k (cancelAt k (slotStep k s c)), [])

/-- `COMMAND_STEP` (R105). -/
def execCommandStep (cmd : CmdRef) (s : State) : Host.Outcome State Fault Refusal :=
  actMem s (commandStep (slotKey cmd.fn cmd.slot))

end Sys2Proof.Machine
end

