-- ==== Sys2Proof/Machine/Dispatch.lean ====
section
/-!
DEFINITION. The dispatch of commands: one arm for each constructor of `Instr`, each a direct call of its meaning.
-/
namespace Sys2Proof.Machine
open Sys2Proof

def exec (i : Instr) (s : State) : Host.Outcome State Fault Refusal :=
  match i with
  | .dbSubmit fn v => Sys2Proof.Machine.execDbSubmit fn v s
  | .dbRetire fn v => Sys2Proof.Machine.execDbRetire fn v s
  | .dbCancel fn v => Sys2Proof.Machine.execDbCancel fn v s
  | .slotWrite fn slot word v => Sys2Proof.Machine.execSlotWrite fn slot word v s
  | .fnCtrlWrite fn v => Sys2Proof.Machine.execFnCtrlWrite fn v s
  | .evqHeadWrite fn v => Sys2Proof.Machine.execEvqHeadWrite fn v s
  | .evqLostRead fn => Sys2Proof.Machine.execEvqLostRead fn s
  | .errCountRead fn => Sys2Proof.Machine.execErrCountRead fn s
  | .b2DomainMissRead fn => Sys2Proof.Machine.execB2DomainMissRead fn s
  | .unalignedAccess fn bar2 read => Sys2Proof.Machine.execUnalignedAccess fn bar2 read s
  | .poisonedWriteTlp fn bar2 => Sys2Proof.Machine.execPoisonedWriteTlp fn bar2 s
  | .bar4Write fn addr data poisoned => Sys2Proof.Machine.execBar4Write fn addr data poisoned s
  | .bar4Read fn addr bytes => Sys2Proof.Machine.execBar4Read fn addr bytes s
  | .registerWrite fn bar addr v => Sys2Proof.Machine.execRegisterWrite fn bar addr v s
  | .b2Unlock fn v => Sys2Proof.Machine.execB2Unlock fn v s
  | .bar2DomainOffAccess fn addr read => Sys2Proof.Machine.execBar2DomainOffAccess fn addr read s
  | .msixUnmask fn vec => Sys2Proof.Machine.execMsixUnmask fn vec s
  | .busMasterEnable fn enable => Sys2Proof.Machine.execBusMasterEnable fn enable s
  | .eventCollect => Sys2Proof.Machine.execEventCollect s
  | .evqCoalesceTimeout fn => Sys2Proof.Machine.execEvqCoalesceTimeout fn s
  | .perstAssert link => Sys2Proof.Machine.execPerstAssert link s
  | .perstRelease link => Sys2Proof.Machine.execPerstRelease link s
  | .pcieHotReset link => Sys2Proof.Machine.execPcieHotReset link s
  | .pcieLinkDown link => Sys2Proof.Machine.execPcieLinkDown link s
  | .pcieLinkUp link speed width => Sys2Proof.Machine.execPcieLinkUp link speed width s
  | .flr fn => Sys2Proof.Machine.execFlr fn s
  | .flrComplete fn => Sys2Proof.Machine.execFlrComplete fn s
  | .functionReady link => Sys2Proof.Machine.execFunctionReady link s
  | .purgeCommit => Sys2Proof.Machine.execPurgeCommit s
  | .payloadFetchDone cmd data => Sys2Proof.Machine.execPayloadFetchDone cmd data s
  | .payloadFetchFail cmd => Sys2Proof.Machine.execPayloadFetchFail cmd s
  | .commandStep cmd => Sys2Proof.Machine.execCommandStep cmd s
  | .txnIdleTimeout session => Sys2Proof.Machine.execTxnIdleTimeout session s
  | .commitAckTimeout => Sys2Proof.Machine.execCommitAckTimeout s
  | .commitTablesWritten extra => Sys2Proof.Machine.execCommitTablesWritten extra s
  | .epochActivate => Sys2Proof.Machine.execEpochActivate s
  | .heldCommitRelease => Sys2Proof.Machine.execHeldCommitRelease s
  | .epochDrainLimit => Sys2Proof.Machine.execEpochDrainLimit s
  | .gxNop cmd => Sys2Proof.Machine.execGxNop cmd s
  | .gxDeviceInfo cmd => Sys2Proof.Machine.execGxDeviceInfo cmd s
  | .gxQuotaSet cmd => Sys2Proof.Machine.execGxQuotaSet cmd s
  | .gxQuotaGet cmd => Sys2Proof.Machine.execGxQuotaGet cmd s
  | .gxObjQuery cmd => Sys2Proof.Machine.execGxObjQuery cmd s
  | .gxSessionOpen cmd => Sys2Proof.Machine.execGxSessionOpen cmd s
  | .gxSessionClose cmd => Sys2Proof.Machine.execGxSessionClose cmd s
  | .gxTxnBegin cmd => Sys2Proof.Machine.execGxTxnBegin cmd s
  | .gxTxnCommit cmd => Sys2Proof.Machine.execGxTxnCommit cmd s
  | .gxTxnRollback cmd => Sys2Proof.Machine.execGxTxnRollback cmd s
  | .gxTxnStatus cmd => Sys2Proof.Machine.execGxTxnStatus cmd s
  | .gxObjDestroy cmd => Sys2Proof.Machine.execGxObjDestroy cmd s
  | .gxEpochConfig cmd => Sys2Proof.Machine.execGxEpochConfig cmd s
  | .gxPortConfig cmd => Sys2Proof.Machine.execGxPortConfig cmd s
  | .gxPortStatus cmd => Sys2Proof.Machine.execGxPortStatus cmd s
  | .gxAddrSet cmd => Sys2Proof.Machine.execGxAddrSet cmd s
  | .gxIceCredSet cmd => Sys2Proof.Machine.execGxIceCredSet cmd s
  | .gxTunnelRingSet cmd => Sys2Proof.Machine.execGxTunnelRingSet cmd s
  | .gxTunnelSend cmd => Sys2Proof.Machine.execGxTunnelSend cmd s
  | .gxIngCounters cmd => Sys2Proof.Machine.execGxIngCounters cmd s
  | .gxKeyInstall cmd => Sys2Proof.Machine.execGxKeyInstall cmd s
  | .gxKeyStatus cmd => Sys2Proof.Machine.execGxKeyStatus cmd s
  | .gxCryptoCounters cmd => Sys2Proof.Machine.execGxCryptoCounters cmd s
  | .gxConfSet cmd => Sys2Proof.Machine.execGxConfSet cmd s
  | .gxSourceSet cmd => Sys2Proof.Machine.execGxSourceSet cmd s
  | .gxLegSet cmd => Sys2Proof.Machine.execGxLegSet cmd s
  | .gxOutslotSet cmd => Sys2Proof.Machine.execGxOutslotSet cmd s
  | .gxEdgeSet cmd => Sys2Proof.Machine.execGxEdgeSet cmd s
  | .gxLegBulkCreate cmd => Sys2Proof.Machine.execGxLegBulkCreate cmd s
  | .gxEdgeQuery cmd => Sys2Proof.Machine.execGxEdgeQuery cmd s
  | .gxFwdConfig cmd => Sys2Proof.Machine.execGxFwdConfig cmd s
  | .gxFwdCounters cmd => Sys2Proof.Machine.execGxFwdCounters cmd s
  | .gxLegShapeSet cmd => Sys2Proof.Machine.execGxLegShapeSet cmd s
  | .gxCcfbSet cmd => Sys2Proof.Machine.execGxCcfbSet cmd s
  | .gxLegAdaptQuery cmd => Sys2Proof.Machine.execGxLegAdaptQuery cmd s
  | .gxEgressCounters cmd => Sys2Proof.Machine.execGxEgressCounters cmd s
  | .gxMixGroupSet cmd => Sys2Proof.Machine.execGxMixGroupSet cmd s
  | .gxAudioLegSet cmd => Sys2Proof.Machine.execGxAudioLegSet cmd s
  | .gxMixContribSet cmd => Sys2Proof.Machine.execGxMixContribSet cmd s
  | .gxDetectorSet cmd => Sys2Proof.Machine.execGxDetectorSet cmd s
  | .gxDtmfSend cmd => Sys2Proof.Machine.execGxDtmfSend cmd s
  | .gxAudioCoefLoad cmd => Sys2Proof.Machine.execGxAudioCoefLoad cmd s
  | .gxAudioCoefSwap cmd => Sys2Proof.Machine.execGxAudioCoefSwap cmd s
  | .gxAudioSync cmd => Sys2Proof.Machine.execGxAudioSync cmd s
  | .gxAudioMeterRead cmd => Sys2Proof.Machine.execGxAudioMeterRead cmd s
  | .gxAudioCounters cmd => Sys2Proof.Machine.execGxAudioCounters cmd s
  | .gxDecodeSet cmd => Sys2Proof.Machine.execGxDecodeSet cmd s
  | .gxDecodeQuery cmd => Sys2Proof.Machine.execGxDecodeQuery cmd s
  | .gxDecodeCounters cmd => Sys2Proof.Machine.execGxDecodeCounters cmd s
  | .gxCanvasSet cmd => Sys2Proof.Machine.execGxCanvasSet cmd s
  | .gxLayerSet cmd => Sys2Proof.Machine.execGxLayerSet cmd s
  | .gxOrderSet cmd => Sys2Proof.Machine.execGxOrderSet cmd s
  | .gxLayerImageUpdate cmd => Sys2Proof.Machine.execGxLayerImageUpdate cmd s
  | .gxBeaconSet cmd => Sys2Proof.Machine.execGxBeaconSet cmd s
  | .gxHostRingSet cmd => Sys2Proof.Machine.execGxHostRingSet cmd s
  | .gxCanvasQuery cmd => Sys2Proof.Machine.execGxCanvasQuery cmd s
  | .gxCompCounters cmd => Sys2Proof.Machine.execGxCompCounters cmd s
  | .gxRenditionSet cmd => Sys2Proof.Machine.execGxRenditionSet cmd s
  | .gxRenditionKeyframe cmd => Sys2Proof.Machine.execGxRenditionKeyframe cmd s
  | .gxRenditionQuery cmd => Sys2Proof.Machine.execGxRenditionQuery cmd s
  | .gxEncCounters cmd => Sys2Proof.Machine.execGxEncCounters cmd s
  | .gxProgramLoad cmd => Sys2Proof.Machine.execGxProgramLoad cmd s
  | .gxProgramQuery cmd => Sys2Proof.Machine.execGxProgramQuery cmd s
  | .gxEngineStatus cmd => Sys2Proof.Machine.execGxEngineStatus cmd s
  | .gxTaskSubmit cmd => Sys2Proof.Machine.execGxTaskSubmit cmd s
  | .gxTaskCancel cmd => Sys2Proof.Machine.execGxTaskCancel cmd s
  | .gxTaskAlloc cmd => Sys2Proof.Machine.execGxTaskAlloc cmd s
  | .gxTaskSignal cmd => Sys2Proof.Machine.execGxTaskSignal cmd s
  | .gxSchedCounters cmd => Sys2Proof.Machine.execGxSchedCounters cmd s
  | .gxPoolLayout cmd => Sys2Proof.Machine.execGxPoolLayout cmd s
  | .gxRequesterSet cmd => Sys2Proof.Machine.execGxRequesterSet cmd s
  | .gxDmaSubmit cmd => Sys2Proof.Machine.execGxDmaSubmit cmd s
  | .gxWindowMap cmd => Sys2Proof.Machine.execGxWindowMap cmd s
  | .gxPoolCounters cmd => Sys2Proof.Machine.execGxPoolCounters cmd s
  | .gxMemStatus cmd => Sys2Proof.Machine.execGxMemStatus cmd s
  | .gxMemErrors cmd => Sys2Proof.Machine.execGxMemErrors cmd s
  | .gxMemPpr cmd => Sys2Proof.Machine.execGxMemPpr cmd s
  | .gxMemTest cmd => Sys2Proof.Machine.execGxMemTest cmd s
  | .gxMemFreezeRead cmd => Sys2Proof.Machine.execGxMemFreezeRead cmd s
  | .gxTimeGet cmd => Sys2Proof.Machine.execGxTimeGet cmd s
  | .gxPtpRingSet cmd => Sys2Proof.Machine.execGxPtpRingSet cmd s
  | .gxPtpSend cmd => Sys2Proof.Machine.execGxPtpSend cmd s
  | .gxTwinSet cmd => Sys2Proof.Machine.execGxTwinSet cmd s
  | .gxTwinSecretSet cmd => Sys2Proof.Machine.execGxTwinSecretSet cmd s
  | .gxJournalReplay cmd => Sys2Proof.Machine.execGxJournalReplay cmd s
  | .gxTwinHandover cmd => Sys2Proof.Machine.execGxTwinHandover cmd s
  | .gxTwinMap cmd => Sys2Proof.Machine.execGxTwinMap cmd s
  | .gxPowerDomainSet cmd => Sys2Proof.Machine.execGxPowerDomainSet cmd s
  | .gxClusterClockSet cmd => Sys2Proof.Machine.execGxClusterClockSet cmd s
  | .gxDeviceReset cmd => Sys2Proof.Machine.execGxDeviceReset cmd s
  | .gxImageVerify cmd => Sys2Proof.Machine.execGxImageVerify cmd s
  | .gxLogRead cmd => Sys2Proof.Machine.execGxLogRead cmd s
  | .gxLifeStatus cmd => Sys2Proof.Machine.execGxLifeStatus cmd s
  | .macFrameReceive lport frame => Sys2Proof.Machine.execMacFrameReceive lport frame s
  | .packetParse pipe poison bad head => Sys2Proof.Machine.execPacketParse pipe poison bad head s
  | .keyDeriveDone set bad => Sys2Proof.Machine.execKeyDeriveDone set bad s
  | .alternateKeyExpire obj => Sys2Proof.Machine.execAlternateKeyExpire obj s
  | .portAnComplete lport => Sys2Proof.Machine.execPortAnComplete lport s
  | .portTrainingDone lport => Sys2Proof.Machine.execPortTrainingDone lport s
  | .portTrainingTimeout lport lanes => Sys2Proof.Machine.execPortTrainingTimeout lport lanes s
  | .portRetryWaitExpiry lport => Sys2Proof.Machine.execPortRetryWaitExpiry lport s
  | .portPcsLock lport => Sys2Proof.Machine.execPortPcsLock lport s
  | .portLinkFault lport localFault remoteFault => Sys2Proof.Machine.execPortLinkFault lport localFault remoteFault s
  | .fecRatioWindow lport corrected uncorrectable corrSymbols symbols => Sys2Proof.Machine.execFecRatioWindow lport corrected uncorrectable corrSymbols symbols s
  | .replication pipe srcBad edgeBad slotBad legBad => Sys2Proof.Machine.execReplication pipe srcBad edgeBad slotBad legBad s
  | .edgeCacheFill pipe line => Sys2Proof.Machine.execEdgeCacheFill pipe line s
  | .nackUpTimer source => Sys2Proof.Machine.execNackUpTimer source s
  | .rtxCacheExpire => Sys2Proof.Machine.execRtxCacheExpire s
  | .rtcpReportTimer leg => Sys2Proof.Machine.execRtcpReportTimer leg s
  | .speakerSelectDue conf => Sys2Proof.Machine.execSpeakerSelectDue conf s
  | .speakerSelectRun conf => Sys2Proof.Machine.execSpeakerSelectRun conf s
  | .adaptRunDue leg => Sys2Proof.Machine.execAdaptRunDue leg s
  | .adaptRun leg => Sys2Proof.Machine.execAdaptRun leg s
  | .probeEnd leg => Sys2Proof.Machine.execProbeEnd leg s
  | .ccfbReportTimer source => Sys2Proof.Machine.execCcfbReportTimer source s
  | .egressSelect lport => Sys2Proof.Machine.execEgressSelect lport s
  | .frameTransmit lport poison => Sys2Proof.Machine.execFrameTransmit lport poison s
  | .launchTimeReached leg cls => Sys2Proof.Machine.execLaunchTimeReached leg cls s
  | .legBucketRecover leg => Sys2Proof.Machine.execLegBucketRecover leg s
  | .gateConfigChange fn lport => Sys2Proof.Machine.execGateConfigChange fn lport s
  | .gateCancel fn lport => Sys2Proof.Machine.execGateCancel fn lport s
  | .gateAdminWrite fn lport off v => Sys2Proof.Machine.execGateAdminWrite fn lport off v s
  | .gateTakeover lport => Sys2Proof.Machine.execGateTakeover lport s
  | .gateEntryBoundary lport => Sys2Proof.Machine.execGateEntryBoundary lport s
  | .portRateWrite fn lport v => Sys2Proof.Machine.execPortRateWrite fn lport v s
  | .egrPortCtrlWrite fn lport v => Sys2Proof.Machine.execEgrPortCtrlWrite fn lport v s
  | .audioBlockStart => Sys2Proof.Machine.execAudioBlockStart s
  | .audioInputBlock leg poison => Sys2Proof.Machine.execAudioInputBlock leg poison s
  | .mixSelect group => Sys2Proof.Machine.execMixSelect group s
  | .mixBlock group bad => Sys2Proof.Machine.execMixBlock group bad s
  | .audioOutputBlock master index => Sys2Proof.Machine.execAudioOutputBlock master index s
  | .audioSyncEdge highNs => Sys2Proof.Machine.execAudioSyncEdge highNs s
  | .coefSwapTakeEffect profile => Sys2Proof.Machine.execCoefSwapTakeEffect profile s
  | .assemblyTimeout source => Sys2Proof.Machine.execAssemblyTimeout source s
  | .decodeDone source report => Sys2Proof.Machine.execDecodeDone source report s
  | .decCoreFault core => Sys2Proof.Machine.execDecCoreFault core s
  | .decPliRepeat source => Sys2Proof.Machine.execDecPliRepeat source s
  | .canvasFrameDeadline canvas => Sys2Proof.Machine.execCanvasFrameDeadline canvas s
  | .composeBandDone canvas mvs badLayers badPlanes => Sys2Proof.Machine.execComposeBandDone canvas mvs badLayers badPlanes s
  | .composeDone canvas fault head bad => Sys2Proof.Machine.execComposeDone canvas fault head bad s
  | .compFault unit out => Sys2Proof.Machine.execCompFault unit out s
  | .daymarkRebuild canvas => Sys2Proof.Machine.execDaymarkRebuild canvas s
  | .rateControlRun rend satd => Sys2Proof.Machine.execRateControlRun rend satd s
  | .voteWindowEnd rend => Sys2Proof.Machine.execVoteWindowEnd rend s
  | .encodePartStart rend layer part => Sys2Proof.Machine.execEncodePartStart rend layer part s
  | .encodeRowDone rend layer part bits poisonIn badRefs => Sys2Proof.Machine.execEncodeRowDone rend layer part bits poisonIn badRefs s
  | .encodePartDone rend layer part sizes poison => Sys2Proof.Machine.execEncodePartDone rend layer part sizes poison s
  | .encCoreFault core => Sys2Proof.Machine.execEncCoreFault core s
  | .ltrAckTimeout rend => Sys2Proof.Machine.execLtrAckTimeout rend s
  | .scalarAlu engine op d s1 src pair => Sys2Proof.Machine.execScalarAlu engine op d s1 src pair s
  | .load engine t ar mode size sx pair => Sys2Proof.Machine.execLoad engine t ar mode size sx pair s
  | .store engine t ar mode size pair => Sys2Proof.Machine.execStore engine t ar mode size pair s
  | .atomic engine op t ar mode pair => Sys2Proof.Machine.execAtomic engine op t ar mode pair s
  | .xfer engine s1 pair => Sys2Proof.Machine.execXfer engine s1 pair s
  | .wait engine mask pair => Sys2Proof.Machine.execWait engine mask pair s
  | .fence engine pair => Sys2Proof.Machine.execFence engine pair s
  | .branch engine cond s1 off pair => Sys2Proof.Machine.execBranch engine cond s1 off pair s
  | .jump engine s1 link pair => Sys2Proof.Machine.execJump engine s1 link pair s
  | .nop engine pair => Sys2Proof.Machine.execNop engine pair s
  | .mfc engine d cr pair => Sys2Proof.Machine.execMfc engine d cr pair s
  | .mtc engine cr s1 pair => Sys2Proof.Machine.execMtc engine cr s1 pair s
  | .end_ engine s1 pair => Sys2Proof.Machine.execEnd engine s1 pair s
  | .break_ engine code pair => Sys2Proof.Machine.execBreak engine code pair s
  | .cmac engine acc s1 s2 sh neg conj pair => Sys2Proof.Machine.execCmac engine acc s1 s2 sh neg conj pair s
  | .dmac engine acc s1 s2 sh neg pair => Sys2Proof.Machine.execDmac engine acc s1 s2 sh neg pair s
  | .smac engine acc s1 s2 sh neg high pair => Sys2Proof.Machine.execSmac engine acc s1 s2 sh neg high pair s
  | .accClear engine acc pair => Sys2Proof.Machine.execAccClear engine acc pair s
  | .accLoad engine acc s1 pair => Sys2Proof.Machine.execAccLoad engine acc s1 pair s
  | .accShift engine acc by_ pair => Sys2Proof.Machine.execAccShift engine acc by_ pair s
  | .accx engine d acc sh rnd width pair => Sys2Proof.Machine.execAccx engine d acc sh rnd width pair s
  | .maxx engine d s1 s2 u inc pair => Sys2Proof.Machine.execMaxx engine d s1 s2 u inc pair s
  | .minx engine d s1 s2 u inc pair => Sys2Proof.Machine.execMinx engine d s1 s2 u inc pair s
  | .urgentEntry engine => Sys2Proof.Machine.execUrgentEntry engine s
  | .xferComplete engine shadow tag => Sys2Proof.Machine.execXferComplete engine shadow tag s
  | .pageLoadDone engine => Sys2Proof.Machine.execPageLoadDone engine s
  | .engineInternalFault engine => Sys2Proof.Machine.execEngineInternalFault engine s
  | .engineRetireTimeout engine => Sys2Proof.Machine.execEngineRetireTimeout engine s
  | .schedTick => Sys2Proof.Machine.execSchedTick s
  | .taskRelease task => Sys2Proof.Machine.execTaskRelease task s
  | .taskDispatch target unit upset => Sys2Proof.Machine.execTaskDispatch target unit upset s
  | .taskEnd task => Sys2Proof.Machine.execTaskEnd task s
  | .taskWaitTimeout task => Sys2Proof.Machine.execTaskWaitTimeout task s
  | .schedModeWrite fn v => Sys2Proof.Machine.execSchedModeWrite fn v s
  | .schedTickWrite fn v => Sys2Proof.Machine.execSchedTickWrite fn v s
  | .bufferAlloc ident size cls => Sys2Proof.Machine.execBufferAlloc ident size cls s
  | .bufferRetain ident handle ue => Sys2Proof.Machine.execBufferRetain ident handle ue s
  | .bufferFree ident handle ue => Sys2Proof.Machine.execBufferFree ident handle ue s
  | .bufferHandover ident handle dest ue => Sys2Proof.Machine.execBufferHandover ident handle dest ue s
  | .dmaDescriptorStart chan => Sys2Proof.Machine.execDmaDescriptorStart chan s
  | .dmaDescriptorDone chan hostSrc hostDst => Sys2Proof.Machine.execDmaDescriptorDone chan hostSrc hostDst s
  | .dmaPause fn chan => Sys2Proof.Machine.execDmaPause fn chan s
  | .dmaPaused chan moved hostSrc hostDst => Sys2Proof.Machine.execDmaPaused chan moved hostSrc hostDst s
  | .dmaResume fn chan => Sys2Proof.Machine.execDmaResume fn chan s
  | .dmaAbort fn chan => Sys2Proof.Machine.execDmaAbort fn chan s
  | .shadowArm fn chan held => Sys2Proof.Machine.execShadowArm fn chan held s
  | .shadowDisarm fn chan held => Sys2Proof.Machine.execShadowDisarm fn chan held s
  | .shadowWordWrite fn chan word v held => Sys2Proof.Machine.execShadowWordWrite fn chan word v held s
  | .dmaHeldWriteApply chan => Sys2Proof.Machine.execDmaHeldWriteApply chan s
  | .dmaCqHeadWrite fn chan v => Sys2Proof.Machine.execDmaCqHeadWrite fn chan v s
  | .dramRead source addr bytes errors => Sys2Proof.Machine.execDramRead source addr bytes errors s
  | .dramWrite source addr data poisoned => Sys2Proof.Machine.execDramWrite source addr data poisoned s
  | .refreshDue sub granted => Sys2Proof.Machine.execRefreshDue sub granted s
  | .selfRefreshIdle sub => Sys2Proof.Machine.execSelfRefreshIdle sub s
  | .mr4Poll sub doubled hot mr4 => Sys2Proof.Machine.execMr4Poll sub doubled hot mr4 s
  | .dramTrainingStepDone sub passed => Sys2Proof.Machine.execDramTrainingStepDone sub passed s
  | .retrainInterval sub drift => Sys2Proof.Machine.execRetrainInterval sub drift s
  | .retrainStepDone sub last passed => Sys2Proof.Machine.execRetrainStepDone sub last passed s
  | .caParityError sub ranks => Sys2Proof.Machine.execCaParityError sub ranks s
  | .scrubBurst errors => Sys2Proof.Machine.execScrubBurst errors s
  | .sramScrubPass found spare => Sys2Proof.Machine.execSramScrubPass found spare s
  | .injectAddrWrite fn lo hi => Sys2Proof.Machine.execInjectAddrWrite fn lo hi s
  | .timeIncWrite fn domain lo hi => Sys2Proof.Machine.execTimeIncWrite fn domain lo hi s
  | .stepCmdGo fn domain v => Sys2Proof.Machine.execStepCmdGo fn domain v s
  | .timeSelectWrite fn v => Sys2Proof.Machine.execTimeSelectWrite fn v s
  | .slewPpbWrite fn v => Sys2Proof.Machine.execSlewPpbWrite fn v s
  | .timeOffsetCleared => Sys2Proof.Machine.execTimeOffsetCleared s
  | .timeCaptureRead fn addr => Sys2Proof.Machine.execTimeCaptureRead fn addr s
  | .ppsInEdge domain falling => Sys2Proof.Machine.execPpsInEdge domain falling s
  | .ppsOutPulse domain => Sys2Proof.Machine.execPpsOutPulse domain s
  | .ppsOutPulseEnd domain => Sys2Proof.Machine.execPpsOutPulseEnd domain s
  | .fliuskLinkUp => Sys2Proof.Machine.execFliuskLinkUp s
  | .fliuskLinkLoss => Sys2Proof.Machine.execFliuskLinkLoss s
  | .helloTimer => Sys2Proof.Machine.execHelloTimer s
  | .fliuskHello serial random version num macOk behind theyLack split => Sys2Proof.Machine.execFliuskHello serial random version num macOk behind theyLack split s
  | .heartbeatSend => Sys2Proof.Machine.execHeartbeatSend s
  | .fliuskHeartbeat frameSeq tagOk => Sys2Proof.Machine.execFliuskHeartbeat frameSeq tagOk s
  | .twinAliveTransition => Sys2Proof.Machine.execTwinAliveTransition s
  | .heartbeatWindow => Sys2Proof.Machine.execHeartbeatWindow s
  | .takeoverRequest frameSeq tagOk seq confs eject => Sys2Proof.Machine.execTakeoverRequest frameSeq tagOk seq confs eject s
  | .takeoverTablesWritten extra => Sys2Proof.Machine.execTakeoverTablesWritten extra s
  | .announceRepeat => Sys2Proof.Machine.execAnnounceRepeat s
  | .takeoverDone => Sys2Proof.Machine.execTakeoverDone s
  | .journalRecord frameSeq tagOk seq rec_ => Sys2Proof.Machine.execJournalRecord frameSeq tagOk seq rec_ s
  | .journalAck frameSeq tagOk chan seq paired => Sys2Proof.Machine.execJournalAck frameSeq tagOk chan seq paired s
  | .fliuskRetransmit => Sys2Proof.Machine.execFliuskRetransmit s
  | .mirrorSend => Sys2Proof.Machine.execMirrorSend s
  | .mirrorRecord frameSeq tagOk seq m => Sys2Proof.Machine.execMirrorRecord frameSeq tagOk seq m s
  | .twinEventRecord frameSeq tagOk words head => Sys2Proof.Machine.execTwinEventRecord frameSeq tagOk words head s
  | .twinReserveRequest frameSeq tagOk seq conf usage => Sys2Proof.Machine.execTwinReserveRequest frameSeq tagOk seq conf usage s
  | .twinReserveAnswer frameSeq tagOk seq ok needed avail => Sys2Proof.Machine.execTwinReserveAnswer frameSeq tagOk seq ok needed avail s
  | .twinReserveTimeout => Sys2Proof.Machine.execTwinReserveTimeout s
  | .twinReserveRelease frameSeq tagOk seq conf => Sys2Proof.Machine.execTwinReserveRelease frameSeq tagOk seq conf s
  | .handoverTactReturn frameSeq tagOk seq sec ns ids => Sys2Proof.Machine.execHandoverTactReturn frameSeq tagOk seq sec ns ids s
  | .relayFrame frameSeq tagOk frame => Sys2Proof.Machine.execRelayFrame frameSeq tagOk frame s
  | .relayEnd => Sys2Proof.Machine.execRelayEnd s
  | .ejectRequest => Sys2Proof.Machine.execEjectRequest s
  | .ejectBudgetExpiry => Sys2Proof.Machine.execEjectBudgetExpiry s
  | .powerSwitchBegin => Sys2Proof.Machine.execPowerSwitchBegin s
  | .loadstepLeadExpiry => Sys2Proof.Machine.execLoadstepLeadExpiry s
  | .powerRampEnd => Sys2Proof.Machine.execPowerRampEnd s
  | .loadstepRelease => Sys2Proof.Machine.execLoadstepRelease s
  | .powerDomainUsable => Sys2Proof.Machine.execPowerDomainUsable s
  | .powerGoodTimeout => Sys2Proof.Machine.execPowerGoodTimeout s
  | .unitStartCredit kind => Sys2Proof.Machine.execUnitStartCredit kind s
  | .vcoreStep => Sys2Proof.Machine.execVcoreStep s
  | .pmbAlert status fatal => Sys2Proof.Machine.execPmbAlert status fatal s
  | .pwrgdLoss rail => Sys2Proof.Machine.execPwrgdLoss rail s
  | .pwrgdRestore rail bootMode => Sys2Proof.Machine.execPwrgdRestore rail bootMode s
  | .powerOnReset rail => Sys2Proof.Machine.execPowerOnReset rail s
  | .powerOnResetRelease bootMode => Sys2Proof.Machine.execPowerOnResetRelease bootMode s
  | .bootImageReadDone readOk keyOk sigOk version => Sys2Proof.Machine.execBootImageReadDone readOk keyOk sigOk version s
  | .startupStepDone ok units => Sys2Proof.Machine.execStartupStepDone ok units s
  | .deviceWarmReset bootMode => Sys2Proof.Machine.execDeviceWarmReset bootMode s
  | .keeperResetDone => Sys2Proof.Machine.execKeeperResetDone s
  | .sysRefclkLoss => Sys2Proof.Machine.execSysRefclkLoss s
  | .netRefclkLoss port => Sys2Proof.Machine.execNetRefclkLoss port s
  | .netRefclkReturn port => Sys2Proof.Machine.execNetRefclkReturn port s
  | .twinRefclkLoss => Sys2Proof.Machine.execTwinRefclkLoss s
  | .pcieRefclkLoss link => Sys2Proof.Machine.execPcieRefclkLoss link s
  | .wdogKick proc => Sys2Proof.Machine.execWdogKick proc s
  | .wdogRestart poison => Sys2Proof.Machine.execWdogRestart poison s
  | .ctrlResetHoldEnd => Sys2Proof.Machine.execCtrlResetHoldEnd s
  | .fwRecoveryDone => Sys2Proof.Machine.execFwRecoveryDone s
  | .stuckWorkCheck => Sys2Proof.Machine.execStuckWorkCheck s
  | .thermalSample sensor temp => Sys2Proof.Machine.execThermalSample sensor temp s
  | .thermalClockStep die => Sys2Proof.Machine.execThermalClockStep die s
  | .thermalHardTrip sensor temp => Sys2Proof.Machine.execThermalHardTrip sensor temp s
  | .railSample rail die mv => Sys2Proof.Machine.execRailSample rail die mv s
  | .ageingMeasure drifts => Sys2Proof.Machine.execAgeingMeasure drifts s
  | .ageingHistoryStore => Sys2Proof.Machine.execAgeingHistoryStore s
  | .lifeCounterWrite => Sys2Proof.Machine.execLifeCounterWrite s
  | .unitSelfTestDone cls unit passed => Sys2Proof.Machine.execUnitSelfTestDone cls unit passed s
  | .spareRemapComplete => Sys2Proof.Machine.execSpareRemapComplete s
  | .lampOverrideExpiry lamp => Sys2Proof.Machine.execLampOverrideExpiry lamp s
  | .identity req => Sys2Proof.Machine.execIdentity req s
  | .status req => Sys2Proof.Machine.execStatus req s
  | .thermal req => Sys2Proof.Machine.execThermal req s
  | .rails req => Sys2Proof.Machine.execRails req s
  | .configGet req => Sys2Proof.Machine.execConfigGet req s
  | .configSet req => Sys2Proof.Machine.execConfigSet req s
  | .logRead req => Sys2Proof.Machine.execLogRead req s
  | .life req => Sys2Proof.Machine.execLife req s
  | .spareMap req => Sys2Proof.Machine.execSpareMap req s
  | .ageing req => Sys2Proof.Machine.execAgeing req s
  | .lampSet req => Sys2Proof.Machine.execLampSet req s
  | .severitySet req => Sys2Proof.Machine.execSeveritySet req s
  | .spareRetire req => Sys2Proof.Machine.execSpareRetire req s
  | .deviceReset req => Sys2Proof.Machine.execDeviceReset req s
  | .keeperReset req => Sys2Proof.Machine.execKeeperReset req s
  | .imageChunk req => Sys2Proof.Machine.execImageChunk req s
  | .imageEnd req keyOk sigOk version => Sys2Proof.Machine.execImageEnd req keyOk sigOk version s
  | .mgmtResponseRead => Sys2Proof.Machine.execMgmtResponseRead s
  | .smbusAlertResponse => Sys2Proof.Machine.execSmbusAlertResponse s
  | .smbusAddressResolution addr => Sys2Proof.Machine.execSmbusAddressResolution addr s
  | .illegal engine words poison => Sys2Proof.Machine.execIllegal engine words poison s
  | .unassignedOpcode cmd => Sys2Proof.Machine.execUnassignedOpcode cmd s
  | .unknownCode req code => Sys2Proof.Machine.execUnknownCode req code s
  | .keeperSelfCheck => Sys2Proof.Machine.execKeeperSelfCheck s
  | .d3hotTransition fn d3hot => Sys2Proof.Machine.execD3hotTransition fn d3hot s
  | .vfEnableChange pf numVfs => Sys2Proof.Machine.execVfEnableChange pf numVfs s
  | .forwarderRecordRewrite kind key => Sys2Proof.Machine.execForwarderRecordRewrite kind key s
  | .logStoreWrite => Sys2Proof.Machine.execLogStoreWrite s
  | .lowWordRead fn bar addr => Sys2Proof.Machine.execLowWordRead fn bar addr s

end Sys2Proof.Machine
end

