-- ==== Sys2Proof/Machine/Step.lean ====
section
/-!
DEFINITION. One step of the block: the command at the front of the queue runs on the state with the queue's rest; with no
command waiting, one cycle of the time-base clock passes (log 7).
-/
namespace Sys2Proof.Machine
open Sys2Proof

/-- With no command waiting, the clocks advance by one cycle of 1.25 ns (R526, R527). -/
def tick (s : State) : State := { s with chip := { s.chip with time := s.chip.time.cycles 1 } }

def step (s : State) : Host.Outcome State Fault Refusal :=
  match s.pending with
  | [] => .next (tick s)
  | i :: rest => exec i { s with pending := rest }

/-- The command that a word of the opcode table spells goes to the front of the queue. No row of the table gives bits, so no
word spells a command and the state stays. -/
def State.withFetchWord (s : State) (nbits w : Nat) : State :=
  match Sys2Proof.decodeTableWord nbits w with
  | some i => { s with pending := i :: s.pending }
  | none => s

end Sys2Proof.Machine
end

