-- ==== Sys2Proof/Safety.lean ====
section
/-!
DEFINITION. What counts as a safe run of the block, and the terms in which claims are stated: when firmware serves a command,
and what the chip is once it has taken one.
-/
namespace Sys2Proof
open Sys2Proof.Machine

/-- A step answers a next state. -/
def Goes (s t : State) : Prop := step s = .next t

/-- A step neither faults nor refuses. -/
def SafeStep (s : State) : Prop := ∃ t, Goes s t

/-- The invariant of the whole machine: memory is in canonical form. -/
def MemInv (s : State) : Prop := s.mem.wf = true

/-- The slot that a command row names. -/
def slotAt (r : CmdRef) (s : State) : Slot := getSlot s.chip (slotKey r.fn r.slot)

/-- Body words of the command in a slot, without an extension. -/
def bodyAt (r : CmdRef) (s : State) : List Word := (slotAt r s).body

/-- The slot holds a captured command of an opcode that firmware serves now (R67, R103): firmware runs, the function is READY, it is
the command's turn, an operator command was captured under the operator role, its header is in range, it names neither an
extension nor a session, its result buffer, if it has one, can be reached (R648), and the slot is one of the function's 64. -/
def Served (op : Nat) (r : CmdRef) (s : State) : Prop :=
  firmwareUp s.chip = true ∧ (getFn s.chip r.fn).ready = true ∧
    slotTurn s.chip (slotKey r.fn r.slot) (slotAt r s) = true ∧ (slotAt r s).op = op ∧
    (operatorOps.contains op = true → (slotAt r s).opAtCapture = true) ∧ headerBad (slotAt r s) = false ∧
    (slotAt r s).ext = false ∧ (slotAt r s).session = 0 ∧ heldSession s.chip r.fn 0 = none ∧ r.slot < 64 ∧
    resultShut s.chip op r.fn = false

/-- The chip once firmware has taken the command. -/
def took (r : CmdRef) (s : State) : Chip := modSlot (slotKey r.fn r.slot) (fun x => { x with taken := true }) s.chip

/-- What the command's own part sees of it. -/
def ctxAt (r : CmdRef) (s : State) : Ctx := ctxOf (slotKey r.fn r.slot) (slotAt r s) (bodyAt r s)

/-- Firmware serves the command now, in session `n` (0 for none) which its function holds, and `body` is its body with its extension,
which has been fetched when it names one (R68, R100, R108). -/
def Takes (op n : Nat) (body : List Word) (r : CmdRef) (s : State) : Prop :=
  firmwareUp s.chip = true ∧ (getFn s.chip r.fn).ready = true ∧
    slotTurn s.chip (slotKey r.fn r.slot) (slotAt r s) = true ∧ (slotAt r s).op = op ∧
    (operatorOps.contains op = true → (slotAt r s).opAtCapture = true) ∧ headerBad (slotAt r s) = false ∧
    (((slotAt r s).ext = false ∧ body = bodyAt r s) ∨
      ((slotAt r s).ext = true ∧ ∃ data, (slotAt r s).fetch = .got data ∧ body = (slotAt r s).bodyWith data)) ∧
    (slotAt r s).session = n ∧ (n = 0 ∨ (heldSession s.chip r.fn n).isSome = true) ∧ r.slot < 64 ∧
    resultShut s.chip op r.fn = false

/-- The chip once firmware has taken the command of a session, whose transaction it keeps from idling out (R115). -/
def tookIn (n : Nat) (r : CmdRef) (s : State) : Chip := touchSession r.fn n (took r s)

/-- What the command's own part sees of it, with its extension. -/
def ctxWith (body : List Word) (r : CmdRef) (s : State) : Ctx := ctxOf (slotKey r.fn r.slot) (slotAt r s) body

/-- The state in which the command has ended with a result, on a chip that is otherwise `c`; `body` is its body with its extension. A result
that tells no object tells the one that the command names (R101). -/
def endedWith (body : List Word) (r : CmdRef) (res : Res) (c : Chip) (s : State) : State :=
  { s with chip := finish (slotKey r.fn r.slot) ((ctxWith body r s).naming res c) c }

/-- The same for a command without an extension. -/
def ended (r : CmdRef) (res : Res) (c : Chip) (s : State) : State := endedWith (bodyAt r s) r res c s

/-- The command has ended with a result and has done nothing else. -/
def replied (r : CmdRef) (res : Res) (s : State) : State := ended r res (took r s) s

end Sys2Proof
end

