-- ==== Sys2Proof/Certificates/Slice0/Obligations.lean ====
section
/-!
DEFINITION. The statements about the block that are to be proved.
-/
open Sys2Proof Sys2Proof.Machine

namespace Sys2Proof.Machine

/-- A state whose time block is another one. -/
def onTime (s : State) (t : TimeBase) : State := { s with chip := { s.chip with time := t } }

/-- A state whose chip is another one. -/
def onChip (s : State) (c : Chip) : State := { s with chip := c }

/-- Pools of one class that hold a size, smallest first (R461). -/
def poolOfSize (size : Nat) : Nat := if size ≤ 2048 then 2 else 3

/-- ERR_STATUS of a function with a bit set. -/
def withErr (c : Chip) (fn i : Nat) : BitVec 32 := (getFn c fn).errStatus ||| BitVec.ofNat 32 (2 ^ i)

/-- The management port takes a request: the Keeper runs and has none under way. -/
def portFree (s : State) : Prop := keeperUp s.chip = true ∧ s.chip.mgmt.port.busy = false

/-- The mailbox holds a request of a code for the Keeper. -/
def boxHolds (s : State) (code : Nat) : Prop :=
  keeperUp s.chip = true ∧ s.chip.mgmt.mailbox.busy = true ∧ s.chip.mgmt.kmbCode = code

/-- The port has answered a request with response words on a chip that is otherwise `c`. -/
def portAnswer (code : Nat) (words : List Word) (c : Chip) (s : State) : State := onChip s (respond false code (kOk words c))

/-- The words of the mailbox request. -/
def boxFields (s : State) : List Nat := (wordsGet s.chip.mgmt.kmbReq 0 ((s.chip.mgmt.kmbLen + 3) / 4)).map BitVec.toNat

/-- The primary set of an engine may issue this instruction alone. -/
def engRuns (s : State) (e : Nat) (i : UIns) : Prop :=
  mayIssue s.chip e i none = true ∧ (getEng s.chip e).inShadow = false ∧
    bundleLegal (getEng s.chip e).prim.settle.branch.isSome i none = true

/-- The primary set of an engine as the bundle now issuing reads it. -/
def engSet (s : State) (e : Nat) : USet := (getEng s.chip e).prim.settle

/-- A bundle of one word has issued on an engine and has made `u` of its primary set: the other set, tasks and device memory are as
before. -/
def issuedAs (s t : State) (e : Nat) (u : USet) : Prop :=
  (getEng t.chip e).prim = u.advance 1 ∧ (getEng t.chip e).shad = (getEng s.chip e).shad ∧ t.chip.sched = s.chip.sched ∧ t.mem = s.mem

/-- Besides, it has written no engine memory. -/
def issuedQuiet (s t : State) (e : Nat) (u : USet) : Prop :=
  issuedAs s t e u ∧ (getEng t.chip e).mem = (getEng s.chip e).mem ∧ ∀ cl, (getCluster t.chip cl).shared = (getCluster s.chip cl).shared

/-- Bytes that the command in a slot takes of its transaction: its body with its extension (R114). -/
def txnShare (r : CmdRef) (s : State) : Nat :=
  (slotAt r s).bodyBytes + (if (slotAt r s).ext = true then (slotAt r s).extBytes else 0)

/-- A transactional command whose staging `stage` answers joins the open transaction of its session: it ends with status 0, its position, the
identifier it creates or names and that object's version, and the transaction holds it as its newest command. -/
def joins (body : List Word) (s : State) (r : CmdRef) (n : Nat) (t : Txn) (x : Staged) (c : Chip) : State :=
  endedWith body r ((Res.ok [wd t.staged.length]).withObj x.obj (if x.create then 0 else (((cfg s.chip).obj x.obj).getD .none).version))
    (setTxn n (some { staged := t.staged ++ [x], bytes := t.bytes + txnShare r s }) c) s

/-- The row stages its command in an open transaction. -/
def Stages (op : Nat) (fields : List Word → Option Nat) (stage : Ctx → List Staged → Chip → Staging)
    (run : CmdRef → State → Host.Outcome State Fault Refusal) : Prop :=
  ∀ (s : State) (r : CmdRef) (n : Nat) (b : List Word) (ses : Session) (t : Txn) (x : Staged) (c : Chip),
    Takes op n b r s → heldSession s.chip r.fn n = some ses → ses.txn = some t → fields b = none →
    t.staged.length < 4096 → t.bytes + txnShare r s ≤ 2097152 → stage (ctxWith b r s) t.staged (tookIn n r s) = .ok (x, c) →
    run r s = .next (joins b s r n t x c)

/-- Words that firmware has fetched for the images of a command. -/
def fetched (r : CmdRef) (s : State) : List Word :=
  (slotAt r s).work.map wd ++ (if (slotAt r s).ext then [] else match (slotAt r s).fetch with | .got d => d | _ => [])

/-- The same for a row whose images stand in host memory (R100): they are fetched first, and join the `k` body words with what `make` adds. -/
def StagesImages (op k : Nat) (fields : List Word → Option Nat) (wants : List Word → List (Nat × Nat))
    (make : Ctx → Chip → List Word → Except Res (List Word)) (stage : Ctx → List Staged → Chip → Staging)
    (run : CmdRef → State → Host.Outcome State Fault Refusal) : Prop :=
  ∀ (s : State) (r : CmdRef) (n : Nat) (b more : List Word) (ses : Session) (t : Txn) (x : Staged) (c : Chip),
    Takes op n b r s → heldSession s.chip r.fn n = some ses → ses.txn = some t → fields b = none →
    ({ ctxWith b r s with body := words k b }.preStage stage (tookIn n r s)) = none →
    ((wants b).map (fun w => (w.2 + 3) / 4)).sum ≤ (fetched r s).length → make (ctxWith b r s) (tookIn n r s) (fetched r s) = .ok more →
    t.staged.length < 4096 → t.bytes + txnShare r s ≤ 2097152 →
    stage { ctxWith b r s with body := words k b ++ more } t.staged (tookIn n r s) = .ok (x, c) →
    run r s = .next (joins (words k b ++ more) s r n t x c)

/-- The transactional commands without images of host memory: opcode, check of the body fields, staging, and the row. -/
def stagedRows : List (Nat × (List Word → Option Nat) × (Ctx → List Staged → Chip → Staging) × (CmdRef → State → Host.Outcome State Fault Refusal)) :=
  [(0x0003, quotaFields, stagePlain 50, fun r s => exec (.gxQuotaSet r) s), (0x0106, noFields, stageDestroy, fun r s => exec (.gxObjDestroy r) s),
   (0x0202, noFields, stagePlain 8, fun r s => exec (.gxAddrSet r) s), (0x0203, iceFields, stageIce, fun r s => exec (.gxIceCredSet r) s),
   (0x0210, keyFields, stageKey, fun r s => exec (.gxKeyInstall r) s),
   (0x0300, fun b => firstBad [(decide (10000 < bf b 16 0 14), 16)], stageConf, fun r s => exec (.gxConfSet r) s),
   (0x0301, sourceFields, stageSource, fun r s => exec (.gxSourceSet r) s), (0x0302, legFields, stageLeg, fun r s => exec (.gxLegSet r) s),
   (0x0303, fun b => firstBad [(decide (2 < osKind b), 16), (!zeroOr (bf b 20 0 12) 20 4000, 20)], stageSlot, fun r s => exec (.gxOutslotSet r) s),
   (0x0304, noFields, stageEdge, fun r s => exec (.gxEdgeSet r) s), (0x0400, shapeFields, stageShape, fun r s => exec (.gxLegShapeSet r) s),
   (0x0401, fun b => firstBad [(!zeroOr (bf b 8 16 9) 20 500, 8)], stageCcfb, fun r s => exec (.gxCcfbSet r) s),
   (0x0500, groupFields, stageGroup, fun r s => exec (.gxMixGroupSet r) s), (0x0501, audioFields, stageAudio, fun r s => exec (.gxAudioLegSet r) s),
   (0x0502, fun b => firstBad [(decide (0x8000 < mcGain b), 12)], stageContrib, fun r s => exec (.gxMixContribSet r) s),
   (0x0503, detectorFields, stageDetector, fun r s => exec (.gxDetectorSet r) s), (0x0600, decodeFields, stageDecode, fun r s => exec (.gxDecodeSet r) s),
   (0x0700, canvasFields, stageCanvas, fun r s => exec (.gxCanvasSet r) s),
   (0x0702, fun b => firstBad [(outside (bf b 8 0 7) 1 64, 8)], stageOrder, fun r s => exec (.gxOrderSet r) s),
   (0x0800, rendFields, stageRend, fun r s => exec (.gxRenditionSet r) s),
   (0x0A01, fun b => let l := bf b 12 0 24; firstBad [(l != 0 && decide (l < bf b 8 0 24), 12)], stagePlain 4, fun r s => exec (.gxRequesterSet r) s)]

/-- The transactional commands other than GX_TXN_COMMIT: opcode, check of the body fields, and the row. -/
def stagingRows : List (Nat × (List Word → Option Nat) × (CmdRef → State → Host.Outcome State Fault Refusal)) :=
  stagedRows.map (fun x => (x.1, x.2.1, x.2.2.2)) ++
  [(0x0701, layerFields, fun r s => exec (.gxLayerSet r) s), (0x0704, beaconFields, fun r s => exec (.gxBeaconSet r) s),
   (0x0900, fun b => if programBadLength (bw b 16) then some 16 else firstBad [(bd b 8 % 8 != 0, 8)], fun r s => exec (.gxProgramLoad r) s)]

/-- The verdict of validation on a commit of function `fn` with staged commands `l`, which get every identifier they need first. -/
def checked (l : List Staged) (fn : Nat) (c : Chip) : Verdict := validate fn (restage l c).1 (restage l c).2

/-- A host write reaches a port region of the shaper and gate block, and its lock is open. -/
def egOpen (s : State) (fn lp : Nat) : Prop :=
  bar2Reach s.chip fn = true ∧ domOn s.chip 6 = true ∧ lp < 8 ∧ locked s.chip 2 = false

/-- A protected frame of the session with this number is in the window and has not been seen (R552). -/
def Hears (q : Nat) (s : State) : Prop :=
  s.chip.twin.session = true ∧ s.chip.twin.rxHigh < q + 1024 ∧ s.chip.twin.rxSeen.contains q = false

/-- The chip once it has accepted that frame. -/
def heard (q : Nat) (s : State) : Chip :=
  modTw (fun t => { t with rxHigh := max t.rxHigh q, rxSeen := (q :: t.rxSeen).filter (fun n => decide (max t.rxHigh q < n + 1024)), tagFails := 0 }) s.chip

/-- The record is the next of its channel (R554). -/
def NextRecord (chan seq : Nat) (s : State) : Prop := seq = tget 0 s.chip.twin.chanSeq (100 + chan) + 1

/-- The chip once it has accepted the frame of that record. -/
def heardRecord (q chan seq : Nat) (s : State) : Chip := modTw (fun t => { t with chanSeq := tput t.chanSeq (100 + chan) seq }) (heard q s)

/-- The record is acknowledged on `c` (R554). -/
def acked (chan seq : Nat) (c : Chip) : Chip := twinSend (.ack chan seq none) c

end Sys2Proof.Machine

/-- For every command c and state s, the step of s with c at the front of its queue is exec of c on s with the queue's rest; on an empty queue the step answers a next state in which one time-base cycle has passed and nothing else has changed (the idle step is the model's choice, log 7). -/
def Obligations.StepRunsFrontCommand : Prop :=
  (∀ (c : Instr) (rest : List Instr) (s : State), step { s with pending := c :: rest } = exec c { s with pending := rest }) ∧
  ∀ s : State, s.pending = [] →
    step s = .next { s with chip := { s.chip with time := s.chip.time.cycles 1 } }

/-- For every state whose memory is in canonical form (rising addresses, no listed byte equal to what an unlisted one reads as, rising poison and error marks), if a step answers a next state then that state's memory is in canonical form, whatever the command at the front of the queue. -/
def Obligations.MemoryCanonicalKept : Prop :=
  ∀ s t : State, MemInv s → step s = .next t → MemInv t

/-- The memory of the reset state lists nothing, so it is in canonical form, and the queue of waiting commands is empty. -/
def Obligations.MemoryCanonicalAtReset : Prop :=
  MemInv State.reset ∧ State.reset.pending = []

/-- For every command and state: if exec answers a next state, the queue of waiting commands is as before; and every command but DRAM_READ and DRAM_WRITE answers a next state. -/
def Obligations.CommandsLeaveQueue : Prop :=
  (∀ (i : Instr) (s t : State), exec i s = .next t → t.pending = s.pending) ∧
  ∀ (i : Instr) (s : State), (∀ a b c d, i ≠ .dramRead a b c d) → (∀ a b c d, i ≠ .dramWrite a b c d) → ∃ t, exec i s = .next t

/-- A write that changes TIME_CTRL.SELECT through an open lock answers a next state in which the other domain is selected, service time has the value it had, OFF is service time less the new domain, SLEW_PPB is 0 and TIME_DOMAIN_SWITCHED with OFF is the newest record on its way; the counters of both domains are unchanged. -/
def Obligations.SelectKeepsServiceTime : Prop :=
  ∀ (s : State) (fn : Nat) (v : Word), bar2Reach s.chip fn = true → domOn s.chip 0 = true → locked s.chip 1 = false → v.getLsbD 0 ≠ s.chip.time.selB →
    ∃ t, exec (.timeSelectWrite fn v) s = .next t ∧ t.chip.time.selB = v.getLsbD 0 ∧
      t.chip.time.svcFine = s.chip.time.svcFine ∧ t.chip.time.slewPpb = 0 ∧
      t.chip.time.off = s.chip.time.svcFine - (if v.getLsbD 0 then s.chip.time.b else s.chip.time.a).t * 1000000000 ∧
      t.chip.time.a = s.chip.time.a ∧ t.chip.time.b = s.chip.time.b ∧
      t.chip.mgmt.incoming.length = s.chip.mgmt.incoming.length + 1 ∧
      (∃ r, t.chip.mgmt.incoming = s.chip.mgmt.incoming ++ [r] ∧ r.code = 0xC01 ∧ r.object = b2n (v.getLsbD 0) ∧
        r.detail = saturate 64 (t.chip.time.off.tdiv (1000000000 * 4294967296)) % 2 ^ 64) ∧
      t.mem = s.mem

/-- Through an open lock a valid increment and a slew within range and against the sign of OFF are taken, and out of range they set CONFIG_ERROR alone; the end of a slew clears OFF and SLEW_PPB; a write of SELECT that changes the domain captures OFF and clears SLEW_PPB; a capture read returns the seconds and captures the whole set; an accepted PPS edge is stamped and one within 500 ms is counted; a pulse begins with its end WIDTH_US later, and ends; GX_TIME_GET answers both domains and service time. -/
def Obligations.TimeBlockCommands : Prop :=
  (∀ (s : State) (fn d : Nat) (lo hi : Word), bar2Reach s.chip fn = true → domOn s.chip 0 = true → locked s.chip 1 = false → d < 2 →
    exec (.timeIncWrite fn d lo hi) s =
      .next (onTime s (if incOk (lo.toNat + 2 ^ 32 * bits hi.toNat 0 8) = true
        then s.chip.time.putDom d { s.chip.time.dom d with inc := lo.toNat + 2 ^ 32 * bits hi.toNat 0 8 }
        else { s.chip.time with configError := true }))) ∧
  (∀ (s : State) (fn : Nat) (v : Word), bar2Reach s.chip fn = true → domOn s.chip 0 = true → locked s.chip 1 = false →
    -500000 ≤ v.toInt → v.toInt ≤ 500000 → (0 < v.toInt ∧ s.chip.time.off < 0 ∨ v.toInt < 0 ∧ 0 < s.chip.time.off) →
    exec (.slewPpbWrite fn v) s = .next (onTime s { s.chip.time with slewPpb := v.toInt, slewStart := localNs s.chip })) ∧
  (∀ (s : State) (fn : Nat) (v : Word), bar2Reach s.chip fn = true → domOn s.chip 0 = true → locked s.chip 1 = false →
    (v.toInt < -500000 ∨ 500000 < v.toInt ∨ v.toInt ≠ 0 ∧ s.chip.time.off = 0) →
    exec (.slewPpbWrite fn v) s = .next (onTime s { s.chip.time with configError := true })) ∧
  (∀ s : State, s.chip.time.slewPpb ≠ 0 → ∃ t, exec .timeOffsetCleared s = .next t ∧ t.chip.time.off = 0 ∧
    t.chip.time.slewPpb = 0 ∧ t.mem = s.mem ∧ t.chip.host = s.chip.host) ∧
  (∀ (s : State) (fn d : Nat), bar2Reach s.chip fn = true → domOn s.chip 0 = true → d < 2 →
    exec (.timeCaptureRead fn (0x100 * d + 0x100)) s = .next (onChip s (emit (.readData fn [wd (clockSec (s.chip.time.dom d).t)])
      { s.chip with time := s.chip.time.putDom d { s.chip.time.dom d with
          capSec := clockSec (s.chip.time.dom d).t, capNs := clockNs (s.chip.time.dom d).t, capFrac := clockFrac (s.chip.time.dom d).t } }))) ∧
  (∀ (s : State) (d : Nat) (falling : Bool), d < 2 → (s.chip.time.dom d).ppsCtrl.getLsbD 2 = true →
    (s.chip.time.dom d).ppsCtrl.getLsbD 3 = falling → (s.chip.time.dom d).edgeAt ≠ 0 →
    localNs s.chip + 1 < (s.chip.time.dom d).edgeAt + 500000000 →
    exec (.ppsInEdge d falling) s =
      .next (onTime s (s.chip.time.putDom d { s.chip.time.dom d with edgesIgnored := (s.chip.time.dom d).edgesIgnored + 1 }))) ∧
  (∀ (s : State) (d : Nat) (falling : Bool), d < 2 → (s.chip.time.dom d).ppsCtrl.getLsbD 2 = true →
    (s.chip.time.dom d).ppsCtrl.getLsbD 3 = falling → (s.chip.time.dom d).edgeAt = 0 →
    ∃ t, exec (.ppsInEdge d falling) s = .next t ∧ (t.chip.time.dom d).edgeSec = clockSec (s.chip.time.dom d).t ∧
      (t.chip.time.dom d).edgeNs = clockNs (s.chip.time.dom d).t ∧ (t.chip.time.dom d).edgeSvc = svc s.chip % 2 ^ 32 ∧
      (t.chip.time.dom d).t = (s.chip.time.dom d).t ∧ t.mem = s.mem) ∧
  (∀ (s : State) (d : Nat), d < 2 → (s.chip.time.dom d).ppsCtrl.getLsbD 0 = true → (s.chip.time.dom d).pulse = false →
    0 < (s.chip.time.dom d).inc → ∃ t, exec (.ppsOutPulse d) s = .next t ∧ (t.chip.time.dom d).pulse = true ∧
      (t.chip.time.dom d).lastPulse = (s.chip.time.dom d).nextPulse ∧
      (t.chip.time.dom d).pulseEnd = localNs t.chip + (s.chip.time.dom d).widthUs * 1000 ∧ t.mem = s.mem) ∧
  (∀ (s : State) (d : Nat), d < 2 → (s.chip.time.dom d).pulse = true →
    ∃ t, exec (.ppsOutPulseEnd d) s = .next t ∧ (t.chip.time.dom d).pulse = false ∧
      (s.chip.time.dom d).pulseEnd ≤ localNs t.chip ∧ t.mem = s.mem) ∧
  (∀ (s : State) (fn d : Nat) (v : Word), bar2Reach s.chip fn = true → domOn s.chip 0 = true → d < 2 → v.getLsbD 0 = true →
    (s.chip.time.dom d).stepOk = true → d ≠ s.chip.time.selNum →
    ∃ p, exec (.stepCmdGo fn d v) s = .next (onTime s (s.chip.time.putDom d
      { s.chip.time.dom d with t := (s.chip.time.dom d).t + (s.chip.time.dom d).stepOf * 4294967296, lastPulse := p }))) ∧
  (∀ (s : State) (fn : Nat) (v : Word), bar2Reach s.chip fn = true → domOn s.chip 0 = true → locked s.chip 1 = false →
    exec (.timeSelectWrite fn v) s = .next (onChip s (if v.getLsbD 0 = s.chip.time.selB then s.chip else
      raise 0 0xC01 none (b2n (v.getLsbD 0)) (saturate 64 ((s.chip.time.svcFine - (if v.getLsbD 0 then s.chip.time.b else s.chip.time.a).t * 1000000000).tdiv
          (1000000000 * 4294967296)))
        { s.chip with time := { s.chip.time with selB := v.getLsbD 0, slewPpb := 0, off := s.chip.time.svcFine - (if v.getLsbD 0 then s.chip.time.b else s.chip.time.a).t * 1000000000 } }))) ∧
  ∀ (s : State) (r : CmdRef), Served 0x0C00 r s → exec (.gxTimeGet r) s = .next (replied r (Res.ok (timeGetBody s.chip)) s)

/-- A granted allocation answers OK, takes one buffer of the smallest pool of its class that holds the size and charges it to the identity; a refused one answers the result of the grant rule and takes nothing; RETAIN by the owner adds one reference and at 1,048,575 answers REF_LIMIT and changes nothing; FREE by the owner subtracts one, and the last one returns the buffer and its charge; HANDOVER moves the ownership; an operation on a handle that names no buffer of its generation answers DOUBLE_FREE and leaves the pools' buffers as they are. Memory is unchanged throughout. GX_POOL_LAYOUT lays out empty pools anew, with generations and lost buffers kept and the states of the new counts told, and answers their counts, and is refused while a buffer of P2 to P7 is allocated; GX_POOL_COUNTERS answers the eight blocks of an identity, and clears them when asked. -/
def Obligations.BufferOperations : Prop :=
  (∀ (s : State) (i size : Nat), size ≤ 16384 → grantRule s.chip i (poolOfSize size) = 0 →
    ∃ t, exec (.bufferAlloc i size 2) s = .next t ∧ t.chip.pools.answer.1 = 0 ∧
      (getPool t.chip (poolOfSize size)).used = (getPool s.chip (poolOfSize size)).used + 1 ∧
      (getUse t.chip i (poolOfSize size)).u = (getUse s.chip i (poolOfSize size)).u + 1 ∧
      t.mem = s.mem ∧ t.chip.host = s.chip.host) ∧
  (∀ (s : State) (i size : Nat), size ≤ 16384 → grantRule s.chip i (poolOfSize size) ≠ 0 →
    exec (.bufferAlloc i size 2) s = .next (onChip s (answered (grantRule s.chip i (poolOfSize size)) 0
      (countResult i (poolOfSize size) (grantRule s.chip i (poolOfSize size)) s.chip)))) ∧
  (∀ (s : State) (i h : Nat), current s.chip h = true → (getBuf s.chip h).owner = i → (getBuf s.chip h).refs < 1048575 →
    ∃ t, exec (.bufferRetain i h false) s = .next t ∧ t.chip.pools.answer = (0, h) ∧
      getBuf t.chip h = { getBuf s.chip h with refs := (getBuf s.chip h).refs + 1 } ∧ t.mem = s.mem ∧ t.chip.pools.uses = s.chip.pools.uses) ∧
  (∀ (s : State) (i h : Nat), current s.chip h = true → (getBuf s.chip h).owner = i → 1048575 ≤ (getBuf s.chip h).refs →
    exec (.bufferRetain i h false) s = .next (onChip s (answered 5 h s.chip))) ∧
  (∀ (s : State) (i h : Nat), current s.chip h = true → (getBuf s.chip h).owner = i → 1 < (getBuf s.chip h).refs →
    ∃ t, exec (.bufferFree i h false) s = .next t ∧ t.chip.pools.answer = (0, h) ∧
      getBuf t.chip h = { getBuf s.chip h with refs := (getBuf s.chip h).refs - 1 } ∧ t.mem = s.mem ∧ t.chip.pools.uses = s.chip.pools.uses) ∧
  (∀ (s : State) (i h : Nat), current s.chip h = true → (getBuf s.chip h).owner = i → (getBuf s.chip h).refs ≤ 1 →
    ∃ t, exec (.bufferFree i h false) s = .next t ∧ t.chip.pools.answer = (0, h) ∧
      getBuf t.chip h = { getBuf s.chip h with refs := 0, used := false } ∧ t.mem = s.mem ∧
      (getPool t.chip (handlePool h)).used = (getPool s.chip (handlePool h)).used - 1 ∧
      (getUse t.chip i (handlePool h)).u = (getUse s.chip i (handlePool h)).u - 1) ∧
  (∀ (s : State) (i h d : Nat), current s.chip h = true → (getBuf s.chip h).owner = i → grantRule s.chip d (handlePool h) = 0 →
    ∃ t, exec (.bufferHandover i h d false) s = .next t ∧ t.chip.pools.answer = (0, h) ∧
      getBuf t.chip h = { getBuf s.chip h with owner := d } ∧ t.mem = s.mem) ∧
  (∀ (s : State) (r : CmdRef) (w : Nat) (c : Chip), Served 0x0A00 r s → (layoutShares (bodyAt r s)).sum = 100 →
    (∀ p, 2 ≤ p → p < 8 → (getPool s.chip p).used = 0) → s.chip.pools.pages = [] → w = bf (bodyAt r s) 0 0 10 * 2 ^ 30 →
    fixedBytes + w ≤ capBytes s.chip →
    c = { took r s with pools := { s.chip.pools with windowBytes := w, shares := layoutShares (bodyAt r s) } } →
    exec (.gxPoolLayout r) s = .next (ended r (Res.ok ((List.range 6).map (fun i => wd (layoutCount c (i + 2)))))
      ((List.range 6).foldl (fun c p => watermark (p + 2) c)
        { c with pools := { c.pools with pools := (List.range 8).map (fun p => (p, if p < 2 then getPool s.chip p else (getPool s.chip p).relaid (layoutCount c p))) } }) s)) ∧
  (∀ (s : State) (r : CmdRef) (p : Nat), Served 0x0A00 r s → (layoutShares (bodyAt r s)).sum = 100 → 2 ≤ p → p < 8 → 0 < (getPool s.chip p).used →
    exec (.gxPoolLayout r) s = .next (replied r (Res.err 0x0A07) s)) ∧
  (∀ (s : State) (r : CmdRef) (i : Nat), Served 0x0A04 r s → i = bf (bodyAt r s) 0 0 12 → ((ctxAt r s).operator = true ∨ i / 16 = r.fn) →
    exec (.gxPoolCounters r) s = .next (ended r (Res.ok ((List.range 8).flatMap (poolBlock (took r s) i)))
      (if bit (bw (bodyAt r s) 4) 0 then (List.range 8).foldl (fun c p => ctrClear 0x0A04 (useKey i p) 4 c) (took r s) else took r s) s)) ∧
  ∀ (s : State) (i h d : Nat) (op : Instr), current s.chip h = false →
    op = .bufferRetain i h false ∨ op = .bufferFree i h false ∨ op = .bufferHandover i h d false →
    ∃ t, exec op s = .next t ∧ t.chip.pools.answer = (3, h) ∧ (getPool t.chip (handlePool h)).bufs = (getPool s.chip (handlePool h)).bufs ∧
      t.chip.pools.uses = s.chip.pools.uses ∧ t.mem = s.mem

/-- Negotiation done leads to training with 3 s to converge; converged training to FEC alignment; PCS lock brings the link up, on the fallback preset where alignment ran on it, and raises PORT_LINK; training that fails with no fallback preset makes the port wait 1, 2, 4, 8 and then 16 s and raises PORT_TRAIN_FAIL naming the lanes; with a fallback preset it goes on with that preset; the wait ends with a fresh attempt; one second with a corrected-symbol ratio above 2.4e-4 marks a port whose link is up degraded, and ten with less than 1.0e-4 clear it. -/
def Obligations.PortBringUp : Prop :=
  (∀ (s : State) (lp : Nat), (getLport s.chip lp).st = .negotiating →
    exec (.portAnComplete lp) s = .next (onChip s (modLport lp (fun p =>
      { p with st := .training, aligning := false, deadline := localNs s.chip + 3000000000 }) s.chip))) ∧
  (∀ (s : State) (lp : Nat), (getLport s.chip lp).st = .training → (getLport s.chip lp).aligning = false →
    exec (.portTrainingDone lp) s = .next (onChip s (modLport lp (fun p =>
      { p with aligning := true, deadline := localNs s.chip + 10000000 }) s.chip))) ∧
  (∀ (s : State) (lp : Nat), (getLport s.chip lp).st = .training → (getLport s.chip lp).aligning = true → lp < 8 →
    ∃ t, exec (.portPcsLock lp) s = .next t ∧
      (getLport t.chip lp).st = (if (getLport s.chip lp).onFallback = true then .upFallback else .up) ∧
      (getLport t.chip lp).linkUp = true ∧ (getLport t.chip lp).retries = 0 ∧
      (∃ e, t.chip.mgmt.incoming = s.chip.mgmt.incoming ++ [e] ∧ e.code = 0x201 ∧ e.object = lp) ∧ t.mem = s.mem ∧ t.chip.host = s.chip.host) ∧
  (∀ (s : State) (lp : Nat) (lanes : BitVec 4), (getLport s.chip lp).st = .training → (getLport s.chip lp).aligning = false →
    lp < 8 → lpFallback s.chip lp = 0 →
    ∃ t, exec (.portTrainingTimeout lp lanes) s = .next t ∧ (getLport t.chip lp).st = .waiting ∧
      (getLport t.chip lp).failLanes = lanes.toNat ∧ (getLport t.chip lp).retries = (getLport s.chip lp).retries + 1 ∧
      (getLport t.chip lp).deadline = localNs t.chip + 2 ^ min (getLport s.chip lp).retries 4 * 1000000000 ∧
      (getLport s.chip lp).deadline ≤ localNs t.chip ∧
      (∃ e, t.chip.mgmt.incoming = s.chip.mgmt.incoming ++ [e] ∧ e.code = 0x202 ∧ e.object = lp) ∧ t.mem = s.mem) ∧
  (∀ (s : State) (lp : Nat) (lanes : BitVec 4), (getLport s.chip lp).st = .training → (getLport s.chip lp).aligning = false →
    lpFallback s.chip lp ≠ 0 →
    ∃ t, exec (.portTrainingTimeout lp lanes) s = .next t ∧ (getLport t.chip lp).st = .training ∧
      (getLport t.chip lp).aligning = true ∧ (getLport t.chip lp).onFallback = true ∧ t.mem = s.mem) ∧
  (∀ (s : State) (lp : Nat), (getLport s.chip lp).st = .waiting → lpEnabled s.chip lp = true → domOn s.chip (portIsland lp) = true →
    lpMedia s.chip lp = 0 →
    ∃ t, exec (.portRetryWaitExpiry lp) s = .next t ∧ (getLport t.chip lp).st = .negotiating ∧
      (getLport t.chip lp).deadline = localNs t.chip + 500000000 ∧ (getLport s.chip lp).deadline ≤ localNs t.chip ∧ t.mem = s.mem) ∧
  (∀ (s : State) (lp co un cs n : Nat), (getLport s.chip lp).linkUp = true → 24 * n < cs * 100000 → (getLport s.chip lp).fecDegraded = false →
    ∃ t, exec (.fecRatioWindow lp co un cs n) s = .next t ∧ (getLport t.chip lp).fecDegraded = true ∧
      (getLport t.chip lp).uncorrCw = min ((getLport s.chip lp).uncorrCw + un) ctrMax ∧
      (∃ e, t.chip.mgmt.incoming = s.chip.mgmt.incoming ++ [e] ∧ e.code = 0x203 ∧ e.object = lp % 2 ^ 32) ∧ t.mem = s.mem) ∧
  ∀ (s : State) (lp co un cs n : Nat), (getLport s.chip lp).linkUp = true → cs * 100000 < 10 * n → 9 ≤ (getLport s.chip lp).fecGoodS →
    ∃ t, exec (.fecRatioWindow lp co un cs n) s = .next t ∧ (getLport t.chip lp).fecDegraded = false ∧
      t.chip.mgmt = s.chip.mgmt ∧ t.mem = s.mem

/-- A link fault takes the link down, counts it and raises PORT_LINK; losing the reference clock of a media port takes the links of its four logical ports down, and its return lets them run again; GX_PORT_CONFIG with fields in range, on a port whose logical ports no leg uses, sets split, media, MTU, fallback preset and STUN rate and ends OK; GX_PORT_STATUS answers four blocks and changes nothing else. -/
def Obligations.PortClockAndCommands : Prop :=
  (∀ (s : State) (lp : Nat) (lf rf : Bool), (getLport s.chip lp).linkUp = true → lp < 8 →
    ∃ t, exec (.portLinkFault lp lf rf) s = .next t ∧ (getLport t.chip lp).linkUp = false ∧
      (getLport t.chip lp).linkDowns = min ((getLport s.chip lp).linkDowns + 1) ctrMax ∧
      (getLport t.chip lp).localFault = lf ∧ (getLport t.chip lp).remoteFault = rf ∧
      (∃ e ∈ t.chip.mgmt.incoming, e.code = 0x201 ∧ e.object = lp) ∧ t.mem = s.mem) ∧
  (∀ (s : State) (m : Nat), m < 2 → ∃ t, exec (.netRefclkLoss m) s = .next t ∧
    (∀ lp ∈ portLports m, (getLport t.chip lp).clockLost = true ∧ (getLport t.chip lp).linkUp = false) ∧ t.mem = s.mem) ∧
  (∀ (s : State) (m : Nat), m < 2 → ∃ t, exec (.netRefclkReturn m) s = .next t ∧
    (∀ lp ∈ portLports m, (getLport t.chip lp).clockLost = false) ∧ t.mem = s.mem ∧ t.chip.host = s.chip.host) ∧
  (∀ (s : State) (r : CmdRef), Served 0x0200 r s → portConfigFields (bodyAt r s) = none →
    (∀ k < 4, (cfg s.chip).usesLport (4 * bf (bodyAt r s) 0 0 1 + k) = false) →
    ∃ c, exec (.gxPortConfig r) s = .next (ended r (Res.ok []) c s) ∧
      getPort c (bf (bodyAt r s) 0 0 1) =
        { split := bf (bodyAt r s) 0 1 2, media := bf (bodyAt r s) 0 3 2, tsCorr := bit (bw (bodyAt r s) 0) 5,
          mtu := bf (bodyAt r s) 4 0 14, fallback := bf (bodyAt r s) 8 0 4, stunRate := bf (bodyAt r s) 12 0 21 }) ∧
  ∀ (s : State) (r : CmdRef), Served 0x0201 r s →
    exec (.gxPortStatus r) s = .next (replied r (Res.ok ((portLports (bf (bodyAt r s) 0 0 1)).flatMap (fun lp => portBlock (getLport s.chip lp)))) s)

/-- While HUB is on a tick counts one and takes over the waiting tick period; the comparator makes a delayed task READY at its release time; dispatch to a free DMA channel starts the head task there; a running task that its unit has done with ends, its slot is FREE again and its completion record joins its queue; a waiting task that has waited its limit ends and is counted; an unlocked write of SCHED_MODE sets the mode, and one of SCHED_TICK sets the period of the next tick or, outside 5 to 1000, sets CONFIG_ERROR alone. -/
def Obligations.SchedulerRows : Prop :=
  (∀ s : State, domOn s.chip 9 = true → ∃ t, exec .schedTick s = .next t ∧ t.chip.sched.ticks = s.chip.sched.ticks + 1 ∧
    t.chip.sched.tickUs = s.chip.sched.tickNext ∧ t.mem = s.mem) ∧
  (∀ (s : State) (k : Nat), (getTask s.chip k).st = .delayed → (getTask s.chip k).comparator = true →
    (getTask s.chip k).desc.target ≠ 7 → targetAlive (waitSvc (getTask s.chip k).desc.release s.chip) (getTask s.chip k).desc = true →
    ∃ t, exec (.taskRelease k) s = .next t ∧ (getTask t.chip k).st = .ready ∧
      (getTask t.chip k).readyNs = (getTask s.chip k).desc.release ∧ (getTask t.chip k).level = (getTask s.chip k).desc.prio ∧
      t.mem = s.mem) ∧
  (∀ (s : State) (ch k : Nat) (x : Task), domOn s.chip 9 = true → s.chip.gx.draining = 0 → dispatchHead s.chip 4 ch = some (k, x) →
    ∃ t, exec (.taskDispatch 4 ch 0) s = .next t ∧ (getTask t.chip k).st = .running ∧ (getTask t.chip k).unit = ch ∧
      (getTask t.chip k).startNs = svc s.chip ∧ (getChan t.chip ch).task = k + 1 ∧ t.mem = s.mem) ∧
  (∀ (s : State) (k : Nat), s.chip.gx.draining = 0 → (getTask s.chip k).st = .running → (getTask s.chip k).done = true →
    (getTask s.chip k).desc.flowEn = false → (getTask s.chip k).desc.succ0.getLsbD 31 = false →
    (getTask s.chip k).desc.succ1.getLsbD 31 = false → (getTask s.chip k).status = 0 →
    (getTask s.chip k).desc.compq ≠ 0 → (getTask s.chip k).desc.compq ≠ 255 →
    ∃ t, exec (.taskEnd k) s = .next t ∧ (getTask t.chip k).st = .free ∧ t.mem = s.mem ∧
      ∃ e, t.chip.sched.comps = s.chip.sched.comps ++ [e] ∧ e.queue = (getTask s.chip k).desc.compq ∧
        e.task = k + (getTask s.chip k).gen * 2 ^ 18 ∧ e.status = 0) ∧
  (∀ (s : State) (k : Nat), s.chip.sched.mode ≠ 3 → (getTask s.chip k).st = .waiting →
    (getTask s.chip k).waitTick + s.chip.sched.waitTimeout ≤ s.chip.sched.ticks →
    (getTask s.chip k).desc.flowEn = false → (getTask s.chip k).desc.succ0.getLsbD 31 = false →
    (getTask s.chip k).desc.succ1.getLsbD 31 = false →
    ∃ t, exec (.taskWaitTimeout k) s = .next t ∧ (getTask t.chip k).st = .free ∧ (getTask t.chip k).status = 0x8003 ∧ t.mem = s.mem) ∧
  (∀ (s : State) (fn : Nat) (v : Word), bar2Reach s.chip fn = true → domOn s.chip 9 = true → locked s.chip 7 = false →
    ∃ t, exec (.schedModeWrite fn v) s = .next t ∧ t.chip.sched.mode = v.toNat % 4 ∧ t.chip.host = s.chip.host ∧ t.mem = s.mem) ∧
  (∀ (s : State) (fn : Nat) (v : Word), bar2Reach s.chip fn = true → domOn s.chip 9 = true → locked s.chip 7 = false →
    5 ≤ v.toNat % 1024 → v.toNat % 1024 ≤ 1000 →
    exec (.schedTickWrite fn v) s = .next (onChip s (modSched (fun x => { x with tickNext := v.toNat % 1024 }) s.chip))) ∧
  ∀ (s : State) (fn : Nat) (v : Word), bar2Reach s.chip fn = true → domOn s.chip 9 = true → locked s.chip 7 = false →
    v.toNat % 1024 < 5 ∨ 1000 < v.toNat % 1024 →
    exec (.schedTickWrite fn v) s = .next (onChip s (modSched (fun x => { x with events := x.events ||| 0x10#5 }) s.chip))

/-- A submitted null or DMA task without successors, flow or identifier, with a signal to await, takes a slot, waits with its count and answers its identifier; GX_TASK_ALLOC answers as many identifiers as it names; a signal to an allocated task is counted; an allocated task without successors, flow or completion queue that is cancelled ends and answers its state; the scheduler counters are answered, and restart when the command says so; the check of stuck work at the next multiple of 10 ms of local time changes nothing but the clocks where no task runs. -/
def Obligations.TaskCommands : Prop :=
  (∀ (s : State) (r : CmdRef), Served 0x0910 r s →
    (taskDescOf (bodyAt r s)).target = 7 → (taskDescOf (bodyAt r s)).succ0.getLsbD 31 = false →
    (taskDescOf (bodyAt r s)).succ1.getLsbD 31 = false → (taskDescOf (bodyAt r s)).flowEn = false → bw (bodyAt r s) 0x40 = 0 →
    0 < (taskDescOf (bodyAt r s)).depCount → operatorTasks s.chip < operatorLimit → slotsFree s.chip (decide ((taskDescOf (bodyAt r s)).prio < 4)) ≠ 0 →
    ∃ k c, exec (.gxTaskSubmit r) s = .next (ended r (Res.ok [wd (taskId k (getTask c k).gen)]) c s) ∧ (getTask c k).st = .waiting ∧
      (getTask c k).count = (taskDescOf (bodyAt r s)).depCount ∧ (getTask c k).operator = true) ∧
  (∀ (s : State) (r : CmdRef), Served 0x0913 r s → 1 ≤ bf (bodyAt r s) 0 0 7 → bf (bodyAt r s) 0 0 7 ≤ 64 →
    operatorTasks s.chip + bf (bodyAt r s) 0 0 7 ≤ operatorLimit → bf (bodyAt r s) 0 0 7 ≤ slotsFree s.chip false →
    ∃ (l : List Nat) (c : Chip), exec (.gxTaskAlloc r) s = .next (ended r (Res.ok (l.map wd)) c s) ∧ l.length = bf (bodyAt r s) 0 0 7) ∧
  (∀ (s : State) (r : CmdRef) (x : Task), Served 0x0914 r s → 1 ≤ bf (bodyAt r s) 4 0 16 →
    operatorTask s.chip (bw (bodyAt r s) 0) = some x → x.st = .allocated →
    exec (.gxTaskSignal r) s = .next (ended r (Res.ok [1])
      (putTask (taskSlot (bw (bodyAt r s) 0)) { x with count := x.count + bf (bodyAt r s) 4 0 16 } (took r s)) s)) ∧
  (∀ (s : State) (r : CmdRef) (x : Task), Served 0x0911 r s → operatorTask s.chip (bw (bodyAt r s) 0) = some x → x.st = .allocated →
    x.desc.flowEn = false → x.desc.succ0.getLsbD 31 = false → x.desc.succ1.getLsbD 31 = false → x.desc.compq = 0 →
    ∃ c, exec (.gxTaskCancel r) s = .next (ended r (Res.ok [wd (1 + 256)]) c s) ∧
      (getTask c (taskSlot (bw (bodyAt r s) 0))).st = .free ∧ (getTask c (taskSlot (bw (bodyAt r s) 0))).status = 0x8005) ∧
  (∀ (s : State) (r : CmdRef), Served 0x0912 r s →
    exec (.gxSchedCounters r) s = .next (ended r (Res.ok (ctrWords s.chip 0x0912 scopeDev 10))
      (if bit (bw (bodyAt r s) 0) 0 = true then ctrClear 0x0912 scopeDev 10 (took r s) else took r s) s)) ∧
  ∀ s : State, inService s.chip = true → s.chip.mgmt.keeperReset = 0 → s.chip.gx.draining = 0 →
    (∀ k ∈ s.chip.sched.tasks, k.2.st ≠ .running) →
    exec .stuckWorkCheck s = .next (onChip s (waitLocal ((localNs s.chip / 10000000 + 1) * 10000000) s.chip))

/-- A write within the installed memory, with no subchannel frozen, stores its bytes from its address on and leaves every byte outside them; written with the poison mark it poisons every word it touches; a read delivers the bytes and changes none, an uncorrectable word of it being delivered with its poison mark; an access beyond the installed memory stops, because that address does not exist. -/
def Obligations.DramReadWrite : Prop :=
  (∀ (s : State) (src a : Nat) (data : List Byte) (p : Bool), MemInv s → a + data.length ≤ capBytes s.chip → anyFrozen s.chip = false →
    ∃ t, exec (.dramWrite src a data p) s = .next t ∧ (∀ i < data.length, t.mem.byte (a + i) = data.getD i 0) ∧
      (∀ x, x < a ∨ a + data.length ≤ x → t.mem.byte x = s.mem.byte x) ∧
      (p = true → ∀ i < data.length, t.mem.bad (a + i) = true) ∧ t.chip.host = s.chip.host) ∧
  (∀ (s : State) (src a n : Nat), a + n ≤ capBytes s.chip → anyFrozen s.chip = false → markedIn s.mem a n = [] →
    ∃ t, exec (.dramRead src a n []) s = .next t ∧ t.chip.out = .memData src a (s.mem.bytes a n) [] :: s.chip.out ∧ t.mem = s.mem ∧
      t.chip.host = s.chip.host) ∧
  (∀ (s : State) (src a : Nat), a % 8 = 0 → a + 8 ≤ capBytes s.chip → anyFrozen s.chip = false → a < packetBase →
    markedIn s.mem a 8 = [a / 8] → s.mem.bad a = false → 3 ≤ tget 0 s.mem.flips (a / 8) →
    ∃ t, exec (.dramRead src a 8 []) s = .next t ∧ t.chip.out = .memData src a (s.mem.bytes a 8) [a] :: s.chip.out ∧ t.mem = s.mem ∧
      (getSub t.chip (subOf a)).ue = min ((getSub s.chip (subOf a)).ue + 1) ctrMax) ∧
  (∀ (s : State) (src a n : Nat) (e : List (Nat × Nat)), capBytes s.chip < a + n → exec (.dramRead src a n e) s = .fault (.noAddress a)) ∧
  ∀ (s : State) (src a : Nat) (data : List Byte) (p : Bool), capBytes s.chip < a + data.length →
    exec (.dramWrite src a data p) s = .fault (.noAddress a)

/-- A due refresh that is not postponed clears the debt; one that may be postponed adds to it; after its idle time a subchannel is in self-refresh; mode register 4 above the limit doubles refresh and raises MEM_TEMP; a passed training step counts, and the ninth puts the subchannel in service with every word of it zero; a drift above its limit starts retraining, which ends in service, or after a third failure in a row in a freeze with its record; a parity error freezes; a clean burst moves the scrubber on; a location found in error in two SRAM passes in a row is repaired with the spare; an armed injection flips the bits of its mode in the word it names. -/
def Obligations.DramUpkeep : Prop :=
  (∀ (s : State) (u : Nat), u < 24 → (getSub s.chip u).st = 1 ∨ (getSub s.chip u).st = 2 → (getSub s.chip u).selfRefresh = false →
    ∃ t, exec (.refreshDue u false) s = .next t ∧ (getSub t.chip u).debt = 0 ∧ t.mem = s.mem ∧ t.chip.host = s.chip.host) ∧
  (∀ (s : State) (u : Nat), u < 24 → (getSub s.chip u).st = 1 ∨ (getSub s.chip u).st = 2 → (getSub s.chip u).selfRefresh = false →
    (getSub s.chip u).refsb = false → (getSub s.chip u).debt + 4 < 16 →
    ∃ t, exec (.refreshDue u true) s = .next t ∧ (getSub t.chip u).debt = (getSub s.chip u).debt + 4 ∧ t.mem = s.mem) ∧
  (∀ (s : State) (u : Nat), u < 24 → (getSub s.chip u).srEn = true → (getSub s.chip u).selfRefresh = false →
    (getSub s.chip u).st = 1 ∨ (getSub s.chip u).st = 2 →
    ∃ t, exec (.selfRefreshIdle u) s = .next t ∧ (getSub t.chip u).selfRefresh = true ∧
      (getSub s.chip u).lastReq + (getSub s.chip u).srIdleUs * 1000 ≤ localNs t.chip ∧ t.mem = s.mem) ∧
  (∀ (s : State) (u : Nat) (d : Bool) (v : BitVec 8), u < 24 → (getSub s.chip u).st = 1 ∨ (getSub s.chip u).st = 2 →
    ∃ t, exec (.mr4Poll u d true v) s = .next t ∧ (getSub t.chip u).double = true ∧
      (∃ e, t.chip.mgmt.incoming = s.chip.mgmt.incoming ++ [e] ∧ e.code = 0xB08 ∧ e.object = u ∧ e.detail = v.toNat) ∧ t.mem = s.mem) ∧
  (∀ (s : State) (u : Nat), u < 24 → s.chip.pwr.phase = .starting → domOn s.chip 7 = true → domOn s.chip 8 = true →
    (getSub s.chip u).st = 0 → (getSub s.chip u).step < 8 →
    ∃ t, exec (.dramTrainingStepDone u true) s = .next t ∧ (getSub t.chip u).step = (getSub s.chip u).step + 1 ∧
      (getSub t.chip u).st = 0 ∧ t.mem = s.mem) ∧
  (∀ (s : State) (u : Nat), u < 24 → s.chip.pwr.phase = .starting → domOn s.chip 7 = true → domOn s.chip 8 = true →
    (getSub s.chip u).st = 0 → (getSub s.chip u).step = 8 →
    ∃ t, exec (.dramTrainingStepDone u true) s = .next t ∧ (getSub t.chip u).st = 1 ∧
      (∀ a, subOf a = u → a < packetBase → t.mem.byte a = 0) ∧ ∀ a, subOf a ≠ u ∨ packetBase ≤ a → t.mem.byte a = s.mem.byte a) ∧
  (∀ (s : State) (u d : Nat), u < 24 → (getSub s.chip u).st = 1 → (getSub s.chip u).retraining = false → (getSub s.chip u).driftPs < d →
    ∃ t, exec (.retrainInterval u d) s = .next t ∧ (getSub t.chip u).retraining = true ∧ (getSub t.chip u).lastDrift = d ∧ t.mem = s.mem) ∧
  (∀ (s : State) (u : Nat), u < 24 → (getSub s.chip u).retraining = true →
    ∃ t, exec (.retrainStepDone u true true) s = .next t ∧ (getSub t.chip u).retraining = false ∧ (getSub t.chip u).st = 1 ∧
      (getSub t.chip u).consecFails = 0 ∧ t.mem = s.mem) ∧
  (∀ (s : State) (u : Nat), u < 24 → (getSub s.chip u).retraining = true → (getSub s.chip u).consecFails = 2 →
    ∃ t f, exec (.retrainStepDone u true false) s = .next t ∧ (getSub t.chip u).st = 3 ∧ t.chip.dram.freeze = some f ∧ f.reason = 2 ∧
      f.sub = u ∧ (∃ e ∈ t.chip.mgmt.incoming, e.code = 0xB02) ∧ t.mem = s.mem) ∧
  (∀ (s : State) (u : Nat) (k : BitVec 2), u < 24 → (getSub s.chip u).st = 1 ∨ (getSub s.chip u).st = 2 →
    ∃ t f, exec (.caParityError u k) s = .next t ∧ (getSub t.chip u).st = 3 ∧ t.chip.dram.freeze = some f ∧ f.reason = 1 ∧
      f.parityRanks = k.toNat ∧ t.mem = s.mem) ∧
  (∀ s : State, s.chip.dram.scrubEn = true → inService s.chip = true → s.chip.dram.scrubPos + 64 < capBytes s.chip →
    frozen s.chip s.chip.dram.scrubPos = false → markedIn s.mem s.chip.dram.scrubPos 64 = [] →
    exec (.scrubBurst []) s = .next (onChip s { s.chip with dram := { s.chip.dram with scrubPos := s.chip.dram.scrubPos + 64 } })) ∧
  (∀ (s : State) (i w n : Nat), i < 27 → s.chip.dram.sramErr.contains (i * 2 ^ 20 + w) = true →
    s.chip.dram.sramRepairs.contains (i * 2 ^ 20 + w) = false →
    ∃ t, exec (.sramScrubPass [(i, w, false)] (some n)) s = .next t ∧ t.chip.dram.sramRepairs.contains (i * 2 ^ 20 + w) = true ∧
      t.chip.dram.sramErr = [i * 2 ^ 20 + w] ∧ (∃ e, t.chip.mgmt.incoming = s.chip.mgmt.incoming ++ [e] ∧ e.code = 0xB0A ∧ e.object = i) ∧
      t.mem = s.mem) ∧
  ∀ (s : State) (fn : Nat) (lo hi : Word), MemInv s → bar2Reach s.chip fn = true → domOn s.chip 7 = true → domOn s.chip 8 = true → locked s.chip 4 = false →
    (lo.toNat + 2 ^ 32 * hi.toNat) % 8 = 0 → lo.toNat + 2 ^ 32 * hi.toNat < capBytes s.chip → s.chip.dram.injArm = true →
    1 ≤ s.chip.dram.injMode → s.chip.dram.injMode ≤ 3 →
    ∃ t, exec (.injectAddrWrite fn lo hi) s = .next t ∧ t.chip.dram.injArm = false ∧
      tget 0 t.mem.flips ((lo.toNat + 2 ^ 32 * hi.toNat) / 8) = s.chip.dram.injMode ∧ ∀ a, t.mem.byte a = s.mem.byte a

/-- GX_MEM_STATUS answers the configuration, the scrubber and 24 subchannels; GX_MEM_ERRORS writes a subchannel's error tables to host memory; GX_MEM_PPR on a row that may be repaired pauses its bank and is under way with its first step done; GX_MEM_TEST on a buffer of the operator is under way, or where a part of the buffer is frozen ends with GX_E_MEM_FROZEN; GX_MEM_FREEZE_READ writes the newest freeze record to host memory, or says that there is none. -/
def Obligations.MemoryCommands : Prop :=
  (∀ (s : State) (r : CmdRef), Served 0x0B00 r s →
    exec (.gxMemStatus r) s = .next (replied r (Res.ok ([wd (memConfigWord s.chip), wd s.chip.dram.scrubPasses] ++ wd2 s.chip.dram.scrubPos ++
      (List.range 24).flatMap (subStatus s.chip))) s)) ∧
  (∀ (s : State) (r : CmdRef), Served 0x0B01 r s → bf (bodyAt r s) 0 0 5 < 24 → bd (bodyAt r s) 8 % 8 = 0 →
    bit (bw (bodyAt r s) 0) 8 = false →
    exec (.gxMemErrors r) s = .next (ended r (Res.ok [])
      (emit (.hostWrite r.fn (bd (bodyAt r s) 8) (memErrorWords (getSub s.chip (bf (bodyAt r s) 0 0 5)))) (took r s)) s)) ∧
  (∀ (s : State) (r : CmdRef), Served 0x0B02 r s → (slotAt r s).cancel = false → pprRange s.chip (bodyAt r s) = true →
    s.chip.dram.busy = false → (getSub s.chip (bf (bodyAt r s) 0 0 5)).st ≠ 3 →
    (getSub s.chip (bf (bodyAt r s) 0 0 5)).ppr.contains (bf (bodyAt r s) 0 8 1 * 8 + bf (bodyAt r s) 0 12 3) = false →
    ∃ t, exec (.gxMemPpr r) s = .next t ∧ (slotAt r t).st = .progress ∧ (slotAt r t).fraction = 2048 ∧ t.chip.dram.busy = true ∧
      t.chip.dram.pausedBank = some (bf (bodyAt r s) 0 0 5, bf (bodyAt r s) 0 8 1 * 32 + 4 * bf (bodyAt r s) 0 12 3 + bf (bodyAt r s) 0 16 2) ∧
      t.mem = s.mem) ∧
  (∀ (s : State) (r : CmdRef), Served 0x0B03 r s → (slotAt r s).cancel = false → current s.chip (bw (bodyAt r s) 0) = true →
    2 ≤ handlePool (bw (bodyAt r s) 0) → (getBuf s.chip (bw (bodyAt r s) 0)).owner = identity (operatorFn s.chip) 0 →
    s.chip.dram.busy = false → frozenIn s.chip (bufAddr s.chip (bw (bodyAt r s) 0)) (poolBytes (handlePool (bw (bodyAt r s) 0))) = [] →
    ∃ t, exec (.gxMemTest r) s = .next t ∧ (slotAt r t).st = .progress ∧ (slotAt r t).work = [bw (bodyAt r s) 0, 0, 0, 2 ^ 64 - 1] ∧
      t.chip.dram.busy = true ∧ t.mem = s.mem) ∧
  (∀ (s : State) (r : CmdRef) (f : FreezeRec), Served 0x0B04 r s → bd (bodyAt r s) 0 % 8 = 0 →
    s.chip.dram.freeze = some f →
    exec (.gxMemFreezeRead r) s = .next (ended r (Res.ok [1]) (emit (.hostWrite r.fn (bd (bodyAt r s) 0) (freezeWords f)) (took r s)) s)) ∧
  (∀ (s : State) (r : CmdRef), Served 0x0B04 r s → bd (bodyAt r s) 0 % 8 = 0 →
    s.chip.dram.freeze = none → exec (.gxMemFreezeRead r) s = .next (replied r (Res.ok [0]) s)) ∧
  ∀ (s : State) (r : CmdRef), Served 0x0B03 r s → current s.chip (bw (bodyAt r s) 0) = true →
    2 ≤ handlePool (bw (bodyAt r s) 0) → (getBuf s.chip (bw (bodyAt r s) 0)).owner = identity (operatorFn s.chip) 0 →
    s.chip.dram.busy = false → frozenIn s.chip (bufAddr s.chip (bw (bodyAt r s) 0)) (poolBytes (handlePool (bw (bodyAt r s) 0))) ≠ [] →
    exec (.gxMemTest r) s = .next (replied r (Res.err 0x0B01) s)

/-- The next descriptor of a channel's command that passes its checks becomes active and starts, with nothing moved; one that fails them, the last of its command, ends the command with its status; a started copy between two buffers moves every byte to the place its destination names and changes no other byte; PAUSE on an idle channel shows PAUSED at once; a pause in a started descriptor leaves the bytes still to be moved; resume clears both; ABORT of a paused descriptor ends it with GX_E_DMA_ABORTED. -/
def Obligations.DmaDescriptors : Prop :=
  (∀ (s : State) (ch : Nat) (d : DmaDesc) (rest : List DmaDesc), ch < 64 → (getChan s.chip ch).active = false →
    (getChan s.chip ch).pause = false → (getChan s.chip ch).paused = false → (getChan s.chip ch).cqFull = false →
    (getChan s.chip ch).chain = d :: rest → (getChan s.chip ch).cut = [] → checkDesc s.chip d = 0 → d.length ≠ 0 →
    ∃ t, exec (.dmaDescriptorStart ch) s = .next t ∧ (getChan t.chip ch).active = true ∧ (getChan t.chip ch).started = true ∧
      (getChan t.chip ch).act = d ∧ (getChan t.chip ch).actLen = d.length ∧ (getChan t.chip ch).chain = rest ∧
      (getChan t.chip ch).epoch = s.chip.gx.current ∧ t.mem = s.mem) ∧
  (∀ (s : State) (ch : Nat) (d : DmaDesc), ch < 64 → (getChan s.chip ch).active = false →
    (getChan s.chip ch).pause = false → (getChan s.chip ch).paused = false → (getChan s.chip ch).cqFull = false →
    (getChan s.chip ch).chain = [d] → (getChan s.chip ch).cut = [] → (getChan s.chip ch).results = [] → d.record = false → checkDesc s.chip d ≠ 0 →
    (getChan s.chip ch).cmd ≠ 0 → (getSlot s.chip ((getChan s.chip ch).cmd - 1)).open_ = true →
    ∃ t, exec (.dmaDescriptorStart ch) s = .next t ∧ (getChan t.chip ch).active = false ∧ (getChan t.chip ch).cmd = 0 ∧
      (getSlot t.chip ((getChan s.chip ch).cmd - 1)).st = .done ∧ (getSlot t.chip ((getChan s.chip ch).cmd - 1)).status = 0 ∧
      (getSlot t.chip ((getChan s.chip ch).cmd - 1)).word 8 = checkDesc s.chip d ∧ t.mem = s.mem) ∧
  (∀ (s : State) (ch ps pd : Nat) (hs hd : List Byte), ch < 64 → MemInv s → anyFrozen s.chip = false →
    (getChan s.chip ch).active = true → (getChan s.chip ch).started = true → (getChan s.chip ch).paused = false →
    (getChan s.chip ch).act.op = 0 → (getChan s.chip ch).act.srcSpace = 0 → (getChan s.chip ch).act.dstSpace = 0 →
    (getChan s.chip ch).act.record = false →
    spacePieces s.chip 0 (getChan s.chip ch).act.func (getChan s.chip ch).actSrc (getChan s.chip ch).actLen = some [(ps, (getChan s.chip ch).actLen)] →
    spacePieces s.chip 0 (getChan s.chip ch).act.func (getChan s.chip ch).actDst (getChan s.chip ch).actLen = some [(pd, (getChan s.chip ch).actLen)] →
    markedIn s.mem ps (getChan s.chip ch).actLen = [] →
    ∃ t, exec (.dmaDescriptorDone ch hs hd) s = .next t ∧
      (∀ i < (getChan s.chip ch).actLen, t.mem.byte (pd + i) = s.mem.byte (ps + i)) ∧
      ∀ x, x < pd ∨ pd + (getChan s.chip ch).actLen ≤ x → t.mem.byte x = s.mem.byte x) ∧
  (∀ (s : State) (fn ch : Nat), ch < 64 → bar2Reach s.chip fn = true → domOn s.chip 9 = true → locked s.chip 5 = false → (getChan s.chip ch).active = false →
    exec (.dmaPause fn ch) s = .next (onChip s (modChan ch (fun x => { x with pause := true, paused := true }) s.chip))) ∧
  (∀ (s : State) (ch n : Nat) (hs hd : List Byte), ch < 64 → (getChan s.chip ch).active = true → (getChan s.chip ch).started = true →
    (getChan s.chip ch).pause = true → (getChan s.chip ch).paused = false →
    ∃ t, exec (.dmaPaused ch n hs hd) s = .next t ∧ (getChan t.chip ch).paused = true ∧
      (getChan t.chip ch).actLen = (getChan s.chip ch).actLen - n / 16 * 16 ∧ (getChan t.chip ch).act = (getChan s.chip ch).act) ∧
  (∀ (s : State) (fn ch : Nat), ch < 64 → bar2Reach s.chip fn = true → domOn s.chip 9 = true → locked s.chip 5 = false → (getChan s.chip ch).active = true →
    exec (.dmaResume fn ch) s = .next (onChip s (modChan ch (fun x => { x with pause := false, paused := false }) s.chip))) ∧
  ∀ (s : State) (fn ch : Nat), ch < 64 → bar2Reach s.chip fn = true → domOn s.chip 9 = true → locked s.chip 5 = false → (getChan s.chip ch).active = true →
    (getChan s.chip ch).started = true → (getChan s.chip ch).paused = true → (getChan s.chip ch).act.record = false →
    (getChan s.chip ch).cmd = 0 → (getChan s.chip ch).task = 0 → (getChan s.chip ch).arm = false →
    ∃ t, exec (.dmaAbort fn ch) s = .next t ∧ (getChan t.chip ch).active = false ∧ (getChan t.chip ch).outcome.status = 0x0A05 ∧
      (getChan t.chip ch).outcome.bytes = (getChan s.chip ch).outcome.bytes ∧ t.mem = s.mem

/-- ARM while a descriptor is active waits, and DISARM takes it back; a shadow word is written, without the reserved bits of its descriptor, while ARM is 0 and otherwise sets BUSY; a write held in the hand-over cycle is applied after it; the queue's head takes the written value; GX_DMA_SUBMIT with an idle channel gives its descriptors to one; GX_WINDOW_MAP with free pages enough maps every page it names, and with UNMAP takes away those pages of its function alone; a descriptor of a command starts, is carried out, pauses, goes on and is aborted. -/
def Obligations.ShadowAndSubmit : Prop :=
  (∀ (s : State) (fn ch : Nat), bar2Reach s.chip fn = true → domOn s.chip 9 = true → locked s.chip 5 = false → directChan ch = true →
    (getChan s.chip ch).active = true →
    exec (.shadowArm fn ch false) s = .next (onChip s (modChan ch (fun x => { x with arm := true, taken := false }) s.chip))) ∧
  (∀ (s : State) (fn ch : Nat), bar2Reach s.chip fn = true → domOn s.chip 9 = true → locked s.chip 5 = false → directChan ch = true →
    exec (.shadowDisarm fn ch false) s = .next (onChip s (modChan ch (fun x => { x with arm := false }) s.chip))) ∧
  (∀ (s : State) (fn ch w : Nat) (v : Word), bar2Reach s.chip fn = true → domOn s.chip 9 = true → locked s.chip 5 = false → directChan ch = true → w < 8 →
    exec (.shadowWordWrite fn ch w v false) s = .next (onChip s (modChan ch (fun x =>
      if x.arm then { x with busy := true } else { x with sh := tput x.sh w (shadowMask w v) }) s.chip))) ∧
  (∀ (s : State) (ch w : Nat) (v : Word), w < 8 → (getChan s.chip ch).heldWrite = some (0x20 + 4 * w, v) →
    (getChan s.chip ch).arm = false →
    exec (.dmaHeldWriteApply ch) s = .next (onChip s (modChan ch (fun x => { x with heldWrite := none, sh := tput x.sh w (shadowMask w v) }) s.chip))) ∧
  (∀ (s : State) (fn ch : Nat) (v : Word), bar2Reach s.chip fn = true → domOn s.chip 9 = true → locked s.chip 5 = false → directChan ch = true →
    (getChan s.chip ch).stalled = none →
    exec (.dmaCqHeadWrite fn ch v) s = .next (onChip s (settle (modChan ch (fun x => { x with cqHead := v.toNat }) s.chip)))) ∧
  (∀ (s : State) (r : CmdRef), Served 0x0A02 r s → 1 ≤ bf (bodyAt r s) 0 0 5 → bf (bodyAt r s) 0 0 5 ≤ 16 → idleChans s.chip ≠ [] →
    ∃ t ch, exec (.gxDmaSubmit r) s = .next t ∧ ch ∈ idleChans s.chip ∧ (getChan t.chip ch).cmd = slotKey r.fn r.slot + 1 ∧
      (getChan t.chip ch).chain = submitDescs (ctxAt r s) ∧ (slotAt r t).taken = true ∧ t.mem = s.mem) ∧
  (∀ (s : State) (r : CmdRef), Served 0x0A03 r s →
    (∀ p ∈ windowPagesOf (bodyAt r s), (p + 1) * pageBytes ≤ bar4Bytes s.chip r.fn) → bit (bw (bodyAt r s) 8) 0 = false →
    (windowPagesOf (bodyAt r s)).length ≤ (freePages s.chip).length →
    ∃ t, exec (.gxWindowMap r) s = .next t ∧ (slotAt r t).st = .done ∧ (slotAt r t).status = 0 ∧
      ∀ p ∈ windowPagesOf (bodyAt r s), (pageOf t.chip r.fn p).isSome = true) ∧
  (∀ (s : State) (r : CmdRef), Served 0x0A03 r s →
    (∀ p ∈ windowPagesOf (bodyAt r s), (p + 1) * pageBytes ≤ bar4Bytes s.chip r.fn) → bit (bw (bodyAt r s) 8) 0 = true →
    ∃ t, exec (.gxWindowMap r) s = .next t ∧ t.mem = s.mem ∧ t.chip.pools.pages = s.chip.pools.pages.filter (fun e =>
      !(e.1 / 65536 == r.fn && (windowPagesOf (bodyAt r s)).contains (e.1 % 65536)))) ∧
  (∀ (s : State) (ch : Nat) (d : DmaDesc) (rest : List DmaDesc), ch < 64 → (getChan s.chip ch).active = false →
    (getChan s.chip ch).pause = false → (getChan s.chip ch).paused = false → (getChan s.chip ch).cqFull = false →
    (getChan s.chip ch).chain = d :: rest → (getChan s.chip ch).cut = [] → checkDesc s.chip d = 0 → d.length ≠ 0 →
    ∃ t, exec (.dmaDescriptorStart ch) s = .next t ∧ (getChan t.chip ch).active = true ∧ (getChan t.chip ch).started = true ∧
      (getChan t.chip ch).act = d ∧ (getChan t.chip ch).actLen = d.length ∧ t.mem = s.mem) ∧
  (∀ (s : State) (ch ps pd : Nat) (hs hd : List Byte), ch < 64 → MemInv s → anyFrozen s.chip = false →
    (getChan s.chip ch).active = true → (getChan s.chip ch).started = true → (getChan s.chip ch).paused = false →
    (getChan s.chip ch).act.op = 0 → (getChan s.chip ch).act.srcSpace = 0 → (getChan s.chip ch).act.dstSpace = 0 →
    (getChan s.chip ch).act.record = false →
    spacePieces s.chip 0 (getChan s.chip ch).act.func (getChan s.chip ch).actSrc (getChan s.chip ch).actLen = some [(ps, (getChan s.chip ch).actLen)] →
    spacePieces s.chip 0 (getChan s.chip ch).act.func (getChan s.chip ch).actDst (getChan s.chip ch).actLen = some [(pd, (getChan s.chip ch).actLen)] →
    markedIn s.mem ps (getChan s.chip ch).actLen = [] →
    ∃ t, exec (.dmaDescriptorDone ch hs hd) s = .next t ∧ ∀ i < (getChan s.chip ch).actLen, t.mem.byte (pd + i) = s.mem.byte (ps + i)) ∧
  (∀ (s : State) (fn ch : Nat), ch < 64 → bar2Reach s.chip fn = true → domOn s.chip 9 = true → locked s.chip 5 = false → (getChan s.chip ch).active = false →
    exec (.dmaPause fn ch) s = .next (onChip s (modChan ch (fun x => { x with pause := true, paused := true }) s.chip))) ∧
  (∀ (s : State) (ch n : Nat) (hs hd : List Byte), ch < 64 → (getChan s.chip ch).active = true → (getChan s.chip ch).started = true →
    (getChan s.chip ch).pause = true → (getChan s.chip ch).paused = false →
    ∃ t, exec (.dmaPaused ch n hs hd) s = .next t ∧ (getChan t.chip ch).paused = true ∧
      (getChan t.chip ch).actLen = (getChan s.chip ch).actLen - n / 16 * 16) ∧
  (∀ (s : State) (fn ch : Nat), ch < 64 → bar2Reach s.chip fn = true → domOn s.chip 9 = true → locked s.chip 5 = false → (getChan s.chip ch).active = true →
    exec (.dmaResume fn ch) s = .next (onChip s (modChan ch (fun x => { x with pause := false, paused := false }) s.chip))) ∧
  ∀ (s : State) (fn ch : Nat), ch < 64 → bar2Reach s.chip fn = true → domOn s.chip 9 = true → locked s.chip 5 = false → (getChan s.chip ch).active = true →
    (getChan s.chip ch).started = true → (getChan s.chip ch).paused = true → (getChan s.chip ch).act.record = false →
    (getChan s.chip ch).cmd = 0 → (getChan s.chip ch).task = 0 → (getChan s.chip ch).arm = false →
    ∃ t, exec (.dmaAbort fn ch) s = .next t ∧ (getChan t.chip ch).active = false ∧ (getChan t.chip ch).outcome.status = 0x0A05 ∧ t.mem = s.mem

/-- After the gap the governor begins the lowest domain still to be switched on: at once for a step of at most 10 A, otherwise with LOADSTEP_N low for the lead time first; the lead's end begins the ramp; a ramp's end leads to the wake latency, at whose end the domain is usable and PWR_SWITCH_DONE is raised; LOADSTEP_N is released; a domain without power good within twice its ramp is marked failed and switched off again; a unit's start draws on the credit and waits where it is short; VDD_CORE moves by at most 5 mV, 100 µs or more after its last step; an alert of the regulator that is not fatal raises PWR_ALERT. -/
def Obligations.PowerGovernor : Prop :=
  (∀ (s : State) (d : Nat) (l : List Nat), s.chip.pwr.switch = none → s.chip.mgmt.keeperReset = 0 → s.chip.pwr.req.on = d :: l →
    stepAmps d ≤ 10 → ∃ t, exec .powerSwitchBegin s = .next t ∧ s.chip.pwr.gapEnd ≤ localNs t.chip ∧ t.mem = s.mem ∧
      t.chip.pwr.switch = some { dom := d, on := true, phase := .ramp, startNs := localNs t.chip, deadline := localNs t.chip + rampUs d * 1000 }) ∧
  (∀ (s : State) (d : Nat) (l : List Nat), s.chip.pwr.switch = none → s.chip.mgmt.keeperReset = 0 → s.chip.pwr.req.on = d :: l →
    10 < stepAmps d → ∃ t, exec .powerSwitchBegin s = .next t ∧ s.chip.pwr.gapEnd ≤ localNs t.chip ∧ t.chip.pwr.loadstepN = false ∧ t.mem = s.mem ∧
      t.chip.pwr.switch = some { dom := d, on := true, phase := .lead, startNs := localNs t.chip,
                                 deadline := localNs t.chip + s.chip.pwr.leadUs * 1000 }) ∧
  (∀ (s : State) (w : Switch), s.chip.pwr.switch = some w → w.phase = .lead → w.on = true →
    ∃ t, exec .loadstepLeadExpiry s = .next t ∧ w.deadline ≤ localNs t.chip ∧ t.mem = s.mem ∧
      t.chip.pwr.switch = some { dom := w.dom, on := true, phase := .ramp, startNs := localNs t.chip,
                                 deadline := localNs t.chip + rampUs w.dom * 1000 }) ∧
  (∀ (s : State) (w : Switch), s.chip.pwr.switch = some w → w.phase = .ramp → w.on = true →
    ∃ t, exec .powerRampEnd s = .next t ∧ w.deadline ≤ localNs t.chip ∧ t.mem = s.mem ∧
      t.chip.pwr.switch = some { w with phase := .wake, deadline := w.startNs + wakeUs w.dom * 1000 }) ∧
  (∀ (s : State) (w : Switch), s.chip.pwr.switch = some w → w.phase = .wake → w.on = true → w.dom < 24 → s.chip.pwr.phase = .starting →
    ∃ t, exec .powerDomainUsable s = .next t ∧ domOn t.chip w.dom = true ∧ t.chip.pwr.switch = none ∧ w.deadline ≤ localNs t.chip ∧
      (∃ e ∈ t.chip.mgmt.incoming, e.code = 0xE01 ∧ e.object = w.dom) ∧ t.mem = s.mem) ∧
  (∀ s : State, s.chip.pwr.loadstepN = false → s.chip.pwr.loadstepEnd ≠ 0 →
    ∃ t, exec .loadstepRelease s = .next t ∧ t.chip.pwr.loadstepN = true ∧ s.chip.pwr.loadstepEnd ≤ localNs t.chip ∧ t.mem = s.mem) ∧
  (∀ (s : State) (w : Switch), s.chip.pwr.switch = some w → w.phase = .ramp ∨ w.phase = .wake → w.on = true → w.dom < 24 →
    ∃ t, exec .powerGoodTimeout s = .next t ∧ t.chip.pwr.failed.contains w.dom = true ∧ t.chip.pwr.req.fault = true ∧
      w.startNs + 2 * rampUs w.dom * 1000 ≤ localNs t.chip ∧ (∃ x, t.chip.pwr.switch = some x ∧ x.dom = w.dom ∧ x.on = false ∧ x.phase = .undo) ∧
      (∃ e, t.chip.mgmt.incoming = s.chip.mgmt.incoming ++ [e] ∧ e.code = 0xE02 ∧ e.object = w.dom) ∧ t.mem = s.mem) ∧
  (∀ (s : State) (k : Nat), unitAmps k ≤ creditAfter s.chip.pwr.credit (s.chip.time.cyc - s.chip.pwr.creditCyc) →
    ∃ t, exec (.unitStartCredit k) s = .next t ∧ t.chip.time.cyc = s.chip.time.cyc ∧ t.mem = s.mem ∧
      t.chip.pwr.credit = creditAfter s.chip.pwr.credit (s.chip.time.cyc - s.chip.pwr.creditCyc) - unitAmps k) ∧
  (∀ (s : State) (k : Nat), s.chip.pwr.creditCyc ≤ s.chip.time.cyc →
    creditAfter s.chip.pwr.credit (s.chip.time.cyc - s.chip.pwr.creditCyc) < unitAmps k →
    ∃ t, exec (.unitStartCredit k) s = .next t ∧ s.chip.time.cyc < t.chip.time.cyc ∧ t.mem = s.mem ∧
      unitAmps k ≤ creditAfter s.chip.pwr.credit (t.chip.time.cyc - s.chip.pwr.creditCyc)) ∧
  (∀ s : State, s.chip.pwr.vcoreOn = true → s.chip.pwr.switch = none → s.chip.pwr.mvNow < s.chip.pwr.mvTarget →
    ∃ t, exec .vcoreStep s = .next t ∧ t.chip.pwr.mvNow = min (s.chip.pwr.mvNow + 5) s.chip.pwr.mvTarget ∧
      s.chip.pwr.vcoreStepNs + 100000 ≤ localNs t.chip ∧ t.mem = s.mem) ∧
  ∀ (s : State) (v : BitVec 16), exec (.pmbAlert v false) s =
    .next (onChip s (raise 0 0xE03 none 0 v.toNat (modPwr (fun p => { p with events := p.events ||| 1 }) s.chip)))

/-- A low AON or IO supply resets the device to the held state, empties memory and keeps the configuration items and the freeze record; its release starts the device with cause 1; a core or memory supply that falls in service, and the loss of SYS_REFCLK, stop the device with the fatal alarm and its cause; once the supplies are back it starts with cause 4; loss of the twin clock takes the twin link down; a requested warm reset begins the power-down no earlier than it is due; a good image of the marked slot is booted and a bad one is noted; the start-up steps go on to service and raise START_DONE. -/
def Obligations.ResetsAndStart : Prop :=
  (∀ (s : State) (rail : Nat), rail < 2 → ∃ t, exec (.powerOnReset rail) s = .next t ∧ t.chip.pwr.phase = .held ∧
    t.chip.pwr.pgLow.contains rail = true ∧ t.chip.gx = .reset ∧ t.chip.sched = .reset ∧ t.chip.mgmt.config = s.chip.mgmt.config ∧
    t.chip.dram.freeze = s.chip.dram.freeze ∧ ∀ a < 2 * packetBase, t.mem.byte a = 0) ∧
  (∀ (s : State) (b : Nat), s.chip.pwr.phase = .held → ∃ t, exec (.powerOnResetRelease b) s = .next t ∧ t.chip.pwr.phase = .starting ∧
    t.chip.pwr.step = 1 ∧ t.chip.pwr.cause = 1 ∧ t.chip.pwr.bootMode = b % 8 ∧ t.mem = s.mem) ∧
  (∀ (s : State) (rail : Nat), 2 ≤ rail → rail < 7 → inService s.chip = true →
    ∃ t, exec (.pwrgdLoss rail) s = .next t ∧ t.chip.pwr.phase = .fatal ∧ t.chip.mgmt.fatalCause = 2 ∧ t.chip.mgmt.foghornN = false ∧
      (∃ e ∈ t.chip.mgmt.incoming, e.code = 0xF01 ∧ e.object = 2 ∧ e.detail = rail) ∧ t.mem = s.mem) ∧
  (∀ (s : State) (rail b : Nat), s.chip.pwr.phase = .fatal → s.chip.mgmt.fatalCause = 2 → (∀ x ∈ s.chip.pwr.pgLow, x = rail) →
    ∃ t, exec (.pwrgdRestore rail b) s = .next t ∧ t.chip.pwr.phase = .starting ∧ t.chip.pwr.cause = 4 ∧ t.chip.pwr.bootMode = b % 8) ∧
  (∀ s : State, ∃ t, exec .sysRefclkLoss s = .next t ∧ t.chip.pwr.phase = .fatal ∧ t.chip.mgmt.fatalCause = 5 ∧
    t.chip.mgmt.foghornN = false ∧ t.chip.pwr.refclk = false ∧ t.mem = s.mem) ∧
  (∀ s : State, ∃ t, exec .twinRefclkLoss s = .next t ∧ t.chip.twin.phyUp = false ∧ (getLport t.chip twinLport).linkUp = false ∧ t.mem = s.mem) ∧
  (∀ (s : State) (b : Nat), s.chip.pwr.resetAt ≠ 0 → ∃ t, exec (.deviceWarmReset b) s = .next t ∧ t.chip.pwr.phase = .warmDown ∧
    t.chip.pwr.resetAt = 0 ∧ t.chip.pwr.bootMode = b % 8 ∧ s.chip.pwr.resetAt ≤ localNs t.chip ∧ t.mem = s.mem) ∧
  (∀ (s : State) (v : Nat), s.chip.pwr.phase = .starting → s.chip.pwr.step = 4 → s.chip.pwr.bootMode = 0 → s.chip.pwr.tried = [] →
    Config.minSecurityVersion ≤ v →
    exec (.bootImageReadDone true true true v) s = .next (onChip s
      (modPwr (fun p => { p with step := 5, slotB := p.activeB, fromHost := false, fallback := false }) s.chip))) ∧
  (∀ (s : State) (k g : Bool) (v : Nat), s.chip.pwr.phase = .starting → s.chip.pwr.step = 4 → s.chip.pwr.bootMode = 0 → s.chip.pwr.tried = [] →
    exec (.bootImageReadDone false k g v) s = .next (onChip s (modPwr (fun p => { p with tried := [4] }) s.chip))) ∧
  (∀ (s : State) (u : BitVec 20), s.chip.pwr.phase = .starting → s.chip.pwr.step = 1 → s.chip.pwr.bootMode < 4 →
    exec (.startupStepDone true u) s = .next (onChip s (modPwr (fun p => { p with step := 2 }) s.chip))) ∧
  (∀ (s : State) (u : BitVec 20), s.chip.pwr.phase = .starting → s.chip.pwr.step = 2 → s.chip.pwr.pgLow = [] →
    exec (.startupStepDone true u) s = .next (onChip s (modPwr (fun p =>
      { p with step := 3, vcoreOn := true, mvNow := 800, mvTarget := 800, req := { PowerCmd.none with on := [1, 9, 10, 2] } }) s.chip))) ∧
  ∀ (s : State) (u : BitVec 20), s.chip.pwr.phase = .starting → s.chip.pwr.step = 11 → haveOn s.chip (startDomains s.chip) = true →
    ∃ t, exec (.startupStepDone true u) s = .next t ∧ t.chip.pwr.phase = .service ∧ t.chip.pwr.step = 12 ∧ t.chip.mgmt.foghornN = true ∧
      (∃ e, t.chip.mgmt.incoming = s.chip.mgmt.incoming ++ [e] ∧ e.code = 0xE04) ∧ t.mem = s.mem

/-- A request to switch on media or interface domains that are off and have not failed goes to the governor under the command's slot; one that names AON or a base domain ends with GX_E_PWR_BASE and the domains that are on; a clock setting within range that leaves the committed work its capacity sets the target of every cluster it names; GX_DEVICE_RESET ends OK and makes a warm reset due 10 ms later; GX_IMAGE_VERIFY asks host memory for the image and is under way. -/
def Obligations.PowerCommands : Prop :=
  (∀ (s : State) (r : CmdRef), Served 0x0E00 r s → bf (bodyAt r s) 0 0 24 &&& bf (bodyAt r s) 4 0 24 = 0 →
    (∀ d ∈ maskDomains (bf (bodyAt r s) 0 0 24) ++ maskDomains (bf (bodyAt r s) 4 0 24), isBaseDomain d = false ∧ s.chip.pwr.failed.contains d = false) →
    (∀ d ∈ maskDomains (bf (bodyAt r s) 4 0 24), domOn s.chip d = false) →
    (∃ d ∈ maskDomains (bf (bodyAt r s) 0 0 24), domOn s.chip d = false) → powerBusy s.chip = false →
    ∃ t, exec (.gxPowerDomainSet r) s = .next t ∧ t.chip.pwr.req = { PowerCmd.none with cmd := slotKey r.fn r.slot + 1, on := (maskDomains (bf (bodyAt r s) 0 0 24)).filter (fun d => !domOn s.chip d) } ∧ t.chip.pwr.on = s.chip.pwr.on ∧ t.mem = s.mem) ∧
  (∀ (s : State) (r : CmdRef), Served 0x0E00 r s → bf (bodyAt r s) 0 0 24 &&& bf (bodyAt r s) 4 0 24 = 0 →
    (∃ d ∈ maskDomains (bf (bodyAt r s) 0 0 24) ++ maskDomains (bf (bodyAt r s) 4 0 24), isBaseDomain d = true) →
    exec (.gxPowerDomainSet r) s = .next (replied r { Res.err 0x0E01 with body := [wd s.chip.pwr.on.toNat] } s)) ∧
  (∀ (s : State) (r : CmdRef), Served 0x0E01 r s → 350 ≤ bf (bodyAt r s) 4 0 11 → bf (bodyAt r s) 4 0 11 ≤ 1400 →
    bf (bodyAt r s) 4 0 11 % 50 = 0 → usage s.chip 12 ≤ capacity (setClocks (bw (bodyAt r s) 0) (bf (bodyAt r s) 4 0 11) s.chip) 12 →
    ∃ c, exec (.gxClusterClockSet r) s = .next (ended r (Res.ok []) c s) ∧
      ∀ cl < 32, bit (bw (bodyAt r s) 0) cl = true → tget 0 c.pwr.clkTarget cl = bf (bodyAt r s) 4 0 11) ∧
  (∀ (s : State) (r : CmdRef), Served 0x0E02 r s → bf (bodyAt r s) 0 0 16 = 0xD0A7 →
    exec (.gxDeviceReset r) s = .next (ended r (Res.ok [])
      (modPwr (fun p => { p with resetAt := localNs s.chip + 10000000, resetCause := 2 }) (took r s)) s)) ∧
  ∀ (s : State) (r : CmdRef), Served 0x0E10 r s → 1 ≤ bw (bodyAt r s) 8 → bw (bodyAt r s) 8 ≤ 16777216 → hostReach s.chip r.fn = true →
    (slotAt r s).cancel = false →
    ∃ t, exec (.gxImageVerify r) s = .next t ∧ (slotAt r t).st = .progress ∧
      t.chip.out = .hostRead r.fn (bd (bodyAt r s) 0) (bw (bodyAt r s) 8) :: s.chip.out ∧ t.mem = s.mem

/-- A write to a slot that is not EMPTY, a submit naming one, and a retire or a cancel whose slot and tag do not match a slot in the required state leave every slot as it was and set their ERR_STATUS bit (1, 0, 2 and 3); memory is unchanged. -/
def Obligations.SlotMisuseIgnored : Prop :=
  (∀ (s : State) (fn k w : Nat) (v : Word), barReach s.chip fn = true → k < 64 → (getSlot s.chip (slotKey fn k)).st ≠ .empty →
    ∃ t, exec (.slotWrite fn k w v) s = .next t ∧ t.chip.host.slots = s.chip.host.slots ∧
      (getFn t.chip fn).errStatus = withErr s.chip fn 1 ∧ t.mem = s.mem) ∧
  (∀ (s : State) (fn : Nat) (v : Word), barReach s.chip fn = true → (getFn s.chip fn).enable = true →
    (getSlot s.chip (slotKey fn (bits v.toNat 0 6))).st ≠ .empty →
    ∃ t, exec (.dbSubmit fn v) s = .next t ∧ t.chip.host.slots = s.chip.host.slots ∧
      (getFn t.chip fn).errStatus = withErr s.chip fn 0 ∧ t.mem = s.mem) ∧
  (∀ (s : State) (fn : Nat) (v : Word), barReach s.chip fn = true →
    (getSlot s.chip (slotKey fn (bits v.toNat 16 6))).st ≠ .done ∨ (getSlot s.chip (slotKey fn (bits v.toNat 16 6))).tag ≠ bits v.toNat 0 16 →
    ∃ t, exec (.dbRetire fn v) s = .next t ∧ t.chip.host.slots = s.chip.host.slots ∧
      (getFn t.chip fn).errStatus = withErr s.chip fn 2 ∧ t.mem = s.mem) ∧
  ∀ (s : State) (fn : Nat) (v : Word), barReach s.chip fn = true →
    (getSlot s.chip (slotKey fn (bits v.toNat 16 6))).open_ = false ∨ (getSlot s.chip (slotKey fn (bits v.toNat 16 6))).tag ≠ bits v.toNat 0 16 →
    ∃ t, exec (.dbCancel fn v) s = .next t ∧ t.chip.host.slots = s.chip.host.slots ∧
      (getFn t.chip fn).errStatus = withErr s.chip fn 3 ∧ t.mem = s.mem

/-- An unaligned access that reaches BAR0 of a function, or BAR2, adds one to ERR_COUNT of the function whose BAR it addresses (for BAR2 the operator function), returns all ones on a read, and changes nothing else: no ERR_STATUS bit is set. -/
def Obligations.UnalignedAccessCounted : Prop :=
  ∀ (s : State) (fn : Nat) (bar2 rd : Bool), accessReach s.chip fn bar2 = true →
    ∃ t, exec (.unalignedAccess fn bar2 rd) s = .next t ∧
      t.chip.out = (if rd = true then [.readData fn [0xFFFFFFFF]] else []) ++ s.chip.out ∧
      (getFn t.chip (if bar2 = true then operatorFn s.chip else fn)).errCount =
        min ((getFn s.chip (if bar2 = true then operatorFn s.chip else fn)).errCount + 1) 0xFFFFFFFF ∧
      (∀ f, (getFn t.chip f).errStatus = (getFn s.chip f).errStatus) ∧ t.chip.host.slots = s.chip.host.slots ∧
      t.chip.gx = s.chip.gx ∧ t.chip.pools = s.chip.pools ∧ t.chip.mgmt = s.chip.mgmt ∧ t.mem = s.mem

/-- A write within one mapped page of the window stores its bytes at the device address that the page maps to, and changes no byte outside them; a write within an unmapped page changes no byte and is counted; a read within an unmapped page returns zeros and changes no byte; a clean read within a mapped page returns its bytes. -/
def Obligations.Bar4Window : Prop :=
  (∀ (s : State) (fn a d : Nat) (data : List Byte), MemInv s → barReach s.chip fn = true → data ≠ [] → anyFrozen s.chip = false →
    a % pageBytes + data.length ≤ pageBytes → windowAddr s.chip fn a = some d →
    ∃ t, exec (.bar4Write fn a data false) s = .next t ∧ (∀ i < data.length, t.mem.byte (d + i) = data.getD i 0) ∧
      ∀ x, x < d ∨ d + data.length ≤ x → t.mem.byte x = s.mem.byte x) ∧
  (∀ (s : State) (fn a : Nat) (data : List Byte) (p : Bool), barReach s.chip fn = true → data ≠ [] →
    a % pageBytes + data.length ≤ pageBytes → windowAddr s.chip fn a = none →
    exec (.bar4Write fn a data p) s = .next (onChip s (errCount fn s.chip))) ∧
  (∀ (s : State) (fn a n : Nat), barReach s.chip fn = true → 0 < n → a % pageBytes + n ≤ pageBytes → windowAddr s.chip fn a = none →
    exec (.bar4Read fn a n) s = .next (onChip s (emit (.readData fn (wordsOf (List.replicate n 0))) s.chip))) ∧
  ∀ (s : State) (fn a n d : Nat), barReach s.chip fn = true → 0 < n → a % pageBytes + n ≤ pageBytes → windowAddr s.chip fn a = some d →
    anyFrozen s.chip = false → markedIn s.mem d n = [] →
    exec (.bar4Read fn a n) s = .next (onChip s (emit (.readData fn (wordsOf (s.mem.bytes d n))) s.chip))

/-- A word is written into an EMPTY slot; a submit of an EMPTY slot of an enabled function captures it as BUSY with its tag and its place in the order; a matching retire empties a DONE slot; a matching cancel marks a stepped command and leaves any other; FN_CTRL takes its four bits; a head within range is taken; EVQ_LOST, ERR_COUNT and B2_DOMAIN_MISS are returned and cleared; a poisoned write is reported and marked; B2_UNLOCK with its key opens the locks it names and with another raises BAR2_LOCK_VIOLATION; an access to a block whose domain is off is counted and reads all ones; an unaligned access is counted and does nothing else; an access to BAR4 within a mapped page writes or reads the bytes the page maps to. -/
def Obligations.MailboxRegisters : Prop :=
  (∀ (s : State) (fn k w : Nat) (v : Word), barReach s.chip fn = true → k < 64 → w < 128 → (getSlot s.chip (slotKey fn k)).st = .empty →
    exec (.slotWrite fn k w v) s = .next (onChip s (modSlot (slotKey fn k) (fun x => { x with words := tput x.words w v }) s.chip))) ∧
  (∀ (s : State) (fn : Nat) (v : Word), barReach s.chip fn = true → (getFn s.chip fn).enable = true →
    (getSlot s.chip (slotKey fn (bits v.toNat 0 6))).st = .empty →
    ∃ t, exec (.dbSubmit fn v) s = .next t ∧ t.chip.host.nextOrder = s.chip.host.nextOrder + 1 ∧
      (getSlot t.chip (slotKey fn (bits v.toNat 0 6))).st = .busy ∧
      (getSlot t.chip (slotKey fn (bits v.toNat 0 6))).tag = bits ((getSlot s.chip (slotKey fn (bits v.toNat 0 6))).word 0) 16 16 ∧
      (getSlot t.chip (slotKey fn (bits v.toNat 0 6))).order = s.chip.host.nextOrder ∧
      (getSlot t.chip (slotKey fn (bits v.toNat 0 6))).words = (getSlot s.chip (slotKey fn (bits v.toNat 0 6))).words ∧
      (getSlot t.chip (slotKey fn (bits v.toNat 0 6))).opAtCapture = isOperator s.chip fn ∧
      (∀ k, k ≠ slotKey fn (bits v.toNat 0 6) → getSlot t.chip k = getSlot s.chip k) ∧ t.mem = s.mem) ∧
  (∀ (s : State) (fn : Nat) (v : Word), barReach s.chip fn = true → (getSlot s.chip (slotKey fn (bits v.toNat 16 6))).st = .done →
    (getSlot s.chip (slotKey fn (bits v.toNat 16 6))).tag = bits v.toNat 0 16 →
    exec (.dbRetire fn v) s = .next (onChip s (putSlot (slotKey fn (bits v.toNat 16 6)) Slot.zero s.chip))) ∧
  (∀ (s : State) (fn : Nat) (v : Word), barReach s.chip fn = true → (getSlot s.chip (slotKey fn (bits v.toNat 16 6))).open_ = true →
    (getSlot s.chip (slotKey fn (bits v.toNat 16 6))).tag = bits v.toNat 0 16 →
    exec (.dbCancel fn v) s = .next (onChip s (if steppedOps.contains (getSlot s.chip (slotKey fn (bits v.toNat 16 6))).op = true
      then modSlot (slotKey fn (bits v.toNat 16 6)) (fun x => { x with cancel := true }) s.chip else s.chip))) ∧
  (∀ (s : State) (fn : Nat) (v : Word), barReach s.chip fn = true → v.getLsbD 1 = false →
    exec (.fnCtrlWrite fn v) s = .next (onChip s (modFn fn (fun f =>
      { f with enable := v.getLsbD 0, evqEnable := false, purgeOnReset := v.getLsbD 2, errIrqEn := v.getLsbD 3 }) s.chip))) ∧
  (∀ (s : State) (fn : Nat) (v : Word), barReach s.chip fn = true → v.getLsbD 1 = true → (getFn s.chip fn).evqEnable = false →
    evqValid (getFn s.chip fn) = false → exec (.fnCtrlWrite fn v) s = .next (onChip s (errAccess fn 5 s.chip))) ∧
  (∀ (s : State) (fn : Nat) (v : Word), barReach s.chip fn = true → v.toNat < 2 ^ (getFn s.chip fn).evqLog2 →
    (v.toNat + 2 ^ (getFn s.chip fn).evqLog2 - (getFn s.chip fn).evqHead) % 2 ^ (getFn s.chip fn).evqLog2 ≤
      ((getFn s.chip fn).evqTail + 2 ^ (getFn s.chip fn).evqLog2 - (getFn s.chip fn).evqHead) % 2 ^ (getFn s.chip fn).evqLog2 →
    exec (.evqHeadWrite fn v) s = .next (onChip s (modFn fn (fun f => { f with evqHead := v.toNat }) s.chip))) ∧
  (∀ (s : State) (fn : Nat), barReach s.chip fn = true → exec (.evqLostRead fn) s =
    .next (onChip s (emit (.readData fn [wd (getFn s.chip fn).evqLost]) (modFn fn (fun f => { f with evqLost := 0 }) s.chip)))) ∧
  (∀ (s : State) (fn : Nat), barReach s.chip fn = true → exec (.errCountRead fn) s =
    .next (onChip s (emit (.readData fn [wd (getFn s.chip fn).errCount]) (modFn fn (fun f => { f with errCount := 0 }) s.chip)))) ∧
  (∀ (s : State) (fn : Nat), bar2Reach s.chip fn = true → blockOff s.chip 0xC = false → exec (.b2DomainMissRead fn) s =
    .next (onChip s (emit (.readData fn [wd s.chip.host.b2DomainMiss]) { s.chip with host := { s.chip.host with b2DomainMiss := 0 } }))) ∧
  (∀ (s : State) (fn : Nat) (b : Bool), accessReach s.chip fn b = true → exec (.poisonedWriteTlp fn b) s =
    .next (onChip s (errAccess (accessFn s.chip fn b) 6 (emit (.aer (accessFn s.chip fn b) 0) s.chip)))) ∧
  (∀ (s : State) (fn : Nat) (v : Word), bar2Reach s.chip fn = true → bits v.toNat 16 16 = 0xB2C1 →
    ∃ t, exec (.b2Unlock fn v) s = .next t ∧ t.mem = s.mem ∧
      ∀ i < 10, locked t.chip i = (locked s.chip i && !(decide (1 ≤ i) && bit v.toNat i))) ∧
  (∀ (s : State) (fn : Nat) (v : Word), bar2Reach s.chip fn = true → bits v.toNat 16 16 ≠ 0xB2C1 →
    exec (.b2Unlock fn v) s = .next (onChip s (raise 2 0x2 none 8 v.toNat s.chip))) ∧
  (∀ (s : State) (fn a : Nat) (rd : Bool), bar2Reach s.chip fn = true → blockOff s.chip a = true →
    ∃ t, exec (.bar2DomainOffAccess fn a rd) s = .next t ∧ t.chip.host.b2DomainMiss = min (s.chip.host.b2DomainMiss + 1) 0xFFFFFFFF ∧
      t.chip.out = (if rd = true then [.readData fn [0xFFFFFFFF]] else []) ++ s.chip.out ∧ t.mem = s.mem) ∧
  (∀ (s : State) (fn : Nat) (b rd : Bool), accessReach s.chip fn b = true → exec (.unalignedAccess fn b rd) s =
    .next (onChip s (errCount (accessFn s.chip fn b) (if rd = true then emit (.readData fn [0xFFFFFFFF]) s.chip else s.chip)))) ∧
  (∀ (s : State) (fn a d : Nat) (data : List Byte), MemInv s → barReach s.chip fn = true → data ≠ [] → anyFrozen s.chip = false →
    a % pageBytes + data.length ≤ pageBytes → windowAddr s.chip fn a = some d →
    ∃ t, exec (.bar4Write fn a data false) s = .next t ∧ (∀ i < data.length, t.mem.byte (d + i) = data.getD i 0) ∧
      ∀ x, x < d ∨ d + data.length ≤ x → t.mem.byte x = s.mem.byte x) ∧
  ∀ (s : State) (fn a n d : Nat), barReach s.chip fn = true → 0 < n → a % pageBytes + n ≤ pageBytes → windowAddr s.chip fn a = some d →
    anyFrozen s.chip = false → markedIn s.mem d n = [] →
    exec (.bar4Read fn a n) s = .next (onChip s (emit (.readData fn (wordsOf (s.mem.bytes d n))) s.chip))

/-- A pending message is sent when its vector is unmasked or Bus Master becomes enabled; the collector takes the oldest record, stores it in the log ring while there is room, and a stored record frees its room; a coalescing time-out sends the queue's message; a payload that arrives is held for its command, and one that fails ends the command with GX_E_HOST_FETCH; a captured command of an opcode that no table assigns ends with GX_E_OPCODE. -/
def Obligations.EventsAndFetches : Prop :=
  (∀ (s : State) (fn v : Nat), fnExists s.chip fn = true → v < msixSize fn → (getFn s.chip fn).busMaster = true →
    (getFn s.chip fn).msixPend = [v] →
    ∃ t, exec (.msixUnmask fn v) s = .next t ∧ t.chip.out = .msix fn v :: s.chip.out ∧ (getFn t.chip fn).msixPend = [] ∧
      (getFn t.chip fn).msixOpen.contains v = true ∧ t.mem = s.mem) ∧
  (∀ (s : State) (fn v : Nat), fnExists s.chip fn = true → (getFn s.chip fn).msixPend = [v] → (getFn s.chip fn).msixOpen.contains v = true →
    ∃ t, exec (.busMasterEnable fn true) s = .next t ∧ t.chip.out = .msix fn v :: s.chip.out ∧ (getFn t.chip fn).msixPend = [] ∧
      (getFn t.chip fn).busMaster = true ∧ t.mem = s.mem) ∧
  (∀ (s : State) (r : EvRec) (l : List EvRec), s.chip.mgmt.incoming = r :: l → s.chip.mgmt.buffered < 4096 →
    ∃ t, exec .eventCollect s = .next t ∧ t.chip.mgmt.buffered = s.chip.mgmt.buffered + 1 ∧
      tget (r, false) t.chip.mgmt.log.slots s.chip.mgmt.log.head = (r, s.chip.mgmt.log.lap) ∧
      l <+: t.chip.mgmt.incoming ∧ t.mem = s.mem) ∧
  (∀ s : State, exec .logStoreWrite s =
    .next (onChip s (modMgmt (fun m => { m with buffered := m.buffered - 1 }) s.chip))) ∧
  (∀ (s : State) (fn : Nat), 0 < (getFn s.chip fn).unsignalled → 0 < (getFn s.chip fn).coalCount → 0 < (getFn s.chip fn).coalUs →
    ∃ t, exec (.evqCoalesceTimeout fn) s = .next t ∧ (getFn t.chip fn).unsignalled = 0 ∧
      (getFn s.chip fn).oldestNs + (getFn s.chip fn).coalUs * 1000 ≤ localNs t.chip ∧ t.mem = s.mem) ∧
  (∀ (s : State) (r : CmdRef) (a n : Nat) (d : List Word), (slotAt r s).fetch = .waiting a n → d.length = (n + 3) / 4 →
    exec (.payloadFetchDone r d) s = .next (onChip s (modSlot (slotKey r.fn r.slot) (fun x => { x with fetch := .got d }) s.chip))) ∧
  (∀ (s : State) (r : CmdRef) (a n : Nat), (slotAt r s).fetch = .waiting a n → (slotAt r s).open_ = true →
    ∃ t, exec (.payloadFetchFail r) s = .next t ∧ (slotAt r t).st = .done ∧ (slotAt r t).status = 0x0001 ∧ (slotAt r t).resultBytes = 16 ∧
      t.mem = s.mem) ∧
  (∀ (s : State) (r : CmdRef), firmwareUp s.chip = true → (getFn s.chip r.fn).ready = true →
    slotTurn s.chip (slotKey r.fn r.slot) (slotAt r s) = true → assignedOp (slotAt r s).op = false →
    ∃ t, exec (.unassignedOpcode r) s = .next t ∧ (slotAt r t).st = .done ∧ (slotAt r t).status = 0x0006 ∧ t.mem = s.mem)

/-- PERST_N, a hot reset, a link down, a lost reference clock and an FLR empty every slot of the functions they reset, end their sessions and raise FUNCTION_RESET; a link that comes up has its speed and width and raises LINK_STATE; PERST_N released answers with retry; a function is READY again when its FLR or its link's set-up completes in service; a power-state change and VF Enable take effect. -/
def Obligations.LinkAndFunctionResets : Prop :=
  (∀ (s : State) (n fn : Nat) (op : Instr), linkExists s.chip n = true → (getLink s.chip n).perst = false → (getLink s.chip n).up = true →
    fn ∈ linkFns s.chip n → op = .perstAssert n ∨ op = .pcieHotReset n ∨ op = .pcieLinkDown n ∨ op = .pcieRefclkLoss n →
    ∃ t, exec op s = .next t ∧ (getLink t.chip n).up = false ∧ (∀ k < 64, (getSlot t.chip (slotKey fn k)).st = .empty) ∧
      (∀ e ∈ t.chip.gx.sessions, e.2.fn ≠ fn) ∧ (getFn t.chip fn).ready = false ∧ (getFn t.chip fn).enable = false ∧
      (∃ e ∈ t.chip.mgmt.incoming, e.code = 0x3 ∧ e.object = fn % 2 ^ 32) ∧ t.mem = s.mem) ∧
  (∀ (s : State) (fn g : Nat), fnExists s.chip fn = true → (getLink s.chip (linkOf s.chip.host.split fn)).up = true →
    g ∈ (if isVf fn = true then [fn] else vfsOf s.chip (fn / 64) ++ [fn]) →
    ∃ t, exec (.flr fn) s = .next t ∧ (∀ k < 64, (getSlot t.chip (slotKey g k)).st = .empty) ∧ (getFn t.chip g).flrBusy = true ∧
      (getFn t.chip g).ready = false ∧
      (∀ f, f ∉ (if isVf fn = true then [fn] else vfsOf s.chip (fn / 64) ++ [fn]) → (getFn t.chip f).ready = (getFn s.chip f).ready) ∧
      t.mem = s.mem) ∧
  (∀ (s : State) (n : Nat), linkExists s.chip n = true → (getLink s.chip n).perst = true →
    exec (.perstRelease n) s = .next (onChip s (emit (.retry n) (modLink n (fun l => { l with perst := false }) s.chip)))) ∧
  (∀ (s : State) (n sp w : Nat), linkExists s.chip n = true → (getLink s.chip n).perst = false → domOn s.chip 2 = true →
    linkTrains s.chip n sp w = true →
    ∃ t, exec (.pcieLinkUp n sp w) s = .next t ∧ (getLink t.chip n).up = true ∧ (getLink t.chip n).speed = sp ∧ (getLink t.chip n).width = w ∧
      (∃ e, t.chip.mgmt.incoming = s.chip.mgmt.incoming ++ [e] ∧ e.code = 0x5 ∧ e.object = n % 2 ^ 32) ∧ t.mem = s.mem) ∧
  (∀ (s : State) (fn : Nat), (getFn s.chip fn).flrBusy = true →
    exec (.flrComplete fn) s = .next (onChip s (modFn fn (fun f => { f with flrBusy := false, ready := inService s.chip }) s.chip))) ∧
  (∀ (s : State) (n fn : Nat), inService s.chip = true → (getLink s.chip n).up = true → fn ∈ linkFns s.chip n → (getFn s.chip fn).flrBusy = false →
    ∃ t, exec (.functionReady n) s = .next t ∧ (getFn t.chip fn).ready = true ∧ t.mem = s.mem) ∧
  (∀ (s : State) (fn : Nat) (b : Bool), fnExists s.chip fn = true →
    exec (.d3hotTransition fn b) s = .next (onChip s (modFn fn (fun f => { f with d3hot := b }) s.chip))) ∧
  ∀ (s : State) (pf n : Nat), pf < 4 → 1 ≤ n → n ≤ 63 → ∃ t, exec (.vfEnableChange pf n) s = .next t ∧
    (∀ i, 1 ≤ i → i ≤ n → fnExists t.chip (64 * pf + i) = true) ∧ fnExists t.chip (64 * pf + n + 1) = decide (n = 63 ∧ pf < 3) ∧ t.mem = s.mem

/-- A write to an offset of BAR2 that no register occupies changes nothing; B2_LOCK closes the locks written 1 and opens none; a write through a closed lock raises BAR2_LOCK_VIOLATION alone; scheduler, power and pool registers take values within range, and a watermark that breaks the order only sets CONFIG_ERROR; the high-word write of EVQ_BASE commits the pair; the low-word read of a 64-bit register returns its low word and captures its high word. -/
def Obligations.RegisterAccess : Prop :=
  (∀ (s : State) (fn a : Nat) (v : Word), bar2Reach s.chip fn = true → a % 4 = 0 → 11 ≤ b2Block a → domOn s.chip 2 = true →
    exec (.registerWrite fn 2 a v) s = .next s) ∧
  (∀ (s : State) (fn : Nat) (v : Word), bar2Reach s.chip fn = true → domOn s.chip 2 = true →
    ∃ t, exec (.registerWrite fn 2 4 v) s = .next t ∧ t.mem = s.mem ∧
      ∀ i < 10, locked t.chip i = (locked s.chip i || (decide (1 ≤ i) && v.getLsbD i))) ∧
  (∀ (s : State) (fn : Nat) (v : Word), bar2Reach s.chip fn = true → domOn s.chip 9 = true → locked s.chip 7 = true →
    exec (.registerWrite fn 2 0x70000C v) s = .next (onChip s (raise 2 0x2 none 0x70000C v.toNat s.chip))) ∧
  (∀ (s : State) (fn : Nat) (v : Word), bar2Reach s.chip fn = true → domOn s.chip 9 = true → locked s.chip 7 = false →
    1 ≤ v.toNat % 65536 → 4 ≤ bits v.toNat 16 4 →
    exec (.registerWrite fn 2 0x70000C v) s = .next (onChip s (modSched (fun x =>
      { x with agePeriod := v.toNat % 65536, ageCeiling := bits v.toNat 16 4, ageEn := v.getLsbD 20 }) s.chip))) ∧
  (∀ (s : State) (fn : Nat) (v : Word), bar2Reach s.chip fn = true → domOn s.chip 0 = true → locked s.chip 3 = false →
    5 ≤ bits v.toNat 0 8 → bits v.toNat 0 8 ≤ 100 → 10 ≤ bits v.toNat 8 8 →
    exec (.registerWrite fn 2 0x30000C v) s = .next (onChip s (modPwr (fun p => { p with leadUs := bits v.toNat 0 8, gapUs := bits v.toNat 8 8 }) s.chip))) ∧
  (∀ (s : State) (fn p : Nat) (v : Word), bar2Reach s.chip fn = true → domOn s.chip 9 = true → locked s.chip 6 = false → p < 8 →
    (getPool s.chip p).wmCritical < (getPool s.chip p).wmWarning → (getPool s.chip p).wmWarning < v.toNat % 2 ^ 24 →
    v.toNat % 2 ^ 24 ≤ (getPool s.chip p).count →
    ∃ t, exec (.registerWrite fn 2 (0x600010 + 0x100 * p) v) s = .next t ∧ (getPool t.chip p).wmCaution = v.toNat % 2 ^ 24 ∧ t.mem = s.mem) ∧
  (∀ (s : State) (fn p : Nat) (v : Word), bar2Reach s.chip fn = true → domOn s.chip 9 = true → locked s.chip 6 = false → p < 8 →
    v.toNat % 2 ^ 24 ≤ (getPool s.chip p).wmWarning →
    exec (.registerWrite fn 2 (0x600010 + 0x100 * p) v) s = .next (onChip s (modPool p (fun x => { x with events := x.events ||| 8#4 }) s.chip))) ∧
  (∀ (s : State) (fn : Nat) (v : Word), fn < 256 → barReach s.chip fn = true → (getFn s.chip fn).evqEnable = false →
    exec (.registerWrite fn 0 0x10C v) s = .next (onChip s (modFn fn (fun f =>
      { f with evqBase := BitVec.ofNat 64 ((tget 0 f.wrLow 0x108).toNat + 2 ^ 32 * v.toNat) }) s.chip))) ∧
  ∀ (s : State) (fn bar a x : Nat), regReach s.chip fn bar = true → ownRead bar a = false → a % 4 = 0 → (bar ≠ 0 → blockOff s.chip a = false) →
    isEstimate bar a = false → reg64 s.chip fn bar a = some x →
    ∃ t, exec (.lowWordRead fn bar a) s = .next t ∧ t.chip.out = .readData fn [wd (x % 2 ^ 32)] :: s.chip.out ∧
      tfind (getFn t.chip fn).rdHigh (a + 4) = some (wd (x / 2 ^ 32)) ∧ t.mem = s.mem

/-- When it is its turn, the step of a repair whose subchannel is not frozen ends the command OK, adds the row to the repair map, takes one soft repair of the bank group, resumes the bank and raises MEM_REPAIRED. -/
def Obligations.RepairCompletes : Prop :=
  ∀ (s : State) (r : CmdRef) (u rank bg bank row : Nat), firmwareUp s.chip = true → (getFn s.chip r.fn).ready = true → r.slot < 64 →
    (slotAt r s).st = .progress → (slotAt r s).op = 0x0B02 → (slotAt r s).fetch = .idle → (slotAt r s).cancel = false →
    firstInLine s.chip (slotKey r.fn r.slot) (slotAt r s).turn = true → (slotAt r s).work = [u, rank, bg, bank, row] →
    (getSub s.chip u).st ≠ 3 →
    ∃ t, exec (.commandStep r) s = .next t ∧ (slotAt r t).st = .done ∧ (slotAt r t).status = 0 ∧
      t.chip.dram.repairMap = s.chip.dram.repairMap ++ [(u, rank, bg, bank, row)] ∧
      (getSub t.chip u).ppr = (getSub s.chip u).ppr ++ [rank * 8 + bg] ∧ t.chip.dram.pausedBank = none ∧ t.chip.dram.busy = false ∧
      (∃ e ∈ t.chip.mgmt.incoming, e.code = 0xB07) ∧ t.mem = s.mem

/-- Through a free port, IDENTITY, STATUS, LIFE, CONFIG_GET, LOG_READ, THERMAL, SPARE_MAP, AGEING and RAILS with fields in range answer status 0 with their response and change nothing but the port (RAILS draws 24 free values for its power estimates, log 30); a request with a wrong PEC answers 5 once; a code that no table lists answers 2; the response read returns the newest answer, and that of STATUS ends the alert; the alert response and an assigned address follow. -/
def Obligations.ManagementReports : Prop :=
  (∀ (s : State) (f : List Word), portFree s → exec (.identity (.port true f)) s = .next (portAnswer 1 (identityWords s.chip) s.chip s)) ∧
  (∀ (s : State) (f : List Word), portFree s → exec (.status (.port true f)) s = .next (portAnswer 2 (statusWords s.chip) s.chip s)) ∧
  (∀ (s : State) (f : List Word), portFree s → exec (.life (.port true f)) s = .next (portAnswer 8 (lifeWords s.chip) s.chip s)) ∧
  (∀ (s : State) (i : Word), portFree s → 1 ≤ i.toNat → i.toNat ≤ 15 →
    exec (.configGet (.port true [i])) s = .next (portAnswer 5 [wd (config s.chip i.toNat)] s.chip s)) ∧
  (∀ (s : State) (p i n : Word), portFree s → p.toNat ≤ 1 → i.toNat < ringSlots (p.toNat == 1) → 1 ≤ n.toNat → n.toNat ≤ 7 →
    exec (.logRead (.port true [p, i, n])) s = .next (portAnswer 7
      ((ringOf s.chip (p.toNat == 1)).headWord :: (ringOf s.chip (p.toNat == 1)).read (ringSlots (p.toNat == 1)) i.toNat n.toNat) s.chip s)) ∧
  (∀ (s : State) (a n : Word), portFree s → 1 ≤ n.toNat → n.toNat ≤ 64 → a.toNat + n.toNat ≤ 64 →
    exec (.thermal (.port true [a, n])) s = .next (onChip s (respond false 3 ⟨0,
      (List.range n.toNat).flatMap (fun i => halfBytes (unsigned 16 (tget 0 s.chip.mgmt.temps (a.toNat + i)))), s.chip⟩))) ∧
  (∀ (s : State) (k i : Word), portFree s → k.toNat ≤ 2 → i.toNat < (if k.toNat = 0 then 32 else 4) →
    ∃ t, exec (.spareMap (.port true [k, i])) s = .next t ∧ t.chip.mgmt.port.status = 0 ∧
      t.chip.mgmt.port.resp.length = (unitsOf k.toNat i.toNat).length ∧ t.chip.mgmt.units = s.chip.mgmt.units ∧ t.mem = s.mem) ∧
  (∀ (s : State) (i : Word), portFree s → i.toNat < 198 →
    ∃ t, exec (.ageing (.port true [i])) s = .next t ∧ t.chip.mgmt.port.status = 0 ∧ t.chip.mgmt.port.resp.length = 68 ∧
      t.chip.mgmt.drift = s.chip.mgmt.drift ∧ t.mem = s.mem) ∧
  (∀ (s : State) (f : List Word), portFree s → ∃ t, exec (.rails (.port true f)) s = .next t ∧ t.chip.mgmt.port.status = 0 ∧
    t.chip.mgmt.port.resp.take 14 = (List.range 7).flatMap (fun r => halfBytes (tget 0 s.chip.mgmt.rails (r * 8))) ∧
    t.chip.pwr = s.chip.pwr ∧ t.mem = s.mem) ∧
  (∀ (s : State) (f : List Word), keeperUp s.chip = true →
    exec (.identity (.port false f)) s = .next (onChip s (modMgmt (fun m => { m with port := { m.port with once := 5 } }) s.chip))) ∧
  (∀ (s : State) (f : List Word) (code : Nat), portFree s → knownCodes.contains code = false →
    exec (.unknownCode (.port true f) code) s = .next (onChip s (respond false code (kErr 2 s.chip)))) ∧
  (∀ s : State, keeperUp s.chip = true → s.chip.mgmt.port.once = 0 → s.chip.mgmt.port.busy = false → s.chip.mgmt.port.code = 2 →
    exec .mgmtResponseRead s = .next (onChip s (emit (.mgmtData s.chip.mgmt.port.status s.chip.mgmt.port.resp)
      (modMgmt (fun m => { m with alert := false }) s.chip)))) ∧
  (∀ s : State, keeperUp s.chip = true → s.chip.mgmt.alert = true →
    exec .smbusAlertResponse s = .next (onChip s (emit (.mgmtData 0 [BitVec.ofNat 8 (portAddr s.chip)]) s.chip))) ∧
  ∀ (s : State) (a : Nat), keeperUp s.chip = true → 0x08 ≤ a → a ≤ 0x77 →
    exec (.smbusAddressResolution a) s = .next (onChip s (modMgmt (fun m => { m with arpAddr := a }) s.chip))

/-- CONFIG_SET of a valid item stores it; LAMP_SET lights a lamp for its seconds, and the override ends when they have passed; SEVERITY_SET sets and clears the severity of a code; SPARE_RETIRE of a unit that is not retired is accepted; DEVICE_RESET with its key makes a warm reset due; KEEPER_RESET with its key and a failed self-check reset the Keeper for 20 ms, after which it runs; IMAGE_CHUNK and IMAGE_END through the mailbox stage an image and, when it authenticates, boot it. -/
def Obligations.ManagementActs : Prop :=
  (∀ (s : State) (i v : Word), portFree s → configValid i.toNat v.toNat = true → i.toNat ≠ 2 →
    exec (.configSet (.port true [i, v])) s = .next (portAnswer 6 [] (modMgmt (fun m => { m with config := tput m.config i.toNat v.toNat }) s.chip) s)) ∧
  (∀ (s : State) (p n sec : Word), portFree s → p.toNat ≤ 5 → 1 ≤ sec.toNat → sec.toNat ≤ 65535 →
    exec (.lampSet (.port true [0, p, n, sec])) s = .next (portAnswer 11 [] (modMgmt (fun m => { m with
      lampA := { on := true, pattern := p.toNat, n := n.toNat, endNs := localNs s.chip + sec.toNat * 1000000000 } }) s.chip) s)) ∧
  (∀ s : State, s.chip.mgmt.lampA.on = true → ∃ t, exec (.lampOverrideExpiry 0) s = .next t ∧ t.chip.mgmt.lampA = .zero ∧
    s.chip.mgmt.lampA.endNs ≤ localNs t.chip ∧ t.mem = s.mem) ∧
  (∀ (s : State) (k v : Word), portFree s → k.toNat ≤ 65535 → v.toNat ≤ 5 →
    exec (.severitySet (.port true [k, v])) s = .next (portAnswer 12 [] (modMgmt (fun m => { m with severity := tput m.severity k.toNat v.toNat }) s.chip) s)) ∧
  (∀ (s : State) (n : Word), portFree s → n.toNat < 52 → (getUnit s.chip 1 n.toNat).st ≠ .retired →
    exec (.spareRetire (.port true [1, n])) s = .next (portAnswer 13 [] (beginRetire 1 n.toNat 4 s.chip) s)) ∧
  (∀ s : State, portFree s → exec (.deviceReset (.port true [0xD0A7])) s =
    .next (portAnswer 16 [] (modPwr (fun p => { p with resetAt := localNs s.chip + 1, resetCause := 3 }) s.chip) s)) ∧
  (∀ s : State, portFree s → ∃ t, exec (.keeperReset (.port true [0x4B45])) s = .next t ∧
    t.chip.mgmt.keeperReset = localNs s.chip + 20000000 ∧ keeperUp t.chip = false ∧ t.mem = s.mem) ∧
  (∀ s : State, keeperUp s.chip = true → exec .keeperSelfCheck s = .next (onChip s (modMgmt (fun m =>
    { m with keeperReset := localNs s.chip + 20000000, port := .zero, mailbox := .zero }) s.chip))) ∧
  (∀ s : State, s.chip.mgmt.keeperReset ≠ 0 → ∃ t, exec .keeperResetDone s = .next t ∧ t.chip.mgmt.keeperReset = 0 ∧
    s.chip.mgmt.keeperReset ≤ localNs t.chip ∧ t.mem = s.mem) ∧
  (∀ s : State, boxHolds s 0x20 → s.chip.mgmt.waitImage = true → kf (boxFields s) 0 + kf (boxFields s) 1 % 65536 + 1 ≤ 16777216 →
    ∃ t, exec (.imageChunk .mailbox) s = .next t ∧ t.chip.mgmt.mailbox.status = 0 ∧ t.chip.mgmt.mailbox.busy = false ∧
      t.chip.mgmt.image = stageBytes s.chip.mgmt.image (kf (boxFields s) 0)
        ((bytesOf (wordsGet s.chip.mgmt.kmbStage 0 ((kf (boxFields s) 1 % 65536 + 1 + 3) / 4))).take (kf (boxFields s) 1 % 65536 + 1)) ∧ t.mem = s.mem) ∧
  ∀ (s : State) (v : Nat), boxHolds s 0x21 → s.chip.mgmt.waitImage = true → kf (boxFields s) 0 ≤ 16777216 → Config.minSecurityVersion ≤ v →
    s.chip.pwr.tried = [] →
    ∃ t, exec (.imageEnd .mailbox true true v) s = .next t ∧ t.chip.mgmt.mailbox.status = 0 ∧ t.chip.mgmt.waitImage = false ∧
      t.chip.pwr.step = 5 ∧ t.chip.pwr.fromHost = true ∧ t.mem = s.mem

/-- A kick is noted; a processor silent for WDOG_MS restarts the control complex, whose hold ends after 1 ms in recovery, and recovery's end clears FW_RESTARTING and selects SERVICE; a sensor reading is kept, at the warning limit it raises THERMAL_WARN, and at the throttle limit the die's clock steps down by 50 MHz; the hard trip switches every domain but AON off; a rail out of range for 1 ms raises RAIL_OUT; the daily, monthly and hourly measurements are kept; a unit that passes its self-test is back in service, and a retiring unit that is idle gives way to a spare. -/
def Obligations.KeeperWatches : Prop :=
  (∀ (s : State) (p : Nat), p < 4 → domOn s.chip 1 = true → s.chip.mgmt.holdEnd = 0 →
    exec (.wdogKick p) s = .next (onChip s (modMgmt (fun m => { m with kicks := tput m.kicks p (localNs s.chip) }) s.chip))) ∧
  (∀ s : State, inService s.chip = true → s.chip.mgmt.keeperReset = 0 → s.chip.mgmt.holdEnd = 0 →
    ∃ t, exec (.wdogRestart none) s = .next t ∧ (silentProc s.chip).2 + config s.chip 8 * 1000000 ≤ localNs t.chip ∧
      t.chip.host.fwRestarting = true ∧ t.chip.mgmt.holdEnd = localNs t.chip + 1000000 ∧
      (∃ e ∈ t.chip.mgmt.incoming, e.code = 0xF02 ∧ e.object = (silentProc s.chip).1 % 2 ^ 32) ∧ t.mem = s.mem) ∧
  (∀ s : State, s.chip.mgmt.holdEnd ≠ 0 → ∃ t, exec .ctrlResetHoldEnd s = .next t ∧ t.chip.mgmt.holdEnd = 0 ∧ t.chip.sched.mode = 2 ∧
    s.chip.mgmt.holdEnd ≤ localNs t.chip ∧ t.mem = s.mem) ∧
  (∀ s : State, s.chip.mgmt.recovering = true → s.chip.mgmt.holdEnd = 0 → ∃ t, exec .fwRecoveryDone s = .next t ∧
    t.chip.host.fwRestarting = false ∧ t.chip.mgmt.recovering = false ∧ t.chip.sched.mode = 3 ∧ t.mem = s.mem) ∧
  (∀ (s : State) (n : Nat) (v : Int), n < 24 → s.chip.mgmt.keeperReset = 0 → (config s.chip 13 : Int) * 8 ≤ v → v < 880 →
    s.chip.mgmt.warned.contains n = false →
    ∃ t, exec (.thermalSample n v) s = .next t ∧ tget 0 t.chip.mgmt.temps n = v ∧ t.chip.mgmt.warned.contains n = true ∧
      (∃ e, t.chip.mgmt.incoming = s.chip.mgmt.incoming ++ [e] ∧ e.code = 0xF04 ∧ e.object = n) ∧ t.mem = s.mem) ∧
  (∀ (s : State) (d cl f : Nat), d < 4 → (tget Throttle.zero s.chip.mgmt.throttle d).active = true →
    (tget Throttle.zero s.chip.mgmt.throttle d).restoring = false → s.chip.pwr.clkNow = [(cl, f)] → cl / 8 = d → 400 ≤ f →
    ∃ t, exec (.thermalClockStep d) s = .next t ∧ t.chip.pwr.clkNow = [(cl, f - 50)] ∧
      (tget Throttle.zero s.chip.mgmt.throttle d).nextNs ≤ localNs t.chip ∧ t.mem = s.mem) ∧
  (∀ (s : State) (v : Int), 920 ≤ v → s.chip.mgmt.keeperReset = 0 → ∃ t, exec (.thermalHardTrip 0 v) s = .next t ∧ t.chip.pwr.on = 1 ∧
    t.chip.pwr.phase = .fatal ∧ t.chip.mgmt.foghornN = false ∧ t.chip.mgmt.fatalCause = 6 ∧ t.mem = s.mem) ∧
  (∀ (s : State) (r d mv : Nat), r < 7 → d < 5 → mv * 100 < railNominal s.chip r * 95 ∨ railNominal s.chip r * 105 < mv * 100 →
    2 ≤ tget 0 s.chip.mgmt.railOut (r * 8 + d) → tget 0 s.chip.mgmt.railOut (r * 8 + d) + 1000000 ≤ localNs s.chip + 2 →
    ∃ t, exec (.railSample r d mv) s = .next t ∧ tget 0 t.chip.mgmt.rails (r * 8 + d) = mv ∧
      (∃ e, t.chip.mgmt.incoming = s.chip.mgmt.incoming ++ [e] ∧ e.code = 0xF06 ∧ e.object = r) ∧ t.mem = s.mem) ∧
  (∀ (s : State) (i v : Nat), s.chip.mgmt.keeperReset = 0 → s.chip.pwr.phase = .service → ∃ t, exec (.ageingMeasure [(i, v)]) s = .next t ∧
    tget 0 t.chip.mgmt.drift i = v ∧ s.chip.mgmt.ageNs + 86400000000000 ≤ localNs t.chip ∧ t.mem = s.mem) ∧
  (∀ s : State, s.chip.mgmt.keeperReset = 0 → s.chip.pwr.phase = .service → ∃ t, exec .ageingHistoryStore s = .next t ∧
    s.chip.mgmt.histNs + 2592000000000000 ≤ localNs t.chip ∧ t.chip.mgmt.histMax = -32768 ∧ t.chip.mgmt.drift = s.chip.mgmt.drift ∧ t.mem = s.mem) ∧
  (∀ s : State, s.chip.mgmt.keeperReset = 0 → s.chip.pwr.phase = .service → ∃ t, exec .lifeCounterWrite s = .next t ∧
    t.chip.mgmt.hours = s.chip.mgmt.hours + 1 ∧ s.chip.mgmt.lifeNs + 3600000000000 ≤ localNs t.chip ∧
    tget 0 t.chip.mgmt.bins (tempBin (hottest s.chip)) = tget 0 s.chip.mgmt.bins (tempBin (hottest s.chip)) + 1 ∧ t.mem = s.mem) ∧
  (∀ (s : State) (n : Nat), (getUnit s.chip 1 n).st = .selfTest →
    ∃ t, exec (.unitSelfTestDone 1 n true) s = .next t ∧ (getUnit t.chip 1 n).st = .inService ∧
      (getUnit s.chip 1 n).testEnd ≤ localNs t.chip ∧ t.mem = s.mem) ∧
  ∀ (s : State) (n i : Nat), s.chip.mgmt.remap = unitKey 1 n + 1 → n < 52 → unitIdle s.chip 1 n = true →
    (unitPeers 1 n).find? (fun j => (getUnit s.chip 1 j).st == .spare) = some i → i ≠ n → s.chip.mgmt.remapLater = [] →
    ∃ t, exec .spareRemapComplete s = .next t ∧ (getUnit t.chip 1 n).st = .retired ∧ (getUnit t.chip 1 i).st = .inService ∧
      (getUnit t.chip 1 i).logical = (getUnit s.chip 1 n).logical ∧
      (∃ e ∈ t.chip.mgmt.incoming, e.code = 0xF09) ∧ t.mem = s.mem

/-- GX_LOG_READ writes the records it names to host memory and answers the ring's head; GX_LIFE_STATUS answers the life counters. -/
def Obligations.LogAndLifeCommands : Prop :=
  (∀ (s : State) (r : CmdRef), Served 0x0F00 r s → bf (bodyAt r s) 4 0 16 < ringSlots (bit (bw (bodyAt r s) 0) 0) →
    1 ≤ bf (bodyAt r s) 8 0 13 → bf (bodyAt r s) 8 0 13 ≤ 4096 → bd (bodyAt r s) 16 % 8 = 0 → hostReach s.chip r.fn = true →
    exec (.gxLogRead r) s = .next (ended r (Res.ok [(ringOf s.chip (bit (bw (bodyAt r s) 0) 0)).headWord])
      (emit (.hostWrite r.fn (bd (bodyAt r s) 16) ((ringOf s.chip (bit (bw (bodyAt r s) 0) 0)).read
        (ringSlots (bit (bw (bodyAt r s) 0) 0)) (bf (bodyAt r s) 4 0 16) (bf (bodyAt r s) 8 0 13))) (took r s)) s)) ∧
  ∀ (s : State) (r : CmdRef), Served 0x0F01 r s → exec (.gxLifeStatus r) s = .next (replied r (Res.ok (lifeWords s.chip)) s)

/-- An instruction that may issue alone has its effect on the primary set and moves the pc on: arithmetic puts its value in flight for one bundle and sets SAT where it saturates; a load of a clean word in range puts its bytes in flight for three, a store replaces its bytes in the word and an atomic operation adds to its word of shared memory; a branch or jump transfers behind two delay slots; XFER opens a transfer, WAIT and FENCE pass with none open; MFC reads, MTC clears and NOP does nothing else. -/
def Obligations.EngineScalar : Prop :=
  (∀ (s : State) (e d s1 : Nat) (op : AluOp) (v : Word), engRuns s e (.alu op d s1 (.imm v)) →
    ∃ t, exec (.scalarAlu e op d s1 (.imm v) none) s = .next t ∧
      issuedQuiet s t e { (engSet s e).result (.g d) ((aluApply op ((engSet s e).rg s1) v (Config.fresh s.chip.free)).1.setWidth 64) 1 false with
        sat := (engSet s e).sat || (aluApply op ((engSet s e).rg s1) v (Config.fresh s.chip.free)).2 }) ∧
  (∀ (s : State) (e x k : Nat) (d : Int), engRuns s e (.load x k (.offset d) 2 false) →
    ((engSet s e).address k (.offset d) 4).1.toNat % 4 = 0 →
    urange false (engSet s e) ((engSet s e).address k (.offset d) 4).1.toNat 4 = some .local_ →
    (tget PWord.zero (getEng s.chip e).mem (((engSet s e).address k (.offset d) 4).1.toNat / 8)).poison = false →
    ∃ t, exec (.load e x k (.offset d) 2 false none) s = .next t ∧ issuedQuiet s t e ((engSet s e).result (.g x)
      (BitVec.ofNat 64 ((tget PWord.zero (getEng s.chip e).mem (((engSet s e).address k (.offset d) 4).1.toNat / 8)).get
        ((engSet s e).address k (.offset d) 4).1.toNat 4)) 3 false)) ∧
  (∀ (s : State) (e x k : Nat) (d : Int), engRuns s e (.store x k (.offset d) 2) →
    ((engSet s e).address k (.offset d) 4).1.toNat % 4 = 0 →
    urange false (engSet s e) ((engSet s e).address k (.offset d) 4).1.toNat 4 = some .local_ →
    ∃ t, exec (.store e x k (.offset d) 2 none) s = .next t ∧ issuedAs s t e (engSet s e) ∧
      tget PWord.zero (getEng t.chip e).mem (((engSet s e).address k (.offset d) 4).1.toNat / 8) =
        (tget PWord.zero (getEng s.chip e).mem (((engSet s e).address k (.offset d) 4).1.toNat / 8)).set
          ((engSet s e).address k (.offset d) 4).1.toNat 4 ((engSet s e).rg x).toNat ∧
      ∀ w, w ≠ ((engSet s e).address k (.offset d) 4).1.toNat / 8 →
        tget PWord.zero (getEng t.chip e).mem w = tget PWord.zero (getEng s.chip e).mem w) ∧
  (∀ (s : State) (e x k : Nat) (d : Int), engRuns s e (.atomic 0 x k (.offset d)) →
    ((engSet s e).address k (.offset d) 4).1.toNat % 4 = 0 →
    urange false (engSet s e) ((engSet s e).address k (.offset d) 4).1.toNat 4 = some .shared →
    (tget PWord.zero (getCluster s.chip (e / 32)).shared (((engSet s e).address k (.offset d) 4).1.toNat / 8)).poison = false →
    ∃ t, exec (.atomic e 0 x k (.offset d) none) s = .next t ∧
      (∃ u, issuedAs s t e u ∧ u.flight.length = (engSet s e).flight.length + 1) ∧
      tget PWord.zero (getCluster t.chip (e / 32)).shared (((engSet s e).address k (.offset d) 4).1.toNat / 8) =
        (tget PWord.zero (getCluster s.chip (e / 32)).shared (((engSet s e).address k (.offset d) 4).1.toNat / 8)).set
          ((engSet s e).address k (.offset d) 4).1.toNat 4
          (wd ((tget PWord.zero (getCluster s.chip (e / 32)).shared (((engSet s e).address k (.offset d) 4).1.toNat / 8)).get
            ((engSet s e).address k (.offset d) 4).1.toNat 4) + (engSet s e).rg x).toNat) ∧
  (∀ (s : State) (e s1 : Nat), engRuns s e (.xfer s1) → ((engSet s e).rg s1).toNat % 16 = 0 → ((engSet s e).rg s1).toNat + 16 ≤ 0xE000 →
    (tget PWord.zero (getEng s.chip e).mem (((engSet s e).rg s1).toNat / 8)).poison = false →
    (tget PWord.zero (getEng s.chip e).mem (((engSet s e).rg s1).toNat / 8 + 1)).poison = false → (engSet s e).open_ = [] →
    ∃ t x, exec (.xfer e s1 none) s = .next t ∧ issuedQuiet s t e { engSet s e with xfers := (engSet s e).xfers ++ [x] } ∧ x.failed = 0 ∧
      x.handle = (tget PWord.zero (getEng s.chip e).mem (((engSet s e).rg s1).toNat / 8 + 1)).val.toNat % 2 ^ 32) ∧
  (∀ (s : State) (e m : Nat), engRuns s e (.wait m) → (engSet s e).xfers = [] →
    ∃ t, exec (.wait e m none) s = .next t ∧ issuedQuiet s t e (engSet s e)) ∧
  (∀ (s : State) (e : Nat), engRuns s e .fence → (engSet s e).open_ = [] →
    ∃ t, exec (.fence e none) s = .next t ∧ issuedQuiet s t e (engSet s e)) ∧
  (∀ (s : State) (e cond s1 : Nat) (off : Int), engRuns s e (.branch cond s1 off) →
    ∃ t, exec (.branch e cond s1 off none) s = .next t ∧ issuedQuiet s t e { engSet s e with branch := some { left := 3, target := if condHolds cond ((engSet s e).rg s1) = true then some ((engSet s e).pc + BitVec.ofInt 32 (4 * off)) else none, link := cond == 7 } }) ∧
  (∀ (s : State) (e s1 : Nat) (link : Bool), engRuns s e (.jump s1 link) →
    ∃ t, exec (.jump e s1 link none) s = .next t ∧ issuedQuiet s t e { engSet s e with branch := some { left := 3, target := some ((engSet s e).rg s1), link := link } }) ∧
  (∀ (s : State) (e : Nat), engRuns s e .nop → ∃ t, exec (.nop e none) s = .next t ∧ issuedQuiet s t e (engSet s e)) ∧
  (∀ (s : State) (e d : Nat), engRuns s e (.mfc d 1) → ∃ t, exec (.mfc e d 1 none) s = .next t ∧
    issuedQuiet s t e ((engSet s e).result (.g d) (BitVec.ofNat 64 ((e / 32 + 32 * (e % 32)) % 2 ^ 32)) 1 false)) ∧
  ∀ (s : State) (e s1 : Nat), engRuns s e (.mtc 0 s1) → ∃ t, exec (.mtc e 0 s1 none) s = .next t ∧
    issuedQuiet s t e { engSet s e with aov := (engSet s e).aov && bit ((engSet s e).rg s1).toNat 2, sat := (engSet s e).sat && bit ((engSet s e).rg s1).toNat 3 }

/-- A multiply-slot instruction that may issue alone puts its results in flight for two bundles: CMAC and DMAC accumulate on a pair and SMAC on one accumulator, wrapping at 40 bits and setting AOV; ACC_CLEAR, ACC_LOAD and ACC_SHIFT set one; ACCX shifts, rounds and saturates, setting SAT; MAXX and MINX keep the better value with its index. No engine memory changes. -/
def Obligations.EngineMultiply : Prop :=
  (∀ (s : State) (e acc s1 s2 sh : Nat) (ng cj : Bool), engRuns s e (.cmac acc s1 s2 sh ng cj) →
    ∃ t, exec (.cmac e acc s1 s2 sh ng cj none) s = .next t ∧ issuedQuiet s t e (uCmac acc s1 s2 sh ng cj (engSet s e))) ∧
  (∀ (s : State) (e acc s1 s2 sh : Nat) (ng : Bool), engRuns s e (.dmac acc s1 s2 sh ng) →
    ∃ t, exec (.dmac e acc s1 s2 sh ng none) s = .next t ∧ issuedQuiet s t e (uDmac acc s1 s2 sh ng (engSet s e))) ∧
  (∀ (s : State) (e acc s1 s2 sh : Nat) (ng hi : Bool), engRuns s e (.smac acc s1 s2 sh ng hi) →
    ∃ t, exec (.smac e acc s1 s2 sh ng hi none) s = .next t ∧ issuedQuiet s t e ((engSet s e).accumulate acc
      (negIf ng ((((engSet s e).rg s1).toInt * half ((engSet s e).rg s2) hi).fdiv (prodShift sh))))) ∧
  (∀ (s : State) (e acc : Nat), engRuns s e (.accClear acc) →
    ∃ t, exec (.accClear e acc none) s = .next t ∧ issuedQuiet s t e ((engSet s e).result (.acc acc) 0 2 false)) ∧
  (∀ (s : State) (e acc s1 : Nat), engRuns s e (.accLoad acc s1) →
    ∃ t, exec (.accLoad e acc s1 none) s = .next t ∧
      issuedQuiet s t e ((engSet s e).result (.acc acc) ((((engSet s e).rg s1).signExtend 40).setWidth 64) 2 false)) ∧
  (∀ (s : State) (e acc : Nat) (n : Int), engRuns s e (.accShift acc n) →
    ∃ t, exec (.accShift e acc n none) s = .next t ∧
      issuedQuiet s t e ((engSet s e).result (.acc acc) ((shiftAcc ((engSet s e).accBypass acc) n).setWidth 64) 2 false)) ∧
  (∀ (s : State) (e d acc sh w : Nat) (rn : Bool), engRuns s e (.accx d acc sh rn w) →
    ∃ t, exec (.accx e d acc sh rn w none) s = .next t ∧
      issuedQuiet s t e { (engSet s e).result (.g d) ((accExtract ((engSet s e).racc acc) sh rn w).1.setWidth 64) 2 false with
        sat := (engSet s e).sat || (accExtract ((engSet s e).racc acc) sh rn w).2 }) ∧
  (∀ (s : State) (e d s1 s2 : Nat) (u inc : Bool), engRuns s e (.maxx d s1 s2 u inc) →
    ∃ t, exec (.maxx e d s1 s2 u inc none) s = .next t ∧ issuedQuiet s t e (uSearch true d s1 s2 u inc (engSet s e))) ∧
  ∀ (s : State) (e d s1 s2 : Nat) (u inc : Bool), engRuns s e (.minx d s1 s2 u inc) →
    ∃ t, exec (.minx e d s1 s2 u inc none) s = .next t ∧ issuedQuiet s t e (uSearch false d s1 s2 u inc (engSet s e))

/-- END with no transfer open ends the program: the set is idle and its task has the low half of the register as status; BREAK and an illegal bundle end it with status 0x8001 and the exception word of their cause; an outgoing transfer stores its words into its buffer and no other byte; a loaded page is resident; urgent entry starts the waiting task in the shadow set; an engine that faults takes no further task; 50 ms after retirement nothing runs on the engine. -/
def Obligations.EngineTasks : Prop :=
  (∀ (s : State) (e s1 : Nat), engRuns s e (.end_ s1) → (engSet s e).xfers = [] → (getTask s.chip ((engSet s e).task - 1)).st = .running →
    ∃ t, exec (.end_ e s1 none) s = .next t ∧ (getEng t.chip e).prim = .zero ∧
      (getTask t.chip ((engSet s e).task - 1)).done = true ∧
      (getTask t.chip ((engSet s e).task - 1)).status = ((engSet s e).rg s1).toNat % 65536 ∧ t.mem = s.mem) ∧
  (∀ (s : State) (e code : Nat), engRuns s e (.break_ code) → (engSet s e).xfers = [] → (getTask s.chip ((engSet s e).task - 1)).st = .running →
    ∃ t, exec (.break_ e code none) s = .next t ∧ (getEng t.chip e).prim = .zero ∧
      (getTask t.chip ((engSet s e).task - 1)).done = true ∧ (getTask t.chip ((engSet s e).task - 1)).status = 0x8001 ∧
      (getTask t.chip ((engSet s e).task - 1)).exc = excWord 6 code 0 (engSet s e).branch.isSome false (engSet s e).pc ∧ t.mem = s.mem) ∧
  (∀ (s : State) (e : Nat) (ws : List Word), (getEng s.chip e).inShadow = false → (getEng s.chip e).prim.task ≠ 0 →
    (getEng s.chip e).prim.stall = .run → domOn s.chip (clusterDomain (e / 32)) = true → (getEng s.chip e).prim.open_ = [] →
    bundleIllegal (getEng s.chip e).prim.branch.isSome ws = true → fetchedAt s.chip (getEng s.chip e).prim ws = true →
    (getTask s.chip ((getEng s.chip e).prim.task - 1)).st = .running →
    ∃ t, exec (.illegal e ws false) s = .next t ∧ (getEng t.chip e).prim = .zero ∧
      (getTask t.chip ((getEng s.chip e).prim.task - 1)).status = 0x8001 ∧
      (getTask t.chip ((getEng s.chip e).prim.task - 1)).exc =
        excWord 1 0 0 (getEng s.chip e).prim.branch.isSome false (getEng s.chip e).prim.pc ∧ t.mem = s.mem) ∧
  (∀ (s : State) (e tag : Nat) (x : Xfer), MemInv s → anyFrozen s.chip = false →
    (getEng s.chip e).prim.open_.find? (fun y => y.tag == tag) = some x → x.out = true →
    xferCheck s.chip (getTask s.chip ((getEng s.chip e).prim.task - 1)).fn false (getEng s.chip e).prim x = 0 →
    ∃ t, exec (.xferComplete e false tag) s = .next t ∧
      (∀ i < x.length, t.mem.byte (bufAddr s.chip x.handle + x.offset + i) =
        (umemRead ⟨(getEng s.chip e).mem, (getCluster s.chip (e / 32)).shared⟩
          ((urange false (getEng s.chip e).prim x.local_ x.length).getD .local_) x.local_ x.length).1.getD i 0) ∧
      ∀ a, a < bufAddr s.chip x.handle + x.offset ∨ bufAddr s.chip x.handle + x.offset + x.length ≤ a → t.mem.byte a = s.mem.byte a) ∧
  (∀ (s : State) (e : Nat) (p : Nat × Nat × Nat) (l : List (Nat × Nat × Nat)), (getEng s.chip e).loading = p :: l → (getEng s.chip e).pages.length < 4 →
    exec (.pageLoadDone e) s = .next (onChip s (modEng e (fun x => { x with loading := l, pages := p :: x.pages }) s.chip))) ∧
  (∀ (s : State) (e : Nat), (getEng s.chip e).urgent ≠ 0 → (getEng s.chip e).shad.task = 0 → (getEng s.chip e).prim.branch = none →
    domOn s.chip (clusterDomain (e / 32)) = true →
    (∀ p < (progInfo s.chip (getTask s.chip ((getEng s.chip e).urgent - 1)).desc.work (getTask s.chip ((getEng s.chip e).urgent - 1)).desc.etag).pages,
      ((getTask s.chip ((getEng s.chip e).urgent - 1)).desc.work,
        (progInfo s.chip (getTask s.chip ((getEng s.chip e).urgent - 1)).desc.work (getTask s.chip ((getEng s.chip e).urgent - 1)).desc.etag).ver, p)
          ∈ (getEng s.chip e).pages) →
    ∃ t, exec (.urgentEntry e) s = .next t ∧ (getEng t.chip e).inShadow = true ∧ (getEng t.chip e).urgent = 0 ∧
      (getEng t.chip e).shad.task = (getEng s.chip e).urgent ∧ (getEng t.chip e).prim.g = (getEng s.chip e).prim.g ∧
      (getEng t.chip e).prim.pc = (getEng s.chip e).prim.pc ∧ t.mem = s.mem) ∧
  (∀ (s : State) (e p : Nat), domOn s.chip (clusterDomain (e / 32)) = true → enginePhys s.chip (e / 32) (e % 32) = some p →
    (getEng s.chip e).prim.task = 0 → (getEng s.chip e).shad.task = 0 → (getEng s.chip e).urgent = 0 →
    ∃ t, exec (.engineInternalFault e) s = .next t ∧ (getEng t.chip e).stopped = true ∧
      (∃ r ∈ t.chip.mgmt.incoming, r.code = 0x902) ∧ t.mem = s.mem) ∧
  ∀ (s : State) (e : Nat), (getEng s.chip e).retireAt ≠ 0 →
    ∃ t, exec (.engineRetireTimeout e) s = .next t ∧ (getEng t.chip e).retireAt = 0 ∧ (getEng t.chip e).prim.task = 0 ∧
      (getEng t.chip e).shad.task = 0 ∧ (getEng t.chip e).urgent = 0 ∧ (getEng s.chip e).retireAt ≤ localNs t.chip ∧ t.mem = s.mem

/-- GX_PROGRAM_QUERY of a program that the function may name answers its image's header and its counts; GX_ENGINE_STATUS answers a cluster's clock and its 34 engines; neither changes anything else. -/
def Obligations.EngineCommands : Prop :=
  (∀ (s : State) (r : CmdRef) (o : Obj), Served 0x0901 r s → idType (bw (bodyAt r s) 0) = tProgram →
    (ctxAt r s).names (cfg s.chip) (bw (bodyAt r s) 0) = some o →
    ∃ body, exec (.gxProgramQuery r) s = .next (replied r (Res.ok body) s) ∧ body.length = 14 ∧
      ∀ i < 7, body.getD i 0 = wd (bw (progImage (cfg s.chip) (idIndex (bw (bodyAt r s) 0))) (4 + 4 * i))) ∧
  ∀ (s : State) (r : CmdRef), Served 0x0902 r s →
    exec (.gxEngineStatus r) s = .next (replied r (Res.ok ([wd (tget 0 s.chip.pwr.clkNow (bf (bodyAt r s) 0 0 5) +
        2 ^ 16 * enginesInService s.chip (bf (bodyAt r s) 0 0 5)), 0] ++
      wordsOf ((List.range 34).map (engineByte s.chip (bf (bodyAt r s) 0 0 5))) ++ [0] ++
      wd2 (getCluster s.chip (bf (bodyAt r s) 0 0 5)).corrected)) s)

/-- In a session with an open transaction that has room, each transactional command whose fields are in range and which names what it may name ends with status 0, its position in the transaction, the identifier that it creates or names with that object's version, and the transaction holds it as its newest command; images of layers, beacons and programs are fetched first and join it. -/
def Obligations.StagedCommandsJoin : Prop :=
  Stages 0x0003 quotaFields (stagePlain 50) (fun r s => exec (.gxQuotaSet r) s) ∧
  Stages 0x0106 noFields stageDestroy (fun r s => exec (.gxObjDestroy r) s) ∧
  Stages 0x0202 noFields (stagePlain 8) (fun r s => exec (.gxAddrSet r) s) ∧
  Stages 0x0203 iceFields stageIce (fun r s => exec (.gxIceCredSet r) s) ∧
  Stages 0x0210 keyFields stageKey (fun r s => exec (.gxKeyInstall r) s) ∧
  Stages 0x0300 (fun b => firstBad [(decide (10000 < bf b 16 0 14), 16)]) stageConf (fun r s => exec (.gxConfSet r) s) ∧
  Stages 0x0301 sourceFields stageSource (fun r s => exec (.gxSourceSet r) s) ∧
  Stages 0x0302 legFields stageLeg (fun r s => exec (.gxLegSet r) s) ∧
  Stages 0x0303 (fun b => firstBad [(decide (2 < osKind b), 16), (!zeroOr (bf b 20 0 12) 20 4000, 20)]) stageSlot (fun r s => exec (.gxOutslotSet r) s) ∧
  Stages 0x0304 noFields stageEdge (fun r s => exec (.gxEdgeSet r) s) ∧
  Stages 0x0400 shapeFields stageShape (fun r s => exec (.gxLegShapeSet r) s) ∧
  Stages 0x0401 (fun b => firstBad [(!zeroOr (bf b 8 16 9) 20 500, 8)]) stageCcfb (fun r s => exec (.gxCcfbSet r) s) ∧
  Stages 0x0500 groupFields stageGroup (fun r s => exec (.gxMixGroupSet r) s) ∧
  Stages 0x0501 audioFields stageAudio (fun r s => exec (.gxAudioLegSet r) s) ∧
  Stages 0x0502 (fun b => firstBad [(decide (0x8000 < mcGain b), 12)]) stageContrib (fun r s => exec (.gxMixContribSet r) s) ∧
  Stages 0x0503 detectorFields stageDetector (fun r s => exec (.gxDetectorSet r) s) ∧
  Stages 0x0600 decodeFields stageDecode (fun r s => exec (.gxDecodeSet r) s) ∧
  Stages 0x0700 canvasFields stageCanvas (fun r s => exec (.gxCanvasSet r) s) ∧
  StagesImages 0x0701 16 layerFields layerWants (fun _ _ w => .ok w) stageLayer (fun r s => exec (.gxLayerSet r) s) ∧
  Stages 0x0702 (fun b => firstBad [(outside (bf b 8 0 7) 1 64, 8)]) stageOrder (fun r s => exec (.gxOrderSet r) s) ∧
  StagesImages 0x0704 8 (fun b => if bit (bw b 8) 0 then some 8 else beaconFields b) (fun b => [(bcAddr b, beaconBytes (bcW b) (bcH b))]) beaconMake
    stageBeacon (fun r s => exec (.gxBeaconSet r) s) ∧
  Stages 0x0800 rendFields stageRend (fun r s => exec (.gxRenditionSet r) s) ∧
  StagesImages 0x0900 5 (fun b => if programBadLength (bw b 16) then some 16 else firstBad [(bd b 8 % 8 != 0, 8)]) (fun b => [(bd b 8, bw b 16)])
    (fun x _ w => programMake (bw x.body 16) w) stageProgram (fun r s => exec (.gxProgramLoad r) s) ∧
  Stages 0x0A01 (fun b => let l := bf b 12 0 24; firstBad [(l != 0 && decide (l < bf b 8 0 24), 12)]) (stagePlain 4) (fun r s => exec (.gxRequesterSet r) s) ∧
  ∀ (s : State) (r : CmdRef) (n : Nat) (b : List Word) (ses : Session) (t : Txn) (x : Staged) (c : Chip), Takes 0x0704 n b r s →
    heldSession s.chip r.fn n = some ses → ses.txn = some t → bit (bw b 8) 0 = true → t.staged.length < 4096 → t.bytes + txnShare r s ≤ 2097152 →
    stageBeacon { ctxWith b r s with body := words 9 b } t.staged (tookIn n r s) = .ok (x, c) →
    exec (.gxBeaconSet r) s = .next (joins (words 9 b) s r n t x c)

/-- GX_TXN_BEGIN opens an empty transaction in its session, fails with GX_E_TXN_OPEN where one is open and with GX_E_NO_SESSION for SESSION 0; each transactional command without an open transaction, in a session or with SESSION 0, and without AUTO_COMMIT fails with GX_E_NO_TXN and changes nothing else. -/
def Obligations.TransactionsOfSessions : Prop :=
  (∀ (s : State) (r : CmdRef) (n : Nat) (b : List Word) (ses : Session), Takes 0x0102 n b r s → heldSession s.chip r.fn n = some ses → ses.txn = none →
    exec (.gxTxnBegin r) s = .next (endedWith b r (Res.ok []) (setTxn n (some { staged := [], bytes := 0 }) (tookIn n r s)) s)) ∧
  (∀ (s : State) (r : CmdRef) (n : Nat) (b : List Word) (ses : Session), Takes 0x0102 n b r s → heldSession s.chip r.fn n = some ses → ses.txn.isSome = true →
    exec (.gxTxnBegin r) s = .next (endedWith b r (Res.err 0x0103) (tookIn n r s) s)) ∧
  (∀ (s : State) (r : CmdRef), Served 0x0102 r s → exec (.gxTxnBegin r) s = .next (replied r (Res.err 0x0101) s)) ∧
  (∀ (s : State) (r : CmdRef) (n : Nat) (b : List Word), ∀ row ∈ stagingRows, Takes row.1 n b r s → row.2.1 b = none →
    (heldSession s.chip r.fn n).bind (·.txn) = none → (slotAt r s).autoCommit = false →
    row.2.2 r s = .next (endedWith b r (Res.err 0x0104) (tookIn n r s) s)) ∧
  (∀ (s : State) (r : CmdRef) (n : Nat) (b : List Word), Takes 0x0103 n b r s → (heldSession s.chip r.fn n).bind (·.txn) = none →
    exec (.gxTxnCommit r) s = .next (endedWith b r (Res.err 0x0104) (tookIn n r s) s))

/-- GX_SESSION_OPEN gives the next free number to a function with fewer than 16 sessions of 1,024; GX_SESSION_CLOSE ends the session and releases what its transaction reserved; GX_TXN_ROLLBACK drops the transaction and releases its identifiers; GX_TXN_STATUS returns the outcome of a ticket; a session that idles loses its transaction, its identifiers are free and TXN_EXPIRED is raised. GX_TXN_BEGIN opens an empty transaction; GX_TXN_COMMIT that must wait ends with GX_PENDING_EPOCH and a ticket and its commit joins the queue, and so does a transactional command with AUTO_COMMIT outside a transaction; the head of the queue is begun when it may be; a late acknowledgement lets the commit go on unmirrored; written tables publish the epoch; at T_act it becomes current; at the drain limit the draining epoch retires. -/
def Obligations.SessionsOpenAndEnd : Prop :=
  (∀ (s : State) (r : CmdRef) (n : Nat), Served 0x0100 r s → bf (bodyAt r s) 0 0 16 ≤ 600 → nextSession s.chip = some n →
    (s.chip.gx.sessions.filter (fun e => e.2.fn == r.fn)).length < 16 → s.chip.gx.sessions.length < 1024 →
    exec (.gxSessionOpen r) s = .next (ended r (Res.ok [wd n]) (modGx (fun g =>
      { g with lastSession := n, sessions := tput g.sessions n ⟨r.fn, orDefault (bf (bodyAt r s) 0 0 16) 10, localNs s.chip, none⟩ }) (took r s)) s)) ∧
  (∀ (s : State) (r : CmdRef) (n : Nat) (b : List Word) (ses : Session), Takes 0x0101 n b r s → heldSession s.chip r.fn n = some ses →
    exec (.gxSessionClose r) s = .next (endedWith b r (Res.ok []) (modGx (fun g => { g with sessions := tdel g.sessions n })
      (match ses.txn with | some t => dropTxn t (tookIn n r s) | none => tookIn n r s)) s)) ∧
  (∀ (s : State) (r : CmdRef) (n : Nat) (b : List Word) (ses : Session) (t : Txn), Takes 0x0104 n b r s → heldSession s.chip r.fn n = some ses →
    ses.txn = some t → exec (.gxTxnRollback r) s = .next (endedWith b r (Res.ok []) (setTxn n none (dropTxn t (tookIn n r s))) s)) ∧
  (∀ (s : State) (r : CmdRef) (o : Outcome4), Served 0x0105 r s →
    s.chip.gx.outcomes.find? (fun o => o.ticket == bw (bodyAt r s) 0 && o.fn == r.fn) = some o →
    exec (.gxTxnStatus r) s = .next (replied r (Res.ok ([wd (o.state + 2 ^ 16 * o.status), 0] ++ wd2 o.epoch)) s)) ∧
  (∀ (s : State) (n : Nat) (ses : Session) (t : Txn), tfind s.chip.gx.sessions n = some ses → ses.txn = some t →
    exec (.txnIdleTimeout n) s = .next (onChip s (raise 1 0x102 (some ses.fn) n t.staged.length
      (setTxn n none (dropTxn t (waitLocal (ses.lastNs + ses.idleS * 1000000000) s.chip))))) ∧
    (∀ k, k ∈ (dropTxn t s.chip).gx.reserved ↔ k ∈ s.chip.gx.reserved ∧ k ∉ reservedBy t.staged) ∧
    ses.lastNs + ses.idleS * 1000000000 ≤ localNs (waitLocal (ses.lastNs + ses.idleS * 1000000000) s.chip)) ∧
  (∀ (s : State) (r : CmdRef) (n : Nat) (b : List Word) (ses : Session), Takes 0x0102 n b r s → heldSession s.chip r.fn n = some ses → ses.txn = none →
    exec (.gxTxnBegin r) s = .next (endedWith b r (Res.ok []) (setTxn n (some { staged := [], bytes := 0 }) (tookIn n r s)) s)) ∧
  (∀ (s : State) (r : CmdRef) (n : Nat) (b : List Word) (ses : Session) (t : Txn), Takes 0x0103 n b r s → heldSession s.chip r.fn n = some ses →
    ses.txn = some t → (slotAt r s).validateOnly = false → s.chip.pwr.phase ≠ .ejecting → s.chip.twin.st ≠ 5 →
    s.chip.gx.draining = 0 → mustHold s.chip = true → heldCount s.chip < 64 →
    ∃ u a, exec (.gxTxnCommit r) s = .next u ∧ (slotAt r u).st = .done ∧ (slotAt r u).status = 0x0100 ∧
      u.chip.gx.held = s.chip.gx.held ++ [a] ∧ a.staged = t.staged ∧ a.ticket = s.chip.gx.nextTicket ∧ u.mem = s.mem) ∧
  (∀ (s : State) (r : CmdRef) (n : Nat) (b : List Word) (x : Staged) (c : Chip), ∀ row ∈ stagedRows, Takes row.1 n b r s → row.2.1 b = none →
    (heldSession s.chip r.fn n).bind (·.txn) = none → (slotAt r s).autoCommit = true → row.2.2.1 (ctxWith b r s) [] (tookIn n r s) = .ok (x, c) →
    c.pwr.phase ≠ .ejecting → c.twin.st ≠ 5 → c.gx.draining = 0 → mustHold c = true → heldCount c < 64 →
    row.2.2.2 r s = .next (endedWith b r
      (({ Res.ok (commitBody 0 0 c.gx.nextTicket 0 1 0 0 0) with status := 0x0100 }).withObj x.obj (((cfg c).obj x.obj).getD .none).version)
      (modGx (fun g => { g with held := g.held ++ [{ newCommit (ctxWith b r s) .host [x] true with slot := none, ticket := c.gx.nextTicket }] })
        (putOutcome { ticket := c.gx.nextTicket, fn := r.fn, state := 0, status := 0, epoch := 0 } (takeTicket c).2)) s)) ∧
  (∀ (s : State) (a : Commit) (l : List Commit), s.chip.gx.held = a :: l → a.kind = .host → mayBeginCommit s.chip = true →
    exec .heldCommitRelease s = .next (onChip s (startCommit a (modGx (fun g => { g with held := l }) s.chip)))) ∧
  (∀ (s : State) (a : Commit) (l : List Commit), s.chip.gx.held = a :: l → a.kind = .purge → mayBeginCommit s.chip = true →
    exec .purgeCommit s = .next (onChip s (startCommit a (modGx (fun g => { g with held := l }) s.chip)))) ∧
  (∀ (s : State) (a : Commit), s.chip.gx.active = some a → a.stage = .journalled → firmwareUp s.chip = true →
    ∃ u, exec .commitAckTimeout s = .next u ∧ u.chip.gx.active = some { a with unmirrored := true, stage := .writing } ∧
      (∃ e, u.chip.mgmt.incoming = s.chip.mgmt.incoming ++ [e] ∧ e.code = 0x104) ∧ u.mem = s.mem) ∧
  (∀ (s : State) (a : Commit) (extra : Nat), s.chip.gx.active = some a → a.stage = .writing → a.kind ≠ .takeover → firmwareUp s.chip = true →
    ∃ u, exec (.commitTablesWritten extra) s = .next u ∧ u.chip.gx.active = none ∧ u.chip.gx.published = a.next.epoch ∧
      u.chip.gx.current = s.chip.gx.current) ∧
  (∀ s : State, s.chip.gx.published ≠ 0 →
    ∃ u, exec .epochActivate s = .next u ∧ u.chip.gx.current = s.chip.gx.published ∧ u.chip.gx.published = 0 ∧ u.mem = s.mem) ∧
  ∀ s : State, s.chip.gx.draining ≠ 0 →
    ∃ u, exec .epochDrainLimit s = .next u ∧ u.chip.gx.draining = 0 ∧ u.chip.gx.current = s.chip.gx.current ∧ u.mem = s.mem

/-- Where no epoch drains or waits and no twin is up, GX_TXN_COMMIT takes a valid transaction of one validation step from its session and goes on, unmirrored, to write the tables of the next epoch while its command waits; where one must wait it ends with GX_PENDING_EPOCH and a ticket and joins the queue; with VALIDATE_ONLY it changes nothing. The head of the queue is begun when it may be, a purge as the configuration without its function; an acknowledgement that is late lets the commit go on unmirrored; written tables publish the epoch with T_act 50 µs ahead; at T_act the epoch becomes current; at the drain limit the draining epoch is retired. -/
def Obligations.CommitIsCarriedOut : Prop :=
  (∀ (s : State) (r : CmdRef) (n : Nat) (b : List Word) (ses : Session) (t : Txn), Takes 0x0103 n b r s → heldSession s.chip r.fn n = some ses →
    ses.txn = some t → (slotAt r s).validateOnly = false → s.chip.pwr.phase ≠ .ejecting → s.chip.twin.st ≠ 5 → s.chip.twin.session = false →
    s.chip.gx.draining = 0 → mustHold s.chip = false → t.staged.length ≤ validBatch →
    (checked t.staged r.fn (setTxn n none (tookIn n r s))).res.status = 0 →
    ∃ u a, exec (.gxTxnCommit r) s = .next u ∧ u.chip.gx.active = some a ∧ a.stage = .writing ∧
      a.staged = (restage t.staged (setTxn n none (tookIn n r s))).1 ∧ a.unmirrored = true ∧
      a.next = (checked t.staged r.fn (setTxn n none (tookIn n r s))).next ∧ a.slot = some (slotKey r.fn r.slot) ∧
      u.chip.gx.current = s.chip.gx.current ∧ (slotAt r u).st = .busy ∧
      heldSession u.chip r.fn n = some { ses with lastNs := localNs s.chip, txn := none } ∧ u.mem = s.mem) ∧
  (∀ (s : State) (r : CmdRef) (n : Nat) (b : List Word) (ses : Session) (t : Txn), Takes 0x0103 n b r s → heldSession s.chip r.fn n = some ses →
    ses.txn = some t → (slotAt r s).validateOnly = false → s.chip.pwr.phase ≠ .ejecting → s.chip.twin.st ≠ 5 →
    s.chip.gx.draining = 0 → mustHold s.chip = true → heldCount s.chip < 64 →
    ∃ u a, exec (.gxTxnCommit r) s = .next u ∧ (slotAt r u).st = .done ∧ (slotAt r u).status = 0x0100 ∧
      u.chip.gx.held = s.chip.gx.held ++ [a] ∧ a.staged = t.staged ∧ a.ticket = s.chip.gx.nextTicket ∧ a.slot = none ∧
      heldSession u.chip r.fn n = some { ses with lastNs := localNs s.chip, txn := none } ∧ u.mem = s.mem) ∧
  (∀ (s : State) (r : CmdRef) (n : Nat) (b : List Word) (ses : Session) (t : Txn), Takes 0x0103 n b r s → heldSession s.chip r.fn n = some ses →
    ses.txn = some t → (slotAt r s).validateOnly = true → s.chip.twin.session = false → t.staged.length ≤ validBatch →
    (validate r.fn (restage t.staged (tookIn n r s)).1 (tookIn n r s)).res.status = 0 →
    exec (.gxTxnCommit r) s = .next (onChip s (finish (slotKey r.fn r.slot) (Res.ok (commitBody 0 0 0 2 t.staged.length 0 0 0))
      (modGx (fun g => { g with checks := g.checks.filter (fun a => a.slot != some (slotKey r.fn r.slot)) }) (tookIn n r s))))) ∧
  (∀ (s : State) (a : Commit) (l : List Commit), s.chip.gx.held = a :: l → a.kind = .host → mayBeginCommit s.chip = true →
    exec .heldCommitRelease s = .next (onChip s (startCommit a (modGx (fun g => { g with held := l }) s.chip)))) ∧
  (∀ (s : State) (a : Commit) (l : List Commit), s.chip.gx.held = a :: l → a.kind = .purge → mayBeginCommit s.chip = true → s.chip.twin.session = false →
    ∃ u a', exec .purgeCommit s = .next u ∧ u.chip.gx.active = some a' ∧ a'.stage = .writing ∧ a'.kind = .purge ∧
      a'.next = { (cfg s.chip).purge a.fn with epoch := s.chip.gx.current + 1 } ∧ u.chip.gx.held = l ∧ u.mem = s.mem) ∧
  (∀ (s : State) (a : Commit), s.chip.gx.active = some a → a.stage = .journalled → firmwareUp s.chip = true →
    ∃ u, exec .commitAckTimeout s = .next u ∧ u.chip.gx.active = some { a with unmirrored := true, stage := .writing } ∧
      (∃ e, u.chip.mgmt.incoming = s.chip.mgmt.incoming ++ [e] ∧ e.code = 0x104) ∧ u.mem = s.mem) ∧
  (∀ (s : State) (a : Commit) (extra : Nat), s.chip.gx.active = some a → a.stage = .writing → a.kind = .host → firmwareUp s.chip = true →
    ∃ u, exec (.commitTablesWritten extra) s = .next u ∧ u.chip.gx.active = none ∧ u.chip.gx.published = a.next.epoch ∧
      cfgAt u.chip a.next.epoch = a.next ∧ u.chip.gx.current = s.chip.gx.current ∧
      u.chip.gx.tActSec * 1000000000 + u.chip.gx.tActNs = svc s.chip + 50000 + extra) ∧
  (∀ (s : State), s.chip.gx.published ≠ 0 →
    ∃ u, exec .epochActivate s = .next u ∧ u.chip.gx.current = s.chip.gx.published ∧ u.chip.gx.published = 0 ∧
      (u.chip.gx.draining = s.chip.gx.current ∨ u.chip.gx.draining = 0) ∧ u.mem = s.mem) ∧
  (∀ (s : State), s.chip.gx.draining ≠ 0 →
    ∃ u, exec .epochDrainLimit s = .next u ∧ u.chip.gx.draining = 0 ∧ u.chip.gx.current = s.chip.gx.current ∧ u.mem = s.mem)

/-- GX_NOP ends with status 0; GX_DEVICE_INFO answers the epochs, the held commits, the memory rate, the stale writes and what every quota kind has left; GX_QUOTA_GET answers use and quota of a function to the operator or to itself; GX_OBJ_QUERY answers owner, parent, epoch and state of an object that may be named; GX_EPOCH_CONFIG sets the drain limit from 20 to 2,000 ms for the operator; each changes nothing else. GX_LEG_BULK_CREATE with all its entries begins its steps. Each of the 24 transactional commands other than GX_TXN_COMMIT, in a session whose open transaction has room, ends with status 0, its position, the identifier it creates or names and that object's version, and is the newest command of the transaction. -/
def Obligations.GeneralCommands : Prop :=
  (∀ (s : State) (r : CmdRef), Served 0x0001 r s → exec (.gxNop r) s = .next (replied r (Res.ok []) s)) ∧
  (∀ (s : State) (r : CmdRef), Served 0x0002 r s → s.chip.gx.draining = 0 →
    exec (.gxDeviceInfo r) s = .next (replied r (Res.ok (wd2 s.chip.gx.current ++ wd2 0 ++
      [wd (heldCount s.chip + (s.chip.gx.held.filter (fun a => a.kind == .purge)).length + 2 ^ 16 * (s.chip.gx.held.filter (fun a => a.kind == .purge)).length),
        wd s.chip.dram.rate] ++ wd2 (min s.chip.gx.staleWrites ctrMax) ++ (List.range 16).flatMap (fun k => wd2 (available (took r s) (k + 1))))) s)) ∧
  (∀ (s : State) (r : CmdRef), Served 0x0004 r s → (slotAt r s).opAtCapture = true ∨ bf (bodyAt r s) 0 0 8 = r.fn →
    exec (.gxQuotaGet r) s = .next (replied r (Res.ok (quotaKinds.flatMap (fun k => [wd k, 0] ++ wd2 (usageOf (took r s) (bf (bodyAt r s) 0 0 8) k)) ++
      quotaKinds.flatMap (fun k => wd2 (quota (took r s) (cfg s.chip) (bf (bodyAt r s) 0 0 8) k)))) s)) ∧
  (∀ (s : State) (r : CmdRef) (o : Obj), Served 0x0005 r s → (ctxAt r s).names (cfg s.chip) (bw (bodyAt r s) 0) = some o →
    exec (.gxObjQuery r) s = .next (replied r ((Res.ok ([wd o.owner, wd o.parent] ++ wd2 o.epoch ++ [0])).withObj (bw (bodyAt r s) 0) o.version) s)) ∧
  (∀ (s : State) (r : CmdRef), Served 0x0107 r s → (slotAt r s).opAtCapture = true → 20 ≤ bf (bodyAt r s) 0 0 11 → bf (bodyAt r s) 0 0 11 ≤ 2000 →
    exec (.gxEpochConfig r) s = .next (ended r (Res.ok [wd (bf (bodyAt r s) 0 0 11)])
      (modGx (fun g => { g with drainLimitMs := bf (bodyAt r s) 0 0 11 }) (took r s)) s)) ∧
  (∀ (s : State) (r : CmdRef), Served 0x0107 r s → bf (bodyAt r s) 0 0 11 = 0 →
    exec (.gxEpochConfig r) s = .next (replied r (Res.ok [wd s.chip.gx.drainLimitMs]) s)) ∧
  (∀ (s : State) (r : CmdRef) (b : List Word), Takes 0x0305 0 b r s → heldSession s.chip r.fn 0 = none → 1 ≤ bf b 0 0 13 → bf b 0 0 13 ≤ 4096 → bd b 8 % 8 = 0 →
    hostReach s.chip r.fn = true → 32 * bf b 0 0 13 + (bodyAt r s).length ≤ b.length → (slotAt r s).cancel = false →
    ∃ t, exec (.gxLegBulkCreate r) s = .next t ∧ (slotAt r t).st = .progress ∧ (slotAt r t).fraction = 0 ∧
      (slotAt r t).work = 0 :: bf b 0 0 13 :: bd b 8 :: (b.drop (bodyAt r s).length).map (·.toNat) ∧ t.chip.gx = s.chip.gx ∧ t.mem = s.mem) ∧
  (∀ (s : State) (r : CmdRef) (n : Nat) (b : List Word) (ses : Session) (t : Txn) (x : Staged) (c : Chip), ∀ row ∈ stagedRows, Takes row.1 n b r s →
    heldSession s.chip r.fn n = some ses → ses.txn = some t → row.2.1 b = none → t.staged.length < 4096 → t.bytes + txnShare r s ≤ 2097152 →
    row.2.2.1 (ctxWith b r s) t.staged (tookIn n r s) = .ok (x, c) → row.2.2.2 r s = .next (joins b s r n t x c)) ∧
  (∀ (s : State) (r : CmdRef) (n : Nat) (b : List Word) (ses : Session) (t : Txn) (x : Staged) (c : Chip), Takes 0x0704 n b r s →
    heldSession s.chip r.fn n = some ses → ses.txn = some t → bit (bw b 8) 0 = true → t.staged.length < 4096 → t.bytes + txnShare r s ≤ 2097152 →
    stageBeacon { ctxWith b r s with body := words 9 b } t.staged (tookIn n r s) = .ok (x, c) →
    exec (.gxBeaconSet r) s = .next (joins (words 9 b) s r n t x c)) ∧
  StagesImages 0x0701 16 layerFields layerWants (fun _ _ w => .ok w) stageLayer (fun r s => exec (.gxLayerSet r) s) ∧
  StagesImages 0x0704 8 (fun b => if bit (bw b 8) 0 then some 8 else beaconFields b) (fun b => [(bcAddr b, beaconBytes (bcW b) (bcH b))]) beaconMake
    stageBeacon (fun r s => exec (.gxBeaconSet r) s) ∧
  StagesImages 0x0900 5 (fun b => if programBadLength (bw b 16) then some 16 else firstBad [(bd b 8 % 8 != 0, 8)]) (fun b => [(bd b 8, bw b 16)])
    (fun x _ w => programMake (bw x.body 16) w) stageProgram (fun r s => exec (.gxProgramLoad r) s)

/-- A frame that the MAC accepts on a port that is up and that steers to a service address is stamped, counted and put at the end of that pipeline's FIFO where it has room, and is dropped and counted where it has none; a frame the MAC refuses is dropped and counted, and so is one that matches nothing; the parser takes the front of a FIFO while neither the replication queue nor the miss queue is full, counts a poisoned frame, answers ARP for an active address on a port that is up, and otherwise parses the frame. -/
def Obligations.FramesAreTakenIn : Prop :=
  (∀ (s : State) (lp p a : Nat) (f : Frame), lportUp s.chip lp = true → macDrops s.chip lp f = false → handedOver s.chip lp f = none →
    steer s.chip (cfg s.chip) lp f = some (p, a) → fifoBytes (getPipe s.chip p).fifo + f.len ≤ 1048576 →
    exec (.macFrameReceive lp f) s = .next (onChip s (modPipe p (fun q => { q with fifo := q.fifo ++ [stamped s.chip lp a f] })
      (modLport lp (fun q => { q with framesRx := min (q.framesRx + 1) ctrMax }) s.chip)))) ∧
  (∀ (s : State) (lp p a : Nat) (f : Frame), lportUp s.chip lp = true → macDrops s.chip lp f = false → handedOver s.chip lp f = none →
    steer s.chip (cfg s.chip) lp f = some (p, a) → 1048576 < fifoBytes (getPipe s.chip p).fifo + f.len →
    exec (.macFrameReceive lp f) s = .next (onChip s (countIng p 0 (modLport lp (fun q => { q with framesRx := min (q.framesRx + 1) ctrMax }) s.chip)))) ∧
  (∀ (s : State) (lp : Nat) (f : Frame), lportUp s.chip lp = true → macDrops s.chip lp f = true →
    exec (.macFrameReceive lp f) s = .next (onChip s (countPort lp 2 (modLport lp (fun q => { q with framesDropped := min (q.framesDropped + 1) ctrMax }) s.chip)))) ∧
  (∀ (s : State) (lp : Nat) (f : Frame), lportUp s.chip lp = true → macDrops s.chip lp f = false → handedOver s.chip lp f = none →
    steer s.chip (cfg s.chip) lp f = none →
    exec (.macFrameReceive lp f) s = .next (onChip s (countPort lp 1 (modLport lp (fun q => { q with framesRx := min (q.framesRx + 1) ctrMax }) s.chip)))) ∧
  (∀ (s : State) (p head : Nat) (sb : Bool) (bad : List Nat) (f : FifoFrame) (rest : List FifoFrame), (getPipe s.chip p).fifo = f :: rest →
    (getPipe s.chip p).repl.length < 4096 → (getPipe s.chip p).entry = [] → (missq s.chip p).length < 512 →
    exec (.packetParse p false ⟨sb, bad⟩ head) s = .next (onChip s
      (if f.poison then countIng p 11 (modPipe p (fun q => { q with fifo := rest }) s.chip)
       else parseFrame (cfg s.chip) p head bad f true sb (modPipe p (fun q => { q with fifo := rest }) s.chip)))) ∧
  (∀ (s : State) (p head ip : Nat) (f : FifoFrame) (rest : List FifoFrame), (getPipe s.chip p).fifo = f :: rest →
    (getPipe s.chip p).repl.length < 4096 → (getPipe s.chip p).entry = [] → (missq s.chip p).length < 512 → f.poison = false → f.frame.net = .arp ip →
    (addrByIp s.chip (cfg s.chip) f.lport ip f.frame.vlans).isSome = true → lportUp s.chip f.lport = true →
    ∃ t, exec (.packetParse p false ⟨false, []⟩ head) s = .next t ∧ (getPipe t.chip p).fifo = rest ∧
      t.chip.out = .frame f.lport 0 (EgPkt.plain (.announce ip false) 64 s.chip.gx.current) :: s.chip.out ∧
      t.chip.fwd = s.chip.fwd ∧ t.chip.eg = s.chip.eg ∧ t.chip.pools = s.chip.pools ∧ t.mem = s.mem)

/-- The end of a derivation for which no packet waits puts the derived set into the cache where the slot's entry unwraps, and leaves the cache as it was where it does not; at the end of RX_OVERLAP the alternate key is erased; GX_KEY_STATUS answers the blocks of the send, current and next slot and the first 16 SSRC values counted; GX_CRYPTO_COUNTERS answers its nine counters and clears them on request. -/
def Obligations.CipherCommands : Prop :=
  (∀ (s : State) (set : Nat), s.chip.net.deriving_.contains set = true →
    (∀ p, p < 4 → ∀ m ∈ missq s.chip p, m.setKey ≠ set) →
    ∃ t, exec (.keyDeriveDone set false) s = .next t ∧
      t.chip.net.dkc = (match derivedOf s.chip set with | some d => dkcInsert set d s.chip.net.dkc | none => s.chip.net.dkc) ∧ t.chip.net.deriving_.contains set = false ∧
      (∀ p, missq t.chip p = missq s.chip p) ∧ t.chip.fwd = s.chip.fwd ∧ t.chip.eg.legs = s.chip.eg.legs ∧ t.mem = s.mem) ∧
  (∀ (s : State) (obj : Nat), (tget RxSet.zero s.chip.net.rxSets obj).alt ≠ [] →
    exec (.alternateKeyExpire obj) s = .next (onChip s (modNet (fun n => { n with rxSets := tdel n.rxSets obj })
      (waitSvc (tget RxSet.zero s.chip.net.rxSets obj).altEnd s.chip)))) ∧
  (∀ (s : State) (r : CmdRef) (o : Obj), Served 0x0211 r s → idType (bw (bodyAt r s) 0) = tLeg → (ctxAt r s).names (cfg s.chip) (bw (bodyAt r s) 0) = some o →
    exec (.gxKeyStatus r) s = .next (replied r (Res.ok
      (keyBlock s.chip (idKey (bw (bodyAt r s) 0)) ((cfg s.chip).key (idKey (bw (bodyAt r s) 0)) 0) false (tget [] s.chip.net.counted (idIndex (bw (bodyAt r s) 0))).length ++
       keyBlock s.chip (idKey (bw (bodyAt r s) 0)) ((cfg s.chip).key (idKey (bw (bodyAt r s) 0)) 1) false 0 ++
       (if (tget RxSet.zero s.chip.net.rxSets (idKey (bw (bodyAt r s) 0))).alt = [] then
          keyBlock s.chip (idKey (bw (bodyAt r s) 0)) ((cfg s.chip).key (idKey (bw (bodyAt r s) 0)) 2) false 0
        else keyBlock s.chip (idKey (bw (bodyAt r s) 0)) (tget RxSet.zero s.chip.net.rxSets (idKey (bw (bodyAt r s) 0))).alt true 0) ++
       ((tget [] s.chip.net.counted (idIndex (bw (bodyAt r s) 0))).take 16).flatMap (ssrcEntry (cfg s.chip) s.chip (idIndex (bw (bodyAt r s) 0))) ++
       List.replicate (4 * (16 - (tget [] s.chip.net.counted (idIndex (bw (bodyAt r s) 0))).length)) 0)) s)) ∧
  (∀ (s : State) (r : CmdRef) (o : Obj), Served 0x0211 r s → idType (bw (bodyAt r s) 0) = tSource → (ctxAt r s).names (cfg s.chip) (bw (bodyAt r s) 0) = some o →
    exec (.gxKeyStatus r) s = .next (replied r (Res.ok
      (List.replicate 8 0 ++ keyBlock s.chip (idKey (bw (bodyAt r s) 0)) ((cfg s.chip).key (idKey (bw (bodyAt r s) 0)) 1) false 0 ++
       (if (tget RxSet.zero s.chip.net.rxSets (idKey (bw (bodyAt r s) 0))).alt = [] then
          keyBlock s.chip (idKey (bw (bodyAt r s) 0)) ((cfg s.chip).key (idKey (bw (bodyAt r s) 0)) 2) false 0
        else keyBlock s.chip (idKey (bw (bodyAt r s) 0)) (tget RxSet.zero s.chip.net.rxSets (idKey (bw (bodyAt r s) 0))).alt true 0) ++
       List.replicate 64 0)) s)) ∧
  (∀ (s : State) (r : CmdRef), Served 0x0212 r s →
    exec (.gxCryptoCounters r) s = .next (ended r (Res.ok (ctrWords s.chip 0x0212 (bf (bodyAt r s) 0 0 2) 9))
      (if bit (bw (bodyAt r s) 4) 0 then ctrClear 0x0212 (bf (bodyAt r s) 0 0 2) 9 (took r s) else took r s) s))

/-- When protection gives an outgoing SRTP packet an index, the index is below 2^48 and is the one whose low 16 bits are the packet's sequence number nearest to the next index of its SSRC, the next index of that SSRC has not become smaller and is beyond it, and from then on the number counts as sent. -/
def Obligations.IndexIsNeverTakenTwice : Prop :=
  ∀ (g : Cfg) (p l ssrc seq i : Nat) (c c' : Chip), seq < 65536 → protect g p l ssrc (some seq) c = (some i, c') →
    i < 2 ^ 48 ∧ i % 65536 = seq ∧ i = indexOf (nextIndex g c l ssrc) seq ∧ nextIndex g c l ssrc ≤ nextIndex g c' l ssrc ∧ i < nextIndex g c' l ssrc ∧
      wasSent g c' l ssrc seq = true

/-- At each packet the score moves toward v by (v − score) ÷ 8 truncated toward zero, where v is 127 less the level with voice activity and 0 otherwise, in steps of 1/256; it never passes v, and under one steady v it comes within 7 steps of it and stays there. -/
def Obligations.SpeakerScore : Prop :=
  ∀ (d : BitVec 64) (v : Nat), v = (if dVad d then (127 - dLevel d) * 256 else 0) →
    (∀ score, (scoreStep score d : Int) = score + ((v : Int) - score).tdiv 8) ∧
    (∀ score, score ≤ v → score ≤ scoreStep score d ∧ scoreStep score d ≤ v) ∧
    (∀ score, v ≤ score → v ≤ scoreStep score d ∧ scoreStep score d ≤ score) ∧
    (∀ score, ∃ n, ∀ k, n ≤ k → ((scoreStep · d)^[k] score) ≤ v + 7 ∧ v ≤ ((scoreStep · d)^[k] score) + 7)

/-- Replication starts the first packet that may go with the current epoch and walks the edges of its source; a filled line joins the edge cache and the waiting packet goes on; the retransmission cache releases the packet whose time ends first; a gap that falls due sends one NACK and is asked once more after twice the delay; RTCP and congestion reports go out when they fall due; speaker selection is made ready every 20 ms and its task ranks the sources and places them under the epoch it took; a record found poisoned is rewritten, an out-slot with the low 16 bits of the guarded index of its SSRC. -/
def Obligations.ForwarderRows : Prop :=
  (∀ (s : State) (p : Nat) (k : Pkt), nextToReplicate (getPipe s.chip p).repl [] = some k → (cfg s.chip).has tSource k.source = true →
    (getSrc s.chip k.source).poison = false → stopped s.chip (cfg s.chip) tSource k.source = false →
    exec (.replication p false [] [] ⟨[], []⟩) s = .next (onChip s (settle (continueWalk p ⟨[], [], [], []⟩ false
      { k with epoch := s.chip.gx.current, walk := (cfg s.chip).edgeList k.source }
      (tapPacket (cfg s.chip) k (modPipe p (fun q => { q with repl := q.repl.map (fun x => if x = k then
        { k with epoch := s.chip.gx.current, walk := (cfg s.chip).edgeList k.source } else x) }) s.chip)))))) ∧
  (∀ (s : State) (p line : Nat) (k : Pkt), (getPipe s.chip p).repl.find? (fun k => k.epoch != 0 && k.walk.head?.map (· / 2) == some line) = some k →
    exec (.edgeCacheFill p ⟨line, [], [], [], []⟩) s = .next (onChip s (settle (continueWalk p ⟨[], [], [], []⟩ true k (touchLine p line false
      (modPipe p (fun q => { q with edgeLines := q.edgeLines.filter (fun x => !(edgeOut (getPipe s.chip p).edgeLines line).contains x) })
        ((edgeOut (getPipe s.chip p).edgeLines line).foldl (fun c x => if x.2 then countFwd p 3 c else c) s.chip))))))) ∧
  (∀ (s : State) (e : CacheEntry), e ∈ s.chip.fwd.cache → (∀ x ∈ s.chip.fwd.cache, x ≠ e → e.endNs < x.endNs) →
    exec .rtxCacheExpire s = .next (onChip s (drop e.pkt.buf (modFwd (fun w => { w with cache := w.cache.filter (· != e) }) (waitSvc e.endNs s.chip))))) ∧
  (∀ (s : State) (i : Nat) (q : Gap), firstGap s.chip i = some q → q.missing ≠ [] → q.asked = false →
    exec (.nackUpTimer i) s = .next (onChip s (sendFeedback i (.nack (srcSsrc ((cfg s.chip).body tSource i)) q.missing)
      (modFwd (fun w => { w with gaps := s.chip.fwd.gaps.filter (· != q) ++
        [{ q with dueNs := svc (waitSvc q.dueNs s.chip) + 2 * srcNackDelay ((cfg s.chip).body tSource i) * 1000000, asked := true }] }) (waitSvc q.dueNs s.chip))))) ∧
  (∀ (s : State) (i : Nat) (q : Gap), firstGap s.chip i = some q → q.missing ≠ [] → q.asked = true →
    exec (.nackUpTimer i) s = .next (onChip s (sendFeedback i (.nack (srcSsrc ((cfg s.chip).body tSource i)) q.missing)
      (modFwd (fun w => { w with gaps := s.chip.fwd.gaps.filter (· != q) }) (waitSvc q.dueNs s.chip))))) ∧
  (∀ (s : State) (i : Nat) (q : Gap), firstGap s.chip i = some q → q.missing = [] →
    exec (.nackUpTimer i) s = .next (onChip s (modFwd (fun w => { w with gaps := s.chip.fwd.gaps.filter (· != q) }) (waitSvc q.dueNs s.chip)))) ∧
  (∀ (s : State) (l : Nat), (cfg s.chip).has tLeg l = true →
    exec (.rtcpReportTimer l) s = .next (onChip s (armReport (cfg s.chip) l (sendReport (cfg s.chip) l (waitSvc (getLeg s.chip l).rtcpDue s.chip))))) ∧
  (∀ (s : State) (i : Nat), ccfbEn ((cfg s.chip).ccfbCard i) = true → (getSrc s.chip i).ccfb.length ≤ 1024 →
    exec (.ccfbReportTimer i) s = .next (onChip s (sendFeedback i (.ccfb (srcSsrc ((cfg s.chip).body tSource i))
        ((((svc (waitSvc (getSrc s.chip i).ccfbDue s.chip) : Int) - s.chip.time.utcOffset * 1000000000)).toNat)
        ((getSrc s.chip i).ccfb.map (fun e => ({ seq := e.1, received := true, arrivalNs := e.2.1, ecn := e.2.2 } : CcfbItem))))
      (modSrc i (fun x => { x with ccfb := [], ccfbDue := svc (waitSvc (getSrc s.chip i).ccfbDue s.chip) + ccfbMs ((cfg s.chip).ccfbCard i) * 1000000 })
        (waitSvc (getSrc s.chip i).ccfbDue s.chip))))) ∧
  (∀ (s : State) (conf t0 : Nat) (c : Chip), (cfg s.chip).has tConf conf = true → fwPending s.chip fwSpeaker conf = false →
    t0 = max (tget 0 s.chip.fwd.spkDue conf + 20000000) (svc s.chip / 20000000 * 20000000) → c = waitSvc t0 s.chip →
    exec (.speakerSelectDue conf) s = .next (onChip s (fwCreate fwSpeaker 5 ((cfg s.chip).owner tConf conf |>.getD 0) conf
      (modFwd (fun w => { w with spkDue := tput w.spkDue conf (svc c / 20000000 * 20000000) }) c)))) ∧
  (∀ (s : State) (conf slot : Nat) (g : Cfg), fwRunning s.chip fwSpeaker conf = some slot → g = cfgAt s.chip (getTask s.chip slot).epoch →
    exec (.speakerSelectRun conf) s = .next (onChip s (fwFinish slot
      ((g.indexes tLeg).filter (fun l => g.confOf tLeg l == mkKey tConf conf) |>.foldl
        (fun c l => placeSpeakers g (g.body tConf conf) (rankSources g s.chip conf) l c) s.chip)))) ∧
  (∀ (s : State) (e : Nat), s.chip.fwd.rewrites.contains (0, e) = true →
    exec (.forwarderRecordRewrite 0 e) s = .next (onChip s (modFwd (fun w => { w with
      rewrites := w.rewrites.filter (· != (0, e)), edges := tput w.edges e { EdgeRun.zero with st := 2, waitStart := nowMs s.chip } }) s.chip))) ∧
  (∀ (s : State) (i : Nat), s.chip.fwd.rewrites.contains (1, i) = true →
    ∃ t, exec (.forwarderRecordRewrite 1 i) s = .next t ∧ (getSrc t.chip i).poison = false ∧ t.chip.fwd.rewrites = s.chip.fwd.rewrites.filter (· != (1, i)) ∧ t.mem = s.mem) ∧
  (∀ (s : State) (k : Nat), s.chip.fwd.rewrites.contains (2, k) = true →
    ∃ t, exec (.forwarderRecordRewrite 2 k) s = .next t ∧ t.chip.fwd.rewrites = s.chip.fwd.rewrites.filter (· != (2, k)) ∧ t.mem = s.mem ∧
      (tget SlotRun.zero t.chip.fwd.outslots k).seqNext =
        (nextIndex (cfg s.chip) s.chip (k / 16) (osSsrc ((cfg s.chip).slotCard (k / 16) (k % 16))) + 28672) % 65536 ∧
      (tget SlotRun.zero t.chip.fwd.outslots k).poison = false ∧ (tget SlotRun.zero t.chip.fwd.outslots k).haveSrc = false)

/-- GX_TUNNEL_RING_SET and GX_PTP_RING_SET take a ring whose fields are in range and whose addresses are not 0, or none; GX_TUNNEL_SEND queues a DTLS datagram on the control queue of a leg whose port's MTU holds it; GX_EDGE_QUERY answers the 160 bytes of an edge's records; GX_FWD_CONFIG sets the cache size and the hold-off; GX_ING_COUNTERS and GX_FWD_COUNTERS answer their counters and clear them on request. -/
def Obligations.ForwarderCommands : Prop :=
  (∀ (s : State) (r : CmdRef), Served 0x0204 r s → ringFields 16 (bodyAt r s) = none → ringZero (hostRingOf (bodyAt r s)) = false →
    exec (.gxTunnelRingSet r) s = .next (ended r (Res.ok []) (modNet (fun n =>
      { n with tunnel := if (hostRingOf (bodyAt r s)).entries = 0 then tdel n.tunnel r.fn else tput n.tunnel r.fn (hostRingOf (bodyAt r s)) }) (took r s)) s)) ∧
  (∀ (s : State) (r : CmdRef), Served 0x0C01 r s → ringFields 12 (bodyAt r s) = none → ringZero (hostRingOf (bodyAt r s)) = false →
    exec (.gxPtpRingSet r) s = .next (ended r (Res.ok []) (modTime (fun t => { t with ring := hostRingOf (bodyAt r s) }) (took r s)) s)) ∧
  (∀ (s : State) (r : CmdRef) (o : Obj), Served 0x0205 r s → idType (bw (bodyAt r s) 0) = tLeg → (ctxAt r s).names (cfg s.chip) (bw (bodyAt r s) 0) = some o →
    udpFrame ((cfg s.chip).legAddrCard (idIndex (bw (bodyAt r s) 0))) (bf (bodyAt r s) 4 0 14) ≤
      (getPort s.chip ((cfg s.chip).legLport (idIndex (bw (bodyAt r s) 0)) / 4)).mtu →
    exec (.gxTunnelSend r) s = .next (ended r (Res.ok []) (enqueue (cfg s.chip) (idIndex (bw (bodyAt r s) 0)) 1
      (EgPkt.plain (.dtls (bf (bodyAt r s) 4 0 14) (((bodyAt r s).drop 2).take ((bf (bodyAt r s) 4 0 14 + 3) / 4)))
        (udpFrame ((cfg s.chip).legAddrCard (idIndex (bw (bodyAt r s) 0))) (bf (bodyAt r s) 4 0 14)) (cfg s.chip).epoch) (took r s)) s)) ∧
  (∀ (s : State) (r : CmdRef) (o : Obj), Served 0x0306 r s → idType (bw (bodyAt r s) 0) = tEdge → (ctxAt r s).names (cfg s.chip) (bw (bodyAt r s) 0) = some o →
    exec (.gxEdgeQuery r) s = .next (replied r (Res.ok (wd2 (edgeCfgWord s.chip.gx.bank0 (idIndex (bw (bodyAt r s) 0))) ++
      wd2 (edgeCfgWord s.chip.gx.bank1 (idIndex (bw (bodyAt r s) 0))) ++ [wd (edgeRunWord (getEdge s.chip (idIndex (bw (bodyAt r s) 0)))), 0, 0, 0] ++
      slotCfgWords (s.chip.gx.bank0.slotCard (edLeg o.body) (edSlot o.body)) ++ slotCfgWords (s.chip.gx.bank1.slotCard (edLeg o.body) (edSlot o.body)) ++
      slotRunWords (getSlotRun s.chip (edLeg o.body) (edSlot o.body)))) s)) ∧
  (∀ (s : State) (r : CmdRef), Served 0x0307 r s → fwdConfigFields (bodyAt r s) = none →
    (bf (bodyAt r s) 0 0 6 = s.chip.fwd.cacheGib ∨ ∀ i ∈ (cfg s.chip).indexes tSource, srcRtxDepth ((cfg s.chip).body tSource i) = 0) →
    exec (.gxFwdConfig r) s = .next (ended r (Res.ok []) (modFwd (fun w => { w with cacheGib := bf (bodyAt r s) 0 0 6, holdoffMs := bf (bodyAt r s) 4 0 9 }) (took r s)) s)) ∧
  (∀ (s : State) (r : CmdRef), Served 0x0206 r s →
    exec (.gxIngCounters r) s = .next (ended r
      (Res.ok (ctrWords s.chip 0x0206 (if bit (bw (bodyAt r s) 0) 0 then scope2 (bf (bodyAt r s) 4 0 3 % 4) else bf (bodyAt r s) 4 0 3) 16))
      (if bit (bw (bodyAt r s) 8) 0 then ctrClear 0x0206 (if bit (bw (bodyAt r s) 0) 0 then scope2 (bf (bodyAt r s) 4 0 3 % 4) else bf (bodyAt r s) 4 0 3) 16 (took r s)
        else took r s) s)) ∧
  (∀ (s : State) (r : CmdRef), Served 0x0308 r s →
    exec (.gxFwdCounters r) s = .next (ended r (Res.ok (ctrWords s.chip 0x0308 (bf (bodyAt r s) 0 0 2) 14))
      (if bit (bw (bodyAt r s) 4) 0 then ctrClear 0x0308 (bf (bodyAt r s) 0 0 2) 14 (took r s) else took r s) s))

/-- A leg is active while a packet is queued and its bucket is at or above zero. Its candidate is the head of the lowest class that may be sent now under gates, launch times and repair cap; the finish tag is the start tag plus counted length over weight, with 16 fraction bits. Among the candidates with S ≤ V the smallest F is chosen, ties to the lower leg, and without one the smallest S. At selection S becomes F and V becomes the larger of V + L ÷ W and the least S over the legs active then; EGRESS_SELECT makes this choice when no frame is under way, no PTP message waits and the port bucket is not below zero. Tags and V are 64-bit numbers, which are compared as differences from V in serial order (the model's choice, log 162). -/
def Obligations.EgressIsFairQueuing : Prop :=
  (∀ r : LegRun, r.active = true ↔ r.queued ≠ [] ∧ 0 ≤ r.bucket) ∧
  (∀ (c : Chip) (lp : Nat) (r : LegRun) (cls : Nat) (k : EgPkt), candidate c lp r = some (cls, k) →
    cls < 4 ∧ (r.queue cls).head? = some k ∧ headMay c lp cls k = true ∧ (cls = 2 → 0 ≤ r.repair) ∧
      ∀ d < cls, ∀ j, (r.queue d).head? = some j → headMay c lp d j = true → d = 2 ∧ r.repair < 0) ∧
  (∀ (c : Chip) (lp : Nat) (legs : List Nat), ∀ x ∈ choices c lp legs, (∃ g, (getLeg c x.leg).tag = some g ∧ x.s = tagFrom (getEgPort c lp).v g) ∧
    candidate c lp (getLeg c x.leg) = some (x.cls, x.pkt) ∧
    x.f = x.s + ((getEgPort c lp).counted x.pkt.bytes * 65536 / shWeight ((legCfg c x.leg).shape x.leg) : Nat)) ∧
  (∀ l : List Choice, l.Pairwise (·.leg < ·.leg) → l ≠ [] → ∃ x ∈ l, choose l = some x ∧
    ((x.s ≤ 0 ∧ ∀ y ∈ l, y.s ≤ 0 → x.f ≤ y.f ∧ (y.f = x.f → x.leg ≤ y.leg)) ∨
     ((∀ y ∈ l, 0 < y.s) ∧ ∀ y ∈ l, x.s ≤ y.s ∧ (y.s = x.s → x.leg ≤ y.leg)))) ∧
  (∀ (lp v f : Nat) (legs active : List Nat) (x : Choice) (c d : Chip), x.leg ∈ legs → v = (getEgPort c lp).v → f = tagAt v x.f →
    d = modLeg x.leg (fun r => { r with tag := some f }) c → active = legs.filter (fun l => (getLeg d l).tag.isSome) →
    (getEgPort (selectFrame lp legs x c) lp).v =
      tagAt v (max (((getEgPort c lp).counted x.pkt.bytes * 65536 / (active.map (fun l => shWeight ((legCfg c l).shape l))).sum : Nat) : Int)
        ((active.map (fun l => tagFrom v ((getLeg d l).tag.getD 0))).foldl min x.f)) ∧
      (getEgPort (selectFrame lp legs x c) lp).sel = some (x.leg, x.cls, x.pkt) ∧
      ((getLeg (selectFrame lp legs x c) x.leg).tag = some f ∨ (getLeg (selectFrame lp legs x c) x.leg).tag = none)) ∧
  (∀ (s : State) (lp : Nat) (bad : List Nat) (c0 c1 c2 : Chip), c0 = fillProbes lp s.chip → c1 = refillPort c0 lp → lportUp c1 lp = true →
    (getEgPort c1 lp).sel = none → (c1.eg.ptpOut.all (fun x => x.lport != lp)) = true →
    ((getEgPort c1 lp).rateMbps = 0 ∨ 0 ≤ (getEgPort c1 lp).bucket) →
    c2 = (portLegs c1 lp).foldl (fun c l => noteCapped lp l (readyLeg lp l (if bad.contains l then poisonedLeg l c else c))) c1 →
    exec (.egressSelect ⟨lp, bad⟩) s = .next (onChip s (selectLoop lp (portLegs c1 lp) (((portLegs c1 lp).map (fun l => (getLeg c2 l).queued.length)).sum + 1) c2)))

/-- On a port that is up, sends nothing now and has no PTP message waiting and no bucket below zero, EGRESS_SELECT chooses the next frame, a leg whose tag state reads as poison having restarted; the selected frame leaves a port that is up, is counted with its bytes, recorded and gives its buffer back, and a poisoned one or one on a port that is down is dropped and counted; with none selected the oldest PTP message leaves and its command ends with its stamps; a launch time arrives with service time; a bucket that recovers makes its leg active; GX_PTP_SEND queues a message of 34 to 1,024 bytes within its rate; GX_EGRESS_COUNTERS answers 14 counters of a port to the operator and of a leg to whoever may name it. -/
def Obligations.EgressRows : Prop :=
  (∀ (s : State) (lp : Nat) (bad : List Nat) (c0 c1 c2 : Chip), c0 = fillProbes lp s.chip → c1 = refillPort c0 lp → lportUp c1 lp = true →
    (getEgPort c1 lp).sel = none → (c1.eg.ptpOut.all (fun x => x.lport != lp)) = true →
    ((getEgPort c1 lp).rateMbps = 0 ∨ 0 ≤ (getEgPort c1 lp).bucket) →
    c2 = (portLegs c1 lp).foldl (fun c l => noteCapped lp l (readyLeg lp l (if bad.contains l then poisonedLeg l c else c))) c1 →
    exec (.egressSelect ⟨lp, bad⟩) s = .next (onChip s (selectLoop lp (portLegs c1 lp) (((portLegs c1 lp).map (fun l => (getLeg c2 l).queued.length)).sum + 1) c2))) ∧
  (∀ (s : State) (lp l cls : Nat) (k : EgPkt), (getEgPort s.chip lp).sel = some (l, cls, k) → lportUp s.chip lp = true → k.poison = false →
    exec (.frameTransmit lp false) s = .next (onChip s (countEg lp l 0 1 (countEg lp l 1 k.bytes (drop k.buf (recordSent lp l cls k
      (countTx lp (emit (.frame lp (l + 1) k) (modEgPort lp (fun p => { p with sel := none }) s.chip))))))))) ∧
  (∀ (s : State) (lp l cls : Nat) (k : EgPkt) (p : Bool), (getEgPort s.chip lp).sel = some (l, cls, k) → lportUp s.chip lp = true → (p || k.poison) = true →
    exec (.frameTransmit lp p) s = .next (onChip s (countEg lp l 12 1 (drop k.buf (modEgPort lp (fun p => { p with sel := none }) s.chip))))) ∧
  (∀ (s : State) (lp l cls : Nat) (k : EgPkt) (p : Bool), (getEgPort s.chip lp).sel = some (l, cls, k) → lportUp s.chip lp = false →
    exec (.frameTransmit lp p) s = .next (onChip s (countEg lp l 4 1 (drop k.buf (modEgPort lp (fun p => { p with sel := none }) s.chip))))) ∧
  (∀ (s : State) (lp : Nat) (p : Bool) (x : PtpOut), (getEgPort s.chip lp).sel = none → s.chip.eg.ptpOut.find? (fun x => x.lport == lp) = some x →
    lportUp s.chip lp = true →
    exec (.frameTransmit lp p) s = .next (onChip s (finish x.slot (Res.ok (ptpStamps s.chip lp x.event))
      (countTx lp (emit (.frame lp 0 (EgPkt.plain (.ptp x.bytes x.data) x.frame s.chip.gx.current))
        (modEg (fun e => { e with ptpOut := e.ptpOut.filter (· != x) }) s.chip)))))) ∧
  (∀ (s : State) (l cls : Nat) (k : EgPkt) (q : List EgPkt), (getLeg s.chip l).queue cls = k :: q →
    (getEgPort s.chip ((legCfg s.chip l).legLport l)).launchEn = true →
    exec (.launchTimeReached l cls) s = .next (onChip s (waitSvc k.launchNs s.chip))) ∧
  (∀ (s : State) (l lp : Nat) (r : LegRun), lp = (legCfg s.chip l).legLport l → r = refillLeg s.chip lp ((legCfg s.chip l).shape l) (getLeg s.chip l) →
    r.queued ≠ [] → r.rate ≠ 0 →
    exec (.legBucketRecover l) s = .next (onChip s (readyLeg lp l (waitLocal (localNs s.chip + ((-r.bucket).toNat + r.rate - 1) / r.rate) s.chip)))) ∧
  (∀ (s : State) (r : CmdRef) (a : List Word) (w : RateWin), Served 0x0C02 r s → (cfg s.chip).addr (bf (bodyAt r s) 0 0 12) = some a →
    addrActive s.chip (cfg s.chip) (bf (bodyAt r s) 0 0 12) = true → lportUp s.chip (addrLport a) = true →
    34 ≤ bf (bodyAt r s) 4 0 11 → bf (bodyAt r s) 4 0 11 ≤ 1024 → udpFrame a (bf (bodyAt r s) 4 0 11) ≤ (getPort s.chip (addrLport a / 4)).mtu →
    (tget RateWin.zero s.chip.time.txWin (addrLport a)).take (localNs s.chip) 1024 = some w →
    ∃ t, exec (.gxPtpSend r) s = .next t ∧ t.chip.time.txWin = tput s.chip.time.txWin (addrLport a) w ∧ (slotAt r t).st = .busy ∧ t.mem = s.mem ∧
      t.chip.eg.ptpOut = s.chip.eg.ptpOut ++ [⟨addrLport a, slotKey r.fn r.slot, bit (bw (bodyAt r s) 0) 12, udpFrame a (bf (bodyAt r s) 4 0 11),
        bf (bodyAt r s) 4 0 11, ((bodyAt r s).drop 8).take ((bf (bodyAt r s) 4 0 11 + 3) / 4)⟩]) ∧
  (∀ (s : State) (r : CmdRef), Served 0x0403 r s → bit (bw (bodyAt r s) 0) 0 = false → (slotAt r s).opAtCapture = true → bw (bodyAt r s) 4 < 8 →
    exec (.gxEgressCounters r) s = .next (ended r (Res.ok (ctrWords s.chip 0x0403 (bw (bodyAt r s) 4) 14))
      (if bit (bw (bodyAt r s) 8) 0 then ctrClear 0x0403 (bw (bodyAt r s) 4) 14 (took r s) else took r s) s)) ∧
  (∀ (s : State) (r : CmdRef) (o : Obj), Served 0x0403 r s → bit (bw (bodyAt r s) 0) 0 = true → idType (bw (bodyAt r s) 4) = tLeg →
    (ctxAt r s).names (cfg s.chip) (bw (bodyAt r s) 4) = some o →
    exec (.gxEgressCounters r) s = .next (ended r (Res.ok (ctrWords s.chip 0x0403 (scope2 (idIndex (bw (bodyAt r s) 4))) 14))
      (if bit (bw (bodyAt r s) 8) 0 then ctrClear 0x0403 (scope2 (idIndex (bw (bodyAt r s) 4))) 14 (took r s) else took r s) s))

/-- A latch of a list out of range sets CONFIG_ERROR and leaves nothing pending that was not; while a change is pending, a write to an administrative register is discarded and sets ADMIN_BUSY; a cancel clears the pending change, and one that comes when the takeover time has been reached loses: the change completes. -/
def Obligations.GateLatchRefused : Prop :=
  (∀ (s : State) (fn lp : Nat), egOpen s fn lp →
    ((getEgPort s.chip lp).admLen = 0 ∨ 256 < (getEgPort s.chip lp).admLen ∨ (getEgPort s.chip lp).admCycle < 1000 ∨ 1000000000 < (getEgPort s.chip lp).admCycle ∨
      999999999 < (getEgPort s.chip lp).admNs ∨ ∃ i < (getEgPort s.chip lp).admLen, (tget 0 (getEgPort s.chip lp).adm (2 * i + 1)).toNat < 100 ∨
        1000000000 < (tget 0 (getEgPort s.chip lp).adm (2 * i + 1)).toNat) →
    exec (.gateConfigChange fn lp) s = .next (onChip s (modEgPort lp (fun p => { p with configError := true }) s.chip))) ∧
  (∀ (s : State) (fn lp off : Nat) (v : Word), egOpen s fn lp → (getEgPort s.chip lp).pend = true →
    (off = 0x10 ∨ off = 0x14 ∨ off = 0x18 ∨ off = 0x1C ∨ off = 0x20 ∨ (0x1000 ≤ off ∧ off < 0x1800)) →
    exec (.gateAdminWrite fn lp off v) s = .next (onChip s (modEgPort lp (fun p => { p with adminBusy := true }) s.chip))) ∧
  (∀ (s : State) (fn lp : Nat), egOpen s fn lp → svc s.chip < (getEgPort s.chip lp).changeNs →
    exec (.gateCancel fn lp) s = .next (onChip s (modEgPort lp (fun p => { p with pend := false }) s.chip))) ∧
  (∀ (s : State) (fn lp : Nat), egOpen s fn lp → (getEgPort s.chip lp).pend = true → (getEgPort s.chip lp).changeNs ≤ svc s.chip →
    ∃ t, exec (.gateCancel fn lp) s = .next t ∧ (getEgPort t.chip lp).oper = (getEgPort s.chip lp).pendList ∧ (getEgPort t.chip lp).operValid = true ∧
      (getEgPort t.chip lp).pend = false ∧ t.mem = s.mem)

/-- A latch within range makes the administrative list pending; the takeover time is the base time when that is at least 10 µs ahead, and otherwise the first base + n × cycle that is, with LATE_BASE and GATE_LATE_BASE; at that time the list becomes the operating list and GATE_CHANGED is raised; CHANGE_SEC and CHANGE_NS read the takeover time. -/
def Obligations.GateListsTakeOver : Prop :=
  (∀ (s : State) (fn lp : Nat), egOpen s fn lp → (getEgPort s.chip lp).adminBad = false → svc s.chip + 10000 ≤ (getEgPort s.chip lp).admin.base →
    exec (.gateConfigChange fn lp) s = .next (onChip s (modEgPort lp (fun p =>
      { p with pend := true, pendList := p.admin, changeNs := p.admin.base }) s.chip))) ∧
  (∀ (s : State) (fn lp : Nat), egOpen s fn lp → (getEgPort s.chip lp).adminBad = false → (getEgPort s.chip lp).admin.base < svc s.chip + 10000 →
    ∃ t n, exec (.gateConfigChange fn lp) s = .next t ∧ (getEgPort t.chip lp).pend = true ∧ (getEgPort t.chip lp).pendList = (getEgPort s.chip lp).admin ∧
      (getEgPort t.chip lp).changeNs = (getEgPort s.chip lp).admin.base + n * (getEgPort s.chip lp).admCycle ∧
      svc s.chip + 10000 ≤ (getEgPort t.chip lp).changeNs ∧
      (∀ m < n, (getEgPort s.chip lp).admin.base + m * (getEgPort s.chip lp).admCycle < svc s.chip + 10000) ∧ (getEgPort t.chip lp).lateBase = true ∧
      (getEgPort t.chip lp).oper = (getEgPort s.chip lp).oper ∧ (∃ e, t.chip.mgmt.incoming = s.chip.mgmt.incoming ++ [e] ∧ e.code = 0x403) ∧ t.mem = s.mem) ∧
  (∀ (s : State) (lp : Nat), (getEgPort s.chip lp).pend = true →
    ∃ t, exec (.gateTakeover lp) s = .next t ∧ (getEgPort t.chip lp).oper = (getEgPort s.chip lp).pendList ∧ (getEgPort t.chip lp).operValid = true ∧
      (getEgPort t.chip lp).pend = false ∧ t.chip.time = (waitSvc (getEgPort s.chip lp).changeNs s.chip).time ∧
      (∃ e, t.chip.mgmt.incoming = s.chip.mgmt.incoming ++ [e] ∧ e.code = 0x404) ∧ t.mem = s.mem) ∧
  (∀ p : EgPort, egress64 p 0x48 = some (p.changeNs / 1000000000) ∧ egress32 p 0x50 = p.changeNs % 1000000000)

/-- Through an open lock, PORT_RATE takes 0 to 400,000 and starts the port bucket at zero, EGR_PORT_CTRL takes its fields and does the same, and the administrative registers take their values while nothing is pending, the base seconds low word first; a latch of a list within range whose base lies 10 µs ahead makes it pending, a takeover puts the pending list into operation, and a cancel before it clears the change; the gates pass to the next entry with service time; with the lock closed a write changes nothing and raises BAR2_LOCK_VIOLATION. -/
def Obligations.ShaperRegisters : Prop :=
  (∀ (s : State) (fn lp : Nat) (v : Word), egOpen s fn lp → bits v.toNat 0 19 ≤ 400000 →
    ∃ t, exec (.portRateWrite fn lp v) s = .next t ∧ (getEgPort t.chip lp).rateMbps = bits v.toNat 0 19 ∧ (getEgPort t.chip lp).bucket = 0 ∧
      (getEgPort t.chip lp).oper = (getEgPort s.chip lp).oper ∧ t.chip.eg.legs = s.chip.eg.legs ∧ t.mem = s.mem) ∧
  (∀ (s : State) (fn lp : Nat) (v : Word), egOpen s fn lp →
    exec (.egrPortCtrlWrite fn lp v) s = .next (onChip s (modEgPort lp (fun p =>
      { p with ctrl := v &&& 0x33F01#32, bucket := 0, refillNs := localNs s.chip }) s.chip))) ∧
  (∀ (s : State) (fn lp : Nat) (v : Word), egOpen s fn lp → (getEgPort s.chip lp).pend = false →
    exec (.gateAdminWrite fn lp 0x18 v) s = .next (onChip s (modEgPort lp (fun p => { p with admNs := v.toNat }) s.chip)) ∧
    exec (.gateAdminWrite fn lp 0x1C v) s = .next (onChip s (modEgPort lp (fun p => { p with admCycle := v.toNat }) s.chip)) ∧
    exec (.gateAdminWrite fn lp 0x20 v) s = .next (onChip s (modEgPort lp (fun p => { p with admLen := v.toNat % 512 }) s.chip))) ∧
  (∀ (s : State) (fn lp : Nat) (v : Word), egOpen s fn lp → (getEgPort s.chip lp).pend = false →
    exec (.gateAdminWrite fn lp 0x10 v) s = .next (onChip s (modFn fn (fun f => { f with wrLow := tput f.wrLow (0x200010 + 0x10000 * lp) v }) s.chip)) ∧
    exec (.gateAdminWrite fn lp 0x14 v) s = .next (onChip s (modEgPort lp (fun p =>
      { p with admSec := v.toNat * 2 ^ 32 + (tget 0 (getFn s.chip fn).wrLow (0x200010 + 0x10000 * lp)).toNat }) s.chip))) ∧
  (∀ (s : State) (fn lp : Nat), egOpen s fn lp → (getEgPort s.chip lp).adminBad = false → svc s.chip + 10000 ≤ (getEgPort s.chip lp).admin.base →
    exec (.gateConfigChange fn lp) s = .next (onChip s (modEgPort lp (fun p =>
      { p with pend := true, pendList := p.admin, changeNs := p.admin.base }) s.chip))) ∧
  (∀ (s : State) (fn lp : Nat), egOpen s fn lp → svc s.chip < (getEgPort s.chip lp).changeNs →
    exec (.gateCancel fn lp) s = .next (onChip s (modEgPort lp (fun p => { p with pend := false }) s.chip))) ∧
  (∀ (s : State) (lp : Nat), (getEgPort s.chip lp).pend = true →
    exec (.gateTakeover lp) s = .next (onChip s (raise (portIsland lp) 0x404 none lp
      ((getEgPort s.chip lp).pendList.entries.length + 2 ^ 32 * ((getEgPort s.chip lp).changeNs % 1000000000))
      (modEgPort lp (fun p => { p with oper := (getEgPort s.chip lp).pendList, operValid := true, pend := false })
        (waitSvc (getEgPort s.chip lp).changeNs s.chip))))) ∧
  (∀ (s : State) (fn lp i : Nat) (v : Word), egOpen s fn lp → (getEgPort s.chip lp).pend = false → i < 256 →
    exec (.gateAdminWrite fn lp (0x1000 + 8 * i) v) s = .next (onChip s (modEgPort lp (fun p => { p with adm := tput p.adm (2 * i) (v &&& 15#32) }) s.chip)) ∧
    exec (.gateAdminWrite fn lp (0x1004 + 8 * i) v) s = .next (onChip s (modEgPort lp (fun p => { p with adm := tput p.adm (2 * i + 1) v }) s.chip))) ∧
  (∀ (s : State) (lp : Nat), (getEgPort s.chip lp).gateEn = true → (getEgPort s.chip lp).operValid = true →
    exec (.gateEntryBoundary lp) s = .next (onChip s (waitSvc ((getEgPort s.chip lp).oper.at_ (svc s.chip)).2 s.chip))) ∧
  (∀ (s : State) (fn lp : Nat) (v : Word), bar2Reach s.chip fn = true → domOn s.chip 6 = true → lp < 8 → locked s.chip 2 = true →
    exec (.portRateWrite fn lp v) s = .next (onChip s (raise 2 0x2 none (0x200004 + 0x10000 * lp) v.toNat s.chip)))

/-- A run falls due every 50 ms and makes a task, or is skipped and counted while the last one has not started; the runs of the legs lie spread over 50 ms by leg index; the task that runs does the leg's run under the epoch of its start and is over, and its writes for a leg that the current epoch has no longer are discarded and counted; a probe ends at its time; the new estimate lies within the leg's limits and not above one and a half times the received rate plus 100 kb/s unless MIN_RATE is higher; GX_LEG_ADAPT_QUERY answers the 48 bytes of the leg's state. -/
def Obligations.AdaptationRows : Prop :=
  (∀ (s : State) (l : Nat) (c : Chip), (cfg s.chip).has tLeg l = true → fwPending s.chip fwAdapt l = false →
    c = modLeg l (fun r => { r with runDue := nextRun l r.runDue }) (waitSvc (getLeg s.chip l).runDue s.chip) →
    exec (.adaptRunDue l) s = .next (onChip s (fwCreate fwAdapt 5 (((cfg s.chip).owner tLeg l).getD 0) l c))) ∧
  (∀ (s : State) (l : Nat) (c : Chip), (cfg s.chip).has tLeg l = true → fwPending s.chip fwAdapt l = true →
    c = modLeg l (fun r => { r with runDue := nextRun l r.runDue }) (waitSvc (getLeg s.chip l).runDue s.chip) →
    exec (.adaptRunDue l) s = .next (onChip s (countEg ((cfg s.chip).legLport l) l 10 1 c))) ∧
  (∀ (s : State) (l slot : Nat) (bad : List Nat) (g : Cfg), fwRunning s.chip fwAdapt l = some slot → g = cfgAt s.chip (getTask s.chip slot).epoch →
    g.has tLeg l = true → sameObj s.chip g tLeg l = true →
    exec (.adaptRun ⟨l, bad⟩) s = .next (onChip s (fwFinish slot (adaptRun g l bad s.chip)))) ∧
  (∀ (s : State) (l slot : Nat) (bad : List Nat) (g : Cfg), fwRunning s.chip fwAdapt l = some slot → g = cfgAt s.chip (getTask s.chip slot).epoch →
    g.has tLeg l = true → sameObj s.chip g tLeg l = false →
    exec (.adaptRun ⟨l, bad⟩) s = .next (onChip s (fwFinish slot (staleWrite s.chip)))) ∧
  (∀ (s : State) (l : Nat) (c : Chip), (getLeg s.chip l).probeEnd ≠ 0 → c = fillProbe l (waitSvc ((getLeg s.chip l).probeEnd - 1) s.chip) →
    exec (.probeEnd l) s = .next (onChip s (modLeg l (fun r => { r with probeEnd := 0, lastProbe := svc c + 1 }) c))) ∧
  (∀ l t : Nat, l < 262144 → t < nextRun l t ∧ nextRun l t ≤ t + 50000000 ∧ nextRun l t % 50000000 = l * 50000000 / 262144) ∧
  (∀ (b : List Word) (now : Nat) (f : Feedback) (r : LegRun),
    shMin b * 1000 ≤ (estimate b now f r).1 ∧ (estimate b now f r).1 ≤ max (shMin b * 1000) (min (shMax b * 1000) (f.rRecv * 3 / 2 + 100000))) ∧
  (∀ (s : State) (r : CmdRef) (o : Obj) (x : LegRun), Served 0x0402 r s → idType (bw (bodyAt r s) 0) = tLeg →
    (ctxAt r s).names (cfg s.chip) (bw (bodyAt r s) 0) = some o →
    x = refillLeg s.chip ((cfg s.chip).legLport (idIndex (bw (bodyAt r s) 0))) ((cfg s.chip).shape (idIndex (bw (bodyAt r s) 0)))
      (getLeg s.chip (idIndex (bw (bodyAt r s) 0))) →
    exec (.gxLegAdaptQuery r) s = .next (replied r (Res.ok ([wd (x.a / 1000), wd (x.rRecv / 1000), wd x.q, wd x.p, wd (x.rate / 1000),
      wd (bucketBytes x.bucket), wd (bucketBytes x.repair),
      wd (b2n (decide (svc s.chip < x.holdEnd)) + 2 * b2n x.fbLost + 4 * b2n x.underfunded + 8 * b2n (x.probeEnd != 0))] ++
      wd2 x.lastRun ++ [wd (x.budget / 1000), wd (x.spent / 1000)])) s))

/-- Taking a listener's own term from the 40-bit sum of a group gives exactly the 40-bit sum of every other term, for any terms of one block's length with distinct legs; MIX_BLOCK forms that sum for a group on a powered, running audio block and marks the block as mixed. -/
def Obligations.MixMinus : Prop :=
  (∀ (terms : List (Nat × List Int)) (l : Nat) (t : List Int), (terms.map Prod.fst).Nodup → (∀ e ∈ terms, e.2.length = 480) → (l, t) ∈ terms →
    subSamples (terms.foldl (fun a e => addSamples a e.2) silence) t =
      (terms.filter (fun e => e.1 != l)).foldl (fun a e => addSamples a e.2) silence) ∧
  (∀ (s : State) (grp : Nat) (bad : List Nat), s.chip.aud.begun = true → domOn s.chip 11 = true → (cfg s.chip).has tGroup grp = true →
    (getMix s.chip grp).mixed ≠ some (workBlock s.chip) → stopped s.chip (cfg s.chip) tGroup grp = false →
    ∃ t, exec (.mixBlock grp bad) s = .next t ∧ (getMix t.chip grp).mixed = some (workBlock s.chip) ∧ t.mem = s.mem ∧
      t.chip.gx = s.chip.gx ∧ t.chip.net = s.chip.net)

/-- A block starts at the next boundary of the grid, in its new place after a move; a falling edge of the pin after 100 ns of high level sets the origin; the input, selection and output tasks that run do their block and are over, and the fabric mixes a group's block; a swap of coefficients takes effect at its index; GX_DTMF_SEND starts one event, GX_AUDIO_COEF_LOAD writes the inactive bank, GX_AUDIO_COEF_SWAP arms the swap, GX_AUDIO_SYNC sets the origin, and the meter and counter commands answer their words. -/
def Obligations.AudioRows : Prop :=
  (∀ (s : State) (b : Int), domOn s.chip 11 = true → s.chip.aud.begun = true → s.chip.aud.newOrigin = none →
    b = max (s.chip.aud.block + 1) (gridIndex s.chip.aud (svc s.chip) / 480) →
    exec .audioBlockStart s = .next (onChip s (releaseAudio { waitSvc (blockNs s.chip.aud b) s.chip with aud :=
      { s.chip.aud with block := b, lastStart := blockNs s.chip.aud b, begun := true } }))) ∧
  (∀ (s : State) (b : Int) (o cause : Nat) (shift : Int) (a : Audio), domOn s.chip 11 = true → s.chip.aud.begun = true →
    s.chip.aud.newOrigin = some (o, cause, shift) → b = (((s.chip.aud.lastStart + 10000000 : Nat) : Int) - o + 9999999) / 10000000 →
    a = { renumber (b - (s.chip.aud.block + 1)) s.chip.aud with origin := o, newOrigin := none } →
    exec .audioBlockStart s = .next (onChip s (releaseAudio (raise 29 0x506 none cause (unsigned 64 shift)
      { waitSvc (blockNs a b) s.chip with aud := { a with block := b, lastStart := blockNs a b } })))) ∧
  (∀ (s : State) (n : Nat), s.chip.aud.syncPinEn = true → 100 ≤ n → (s.chip.aud.lastEdge = 0 ∨ s.chip.aud.lastEdge - 1 + 100000000 ≤ svc s.chip) →
    exec (.audioSyncEdge n) s = .next (onChip s (setOrigin (svc s.chip) 0 (modAud (fun a => { a with lastEdge := svc s.chip + 1 }) s.chip)))) ∧
  (∀ (s : State) (n : Nat), s.chip.aud.syncPinEn = true → s.chip.aud.lastEdge ≠ 0 → svc s.chip < s.chip.aud.lastEdge - 1 + 100000000 →
    exec (.audioSyncEdge n) s = .next s) ∧
  (∀ (s : State) (l slot : Nat) (g : Cfg), fwRunning s.chip fwAudIn l = some slot → auIn (g.audio l) = true →
    g = cfgAt s.chip (getTask s.chip slot).epoch → sameObj s.chip g tLeg l = true → (getIn s.chip l).done ≠ some (workBlock s.chip) →
    exec (.audioInputBlock l false) s = .next (onChip s (fwFinish slot (inputBlock g l s.chip)))) ∧
  (∀ (s : State) (g slot : Nat), fwRunning s.chip fwMix g = some slot → (cfg s.chip).has tGroup g = true →
    exec (.mixSelect g) s = .next (onChip s (fwFinish slot (chooseMix (cfg s.chip) g (workBlock s.chip) s.chip)))) ∧
  (∀ (s : State) (grp : Nat) (bad : List Nat), s.chip.aud.begun = true → domOn s.chip 11 = true → (cfg s.chip).has tGroup grp = true →
    (getMix s.chip grp).mixed ≠ some (workBlock s.chip) → stopped s.chip (cfg s.chip) tGroup grp = false →
    ∃ t, exec (.mixBlock grp bad) s = .next t ∧ (getMix t.chip grp).mixed = some (workBlock s.chip) ∧ t.mem = s.mem) ∧
  (∀ (s : State) (m : Bool) (i slot : Nat), fwRunning s.chip (if m then fwMaster else fwAudOut) i = some slot →
    exec (.audioOutputBlock m i) s = .next (onChip s (fwFinish slot (outputBlock m i s.chip)))) ∧
  (∀ (s : State) (p : Nat) (n : Int), (tget Profile.zero s.chip.aud.profiles p).pend = some n →
    ∃ t, exec (.coefSwapTakeEffect p) s = .next t ∧
      tget Profile.zero t.chip.aud.profiles p = { tget Profile.zero s.chip.aud.profiles p with
        activeB := !(tget Profile.zero s.chip.aud.profiles p).activeB, pend := none,
        swaps := (tget Profile.zero s.chip.aud.profiles p).swaps.filter (fun e => decide (480 * workBlock s.chip < e.1)) ++
          [(n, (tget Profile.zero s.chip.aud.profiles p).active)] } ∧
      (∃ e, t.chip.mgmt.incoming = s.chip.mgmt.incoming ++ [e] ∧ e.code = 0x505) ∧ t.mem = s.mem) ∧
  (∀ (s : State) (r : CmdRef) (o : Obj) (d : DtmfPlay), Served 0x0504 r s → idType (bw (bodyAt r s) 0) = tLeg → (ctxAt r s).names (cfg s.chip) (bw (bodyAt r s) 0) = some o →
    40 ≤ bf (bodyAt r s) 8 0 16 → bf (bodyAt r s) 8 0 16 ≤ 5000 → auOut ((cfg s.chip).audio (idIndex (bw (bodyAt r s) 0))) = true →
    (auEventSource ((cfg s.chip).audio (idIndex (bw (bodyAt r s) 0))) ≠ 0 ∨ bit (bw (bodyAt r s) 8) 16 = true) →
    (getOut s.chip (idIndex (bw (bodyAt r s) 0))).dtmf = none →
    d = ⟨bf (bodyAt r s) 4 0 4, bf (bodyAt r s) 4 8 6, (bf (bodyAt r s) 8 0 16 + 9) / 10, bit (bw (bodyAt r s) 8) 16, 0, 0, 0⟩ →
    exec (.gxDtmfSend r) s = .next (ended r (Res.ok []) (modOut (idIndex (bw (bodyAt r s) 0)) (fun o => { o with dtmf := some d }) (took r s)) s)) ∧
  (∀ (s : State) (r : CmdRef) (q q2 : Profile), Served 0x0505 r s → bf (bodyAt r s) 0 0 6 ≠ 0 → q = tget Profile.zero s.chip.aud.profiles (bf (bodyAt r s) 0 0 6) →
    q.pend = none → bit (bw (bodyAt r s) 0) 8 ≠ q.activeB →
    q2 = (if bit (bw (bodyAt r s) 0) 8 then { q with bankB := bankImage (bodyAt r s) 8 } else { q with bankA := bankImage (bodyAt r s) 8 }) →
    exec (.gxAudioCoefLoad r) s = .next (ended r (Res.ok [wd (b2n q.activeB)])
      (modAud (fun a => { a with profiles := tput a.profiles (bf (bodyAt r s) 0 0 6) q2 }) (took r s)) s)) ∧
  (∀ (s : State) (r : CmdRef) (q : Profile), Served 0x0506 r s → q = tget Profile.zero s.chip.aud.profiles (bf (bodyAt r s) 0 0 6) → q.pend = none →
    gridIndex s.chip.aud (svc s.chip) < bd (bodyAt r s) 8 → (bd (bodyAt r s) 8 : Int) ≤ gridIndex s.chip.aud (svc s.chip) + 480000 → bd (bodyAt r s) 8 ≠ 0 →
    exec (.gxAudioCoefSwap r) s = .next (ended r (Res.ok (wd2 (unsigned 64 (bd (bodyAt r s) 8)) ++ [wd 0]))
      (modAud (fun a => { a with profiles := tput a.profiles (bf (bodyAt r s) 0 0 6) { q with pend := some (bd (bodyAt r s) 8 : Int) } }) (took r s)) s)) ∧
  (∀ (s : State) (r : CmdRef) (c : Chip), Served 0x0507 r s → bw (bodyAt r s) 16 ≤ 999999999 → bit (bw (bodyAt r s) 0) 1 = true →
    c = setOrigin (if bit (bw (bodyAt r s) 0) 2 then svc s.chip else bd (bodyAt r s) 8 * 1000000000 + bw (bodyAt r s) 16) 1
      (modAud (fun a => { a with syncPinEn := bit (bw (bodyAt r s) 0) 0 }) (took r s)) →
    exec (.gxAudioSync r) s = .next (ended r (Res.ok (wd2 (c.aud.origin / 1000000000) ++ [wd (c.aud.origin % 1000000000)])) c s)) ∧
  (∀ (s : State) (r : CmdRef) (o : Obj), Served 0x0508 r s → idType (bw (bodyAt r s) 0) = tGroup → (ctxAt r s).names (cfg s.chip) (bw (bodyAt r s) 0) = some o →
    exec (.gxAudioMeterRead r) s = .next (replied r (Res.ok (Meter.zero.words ++ (getMaster s.chip (idIndex (bw (bodyAt r s) 0))).meter.words ++
      wd2 (unsigned 64 (getMaster s.chip (idIndex (bw (bodyAt r s) 0))).meter.block))) s)) ∧
  (∀ (s : State) (r : CmdRef), Served 0x0509 r s → bf (bodyAt r s) 0 0 2 = 2 → (slotAt r s).opAtCapture = true →
    exec (.gxAudioCounters r) s = .next (ended r (Res.ok ((List.range 12).flatMap (fun i => wd2 (min ctrMax (ctr s.chip 0x0509 scopeDev i)))))
      (if bit (bw (bodyAt r s) 8) 0 then ctrClear 0x0509 scopeDev 12 (took r s) else took r s) s))

/-- At the assembly limit the oldest frame of a context is given up and later ones go on; a finished frame leaves its core whatever the core reports, and one decoded without fault and kept as a reference joins the context's buffers, its samples written where its buffer and its reduced copy stand; a core fault puts the frame back once, and without a frame only takes the unit out; an open keyframe request is repeated when due; GX_DECODE_QUERY and GX_DECODE_COUNTERS answer their words. -/
def Obligations.DecodeRows : Prop :=
  (∀ (s : State) (i : Nat) (f : AsmFrame) (rest : List AsmFrame), (getDec s.chip i).asm = f :: rest →
    exec (.assemblyTimeout i) s = .next (onChip s (flushFrames (cfg s.chip) i (rest.length + 1) (declareLost i f
      (modDec i (fun x => { x with asm := rest }) (waitSvc f.deadline s.chip)))))) ∧
  (∀ (s : State) (i : Nat) (w : DecBusy) (r : DecReport), (getDec s.chip i).busy = some w →
    ∃ t ops, exec (.decodeDone i r) s = .next t ∧ (getDec t.chip i).busy = none ∧ t.chip.gx = s.chip.gx ∧ t.mem = s.mem.apply ops ∧
      (r.poisonIn = true ∨ r.poisonState = true ∨ r.rasl = true → ops = [])) ∧
  (∀ (s : State) (i : Nat) (w : DecBusy) (r : DecReport), (getDec s.chip i).busy = some w → (getDec s.chip i).st = .decoding →
    r.poisonIn = false → r.poisonState = false → r.rasl = false → r.params = none → r.refs = [] → r.poisonRefs = [] → r.short = true →
    ∃ t, exec (.decodeDone i r) s = .next t ∧ ∃ b ∈ (getDec t.chip i).bufs, b.handle = w.handle ∧ b.short = true ∧ b.pos = r.pos ∧ b.unusable = false ∧
      ∃ d, t.mem = s.mem.apply (storeAll s.mem s.chip (pictureWrites ((cfgAt s.chip w.epoch).decode i) (getDec s.chip i) w r d s.chip))) ∧
  (∀ (s : State) (core : Nat), decOn core s.chip = none →
    exec (.decCoreFault core) s = .next (onChip s (unitFault 1 core (raise (decodeIsland core) 0x606 none (decodeIsland core) 0 s.chip)))) ∧
  (∀ (s : State) (core i : Nat) (w : DecBusy), decOn core s.chip =
      some (i, getDec s.chip i) → (getDec s.chip i).busy = some w → w.frame.retried = false →
    ∃ t, exec (.decCoreFault core) s = .next t ∧ (getDec t.chip i).busy = none ∧
      (getDec t.chip i).waiting = { w.frame with retried := true } :: (getDec s.chip i).waiting ∧ t.mem = s.mem) ∧
  (∀ (s : State) (i : Nat), (cfg s.chip).hasDecode i = true → (getDec s.chip i).begun = true →
    ((getDec s.chip i).st = .concealed ∨ (getDec s.chip i).st = .waitKey) →
    exec (.decPliRepeat i) s = .next (onChip s (decAskKey (cfg s.chip) i (waitSvc (getDec s.chip i).pliAt s.chip)))) ∧
  (∀ (s : State) (r : CmdRef) (o : Obj) (d : DecRun), Served 0x0601 r s → idType (bw (bodyAt r s) 0) = tSource →
    (ctxAt r s).names (cfg s.chip) (bw (bodyAt r s) 0) = some o → (cfg s.chip).hasDecode (idIndex (bw (bodyAt r s) 0)) = true →
    d = getDec s.chip (idIndex (bw (bodyAt r s) 0)) →
    exec (.gxDecodeQuery r) s = .next (replied r (Res.ok ([wd (d.st.code + 2 ^ 4 * d.reason + 2 ^ 8 * (d.profileIdc % 256) + 2 ^ 16 * (d.levelIdc % 256) +
      2 ^ 24 * b2n d.bit10 + 2 ^ 25 * (d.tap.curS % 8) + 2 ^ 28 * (d.tap.curT % 8)), wd (d.codedW % 65536 + 2 ^ 16 * d.codedH),
      wd ((d.bufs.length + b2n d.busy.isSome) % 256 + 2 ^ 8 * ((d.bufs.map (·.holds)).sum % 256)), wd d.waiting.length] ++ d.newest.words)) s)) ∧
  (∀ (s : State) (r : CmdRef), Served 0x0602 r s → bit (bw (bodyAt r s) 0) 0 = true → (slotAt r s).opAtCapture = true →
    exec (.gxDecodeCounters r) s = .next (ended r (Res.ok (ctrWords s.chip 0x0602 scopeDev 12))
      (if bit (bw (bodyAt r s) 8) 0 then ctrClear 0x0602 scopeDev 12 (took r s) else took r s) s)) ∧
  (∀ (s : State) (r : CmdRef) (o : Obj), Served 0x0602 r s → bit (bw (bodyAt r s) 0) 0 = false → idType (bw (bodyAt r s) 4) = tSource →
    (ctxAt r s).names (cfg s.chip) (bw (bodyAt r s) 4) = some o →
    exec (.gxDecodeCounters r) s = .next (ended r (Res.ok (ctrWords s.chip 0x0602 (idIndex (bw (bodyAt r s) 4)) 12))
      (if bit (bw (bodyAt r s) 8) 0 then ctrClear 0x0602 (idIndex (bw (bodyAt r s) 4)) 12 (took r s) else took r s) s))

/-- Rate control settles the waiting frame and its parts become tasks; a part begins when its rows and its leader are there; a coded row adds its bits under the guard, and the motion of its blocks is analysed in the highest layer; a part that is done waits for the others, and with the last one the frame is released and its reconstruction and bitstreams stand in memory; a core fault without a frame takes the unit out; an unacknowledged long-term picture is given up at its limit; the vote window of a rendition ends; the keyframe, query and counter commands answer their words. -/
def Obligations.EncodeRows : Prop :=
  (∀ (s : State) (i slot : Nat) (satd : List Nat) (f : EncFrame), fwRunning s.chip fwRate i = some slot → (getRend s.chip i).busy = some f → f.rcDone = false →
    ∃ t f1, exec (.rateControlRun i satd) s = .next t ∧ (getRend t.chip i).busy = some f1 ∧ f1.rcDone = true ∧ f1.num = f.num ∧ f1.epoch = f.epoch ∧
      t.chip.gx = { s.chip.gx with staleWrites :=
        s.chip.gx.staleWrites + (if sameObj s.chip (cfgAt s.chip f.epoch) tRend i = true then 0 else 1) } ∧ t.mem = s.mem) ∧
  (∀ (s : State) (i : Nat) (c : Chip) (r : RendRun), (cfg s.chip).has tRend i = true →
    c = (if (getRend s.chip i).voteSeen < (getRend s.chip i).voteWin then s.chip else waitSvc (((getRend s.chip i).voteWin + 1) * 200000000) s.chip) →
    r = (getRend s.chip i).rollVotes (svc c) →
    exec (.voteWindowEnd i) s = .next (onChip s (putRend i { r with
      t := if rdVoted ((cfg s.chip).body tRend i) then windowT ((cfg s.chip).body tRend i) r.votesDone r.t else r.t, voteSeen := r.voteWin } c))) ∧
  (∀ (s : State) (i l p : Nat) (f : EncFrame) (fb : Bool), (getRend s.chip i).busy = some f →
    f.parts.any (fun x => x.layer == l && x.part == p && x.core.isSome && !x.begun) = true →
    mayBegin ((cfgAt s.chip f.epoch).body tRend i) ((cfgAt s.chip f.epoch).rendCv i) (rowsHere (getRend s.chip i) f.num) = true →
    leaderState (cfgAt s.chip f.epoch) ((cfgAt s.chip f.epoch).body tRend i) f.num s.chip = some fb →
    exec (.encodePartStart i l p) s = .next (onChip s (modBusy i (modPart l p (fun x => { x with begun := true }))
      (if f.begun then s.chip else frameBegin (cfgAt s.chip f.epoch) i f fb s.chip)))) ∧
  (∀ (s : State) (i l p n : Nat) (f : EncFrame) (x : EncPart), (getRend s.chip i).busy = some f →
    f.parts.find? (fun x => x.layer == l && x.part == p) = some x → x.begun = true → x.done = false → x.rowsDone < x.rows →
    (rowsHere (getRend s.chip i) f.num).2 = true → (encRow ((cfgAt s.chip f.epoch).body tRend i) n x).capped = false →
    ∃ t, exec (.encodeRowDone i l p n false []) s = .next t ∧ t.mem = s.mem ∧
      (getRend t.chip i).busy = some { modPart l p (fun _ => encRow ((cfgAt s.chip f.epoch).body tRend i) n x) f with
        field := if l + 1 = rdS ((cfgAt s.chip f.epoch).body tRend i) then
            analyse (cfgAt s.chip f.epoch) i f (codingRow ((cfgAt s.chip f.epoch).body tRend i) f l x * (rdBlock ((cfgAt s.chip f.epoch).body tRend i) / 16))
              (rdBlock ((cfgAt s.chip f.epoch).body tRend i) / 16) s.mem s.chip
          else f.field }) ∧
  (∀ (s : State) (i l p : Nat) (sizes : List Nat) (f f1 : EncFrame) (x : EncPart), (getRend s.chip i).busy = some f →
    f.parts.find? (fun x => x.layer == l && x.part == p) = some x → x.begun = true → x.done = false → x.rows ≤ x.rowsDone →
    f1 = modPart l p (fun y => { y with done := true, sizes := sizes }) f → f1.parts.all (·.done) = false →
    exec (.encodePartDone i l p sizes false) s = .next (onChip s (endTask x.task (unitDone x.task 0 0 false false
      (modRend i (fun r => { r with busy := some f1 }) s.chip))))) ∧
  (∀ (s : State) (i l p : Nat) (sizes : List Nat) (f f1 : EncFrame) (x : EncPart) (d : Nat × Chip), (getRend s.chip i).busy = some f →
    f.parts.find? (fun x => x.layer == l && x.part == p) = some x → x.begun = true → x.done = false → x.rows ≤ x.rowsDone →
    f1 = modPart l p (fun y => { y with done := true, sizes := sizes }) f → f1.parts.all (·.done) = true →
    d = draw (endTask x.task (unitDone x.task 0 0 false false (modRend i (fun r => { r with busy := some f1 }) s.chip))) →
    exec (.encodePartDone i l p sizes false) s = .next { onChip s (finishFrame i f1 d.2) with
      mem := s.mem.apply (storeAll s.mem s.chip (frameWrites ((cfgAt s.chip f.epoch).body tRend i) f d.1 s.chip)) }) ∧
  (∀ (s : State) (core : Nat), rendOn core s.chip = none →
    exec (.encCoreFault core) s = .next (onChip s (unitFault 2 core (raise (encodeIsland core) 0x803 none (encodeIsland core) 0 s.chip)))) ∧
  (∀ (s : State) (i : Nat) (x : Ltr), (getRend s.chip i).ltrs.find? (fun x => !x.acked) = some x →
    exec (.ltrAckTimeout i) s = .next (onChip s (recSweep i (modRend i (fun r =>
      { r with ltrs := r.ltrs.filter (fun y => y.frame != x.frame), recs := r.recs.map (fun y => if y.frame = x.frame then { y with long := false } else y) })
      (waitSvc (x.atNs + rdAckMs ((cfg s.chip).body tRend i) * 1000000) s.chip))))) ∧
  (∀ (s : State) (r : CmdRef) (o : Obj), Served 0x0801 r s → idType (bw (bodyAt r s) 0) = tRend → (ctxAt r s).names (cfg s.chip) (bw (bodyAt r s) 0) = some o →
    exec (.gxRenditionKeyframe r) s = .next (ended r (Res.ok (wd2 (nextKeyFrame (cfg s.chip) (idIndex (bw (bodyAt r s) 0)) s.chip)))
      (countEnc (idIndex (bw (bodyAt r s) 0)) 10 1 (modRend (idIndex (bw (bodyAt r s) 0)) (fun r => { r with keyAsked := true }) (took r s))) s)) ∧
  (∀ (s : State) (r : CmdRef) (o : Obj) (i : Nat) (x : RendRun), Served 0x0802 r s → idType (bw (bodyAt r s) 0) = tRend →
    (ctxAt r s).names (cfg s.chip) (bw (bodyAt r s) 0) = some o → i = idIndex (bw (bodyAt r s) 0) → x = getRend s.chip i →
    exec (.gxRenditionQuery r) s = .next (replied r (Res.ok (wd2 x.lastNum ++ [wd ((x.target ((cfg s.chip).body tRend i)).scale 1 1000).floor.toNat,
      wd (unsigned 32 x.d.floor), wd (x.lastQpUsed % 64 + 2 ^ 8 * b2n x.overshoot + 2 ^ 9 * b2n x.lastKey + 2 ^ 10 * b2n x.ltrStale), wd x.lastBits] ++
      wd2 x.newestAck ++ [wd ((x.recs.filter RecPic.marked).length % 256 +
        2 ^ 8 * (rdParts ((cfg s.chip).body tRend i) (cvFps ((cfg s.chip).rendCv i)) % 16)), 0, 0, 0])) s)) ∧
  (∀ (s : State) (r : CmdRef), Served 0x0803 r s → bit (bw (bodyAt r s) 0) 0 = true → (slotAt r s).opAtCapture = true →
    exec (.gxEncCounters r) s = .next (ended r (Res.ok (ctrWords s.chip 0x0803 scopeDev 12))
      (if bit (bw (bodyAt r s) 8) 0 then ctrClear 0x0803 scopeDev 12 (took r s) else took r s) s)) ∧
  (∀ (s : State) (r : CmdRef) (o : Obj), Served 0x0803 r s → bit (bw (bodyAt r s) 0) 0 = false → idType (bw (bodyAt r s) 4) = tRend →
    (ctxAt r s).names (cfg s.chip) (bw (bodyAt r s) 4) = some o →
    exec (.gxEncCounters r) s = .next (ended r (Res.ok (ctrWords s.chip 0x0803 (idIndex (bw (bodyAt r s) 4)) 12))
      (if bit (bw (bodyAt r s) 8) 0 then ctrClear 0x0803 (idIndex (bw (bodyAt r s) 4)) 12 (took r s) else took r s) s))

/-- At the deadline of a frame of an idle canvas the frame takes a buffer and begins, or is skipped without one; a band that is composed is written to the frame's buffer, moves the frame on by 16 rows, and beside it only the renditions' hint map is written; a frame whose rows are all written ends with the CRC of its beacon region as it stands in memory, but for the bits that a fault of the compositor turned, becomes the last one composed and frees the canvas; a compositor fault is reported; poisoned planes are flattened again; the image, ring, query and counter commands do their work. -/
def Obligations.ComposeRows : Prop :=
  (∀ (s : State) (cv n d : Nat) (c : Chip), (cfg s.chip).has tCanvas cv = true → (getCv s.chip cv).busy = none → n = (getCv s.chip cv).next →
    d = cvDeadline ((cfg s.chip).body tCanvas cv) n → c = modCv cv (fun r => { r with next := n + 1 }) (waitSvc d s.chip) →
    exec (.canvasFrameDeadline cv) s = .next (onChip s
      (if (allocIn (identity (((cfg s.chip).owner tCanvas cv).getD 0) 3) (canvasPool ((cfg s.chip).body tCanvas cv)) c).1 ≠ 0 then
        cvSkip (cfg s.chip) cv n true (allocIn (identity (((cfg s.chip).owner tCanvas cv).getD 0) 3) (canvasPool ((cfg s.chip).body tCanvas cv)) c).2.2
      else cvBegin (cfg s.chip) cv n d (allocIn (identity (((cfg s.chip).owner tCanvas cv).getD 0) 3) (canvasPool ((cfg s.chip).body tCanvas cv)) c).2.1
        (allocIn (identity (((cfg s.chip).owner tCanvas cv).getD 0) 3) (canvasPool ((cfg s.chip).body tCanvas cv)) c).2.2))) ∧
  (∀ (s : State) (cv u : Nat) (f : CFrame) (mvs : List (Int × Int)) (bl bp bb : List (Nat × Nat)), (getCv s.chip cv).busy = some f →
    f.compositor = some u → f.row < cvH ((cfgAt s.chip f.epoch).body tCanvas cv) →
    ∃ t f1 map, exec (.composeBandDone cv mvs bl ⟨bp, bb⟩) s = .next t ∧ (getCv t.chip cv).busy = some f1 ∧ f1.row = f.row + 16 ∧ f1.num = f.num ∧
      t.mem = s.mem.apply (storeAll s.mem s.chip (bandWrites s.mem s.chip (cfgAt s.chip f.epoch) cv f.buffer f.row ⟨bl, bp, bb⟩
        (movingContent f.uses (getCv s.chip cv).shown (fun b p => (readOf (cfgAt s.chip f.epoch) b p).2.2))) ++ map) ∧
      ((cfgAt s.chip f.epoch).rendsOf cv = [] → map = [])) ∧
  (∀ (s : State) (cv u fault head : Nat) (bad : Bool) (f : CFrame), (getCv s.chip cv).busy = some f → f.compositor = some u → f.record.height ≤ f.row →
    ∃ t, exec (.composeDone cv fault head bad) s = .next t ∧ (getCv t.chip cv).busy = none ∧ (getCv t.chip cv).begun = true ∧
      (getCv t.chip cv).lastNum = f.num ∧ (getCv t.chip cv).last.beaconCrc =
        (if f.record.beaconPresent then crc32 (beaconRead s.mem (frameLayout s.chip f) ((cfgAt s.chip f.epoch).beacon cv)) ^^^ (fault % 2 ^ 32) else 0) ∧
      t.chip.gx = s.chip.gx ∧ t.mem = s.mem) ∧
  (∀ (s : State) (unit : Nat), canvasOn unit s.chip = none →
    exec (.compFault unit false) s = .next (onChip s (raise (compIsland unit) 0x706 none (compIsland unit) 0 s.chip))) ∧
  (∀ (s : State) (cv : Nat), exec (.daymarkRebuild cv) s = .next { onChip s ((getCv s.chip cv).rebuild.foldl (fun c e =>
    raise 1 0x707 ((cfg s.chip).owner tCanvas cv) ((cfg s.chip).idAt tCanvas cv) (e.1 % 8 + 2 ^ 16 * (e.2 % 65536)) c)
      (modCv cv (fun r => { r with rebuild := [] }) s.chip)) with mem := s.mem.apply (storeAll s.mem s.chip (rebuildWrites cv s.chip)) }) ∧
  (∀ (s : State) (r : CmdRef) (o : Obj) (cv l n : Nat) (b : List Word), Served 0x0703 r s → idType (bw (bodyAt r s) 0) = tCanvas →
    (ctxAt r s).names (cfg s.chip) (bw (bodyAt r s) 0) = some o → cv = idIndex (bw (bodyAt r s) 0) → l = bf (bodyAt r s) 4 0 6 →
    b = (cfg s.chip).card 0x0701 (mkKey tCanvas cv) l → b ≠ [] → lyKind b = 3 → (lyImageBytes b + 3) / 4 ≤ (fetched r s).length →
    n = max (getCv s.chip cv).next (firstFrame ((cfg s.chip).body tCanvas cv) (svc s.chip + 1)) →
    ∃ t, t = ended r (Res.ok (wd2 n)) (modCv cv (fun x => { x with spare := tput x.spare l (n, fetched r s) }) (took r s)) s ∧
      exec (.gxLayerImageUpdate r) s = .next { t with mem := s.mem.apply (storeAll s.mem s.chip (imageFills s.chip t.chip)) }) ∧
  (∀ (s : State) (r : CmdRef) (o : Obj) (cv : Nat), Served 0x0705 r s → idType (bw (bodyAt r s) 0) = tCanvas →
    (ctxAt r s).names (cfg s.chip) (bw (bodyAt r s) 0) = some o → cv = idIndex (bw (bodyAt r s) 0) → hostRingFields (bodyAt r s) = none →
    (bf (bodyAt r s) 0x20 0 4 = 0 ∨ (0x1000 + strideOf (cvW ((cfg s.chip).body tCanvas cv)) (cv10 ((cfg s.chip).body tCanvas cv)) *
      up16 (cvH ((cfg s.chip).body tCanvas cv)) * 3 / 2 ≤ bw (bodyAt r s) 0x24 ∧ bd (bodyAt r s) 8 ≠ 0 ∧ bd (bodyAt r s) 0x10 ≠ 0 ∧ bd (bodyAt r s) 0x18 ≠ 0)) →
    ∃ t, exec (.gxHostRingSet r) s = .next t ∧ (slotAt r t).st = .done ∧ (slotAt r t).status = 0 ∧ t.mem = s.mem ∧
      (getCv t.chip cv).ring.entries = (if bf (bodyAt r s) 0x20 0 4 = 0 then 0 else 2 ^ bf (bodyAt r s) 0x20 0 4) ∧
      (getCv t.chip cv).slotStride = bw (bodyAt r s) 0x24 ∧ (getCv t.chip cv).decimate = orDefault (bf (bodyAt r s) 0x20 16 8) 1) ∧
  (∀ (s : State) (r : CmdRef) (o : Obj) (cv : Nat) (x : CanvasRun), Served 0x0706 r s → idType (bw (bodyAt r s) 0) = tCanvas →
    (ctxAt r s).names (cfg s.chip) (bw (bodyAt r s) 0) = some o → cv = idIndex (bw (bodyAt r s) 0) → x = getCv s.chip cv →
    exec (.gxCanvasQuery r) s = .next (replied r (Res.ok (wd2 x.lastNum ++ [wd x.last.beaconCrc,
      wd (if (cfg s.chip).hasBeacon cv then bcCrc ((cfg s.chip).beacon cv) else 0), wd ((cfg s.chip).runs cv).length, wd (canvasCharge o.body),
      wd (x.ring.head + 2 ^ 16 * x.ring.tail), 0] ++ (List.range 32).map (fun k =>
        wd ((tget LayerRun.zero x.layers (2 * k)).status + 2 ^ 16 * (tget LayerRun.zero x.layers (2 * k + 1)).status)))) s)) ∧
  (∀ (s : State) (r : CmdRef), Served 0x0707 r s → bit (bw (bodyAt r s) 0) 0 = true → (slotAt r s).opAtCapture = true →
    exec (.gxCompCounters r) s = .next (ended r (Res.ok (ctrWords s.chip 0x0707 scopeDev 12))
      (if bit (bw (bodyAt r s) 8) 0 then ctrClear 0x0707 scopeDev 12 (took r s) else took r s) s)) ∧
  (∀ (s : State) (r : CmdRef) (o : Obj), Served 0x0707 r s → bit (bw (bodyAt r s) 0) 0 = false → idType (bw (bodyAt r s) 4) = tCanvas →
    (ctxAt r s).names (cfg s.chip) (bw (bodyAt r s) 4) = some o →
    exec (.gxCompCounters r) s = .next (ended r (Res.ok (ctrWords s.chip 0x0707 (idIndex (bw (bodyAt r s) 4)) 12))
      (if bit (bw (bodyAt r s) 8) 0 then ctrClear 0x0707 (idIndex (bw (bodyAt r s) 4)) 12 (took r s) else took r s) s))

/-- When the link to the twin has come up the first hello goes out; while there is no session it is sent again every 1 ms; a loss of the link ends the session. A hello is refused without a pairing secret, with a wrong code or another version, and otherwise begins a session. In service a heartbeat goes out; an accepted heartbeat frame or a transition of the pin marks the window, a frame with a wrong tag or one already seen is dropped and counted; a third missed window of a PAIRED device begins a takeover for cause 1, a request of the twin one for cause 2; the written tables are published; announcements are repeated and the takeover ends 5 ms after T_act. -/
def Obligations.TwinSession : Prop :=
  (∀ s : State, (getLport s.chip twinLport).linkUp = true → domOn s.chip 5 = true → s.chip.twin.phyUp = false →
    ∃ t, exec .fliuskLinkUp s = .next t ∧ t.chip.twin.phyUp = true ∧ t.chip.twin.session = false ∧ t.mem = s.mem ∧
      t.chip.out = .twin (.hello mySerial t.chip.twin.random 1) :: s.chip.out) ∧
  (∀ s : State, s.chip.twin.phyUp = true →
    exec .fliuskLinkLoss s = .next (onChip s (restartLport twinLport (modTwin (fun t => { t with phyUp := false }) (twinSessionEnd s.chip))))) ∧
  (∀ s : State, s.chip.twin.phyUp = true → s.chip.twin.session = false →
    exec .helloTimer s = .next (onChip s (sendHello (waitLocal (s.chip.twin.helloNs + 1000000) s.chip)))) ∧
  (∀ (s : State) (serial rnd version num : Nat) (mac b l : Bool) (sp : List (Nat × Nat)), s.chip.twin.phyUp = true → s.chip.twin.session = false →
    (s.chip.net.pairing = none ∨ mac = false ∨ version ≠ 1) →
    exec (.fliuskHello serial rnd version num mac b l sp) s =
      .next (onChip s (pairRefused serial (if s.chip.net.pairing = none then 1 else if mac = false then 2 else 3) s.chip))) ∧
  (∀ (s : State) (serial rnd num : Nat) (b : Bool), s.chip.twin.phyUp = true → s.chip.twin.session = false → s.chip.net.pairing.isSome = true →
    s.chip.twin.st ≠ 5 → s.chip.twin.twinNeedsFull = false → s.chip.twin.journal = [] →
    ∃ t, exec (.fliuskHello serial rnd 1 num true b false []) s = .next t ∧ t.chip.twin.session = true ∧ t.chip.twin.peerSerial = serial ∧
      t.chip.twin.st = (if b then 2 else 3) ∧ t.chip.twin.txSeq = 0 ∧ t.chip.twin.rxSeen = [] ∧
      t.chip.twin.sessionNum = (if mySerial < serial then s.chip.twin.sessionNum + 1 else num) % 2 ^ 32 ∧ t.mem = s.mem) ∧
  (∀ s : State, inService s.chip = true → s.chip.twin.hbStopped = false → s.chip.twin.session = true →
    ∃ t, exec .heartbeatSend s = .next t ∧ t.chip.out = .twin .heartbeat :: s.chip.out ∧ t.chip.twin.txSeq = s.chip.twin.txSeq + 1 ∧
      t.chip.twin.aliveOut = (if s.chip.twin.ctrl.getLsbD 1 then !s.chip.twin.aliveOut else s.chip.twin.aliveOut) ∧ t.mem = s.mem) ∧
  (∀ (s : State) (q : Nat), Hears q s →
    exec (.fliuskHeartbeat q true) s = .next (onChip s (modTw (fun t => { t with hbFrame := true }) (heard q s)))) ∧
  (∀ (s : State) (q : Nat), s.chip.twin.session = true → s.chip.twin.rxSeen.contains q = true →
    exec (.fliuskHeartbeat q true) s = .next (onChip s (modTw (fun t => { t with dropped := t.dropped + 1, tagFails := 0 }) s.chip))) ∧
  (∀ (s : State) (q : Nat), s.chip.twin.session = true → s.chip.twin.tagFails < 15 →
    exec (.fliuskHeartbeat q false) s = .next (onChip s (modTw (fun t => { t with dropped := t.dropped + 1, tagFails := t.tagFails + 1 }) s.chip))) ∧
  (∀ s : State, exec .twinAliveTransition s = .next (onChip s (modTw (fun t => { t with hbPin := true }) s.chip))) ∧
  (∀ s : State, inService s.chip = true → s.chip.twin.hbFrame = true →
    ∃ t, exec .heartbeatWindow s = .next t ∧ t.chip.twin.missFrame = 0 ∧ t.chip.twin.hbFrame = false ∧ t.chip.twin.hbPin = false ∧
      t.chip.gx = s.chip.gx ∧ t.mem = s.mem) ∧
  (∀ s : State, inService s.chip = true → s.chip.twin.hbFrame = false → s.chip.twin.missFrame = 2 → s.chip.twin.session = true →
    s.chip.twin.ctrl.getLsbD 1 = false → s.chip.twin.st = 3 → s.chip.twin.twinEjected = false →
    exec .heartbeatWindow s = .next (onChip s (takeoverStart 1 (modTw (fun t =>
      { t with hbFrame := false, hbPin := false, missFrame := 3, missPin := if t.hbPin then 0 else min 3 (t.missPin + 1), hbMissed := min (t.hbMissed + 1) 0xFFFFFFFF })
      (waitGrid 100000 s.chip))))) ∧
  (∀ (s : State) (q seq : Nat) (e : Bool), Hears q s → s.chip.twin.st = 3 →
    exec (.takeoverRequest q true seq none e) s = .next (onChip s (takeoverStart 2 (heard q s)))) ∧
  (∀ (s : State) (extra : Nat) (a : Commit), s.chip.gx.active = some a → a.stage = .writing → a.kind = .takeover → a.cause ≠ 3 → firmwareUp s.chip = true →
    exec (.takeoverTablesWritten extra) s = .next (onChip s (modTw (fun w => { w with taking := w.taking.map (fun x =>
      { x with tAct := (publish a extra s.chip).gx.tActSec * 1000000000 + (publish a extra s.chip).gx.tActNs }) }) (publish a extra s.chip)))) ∧
  (∀ (s : State) (i due : Nat), s.chip.twin.announce = [(i, due)] →
    exec .announceRepeat s = .next (onChip s (announceAddr i (modTw (fun t => { t with announce := [] }) (waitLocal due s.chip))))) ∧
  ∀ (s : State) (x : TakeRun), s.chip.twin.taking = some x → x.tAct ≠ 0 →
    exec .takeoverDone s = .next (onChip s (raise 5 0xD05 none (x.epoch % 2 ^ 32) (x.taken % 2 ^ 32 + 2 ^ 32 * x.dropped)
      (modTw (fun t => { t with taking := none }) (waitSvc (x.tAct + 5000000) s.chip))))

/-- The next journal record is taken into the twin half and acknowledged, an earlier one only acknowledged; an acknowledgement drops the records it covers; the record sent longest ago is sent again; mirror records are sent in turn and kept by identifier; event records need a ring; a reserve request is answered by the capacity that is left, and an answer, a timeout or a release acts on the commit or the reserve it names; T_act of the twin makes the conferences given away its own; a relayed frame is taken in as if it had arrived here, and the end of relay completes the hand-over; an eject request moves the device to EJECTING, and at the end of its budget the power-down waits no longer. -/
def Obligations.TwinRecords : Prop :=
  (∀ (s : State) (q seq : Nat) (r : JRec), Hears q s → seq = s.chip.twin.jRx → (∀ e, r ≠ .snapshot e) → s.chip.twin.st ≠ 3 →
    exec (.journalRecord q true seq r) s = .next (onChip s (acked 2 seq (journalTake seq (r.mapKeys (keySeal journalKey)) (heard q s))))) ∧
  (∀ (s : State) (q seq : Nat) (r : JRec), Hears q s → seq < s.chip.twin.jRx → (∀ e, r ≠ .snapshot e) →
    exec (.journalRecord q true seq r) s = .next (onChip s (acked 2 seq (heard q s)))) ∧
  (∀ (s : State) (q chan seq : Nat), Hears q s → (chan = 2 → s.chip.gx.active = none) →
    ∃ t, exec (.journalAck q true chan seq none) s = .next t ∧
      t.chip.twin.unacked = s.chip.twin.unacked.filter (fun e => !(e.1 == chan && decide (e.2.1 ≤ seq))) ∧
      t.chip.twin.journal = (if chan = 2 then s.chip.twin.journal.filter (fun e => decide (seq < e.1)) else s.chip.twin.journal) ∧
      t.chip.gx = s.chip.gx ∧ t.mem = s.mem) ∧
  (∀ (s : State) (q seq : Nat) (a : Commit), Hears q s → s.chip.gx.active = some a → a.stage = .journalled → a.journal ≤ seq →
    ∃ t, exec (.journalAck q true 2 seq none) s = .next t ∧ t.chip.gx.active = some { a with stage := .writing } ∧ t.mem = s.mem) ∧
  (∀ (s : State) (chan seq sent : Nat) (m : TwinMsg), s.chip.twin.unacked = [(chan, seq, m, sent)] →
    exec .fliuskRetransmit s = .next (onChip s (twinSend m.onLink (modTw (fun t =>
      { t with unacked := [(chan, seq, m, localNs (waitLocal (sent + 1000000) s.chip))] }) (waitLocal (sent + 1000000) s.chip))))) ∧
  (∀ (s : State) (l : Nat) (c : Chip), s.chip.twin.session = true → s.chip.twin.mirrorNext < (mirrorItems (cfg s.chip)).length →
    svc s.chip < s.chip.twin.mirrorPass + 100000000 → (mirrorItems (cfg s.chip))[s.chip.twin.mirrorNext]? = some (true, l) →
    c = waitSvc (s.chip.twin.mirrorPass + s.chip.twin.mirrorNext * 100000000 / (mirrorItems (cfg s.chip)).length) s.chip →
    exec .mirrorSend s = .next (onChip s (recNext 4 (.mirror (tget 0 s.chip.twin.chanSeq 4 + 1) (mirrorLeg (cfg s.chip) l c))
      (modTw (fun t => { t with mirrorNext := s.chip.twin.mirrorNext + 1 }) c)))) ∧
  (∀ (s : State) (q seq : Nat) (m : MirrorRec), Hears q s → NextRecord 4 seq s →
    exec (.mirrorRecord q true seq m) s = .next (onChip s (acked 4 seq (modTw (fun t =>
      { t with mirrors := (m.id, m, svc s.chip) :: t.mirrors.filter (fun e => e.1 != m.id) }) (heardRecord q 4 seq s))))) ∧
  (∀ (s : State) (q head : Nat) (w : List Word), Hears q s → s.chip.twin.ring.entries = 0 →
    exec (.twinEventRecord q true w head) s = .next (onChip s (heard q s))) ∧
  (∀ (s : State) (q head : Nat) (w : List Word), Hears q s → s.chip.twin.ring.entries ≠ 0 →
    exec (.twinEventRecord q true w head) s = .next (onChip s (modTw (fun t =>
      { t with ring := (ringPush (operatorFn s.chip) s.chip.twin.ring 32 head 5 0x206 (operatorFn s.chip) (w.take 8) (heard q s)).2.1 })
      (ringPush (operatorFn s.chip) s.chip.twin.ring 32 head 5 0x206 (operatorFn s.chip) (w.take 8) (heard q s)).2.2))) ∧
  (∀ (s : State) (q seq conf : Nat) (u : List (Nat × Nat)) (c : Chip), Hears q s → NextRecord 7 seq s → c = heardRecord q 7 seq s →
    exec (.twinReserveRequest q true seq conf u) s = .next (onChip s (acked 7 seq (match reserveShort c (putReserve (2 * idKey conf + 1) u c) with
      | some kind => recNext 7 (.reserveAnswer false kind (reserveIn u 12)
          (available (modTw (fun t => { t with reserves := t.reserves.filter (fun e => e.1 / 2 != idKey conf) }) c) 12)) (raiseShort conf kind c)
      | none => recNext 7 (.reserveAnswer true 0 (reserveIn u 12)
          (available (modTw (fun t => { t with reserves := t.reserves.filter (fun e => e.1 / 2 != idKey conf) }) c) 12)) (putReserve (2 * idKey conf + 1) u c))))) ∧
  (∀ (s : State) (q seq needed avail : Nat) (a : Commit), Hears q s → NextRecord 7 seq s → awaiting s.chip = some a →
    exec (.twinReserveAnswer q true seq true needed avail) s = .next (onChip s (acked 7 seq
      (goReserve { a with asking := a.asking.drop 1, more := a.more ++ a.asking.take 1 }
        (modTw (fun t => { t with exposed := t.exposed.filter (fun k => !(a.asking.take 1).contains k) }) (heardRecord q 7 seq s)))))) ∧
  (∀ (s : State) (q seq needed avail : Nat) (a : Commit), Hears q s → NextRecord 7 seq s → awaiting s.chip = some a →
    exec (.twinReserveAnswer q true seq false needed avail) s = .next (onChip s (acked 7 seq
      (failCommit a 2 { res := Res.err 0x000A, kind := 16, needed := needed, avail := avail, next := a.next } (heardRecord q 7 seq s))))) ∧
  (∀ (s : State) (a : Commit), awaiting s.chip = some a →
    exec .twinReserveTimeout s = .next (onChip s (goReserve { a with asking := a.asking.drop 1 }
      (exposeConfs a (a.asking.take 1) (waitLocal a.deadline s.chip))))) ∧
  (∀ (s : State) (q seq conf : Nat), Hears q s → NextRecord 7 seq s → (s.chip.twin.reserves.any (fun e => e.1 == 2 * idKey conf + 1)) = false →
    exec (.twinReserveRelease q true seq conf) s = .next (onChip s (acked 7 seq (modTw (fun t =>
      { t with reserves := t.reserves.filter (fun e => e.1 != 2 * idKey conf) }) (heardRecord q 7 seq s))))) ∧
  (∀ (s : State) (q seq sec ns : Nat) (ids : List (Nat × Nat)) (h : Handover), Hears q s → NextRecord 7 seq s →
    s.chip.twin.handover = some h → h.relaying = false → h.relay = true → h.cards = [] → h.confs ≠ [] →
    (∀ k ∈ h.confs, ids.any (fun e => e.1 == (cfg s.chip).keyId k) = true) → s.chip.gx.active ≠ none →
    ∃ t, exec (.handoverTactReturn q true seq sec ns ids) s = .next t ∧ t.mem = s.mem ∧ t.chip.twin.gone = h.confs.foldl linsert s.chip.twin.gone ∧
      ∃ h1, t.chip.twin.handover = some h1 ∧ h1.relaying = true ∧ h1.confs = h.confs ∧ h1.moved = h.confs.length) ∧
  (∀ (s : State) (q : Nat) (f : Frame) (e : Nat × List Word), Hears q s →
    ((cfg s.chip).addrs.find? (fun e => (steerIn [e] (addrLport e.2) f).isSome && addrActive s.chip (cfg s.chip) e.1)) = some e →
    exec (.relayFrame q true f) s = .next (onChip s (fifoPut (addrPipe e.2) (stamped (heard q s) (addrLport e.2) e.1 f) (heard q s)))) ∧
  (∀ (s : State) (h : Handover), s.chip.twin.handover = some h → h.relay = true → h.relaying = true → h.cmd ≠ 0 → s.chip.twin.st ≠ 5 →
    exec .relayEnd s = .next (onChip s (finish (h.cmd - 1) (handoverResult h) (modTw (fun t => { t with handover := none })
      (waitLocal (min (h.thLocal + s.chip.twin.relayLimit * 1000000) (h.lastRelay + s.chip.twin.relayIdle * 1000000)) s.chip))))) ∧
  (∀ (s : State) (h : Handover), s.chip.pwr.phase = .service → s.chip.twin.st ≠ 5 → s.chip.gx.held = [] → s.chip.twin.handover = some h →
    ∃ t, exec .ejectRequest s = .next t ∧ t.chip.pwr.phase = .ejecting ∧ t.chip.twin.st = 5 ∧ t.chip.twin.handover = some h ∧ t.mem = s.mem) ∧
  (∀ s : State, s.chip.pwr.phase = .service → s.chip.twin.st ≠ 3 → s.chip.gx.held = [] → s.chip.twin.handover = none → s.chip.twin.ejectEnd = 0 →
    exec .ejectRequest s = .next (onChip s (ejectDown (raise 5 0xD08 none 0 0 (setTwinState 5 (modPwr (fun p => { p with phase := .ejecting }) s.chip)))))) ∧
  ∀ s : State, 1 < s.chip.twin.ejectEnd →
    exec .ejectBudgetExpiry s = .next (onChip s (modTw (fun t => { t with ejectEnd := 1, hbStopped := true }) (waitLocal s.chip.twin.ejectEnd s.chip)))

/-- GX_TWIN_SET sets the twin event ring and the function map, and refuses a map that names a function that does not exist with the offset of its byte; GX_TWIN_SECRET_SET takes the secret while the state is DISABLED or IDLE; GX_JOURNAL_REPLAY goes on in steps in CATCHUP; the pairing, secret and replay commands end with GX_E_TWIN_STATE in the states that refuse them; GX_TWIN_HANDOVER without a PAIRED twin ends so, names a conference that does not exist, and begins the hand-over at T_h; GX_TWIN_MAP answers the identifier that a standby copy has here. -/
def Obligations.TwinCommands : Prop :=
  (∀ (s : State) (r : CmdRef), Served 0x0D00 r s → ringFields 16 (bodyAt r s) = none → ringZero (hostRingOf (bodyAt r s)) = false →
    (∀ f, f < 256 → fnExists s.chip (funcEntry (bodyAt r s) f) = true) →
    exec (.gxTwinSet r) s = .next (ended r (Res.ok []) (modTw (fun t =>
      { t with ring := hostRingOf (bodyAt r s), funcMap := (List.range 256).map (fun f => (f, funcEntry (bodyAt r s) f)) }) (took r s)) s)) ∧
  (∀ (s : State) (r : CmdRef), Served 0x0D01 r s → s.chip.twin.st ≤ 1 →
    exec (.gxTwinSecretSet r) s = .next (ended r (Res.ok []) (modNet (fun n => { n with pairing := some (octetsAt (bodyAt r s) 0 8) }) (took r s)) s)) ∧
  (∀ (s : State) (r : CmdRef), Served 0x0D01 r s → 1 < s.chip.twin.st → exec (.gxTwinSecretSet r) s = .next (replied r (Res.err 0x0D01) s)) ∧
  (∀ (s : State) (r : CmdRef), Served 0x0D02 r s → s.chip.twin.st ≠ 2 → exec (.gxJournalReplay r) s = .next (replied r (Res.err 0x0D01) s)) ∧
  (∀ (s : State) (r : CmdRef), Served 0x0D02 r s → s.chip.twin.st = 2 → (slotAt r s).cancel = false → replayWaits s.chip = false →
    ∃ t, exec (.gxJournalReplay r) s = .next t ∧ (slotAt r t).st = .progress ∧ t.chip.twin.created = 0 ∧ t.chip.twin.applied = 0 ∧
      t.chip.gx = s.chip.gx ∧ t.mem = s.mem) ∧
  (∀ (s : State) (r : CmdRef), Served 0x0D03 r s → bf (bodyAt r s) 0 0 16 ≤ 4096 → s.chip.twin.st ≠ 3 →
    exec (.gxTwinHandover r) s = .next (replied r (Res.err 0x0D01) s)) ∧
  (∀ (s : State) (r : CmdRef), Served 0x0D03 r s → bf (bodyAt r s) 0 0 16 = 0 → bit (bw (bodyAt r s) 0) 17 = false → s.chip.twin.st = 3 →
    s.chip.twin.handover = none →
    exec (.gxTwinHandover r) s = .next (replied r (Res.ok (wd2 (svcSec s.chip) ++ [wd (svcNano s.chip), 0])) s)) ∧
  (∀ (s : State) (r : CmdRef) (o : Obj) (k : Nat), Served 0x0D03 r s → bf (bodyAt r s) 0 0 16 = 1 → bit (bw (bodyAt r s) 0) 17 = false → s.chip.twin.st = 3 →
    s.chip.twin.handover = none → idType (bw (bodyAt r s) 8) = tConf → (cfg s.chip).obj (bw (bodyAt r s) 8) = some o → (slotAt r s).cancel = false →
    k = idKey (bw (bodyAt r s) 8) → sharedAddr (cfg s.chip) [k] = false →
    exec (.gxTwinHandover r) s = .next (onChip s (progress (slotKey r.fn r.slot) 1024 []
      (handoverBegin [k] (bit (bw (bodyAt r s) 0) 16) false (slotKey r.fn r.slot + 1) (took r s))))) ∧
  (∀ (s : State) (r : CmdRef) (n : Nat), Served 0x0D04 r s → bit (bw (bodyAt r s) 4) 0 = false →
    ((s.chip.twin.map.filter (fun e => decide (idType e.1 ≤ 8) && thas (cfg s.chip).sobjs (idKey e.1))).find? (fun e => e.1 == bw (bodyAt r s) 0)).map Prod.snd = some n →
    exec (.gxTwinMap r) s = .next (replied r (Res.ok [wd n]) s)) ∧
  ∀ (s : State) (r : CmdRef), Served 0x0D04 r s → bit (bw (bodyAt r s) 4) 0 = false →
    (s.chip.twin.map.filter (fun e => decide (idType e.1 ≤ 8) && thas (cfg s.chip).sobjs (idKey e.1))).find? (fun e => e.1 == bw (bodyAt r s) 0) = none →
    exec (.gxTwinMap r) s = .next (replied r ((Res.err 0x0008).withObj (bw (bodyAt r s) 0) 0) s)
end

