-- ==== Sys2Proof/Laws/State.lean ====
section
/-!
SUPPORT. What each shared update of the chip leaves alone: one lemma for each field, so that no proof unfolds a record update.
-/
namespace Sys2Proof.Machine
open Sys2Proof

/-! `emit` changes `out` alone. -/
section
variable (o : Out) (c : Chip)

@[simp] theorem emit_host : (emit o c).host = c.host := (rfl)
@[simp] theorem emit_gx : (emit o c).gx = c.gx := (rfl)
@[simp] theorem emit_net : (emit o c).net = c.net := (rfl)
@[simp] theorem emit_fwd : (emit o c).fwd = c.fwd := (rfl)
@[simp] theorem emit_eg : (emit o c).eg = c.eg := (rfl)
@[simp] theorem emit_aud : (emit o c).aud = c.aud := (rfl)
@[simp] theorem emit_vid : (emit o c).vid = c.vid := (rfl)
@[simp] theorem emit_eng : (emit o c).eng = c.eng := (rfl)
@[simp] theorem emit_sched : (emit o c).sched = c.sched := (rfl)
@[simp] theorem emit_pools : (emit o c).pools = c.pools := (rfl)
@[simp] theorem emit_chans : (emit o c).chans = c.chans := (rfl)
@[simp] theorem emit_dram : (emit o c).dram = c.dram := (rfl)
@[simp] theorem emit_time : (emit o c).time = c.time := (rfl)
@[simp] theorem emit_twin : (emit o c).twin = c.twin := (rfl)
@[simp] theorem emit_pwr : (emit o c).pwr = c.pwr := (rfl)
@[simp] theorem emit_mgmt : (emit o c).mgmt = c.mgmt := (rfl)
@[simp] theorem emit_ctrs : (emit o c).ctrs = c.ctrs := (rfl)
@[simp] theorem emit_free : (emit o c).free = c.free := (rfl)

end

/-! `modFn` changes `host` alone. -/
section
variable (fn : Nat) (f : Fn → Fn) (c : Chip)

@[simp] theorem modFn_gx : (modFn fn f c).gx = c.gx := (rfl)
@[simp] theorem modFn_net : (modFn fn f c).net = c.net := (rfl)
@[simp] theorem modFn_fwd : (modFn fn f c).fwd = c.fwd := (rfl)
@[simp] theorem modFn_eg : (modFn fn f c).eg = c.eg := (rfl)
@[simp] theorem modFn_aud : (modFn fn f c).aud = c.aud := (rfl)
@[simp] theorem modFn_vid : (modFn fn f c).vid = c.vid := (rfl)
@[simp] theorem modFn_eng : (modFn fn f c).eng = c.eng := (rfl)
@[simp] theorem modFn_sched : (modFn fn f c).sched = c.sched := (rfl)
@[simp] theorem modFn_pools : (modFn fn f c).pools = c.pools := (rfl)
@[simp] theorem modFn_chans : (modFn fn f c).chans = c.chans := (rfl)
@[simp] theorem modFn_dram : (modFn fn f c).dram = c.dram := (rfl)
@[simp] theorem modFn_time : (modFn fn f c).time = c.time := (rfl)
@[simp] theorem modFn_twin : (modFn fn f c).twin = c.twin := (rfl)
@[simp] theorem modFn_pwr : (modFn fn f c).pwr = c.pwr := (rfl)
@[simp] theorem modFn_mgmt : (modFn fn f c).mgmt = c.mgmt := (rfl)
@[simp] theorem modFn_ctrs : (modFn fn f c).ctrs = c.ctrs := (rfl)
@[simp] theorem modFn_out : (modFn fn f c).out = c.out := (rfl)
@[simp] theorem modFn_free : (modFn fn f c).free = c.free := (rfl)

end

/-! `raise` changes `mgmt` alone. -/
section
variable (i k : Nat) (fn : Option Nat) (o d : Nat) (c : Chip)

@[simp] theorem raise_host : (raise i k fn o d c).host = c.host := (rfl)
@[simp] theorem raise_gx : (raise i k fn o d c).gx = c.gx := (rfl)
@[simp] theorem raise_net : (raise i k fn o d c).net = c.net := (rfl)
@[simp] theorem raise_fwd : (raise i k fn o d c).fwd = c.fwd := (rfl)
@[simp] theorem raise_eg : (raise i k fn o d c).eg = c.eg := (rfl)
@[simp] theorem raise_aud : (raise i k fn o d c).aud = c.aud := (rfl)
@[simp] theorem raise_vid : (raise i k fn o d c).vid = c.vid := (rfl)
@[simp] theorem raise_eng : (raise i k fn o d c).eng = c.eng := (rfl)
@[simp] theorem raise_sched : (raise i k fn o d c).sched = c.sched := (rfl)
@[simp] theorem raise_pools : (raise i k fn o d c).pools = c.pools := (rfl)
@[simp] theorem raise_chans : (raise i k fn o d c).chans = c.chans := (rfl)
@[simp] theorem raise_dram : (raise i k fn o d c).dram = c.dram := (rfl)
@[simp] theorem raise_time : (raise i k fn o d c).time = c.time := (rfl)
@[simp] theorem raise_twin : (raise i k fn o d c).twin = c.twin := (rfl)
@[simp] theorem raise_pwr : (raise i k fn o d c).pwr = c.pwr := (rfl)
@[simp] theorem raise_ctrs : (raise i k fn o d c).ctrs = c.ctrs := (rfl)
@[simp] theorem raise_out : (raise i k fn o d c).out = c.out := (rfl)
@[simp] theorem raise_free : (raise i k fn o d c).free = c.free := (rfl)

end

/-! `errCount` changes `host` alone. -/
section
variable (fn : Nat) (c : Chip)

@[simp] theorem errCount_gx : (errCount fn c).gx = c.gx := (rfl)
@[simp] theorem errCount_net : (errCount fn c).net = c.net := (rfl)
@[simp] theorem errCount_fwd : (errCount fn c).fwd = c.fwd := (rfl)
@[simp] theorem errCount_eg : (errCount fn c).eg = c.eg := (rfl)
@[simp] theorem errCount_aud : (errCount fn c).aud = c.aud := (rfl)
@[simp] theorem errCount_vid : (errCount fn c).vid = c.vid := (rfl)
@[simp] theorem errCount_eng : (errCount fn c).eng = c.eng := (rfl)
@[simp] theorem errCount_sched : (errCount fn c).sched = c.sched := (rfl)
@[simp] theorem errCount_pools : (errCount fn c).pools = c.pools := (rfl)
@[simp] theorem errCount_chans : (errCount fn c).chans = c.chans := (rfl)
@[simp] theorem errCount_dram : (errCount fn c).dram = c.dram := (rfl)
@[simp] theorem errCount_time : (errCount fn c).time = c.time := (rfl)
@[simp] theorem errCount_twin : (errCount fn c).twin = c.twin := (rfl)
@[simp] theorem errCount_pwr : (errCount fn c).pwr = c.pwr := (rfl)
@[simp] theorem errCount_mgmt : (errCount fn c).mgmt = c.mgmt := (rfl)
@[simp] theorem errCount_ctrs : (errCount fn c).ctrs = c.ctrs := (rfl)
@[simp] theorem errCount_out : (errCount fn c).out = c.out := (rfl)
@[simp] theorem errCount_free : (errCount fn c).free = c.free := (rfl)

end

/-! `putSlot` changes `host` alone. -/
section
variable (k : Nat) (x : Slot) (c : Chip)

@[simp] theorem putSlot_gx : (putSlot k x c).gx = c.gx := (rfl)
@[simp] theorem putSlot_net : (putSlot k x c).net = c.net := (rfl)
@[simp] theorem putSlot_fwd : (putSlot k x c).fwd = c.fwd := (rfl)
@[simp] theorem putSlot_eg : (putSlot k x c).eg = c.eg := (rfl)
@[simp] theorem putSlot_aud : (putSlot k x c).aud = c.aud := (rfl)
@[simp] theorem putSlot_vid : (putSlot k x c).vid = c.vid := (rfl)
@[simp] theorem putSlot_eng : (putSlot k x c).eng = c.eng := (rfl)
@[simp] theorem putSlot_sched : (putSlot k x c).sched = c.sched := (rfl)
@[simp] theorem putSlot_pools : (putSlot k x c).pools = c.pools := (rfl)
@[simp] theorem putSlot_chans : (putSlot k x c).chans = c.chans := (rfl)
@[simp] theorem putSlot_dram : (putSlot k x c).dram = c.dram := (rfl)
@[simp] theorem putSlot_time : (putSlot k x c).time = c.time := (rfl)
@[simp] theorem putSlot_twin : (putSlot k x c).twin = c.twin := (rfl)
@[simp] theorem putSlot_pwr : (putSlot k x c).pwr = c.pwr := (rfl)
@[simp] theorem putSlot_mgmt : (putSlot k x c).mgmt = c.mgmt := (rfl)
@[simp] theorem putSlot_ctrs : (putSlot k x c).ctrs = c.ctrs := (rfl)
@[simp] theorem putSlot_out : (putSlot k x c).out = c.out := (rfl)
@[simp] theorem putSlot_free : (putSlot k x c).free = c.free := (rfl)

end

/-! `modSlot` changes `host` alone. -/
section
variable (k : Nat) (f : Slot → Slot) (c : Chip)

@[simp] theorem modSlot_gx : (modSlot k f c).gx = c.gx := (rfl)
@[simp] theorem modSlot_net : (modSlot k f c).net = c.net := (rfl)
@[simp] theorem modSlot_fwd : (modSlot k f c).fwd = c.fwd := (rfl)
@[simp] theorem modSlot_eg : (modSlot k f c).eg = c.eg := (rfl)
@[simp] theorem modSlot_aud : (modSlot k f c).aud = c.aud := (rfl)
@[simp] theorem modSlot_vid : (modSlot k f c).vid = c.vid := (rfl)
@[simp] theorem modSlot_eng : (modSlot k f c).eng = c.eng := (rfl)
@[simp] theorem modSlot_sched : (modSlot k f c).sched = c.sched := (rfl)
@[simp] theorem modSlot_pools : (modSlot k f c).pools = c.pools := (rfl)
@[simp] theorem modSlot_chans : (modSlot k f c).chans = c.chans := (rfl)
@[simp] theorem modSlot_dram : (modSlot k f c).dram = c.dram := (rfl)
@[simp] theorem modSlot_time : (modSlot k f c).time = c.time := (rfl)
@[simp] theorem modSlot_twin : (modSlot k f c).twin = c.twin := (rfl)
@[simp] theorem modSlot_pwr : (modSlot k f c).pwr = c.pwr := (rfl)
@[simp] theorem modSlot_mgmt : (modSlot k f c).mgmt = c.mgmt := (rfl)
@[simp] theorem modSlot_ctrs : (modSlot k f c).ctrs = c.ctrs := (rfl)
@[simp] theorem modSlot_out : (modSlot k f c).out = c.out := (rfl)
@[simp] theorem modSlot_free : (modSlot k f c).free = c.free := (rfl)

end

/-! `progress` changes `host` alone. -/
section
variable (k n : Nat) (w : List Nat) (c : Chip)

@[simp] theorem progress_gx : (progress k n w c).gx = c.gx := (rfl)
@[simp] theorem progress_net : (progress k n w c).net = c.net := (rfl)
@[simp] theorem progress_fwd : (progress k n w c).fwd = c.fwd := (rfl)
@[simp] theorem progress_eg : (progress k n w c).eg = c.eg := (rfl)
@[simp] theorem progress_aud : (progress k n w c).aud = c.aud := (rfl)
@[simp] theorem progress_vid : (progress k n w c).vid = c.vid := (rfl)
@[simp] theorem progress_eng : (progress k n w c).eng = c.eng := (rfl)
@[simp] theorem progress_sched : (progress k n w c).sched = c.sched := (rfl)
@[simp] theorem progress_pools : (progress k n w c).pools = c.pools := (rfl)
@[simp] theorem progress_chans : (progress k n w c).chans = c.chans := (rfl)
@[simp] theorem progress_dram : (progress k n w c).dram = c.dram := (rfl)
@[simp] theorem progress_time : (progress k n w c).time = c.time := (rfl)
@[simp] theorem progress_twin : (progress k n w c).twin = c.twin := (rfl)
@[simp] theorem progress_pwr : (progress k n w c).pwr = c.pwr := (rfl)
@[simp] theorem progress_mgmt : (progress k n w c).mgmt = c.mgmt := (rfl)
@[simp] theorem progress_ctrs : (progress k n w c).ctrs = c.ctrs := (rfl)
@[simp] theorem progress_out : (progress k n w c).out = c.out := (rfl)
@[simp] theorem progress_free : (progress k n w c).free = c.free := (rfl)

end

/-! `modPwr` changes `pwr` alone. -/
section
variable (f : Power → Power) (c : Chip)

@[simp] theorem modPwr_host : (modPwr f c).host = c.host := (rfl)
@[simp] theorem modPwr_gx : (modPwr f c).gx = c.gx := (rfl)
@[simp] theorem modPwr_net : (modPwr f c).net = c.net := (rfl)
@[simp] theorem modPwr_fwd : (modPwr f c).fwd = c.fwd := (rfl)
@[simp] theorem modPwr_eg : (modPwr f c).eg = c.eg := (rfl)
@[simp] theorem modPwr_aud : (modPwr f c).aud = c.aud := (rfl)
@[simp] theorem modPwr_vid : (modPwr f c).vid = c.vid := (rfl)
@[simp] theorem modPwr_eng : (modPwr f c).eng = c.eng := (rfl)
@[simp] theorem modPwr_sched : (modPwr f c).sched = c.sched := (rfl)
@[simp] theorem modPwr_pools : (modPwr f c).pools = c.pools := (rfl)
@[simp] theorem modPwr_chans : (modPwr f c).chans = c.chans := (rfl)
@[simp] theorem modPwr_dram : (modPwr f c).dram = c.dram := (rfl)
@[simp] theorem modPwr_time : (modPwr f c).time = c.time := (rfl)
@[simp] theorem modPwr_twin : (modPwr f c).twin = c.twin := (rfl)
@[simp] theorem modPwr_mgmt : (modPwr f c).mgmt = c.mgmt := (rfl)
@[simp] theorem modPwr_ctrs : (modPwr f c).ctrs = c.ctrs := (rfl)
@[simp] theorem modPwr_out : (modPwr f c).out = c.out := (rfl)
@[simp] theorem modPwr_free : (modPwr f c).free = c.free := (rfl)

end

/-! `modMgmt` changes `mgmt` alone. -/
section
variable (f : Mgmt → Mgmt) (c : Chip)

@[simp] theorem modMgmt_host : (modMgmt f c).host = c.host := (rfl)
@[simp] theorem modMgmt_gx : (modMgmt f c).gx = c.gx := (rfl)
@[simp] theorem modMgmt_net : (modMgmt f c).net = c.net := (rfl)
@[simp] theorem modMgmt_fwd : (modMgmt f c).fwd = c.fwd := (rfl)
@[simp] theorem modMgmt_eg : (modMgmt f c).eg = c.eg := (rfl)
@[simp] theorem modMgmt_aud : (modMgmt f c).aud = c.aud := (rfl)
@[simp] theorem modMgmt_vid : (modMgmt f c).vid = c.vid := (rfl)
@[simp] theorem modMgmt_eng : (modMgmt f c).eng = c.eng := (rfl)
@[simp] theorem modMgmt_sched : (modMgmt f c).sched = c.sched := (rfl)
@[simp] theorem modMgmt_pools : (modMgmt f c).pools = c.pools := (rfl)
@[simp] theorem modMgmt_chans : (modMgmt f c).chans = c.chans := (rfl)
@[simp] theorem modMgmt_dram : (modMgmt f c).dram = c.dram := (rfl)
@[simp] theorem modMgmt_time : (modMgmt f c).time = c.time := (rfl)
@[simp] theorem modMgmt_twin : (modMgmt f c).twin = c.twin := (rfl)
@[simp] theorem modMgmt_pwr : (modMgmt f c).pwr = c.pwr := (rfl)
@[simp] theorem modMgmt_ctrs : (modMgmt f c).ctrs = c.ctrs := (rfl)
@[simp] theorem modMgmt_out : (modMgmt f c).out = c.out := (rfl)
@[simp] theorem modMgmt_free : (modMgmt f c).free = c.free := (rfl)

end

/-! `modTwin` changes `twin` alone. -/
section
variable (f : Twin → Twin) (c : Chip)

@[simp] theorem modTwin_host : (modTwin f c).host = c.host := (rfl)
@[simp] theorem modTwin_gx : (modTwin f c).gx = c.gx := (rfl)
@[simp] theorem modTwin_net : (modTwin f c).net = c.net := (rfl)
@[simp] theorem modTwin_fwd : (modTwin f c).fwd = c.fwd := (rfl)
@[simp] theorem modTwin_eg : (modTwin f c).eg = c.eg := (rfl)
@[simp] theorem modTwin_aud : (modTwin f c).aud = c.aud := (rfl)
@[simp] theorem modTwin_vid : (modTwin f c).vid = c.vid := (rfl)
@[simp] theorem modTwin_eng : (modTwin f c).eng = c.eng := (rfl)
@[simp] theorem modTwin_sched : (modTwin f c).sched = c.sched := (rfl)
@[simp] theorem modTwin_pools : (modTwin f c).pools = c.pools := (rfl)
@[simp] theorem modTwin_chans : (modTwin f c).chans = c.chans := (rfl)
@[simp] theorem modTwin_dram : (modTwin f c).dram = c.dram := (rfl)
@[simp] theorem modTwin_time : (modTwin f c).time = c.time := (rfl)
@[simp] theorem modTwin_pwr : (modTwin f c).pwr = c.pwr := (rfl)
@[simp] theorem modTwin_mgmt : (modTwin f c).mgmt = c.mgmt := (rfl)
@[simp] theorem modTwin_ctrs : (modTwin f c).ctrs = c.ctrs := (rfl)
@[simp] theorem modTwin_out : (modTwin f c).out = c.out := (rfl)
@[simp] theorem modTwin_free : (modTwin f c).free = c.free := (rfl)

end

/-! `modGx` changes `gx` alone. -/
section
variable (f : Guxus → Guxus) (c : Chip)

@[simp] theorem modGx_host : (modGx f c).host = c.host := (rfl)
@[simp] theorem modGx_net : (modGx f c).net = c.net := (rfl)
@[simp] theorem modGx_fwd : (modGx f c).fwd = c.fwd := (rfl)
@[simp] theorem modGx_eg : (modGx f c).eg = c.eg := (rfl)
@[simp] theorem modGx_aud : (modGx f c).aud = c.aud := (rfl)
@[simp] theorem modGx_vid : (modGx f c).vid = c.vid := (rfl)
@[simp] theorem modGx_eng : (modGx f c).eng = c.eng := (rfl)
@[simp] theorem modGx_sched : (modGx f c).sched = c.sched := (rfl)
@[simp] theorem modGx_pools : (modGx f c).pools = c.pools := (rfl)
@[simp] theorem modGx_chans : (modGx f c).chans = c.chans := (rfl)
@[simp] theorem modGx_dram : (modGx f c).dram = c.dram := (rfl)
@[simp] theorem modGx_time : (modGx f c).time = c.time := (rfl)
@[simp] theorem modGx_twin : (modGx f c).twin = c.twin := (rfl)
@[simp] theorem modGx_pwr : (modGx f c).pwr = c.pwr := (rfl)
@[simp] theorem modGx_mgmt : (modGx f c).mgmt = c.mgmt := (rfl)
@[simp] theorem modGx_ctrs : (modGx f c).ctrs = c.ctrs := (rfl)
@[simp] theorem modGx_out : (modGx f c).out = c.out := (rfl)
@[simp] theorem modGx_free : (modGx f c).free = c.free := (rfl)

end

/-! `modTw` changes `twin` alone. -/
section
variable (f : Twin → Twin) (c : Chip)

@[simp] theorem modTw_host : (modTw f c).host = c.host := (rfl)
@[simp] theorem modTw_gx : (modTw f c).gx = c.gx := (rfl)
@[simp] theorem modTw_net : (modTw f c).net = c.net := (rfl)
@[simp] theorem modTw_fwd : (modTw f c).fwd = c.fwd := (rfl)
@[simp] theorem modTw_eg : (modTw f c).eg = c.eg := (rfl)
@[simp] theorem modTw_aud : (modTw f c).aud = c.aud := (rfl)
@[simp] theorem modTw_vid : (modTw f c).vid = c.vid := (rfl)
@[simp] theorem modTw_eng : (modTw f c).eng = c.eng := (rfl)
@[simp] theorem modTw_sched : (modTw f c).sched = c.sched := (rfl)
@[simp] theorem modTw_pools : (modTw f c).pools = c.pools := (rfl)
@[simp] theorem modTw_chans : (modTw f c).chans = c.chans := (rfl)
@[simp] theorem modTw_dram : (modTw f c).dram = c.dram := (rfl)
@[simp] theorem modTw_time : (modTw f c).time = c.time := (rfl)
@[simp] theorem modTw_pwr : (modTw f c).pwr = c.pwr := (rfl)
@[simp] theorem modTw_mgmt : (modTw f c).mgmt = c.mgmt := (rfl)
@[simp] theorem modTw_ctrs : (modTw f c).ctrs = c.ctrs := (rfl)
@[simp] theorem modTw_out : (modTw f c).out = c.out := (rfl)
@[simp] theorem modTw_free : (modTw f c).free = c.free := (rfl)

end

/-! `modNet` changes `net` alone. -/
section
variable (f : Net4 → Net4) (c : Chip)

@[simp] theorem modNet_host : (modNet f c).host = c.host := (rfl)
@[simp] theorem modNet_gx : (modNet f c).gx = c.gx := (rfl)
@[simp] theorem modNet_fwd : (modNet f c).fwd = c.fwd := (rfl)
@[simp] theorem modNet_eg : (modNet f c).eg = c.eg := (rfl)
@[simp] theorem modNet_aud : (modNet f c).aud = c.aud := (rfl)
@[simp] theorem modNet_vid : (modNet f c).vid = c.vid := (rfl)
@[simp] theorem modNet_eng : (modNet f c).eng = c.eng := (rfl)
@[simp] theorem modNet_sched : (modNet f c).sched = c.sched := (rfl)
@[simp] theorem modNet_pools : (modNet f c).pools = c.pools := (rfl)
@[simp] theorem modNet_chans : (modNet f c).chans = c.chans := (rfl)
@[simp] theorem modNet_dram : (modNet f c).dram = c.dram := (rfl)
@[simp] theorem modNet_time : (modNet f c).time = c.time := (rfl)
@[simp] theorem modNet_twin : (modNet f c).twin = c.twin := (rfl)
@[simp] theorem modNet_pwr : (modNet f c).pwr = c.pwr := (rfl)
@[simp] theorem modNet_mgmt : (modNet f c).mgmt = c.mgmt := (rfl)
@[simp] theorem modNet_ctrs : (modNet f c).ctrs = c.ctrs := (rfl)
@[simp] theorem modNet_out : (modNet f c).out = c.out := (rfl)
@[simp] theorem modNet_free : (modNet f c).free = c.free := (rfl)

end

/-! `modFwd` changes `fwd` alone. -/
section
variable (f : Fwd → Fwd) (c : Chip)

@[simp] theorem modFwd_host : (modFwd f c).host = c.host := (rfl)
@[simp] theorem modFwd_gx : (modFwd f c).gx = c.gx := (rfl)
@[simp] theorem modFwd_net : (modFwd f c).net = c.net := (rfl)
@[simp] theorem modFwd_eg : (modFwd f c).eg = c.eg := (rfl)
@[simp] theorem modFwd_aud : (modFwd f c).aud = c.aud := (rfl)
@[simp] theorem modFwd_vid : (modFwd f c).vid = c.vid := (rfl)
@[simp] theorem modFwd_eng : (modFwd f c).eng = c.eng := (rfl)
@[simp] theorem modFwd_sched : (modFwd f c).sched = c.sched := (rfl)
@[simp] theorem modFwd_pools : (modFwd f c).pools = c.pools := (rfl)
@[simp] theorem modFwd_chans : (modFwd f c).chans = c.chans := (rfl)
@[simp] theorem modFwd_dram : (modFwd f c).dram = c.dram := (rfl)
@[simp] theorem modFwd_time : (modFwd f c).time = c.time := (rfl)
@[simp] theorem modFwd_twin : (modFwd f c).twin = c.twin := (rfl)
@[simp] theorem modFwd_pwr : (modFwd f c).pwr = c.pwr := (rfl)
@[simp] theorem modFwd_mgmt : (modFwd f c).mgmt = c.mgmt := (rfl)
@[simp] theorem modFwd_ctrs : (modFwd f c).ctrs = c.ctrs := (rfl)
@[simp] theorem modFwd_out : (modFwd f c).out = c.out := (rfl)
@[simp] theorem modFwd_free : (modFwd f c).free = c.free := (rfl)

end

/-! `modEg` changes `eg` alone. -/
section
variable (f : Egress → Egress) (c : Chip)

@[simp] theorem modEg_host : (modEg f c).host = c.host := (rfl)
@[simp] theorem modEg_gx : (modEg f c).gx = c.gx := (rfl)
@[simp] theorem modEg_net : (modEg f c).net = c.net := (rfl)
@[simp] theorem modEg_fwd : (modEg f c).fwd = c.fwd := (rfl)
@[simp] theorem modEg_aud : (modEg f c).aud = c.aud := (rfl)
@[simp] theorem modEg_vid : (modEg f c).vid = c.vid := (rfl)
@[simp] theorem modEg_eng : (modEg f c).eng = c.eng := (rfl)
@[simp] theorem modEg_sched : (modEg f c).sched = c.sched := (rfl)
@[simp] theorem modEg_pools : (modEg f c).pools = c.pools := (rfl)
@[simp] theorem modEg_chans : (modEg f c).chans = c.chans := (rfl)
@[simp] theorem modEg_dram : (modEg f c).dram = c.dram := (rfl)
@[simp] theorem modEg_time : (modEg f c).time = c.time := (rfl)
@[simp] theorem modEg_twin : (modEg f c).twin = c.twin := (rfl)
@[simp] theorem modEg_pwr : (modEg f c).pwr = c.pwr := (rfl)
@[simp] theorem modEg_mgmt : (modEg f c).mgmt = c.mgmt := (rfl)
@[simp] theorem modEg_ctrs : (modEg f c).ctrs = c.ctrs := (rfl)
@[simp] theorem modEg_out : (modEg f c).out = c.out := (rfl)
@[simp] theorem modEg_free : (modEg f c).free = c.free := (rfl)

end

/-! `modLeg` changes `eg` alone. -/
section
variable (l : Nat) (f : LegRun → LegRun) (c : Chip)

@[simp] theorem modLeg_host : (modLeg l f c).host = c.host := (rfl)
@[simp] theorem modLeg_gx : (modLeg l f c).gx = c.gx := (rfl)
@[simp] theorem modLeg_net : (modLeg l f c).net = c.net := (rfl)
@[simp] theorem modLeg_fwd : (modLeg l f c).fwd = c.fwd := (rfl)
@[simp] theorem modLeg_aud : (modLeg l f c).aud = c.aud := (rfl)
@[simp] theorem modLeg_vid : (modLeg l f c).vid = c.vid := (rfl)
@[simp] theorem modLeg_eng : (modLeg l f c).eng = c.eng := (rfl)
@[simp] theorem modLeg_sched : (modLeg l f c).sched = c.sched := (rfl)
@[simp] theorem modLeg_pools : (modLeg l f c).pools = c.pools := (rfl)
@[simp] theorem modLeg_chans : (modLeg l f c).chans = c.chans := (rfl)
@[simp] theorem modLeg_dram : (modLeg l f c).dram = c.dram := (rfl)
@[simp] theorem modLeg_time : (modLeg l f c).time = c.time := (rfl)
@[simp] theorem modLeg_twin : (modLeg l f c).twin = c.twin := (rfl)
@[simp] theorem modLeg_pwr : (modLeg l f c).pwr = c.pwr := (rfl)
@[simp] theorem modLeg_mgmt : (modLeg l f c).mgmt = c.mgmt := (rfl)
@[simp] theorem modLeg_ctrs : (modLeg l f c).ctrs = c.ctrs := (rfl)
@[simp] theorem modLeg_out : (modLeg l f c).out = c.out := (rfl)
@[simp] theorem modLeg_free : (modLeg l f c).free = c.free := (rfl)

end

/-! `modEgPort` changes `eg` alone. -/
section
variable (l : Nat) (f : EgPort → EgPort) (c : Chip)

@[simp] theorem modEgPort_host : (modEgPort l f c).host = c.host := (rfl)
@[simp] theorem modEgPort_gx : (modEgPort l f c).gx = c.gx := (rfl)
@[simp] theorem modEgPort_net : (modEgPort l f c).net = c.net := (rfl)
@[simp] theorem modEgPort_fwd : (modEgPort l f c).fwd = c.fwd := (rfl)
@[simp] theorem modEgPort_aud : (modEgPort l f c).aud = c.aud := (rfl)
@[simp] theorem modEgPort_vid : (modEgPort l f c).vid = c.vid := (rfl)
@[simp] theorem modEgPort_eng : (modEgPort l f c).eng = c.eng := (rfl)
@[simp] theorem modEgPort_sched : (modEgPort l f c).sched = c.sched := (rfl)
@[simp] theorem modEgPort_pools : (modEgPort l f c).pools = c.pools := (rfl)
@[simp] theorem modEgPort_chans : (modEgPort l f c).chans = c.chans := (rfl)
@[simp] theorem modEgPort_dram : (modEgPort l f c).dram = c.dram := (rfl)
@[simp] theorem modEgPort_time : (modEgPort l f c).time = c.time := (rfl)
@[simp] theorem modEgPort_twin : (modEgPort l f c).twin = c.twin := (rfl)
@[simp] theorem modEgPort_pwr : (modEgPort l f c).pwr = c.pwr := (rfl)
@[simp] theorem modEgPort_mgmt : (modEgPort l f c).mgmt = c.mgmt := (rfl)
@[simp] theorem modEgPort_ctrs : (modEgPort l f c).ctrs = c.ctrs := (rfl)
@[simp] theorem modEgPort_out : (modEgPort l f c).out = c.out := (rfl)
@[simp] theorem modEgPort_free : (modEgPort l f c).free = c.free := (rfl)

end

/-! `modAud` changes `aud` alone. -/
section
variable (f : Audio → Audio) (c : Chip)

@[simp] theorem modAud_host : (modAud f c).host = c.host := (rfl)
@[simp] theorem modAud_gx : (modAud f c).gx = c.gx := (rfl)
@[simp] theorem modAud_net : (modAud f c).net = c.net := (rfl)
@[simp] theorem modAud_fwd : (modAud f c).fwd = c.fwd := (rfl)
@[simp] theorem modAud_eg : (modAud f c).eg = c.eg := (rfl)
@[simp] theorem modAud_vid : (modAud f c).vid = c.vid := (rfl)
@[simp] theorem modAud_eng : (modAud f c).eng = c.eng := (rfl)
@[simp] theorem modAud_sched : (modAud f c).sched = c.sched := (rfl)
@[simp] theorem modAud_pools : (modAud f c).pools = c.pools := (rfl)
@[simp] theorem modAud_chans : (modAud f c).chans = c.chans := (rfl)
@[simp] theorem modAud_dram : (modAud f c).dram = c.dram := (rfl)
@[simp] theorem modAud_time : (modAud f c).time = c.time := (rfl)
@[simp] theorem modAud_twin : (modAud f c).twin = c.twin := (rfl)
@[simp] theorem modAud_pwr : (modAud f c).pwr = c.pwr := (rfl)
@[simp] theorem modAud_mgmt : (modAud f c).mgmt = c.mgmt := (rfl)
@[simp] theorem modAud_ctrs : (modAud f c).ctrs = c.ctrs := (rfl)
@[simp] theorem modAud_out : (modAud f c).out = c.out := (rfl)
@[simp] theorem modAud_free : (modAud f c).free = c.free := (rfl)

end

/-! `modVid` changes `vid` alone. -/
section
variable (f : Video → Video) (c : Chip)

@[simp] theorem modVid_host : (modVid f c).host = c.host := (rfl)
@[simp] theorem modVid_gx : (modVid f c).gx = c.gx := (rfl)
@[simp] theorem modVid_net : (modVid f c).net = c.net := (rfl)
@[simp] theorem modVid_fwd : (modVid f c).fwd = c.fwd := (rfl)
@[simp] theorem modVid_eg : (modVid f c).eg = c.eg := (rfl)
@[simp] theorem modVid_aud : (modVid f c).aud = c.aud := (rfl)
@[simp] theorem modVid_eng : (modVid f c).eng = c.eng := (rfl)
@[simp] theorem modVid_sched : (modVid f c).sched = c.sched := (rfl)
@[simp] theorem modVid_pools : (modVid f c).pools = c.pools := (rfl)
@[simp] theorem modVid_chans : (modVid f c).chans = c.chans := (rfl)
@[simp] theorem modVid_dram : (modVid f c).dram = c.dram := (rfl)
@[simp] theorem modVid_time : (modVid f c).time = c.time := (rfl)
@[simp] theorem modVid_twin : (modVid f c).twin = c.twin := (rfl)
@[simp] theorem modVid_pwr : (modVid f c).pwr = c.pwr := (rfl)
@[simp] theorem modVid_mgmt : (modVid f c).mgmt = c.mgmt := (rfl)
@[simp] theorem modVid_ctrs : (modVid f c).ctrs = c.ctrs := (rfl)
@[simp] theorem modVid_out : (modVid f c).out = c.out := (rfl)
@[simp] theorem modVid_free : (modVid f c).free = c.free := (rfl)

end

/-! `modSched` changes `sched` alone. -/
section
variable (f : Sched → Sched) (c : Chip)

@[simp] theorem modSched_host : (modSched f c).host = c.host := (rfl)
@[simp] theorem modSched_gx : (modSched f c).gx = c.gx := (rfl)
@[simp] theorem modSched_net : (modSched f c).net = c.net := (rfl)
@[simp] theorem modSched_fwd : (modSched f c).fwd = c.fwd := (rfl)
@[simp] theorem modSched_eg : (modSched f c).eg = c.eg := (rfl)
@[simp] theorem modSched_aud : (modSched f c).aud = c.aud := (rfl)
@[simp] theorem modSched_vid : (modSched f c).vid = c.vid := (rfl)
@[simp] theorem modSched_eng : (modSched f c).eng = c.eng := (rfl)
@[simp] theorem modSched_pools : (modSched f c).pools = c.pools := (rfl)
@[simp] theorem modSched_chans : (modSched f c).chans = c.chans := (rfl)
@[simp] theorem modSched_dram : (modSched f c).dram = c.dram := (rfl)
@[simp] theorem modSched_time : (modSched f c).time = c.time := (rfl)
@[simp] theorem modSched_twin : (modSched f c).twin = c.twin := (rfl)
@[simp] theorem modSched_pwr : (modSched f c).pwr = c.pwr := (rfl)
@[simp] theorem modSched_mgmt : (modSched f c).mgmt = c.mgmt := (rfl)
@[simp] theorem modSched_ctrs : (modSched f c).ctrs = c.ctrs := (rfl)
@[simp] theorem modSched_out : (modSched f c).out = c.out := (rfl)
@[simp] theorem modSched_free : (modSched f c).free = c.free := (rfl)

end

/-! `putTask` changes `sched` alone. -/
section
variable (n : Nat) (t : Task) (c : Chip)

@[simp] theorem putTask_host : (putTask n t c).host = c.host := (rfl)
@[simp] theorem putTask_gx : (putTask n t c).gx = c.gx := (rfl)
@[simp] theorem putTask_net : (putTask n t c).net = c.net := (rfl)
@[simp] theorem putTask_fwd : (putTask n t c).fwd = c.fwd := (rfl)
@[simp] theorem putTask_eg : (putTask n t c).eg = c.eg := (rfl)
@[simp] theorem putTask_aud : (putTask n t c).aud = c.aud := (rfl)
@[simp] theorem putTask_vid : (putTask n t c).vid = c.vid := (rfl)
@[simp] theorem putTask_eng : (putTask n t c).eng = c.eng := (rfl)
@[simp] theorem putTask_pools : (putTask n t c).pools = c.pools := (rfl)
@[simp] theorem putTask_chans : (putTask n t c).chans = c.chans := (rfl)
@[simp] theorem putTask_dram : (putTask n t c).dram = c.dram := (rfl)
@[simp] theorem putTask_time : (putTask n t c).time = c.time := (rfl)
@[simp] theorem putTask_twin : (putTask n t c).twin = c.twin := (rfl)
@[simp] theorem putTask_pwr : (putTask n t c).pwr = c.pwr := (rfl)
@[simp] theorem putTask_mgmt : (putTask n t c).mgmt = c.mgmt := (rfl)
@[simp] theorem putTask_ctrs : (putTask n t c).ctrs = c.ctrs := (rfl)
@[simp] theorem putTask_out : (putTask n t c).out = c.out := (rfl)
@[simp] theorem putTask_free : (putTask n t c).free = c.free := (rfl)

end

/-! `modTime` changes `time` alone. -/
section
variable (f : TimeBase → TimeBase) (c : Chip)

@[simp] theorem modTime_host : (modTime f c).host = c.host := (rfl)
@[simp] theorem modTime_gx : (modTime f c).gx = c.gx := (rfl)
@[simp] theorem modTime_net : (modTime f c).net = c.net := (rfl)
@[simp] theorem modTime_fwd : (modTime f c).fwd = c.fwd := (rfl)
@[simp] theorem modTime_eg : (modTime f c).eg = c.eg := (rfl)
@[simp] theorem modTime_aud : (modTime f c).aud = c.aud := (rfl)
@[simp] theorem modTime_vid : (modTime f c).vid = c.vid := (rfl)
@[simp] theorem modTime_eng : (modTime f c).eng = c.eng := (rfl)
@[simp] theorem modTime_sched : (modTime f c).sched = c.sched := (rfl)
@[simp] theorem modTime_pools : (modTime f c).pools = c.pools := (rfl)
@[simp] theorem modTime_chans : (modTime f c).chans = c.chans := (rfl)
@[simp] theorem modTime_dram : (modTime f c).dram = c.dram := (rfl)
@[simp] theorem modTime_twin : (modTime f c).twin = c.twin := (rfl)
@[simp] theorem modTime_pwr : (modTime f c).pwr = c.pwr := (rfl)
@[simp] theorem modTime_mgmt : (modTime f c).mgmt = c.mgmt := (rfl)
@[simp] theorem modTime_ctrs : (modTime f c).ctrs = c.ctrs := (rfl)
@[simp] theorem modTime_out : (modTime f c).out = c.out := (rfl)
@[simp] theorem modTime_free : (modTime f c).free = c.free := (rfl)

end

/-! `waitLocal` changes `time` alone. -/
section
variable (n : Nat) (c : Chip)

@[simp] theorem waitLocal_host : (waitLocal n c).host = c.host := (rfl)
@[simp] theorem waitLocal_gx : (waitLocal n c).gx = c.gx := (rfl)
@[simp] theorem waitLocal_net : (waitLocal n c).net = c.net := (rfl)
@[simp] theorem waitLocal_fwd : (waitLocal n c).fwd = c.fwd := (rfl)
@[simp] theorem waitLocal_eg : (waitLocal n c).eg = c.eg := (rfl)
@[simp] theorem waitLocal_aud : (waitLocal n c).aud = c.aud := (rfl)
@[simp] theorem waitLocal_vid : (waitLocal n c).vid = c.vid := (rfl)
@[simp] theorem waitLocal_eng : (waitLocal n c).eng = c.eng := (rfl)
@[simp] theorem waitLocal_sched : (waitLocal n c).sched = c.sched := (rfl)
@[simp] theorem waitLocal_pools : (waitLocal n c).pools = c.pools := (rfl)
@[simp] theorem waitLocal_chans : (waitLocal n c).chans = c.chans := (rfl)
@[simp] theorem waitLocal_dram : (waitLocal n c).dram = c.dram := (rfl)
@[simp] theorem waitLocal_twin : (waitLocal n c).twin = c.twin := (rfl)
@[simp] theorem waitLocal_pwr : (waitLocal n c).pwr = c.pwr := (rfl)
@[simp] theorem waitLocal_mgmt : (waitLocal n c).mgmt = c.mgmt := (rfl)
@[simp] theorem waitLocal_ctrs : (waitLocal n c).ctrs = c.ctrs := (rfl)
@[simp] theorem waitLocal_out : (waitLocal n c).out = c.out := (rfl)
@[simp] theorem waitLocal_free : (waitLocal n c).free = c.free := (rfl)

end

/-! `waitSvc` changes `time` alone. -/
section
variable (n : Nat) (c : Chip)

@[simp] theorem waitSvc_host : (waitSvc n c).host = c.host := by unfold waitSvc; dsimp only; split <;> rfl
@[simp] theorem waitSvc_gx : (waitSvc n c).gx = c.gx := by unfold waitSvc; dsimp only; split <;> rfl
@[simp] theorem waitSvc_net : (waitSvc n c).net = c.net := by unfold waitSvc; dsimp only; split <;> rfl
@[simp] theorem waitSvc_fwd : (waitSvc n c).fwd = c.fwd := by unfold waitSvc; dsimp only; split <;> rfl
@[simp] theorem waitSvc_eg : (waitSvc n c).eg = c.eg := by unfold waitSvc; dsimp only; split <;> rfl
@[simp] theorem waitSvc_aud : (waitSvc n c).aud = c.aud := by unfold waitSvc; dsimp only; split <;> rfl
@[simp] theorem waitSvc_vid : (waitSvc n c).vid = c.vid := by unfold waitSvc; dsimp only; split <;> rfl
@[simp] theorem waitSvc_eng : (waitSvc n c).eng = c.eng := by unfold waitSvc; dsimp only; split <;> rfl
@[simp] theorem waitSvc_sched : (waitSvc n c).sched = c.sched := by unfold waitSvc; dsimp only; split <;> rfl
@[simp] theorem waitSvc_pools : (waitSvc n c).pools = c.pools := by unfold waitSvc; dsimp only; split <;> rfl
@[simp] theorem waitSvc_chans : (waitSvc n c).chans = c.chans := by unfold waitSvc; dsimp only; split <;> rfl
@[simp] theorem waitSvc_dram : (waitSvc n c).dram = c.dram := by unfold waitSvc; dsimp only; split <;> rfl
@[simp] theorem waitSvc_twin : (waitSvc n c).twin = c.twin := by unfold waitSvc; dsimp only; split <;> rfl
@[simp] theorem waitSvc_pwr : (waitSvc n c).pwr = c.pwr := by unfold waitSvc; dsimp only; split <;> rfl
@[simp] theorem waitSvc_mgmt : (waitSvc n c).mgmt = c.mgmt := by unfold waitSvc; dsimp only; split <;> rfl
@[simp] theorem waitSvc_ctrs : (waitSvc n c).ctrs = c.ctrs := by unfold waitSvc; dsimp only; split <;> rfl
@[simp] theorem waitSvc_out : (waitSvc n c).out = c.out := by unfold waitSvc; dsimp only; split <;> rfl
@[simp] theorem waitSvc_free : (waitSvc n c).free = c.free := by unfold waitSvc; dsimp only; split <;> rfl

end

/-! `putEng` changes `eng` alone. -/
section
variable (e : Nat) (x : Engine) (c : Chip)

@[simp] theorem putEng_host : (putEng e x c).host = c.host := (rfl)
@[simp] theorem putEng_gx : (putEng e x c).gx = c.gx := (rfl)
@[simp] theorem putEng_net : (putEng e x c).net = c.net := (rfl)
@[simp] theorem putEng_fwd : (putEng e x c).fwd = c.fwd := (rfl)
@[simp] theorem putEng_eg : (putEng e x c).eg = c.eg := (rfl)
@[simp] theorem putEng_aud : (putEng e x c).aud = c.aud := (rfl)
@[simp] theorem putEng_vid : (putEng e x c).vid = c.vid := (rfl)
@[simp] theorem putEng_sched : (putEng e x c).sched = c.sched := (rfl)
@[simp] theorem putEng_pools : (putEng e x c).pools = c.pools := (rfl)
@[simp] theorem putEng_chans : (putEng e x c).chans = c.chans := (rfl)
@[simp] theorem putEng_dram : (putEng e x c).dram = c.dram := (rfl)
@[simp] theorem putEng_time : (putEng e x c).time = c.time := (rfl)
@[simp] theorem putEng_twin : (putEng e x c).twin = c.twin := (rfl)
@[simp] theorem putEng_pwr : (putEng e x c).pwr = c.pwr := (rfl)
@[simp] theorem putEng_mgmt : (putEng e x c).mgmt = c.mgmt := (rfl)
@[simp] theorem putEng_ctrs : (putEng e x c).ctrs = c.ctrs := (rfl)
@[simp] theorem putEng_out : (putEng e x c).out = c.out := (rfl)
@[simp] theorem putEng_free : (putEng e x c).free = c.free := (rfl)

end

/-! `modSub` changes `dram` alone. -/
section
variable (n : Nat) (f : Sub → Sub) (c : Chip)

@[simp] theorem modSub_host : (modSub n f c).host = c.host := (rfl)
@[simp] theorem modSub_gx : (modSub n f c).gx = c.gx := (rfl)
@[simp] theorem modSub_net : (modSub n f c).net = c.net := (rfl)
@[simp] theorem modSub_fwd : (modSub n f c).fwd = c.fwd := (rfl)
@[simp] theorem modSub_eg : (modSub n f c).eg = c.eg := (rfl)
@[simp] theorem modSub_aud : (modSub n f c).aud = c.aud := (rfl)
@[simp] theorem modSub_vid : (modSub n f c).vid = c.vid := (rfl)
@[simp] theorem modSub_eng : (modSub n f c).eng = c.eng := (rfl)
@[simp] theorem modSub_sched : (modSub n f c).sched = c.sched := (rfl)
@[simp] theorem modSub_pools : (modSub n f c).pools = c.pools := (rfl)
@[simp] theorem modSub_chans : (modSub n f c).chans = c.chans := (rfl)
@[simp] theorem modSub_time : (modSub n f c).time = c.time := (rfl)
@[simp] theorem modSub_twin : (modSub n f c).twin = c.twin := (rfl)
@[simp] theorem modSub_pwr : (modSub n f c).pwr = c.pwr := (rfl)
@[simp] theorem modSub_mgmt : (modSub n f c).mgmt = c.mgmt := (rfl)
@[simp] theorem modSub_ctrs : (modSub n f c).ctrs = c.ctrs := (rfl)
@[simp] theorem modSub_out : (modSub n f c).out = c.out := (rfl)
@[simp] theorem modSub_free : (modSub n f c).free = c.free := (rfl)

end

/-! `modChan` changes `chans` alone. -/
section
variable (n : Nat) (f : Chan → Chan) (c : Chip)

@[simp] theorem modChan_host : (modChan n f c).host = c.host := (rfl)
@[simp] theorem modChan_gx : (modChan n f c).gx = c.gx := (rfl)
@[simp] theorem modChan_net : (modChan n f c).net = c.net := (rfl)
@[simp] theorem modChan_fwd : (modChan n f c).fwd = c.fwd := (rfl)
@[simp] theorem modChan_eg : (modChan n f c).eg = c.eg := (rfl)
@[simp] theorem modChan_aud : (modChan n f c).aud = c.aud := (rfl)
@[simp] theorem modChan_vid : (modChan n f c).vid = c.vid := (rfl)
@[simp] theorem modChan_eng : (modChan n f c).eng = c.eng := (rfl)
@[simp] theorem modChan_sched : (modChan n f c).sched = c.sched := (rfl)
@[simp] theorem modChan_pools : (modChan n f c).pools = c.pools := (rfl)
@[simp] theorem modChan_dram : (modChan n f c).dram = c.dram := (rfl)
@[simp] theorem modChan_time : (modChan n f c).time = c.time := (rfl)
@[simp] theorem modChan_twin : (modChan n f c).twin = c.twin := (rfl)
@[simp] theorem modChan_pwr : (modChan n f c).pwr = c.pwr := (rfl)
@[simp] theorem modChan_mgmt : (modChan n f c).mgmt = c.mgmt := (rfl)
@[simp] theorem modChan_ctrs : (modChan n f c).ctrs = c.ctrs := (rfl)
@[simp] theorem modChan_out : (modChan n f c).out = c.out := (rfl)
@[simp] theorem modChan_free : (modChan n f c).free = c.free := (rfl)

end

/-! `modPool` changes `pools` alone. -/
section
variable (p : Nat) (f : Pool → Pool) (c : Chip)

@[simp] theorem modPool_host : (modPool p f c).host = c.host := (rfl)
@[simp] theorem modPool_gx : (modPool p f c).gx = c.gx := (rfl)
@[simp] theorem modPool_net : (modPool p f c).net = c.net := (rfl)
@[simp] theorem modPool_fwd : (modPool p f c).fwd = c.fwd := (rfl)
@[simp] theorem modPool_eg : (modPool p f c).eg = c.eg := (rfl)
@[simp] theorem modPool_aud : (modPool p f c).aud = c.aud := (rfl)
@[simp] theorem modPool_vid : (modPool p f c).vid = c.vid := (rfl)
@[simp] theorem modPool_eng : (modPool p f c).eng = c.eng := (rfl)
@[simp] theorem modPool_sched : (modPool p f c).sched = c.sched := (rfl)
@[simp] theorem modPool_chans : (modPool p f c).chans = c.chans := (rfl)
@[simp] theorem modPool_dram : (modPool p f c).dram = c.dram := (rfl)
@[simp] theorem modPool_time : (modPool p f c).time = c.time := (rfl)
@[simp] theorem modPool_twin : (modPool p f c).twin = c.twin := (rfl)
@[simp] theorem modPool_pwr : (modPool p f c).pwr = c.pwr := (rfl)
@[simp] theorem modPool_mgmt : (modPool p f c).mgmt = c.mgmt := (rfl)
@[simp] theorem modPool_ctrs : (modPool p f c).ctrs = c.ctrs := (rfl)
@[simp] theorem modPool_out : (modPool p f c).out = c.out := (rfl)
@[simp] theorem modPool_free : (modPool p f c).free = c.free := (rfl)

end

/-! `modUse` changes `pools` alone. -/
section
variable (i p : Nat) (f : Use → Use) (c : Chip)

@[simp] theorem modUse_host : (modUse i p f c).host = c.host := (rfl)
@[simp] theorem modUse_gx : (modUse i p f c).gx = c.gx := (rfl)
@[simp] theorem modUse_net : (modUse i p f c).net = c.net := (rfl)
@[simp] theorem modUse_fwd : (modUse i p f c).fwd = c.fwd := (rfl)
@[simp] theorem modUse_eg : (modUse i p f c).eg = c.eg := (rfl)
@[simp] theorem modUse_aud : (modUse i p f c).aud = c.aud := (rfl)
@[simp] theorem modUse_vid : (modUse i p f c).vid = c.vid := (rfl)
@[simp] theorem modUse_eng : (modUse i p f c).eng = c.eng := (rfl)
@[simp] theorem modUse_sched : (modUse i p f c).sched = c.sched := (rfl)
@[simp] theorem modUse_chans : (modUse i p f c).chans = c.chans := (rfl)
@[simp] theorem modUse_dram : (modUse i p f c).dram = c.dram := (rfl)
@[simp] theorem modUse_time : (modUse i p f c).time = c.time := (rfl)
@[simp] theorem modUse_twin : (modUse i p f c).twin = c.twin := (rfl)
@[simp] theorem modUse_pwr : (modUse i p f c).pwr = c.pwr := (rfl)
@[simp] theorem modUse_mgmt : (modUse i p f c).mgmt = c.mgmt := (rfl)
@[simp] theorem modUse_ctrs : (modUse i p f c).ctrs = c.ctrs := (rfl)
@[simp] theorem modUse_out : (modUse i p f c).out = c.out := (rfl)
@[simp] theorem modUse_free : (modUse i p f c).free = c.free := (rfl)

end

/-! `modLport` changes `net` alone. -/
section
variable (l : Nat) (f : LPort → LPort) (c : Chip)

@[simp] theorem modLport_host : (modLport l f c).host = c.host := (rfl)
@[simp] theorem modLport_gx : (modLport l f c).gx = c.gx := (rfl)
@[simp] theorem modLport_fwd : (modLport l f c).fwd = c.fwd := (rfl)
@[simp] theorem modLport_eg : (modLport l f c).eg = c.eg := (rfl)
@[simp] theorem modLport_aud : (modLport l f c).aud = c.aud := (rfl)
@[simp] theorem modLport_vid : (modLport l f c).vid = c.vid := (rfl)
@[simp] theorem modLport_eng : (modLport l f c).eng = c.eng := (rfl)
@[simp] theorem modLport_sched : (modLport l f c).sched = c.sched := (rfl)
@[simp] theorem modLport_pools : (modLport l f c).pools = c.pools := (rfl)
@[simp] theorem modLport_chans : (modLport l f c).chans = c.chans := (rfl)
@[simp] theorem modLport_dram : (modLport l f c).dram = c.dram := (rfl)
@[simp] theorem modLport_time : (modLport l f c).time = c.time := (rfl)
@[simp] theorem modLport_twin : (modLport l f c).twin = c.twin := (rfl)
@[simp] theorem modLport_pwr : (modLport l f c).pwr = c.pwr := (rfl)
@[simp] theorem modLport_mgmt : (modLport l f c).mgmt = c.mgmt := (rfl)
@[simp] theorem modLport_ctrs : (modLport l f c).ctrs = c.ctrs := (rfl)
@[simp] theorem modLport_out : (modLport l f c).out = c.out := (rfl)
@[simp] theorem modLport_free : (modLport l f c).free = c.free := (rfl)

end

/-! `raiseRated` changes `mgmt` alone. -/
section
variable (i k : Nat) (fn : Option Nat) (o : Nat) (mk : Nat → Nat) (n : Nat) (c : Chip)

@[simp] theorem raiseRated_host : (raiseRated i k fn o mk n c).host = c.host := by unfold raiseRated; dsimp only; split <;> rfl
@[simp] theorem raiseRated_gx : (raiseRated i k fn o mk n c).gx = c.gx := by unfold raiseRated; dsimp only; split <;> rfl
@[simp] theorem raiseRated_net : (raiseRated i k fn o mk n c).net = c.net := by unfold raiseRated; dsimp only; split <;> rfl
@[simp] theorem raiseRated_fwd : (raiseRated i k fn o mk n c).fwd = c.fwd := by unfold raiseRated; dsimp only; split <;> rfl
@[simp] theorem raiseRated_eg : (raiseRated i k fn o mk n c).eg = c.eg := by unfold raiseRated; dsimp only; split <;> rfl
@[simp] theorem raiseRated_aud : (raiseRated i k fn o mk n c).aud = c.aud := by unfold raiseRated; dsimp only; split <;> rfl
@[simp] theorem raiseRated_vid : (raiseRated i k fn o mk n c).vid = c.vid := by unfold raiseRated; dsimp only; split <;> rfl
@[simp] theorem raiseRated_eng : (raiseRated i k fn o mk n c).eng = c.eng := by unfold raiseRated; dsimp only; split <;> rfl
@[simp] theorem raiseRated_sched : (raiseRated i k fn o mk n c).sched = c.sched := by unfold raiseRated; dsimp only; split <;> rfl
@[simp] theorem raiseRated_pools : (raiseRated i k fn o mk n c).pools = c.pools := by unfold raiseRated; dsimp only; split <;> rfl
@[simp] theorem raiseRated_chans : (raiseRated i k fn o mk n c).chans = c.chans := by unfold raiseRated; dsimp only; split <;> rfl
@[simp] theorem raiseRated_dram : (raiseRated i k fn o mk n c).dram = c.dram := by unfold raiseRated; dsimp only; split <;> rfl
@[simp] theorem raiseRated_time : (raiseRated i k fn o mk n c).time = c.time := by unfold raiseRated; dsimp only; split <;> rfl
@[simp] theorem raiseRated_twin : (raiseRated i k fn o mk n c).twin = c.twin := by unfold raiseRated; dsimp only; split <;> rfl
@[simp] theorem raiseRated_pwr : (raiseRated i k fn o mk n c).pwr = c.pwr := by unfold raiseRated; dsimp only; split <;> rfl
@[simp] theorem raiseRated_ctrs : (raiseRated i k fn o mk n c).ctrs = c.ctrs := by unfold raiseRated; dsimp only; split <;> rfl
@[simp] theorem raiseRated_out : (raiseRated i k fn o mk n c).out = c.out := by unfold raiseRated; dsimp only; split <;> rfl
@[simp] theorem raiseRated_free : (raiseRated i k fn o mk n c).free = c.free := by unfold raiseRated; dsimp only; split <;> rfl

end

/-! `bump` changes `ctrs` and `mgmt` alone. -/
section
variable (o s p n : Nat) (c : Chip)

@[simp] theorem bump_host : (bump o s p n c).host = c.host := by unfold bump; dsimp only; split <;> [rfl; split <;> rfl]
@[simp] theorem bump_gx : (bump o s p n c).gx = c.gx := by unfold bump; dsimp only; split <;> [rfl; split <;> rfl]
@[simp] theorem bump_net : (bump o s p n c).net = c.net := by unfold bump; dsimp only; split <;> [rfl; split <;> rfl]
@[simp] theorem bump_fwd : (bump o s p n c).fwd = c.fwd := by unfold bump; dsimp only; split <;> [rfl; split <;> rfl]
@[simp] theorem bump_eg : (bump o s p n c).eg = c.eg := by unfold bump; dsimp only; split <;> [rfl; split <;> rfl]
@[simp] theorem bump_aud : (bump o s p n c).aud = c.aud := by unfold bump; dsimp only; split <;> [rfl; split <;> rfl]
@[simp] theorem bump_vid : (bump o s p n c).vid = c.vid := by unfold bump; dsimp only; split <;> [rfl; split <;> rfl]
@[simp] theorem bump_eng : (bump o s p n c).eng = c.eng := by unfold bump; dsimp only; split <;> [rfl; split <;> rfl]
@[simp] theorem bump_sched : (bump o s p n c).sched = c.sched := by unfold bump; dsimp only; split <;> [rfl; split <;> rfl]
@[simp] theorem bump_pools : (bump o s p n c).pools = c.pools := by unfold bump; dsimp only; split <;> [rfl; split <;> rfl]
@[simp] theorem bump_chans : (bump o s p n c).chans = c.chans := by unfold bump; dsimp only; split <;> [rfl; split <;> rfl]
@[simp] theorem bump_dram : (bump o s p n c).dram = c.dram := by unfold bump; dsimp only; split <;> [rfl; split <;> rfl]
@[simp] theorem bump_time : (bump o s p n c).time = c.time := by unfold bump; dsimp only; split <;> [rfl; split <;> rfl]
@[simp] theorem bump_twin : (bump o s p n c).twin = c.twin := by unfold bump; dsimp only; split <;> [rfl; split <;> rfl]
@[simp] theorem bump_pwr : (bump o s p n c).pwr = c.pwr := by unfold bump; dsimp only; split <;> [rfl; split <;> rfl]
@[simp] theorem bump_out : (bump o s p n c).out = c.out := by unfold bump; dsimp only; split <;> [rfl; split <;> rfl]
@[simp] theorem bump_free : (bump o s p n c).free = c.free := by unfold bump; dsimp only; split <;> [rfl; split <;> rfl]

end

/-! `msix` changes `host` and `out` alone. -/
section
variable (fn v : Nat) (c : Chip)

@[simp] theorem msix_gx : (msix fn v c).gx = c.gx := by unfold msix; dsimp only; split <;> rfl
@[simp] theorem msix_net : (msix fn v c).net = c.net := by unfold msix; dsimp only; split <;> rfl
@[simp] theorem msix_fwd : (msix fn v c).fwd = c.fwd := by unfold msix; dsimp only; split <;> rfl
@[simp] theorem msix_eg : (msix fn v c).eg = c.eg := by unfold msix; dsimp only; split <;> rfl
@[simp] theorem msix_aud : (msix fn v c).aud = c.aud := by unfold msix; dsimp only; split <;> rfl
@[simp] theorem msix_vid : (msix fn v c).vid = c.vid := by unfold msix; dsimp only; split <;> rfl
@[simp] theorem msix_eng : (msix fn v c).eng = c.eng := by unfold msix; dsimp only; split <;> rfl
@[simp] theorem msix_sched : (msix fn v c).sched = c.sched := by unfold msix; dsimp only; split <;> rfl
@[simp] theorem msix_pools : (msix fn v c).pools = c.pools := by unfold msix; dsimp only; split <;> rfl
@[simp] theorem msix_chans : (msix fn v c).chans = c.chans := by unfold msix; dsimp only; split <;> rfl
@[simp] theorem msix_dram : (msix fn v c).dram = c.dram := by unfold msix; dsimp only; split <;> rfl
@[simp] theorem msix_time : (msix fn v c).time = c.time := by unfold msix; dsimp only; split <;> rfl
@[simp] theorem msix_twin : (msix fn v c).twin = c.twin := by unfold msix; dsimp only; split <;> rfl
@[simp] theorem msix_pwr : (msix fn v c).pwr = c.pwr := by unfold msix; dsimp only; split <;> rfl
@[simp] theorem msix_mgmt : (msix fn v c).mgmt = c.mgmt := by unfold msix; dsimp only; split <;> rfl
@[simp] theorem msix_ctrs : (msix fn v c).ctrs = c.ctrs := by unfold msix; dsimp only; split <;> rfl
@[simp] theorem msix_free : (msix fn v c).free = c.free := by unfold msix; dsimp only; split <;> rfl

end

/-! `errBit` changes `host` and `out` alone. -/
section
variable (fn i : Nat) (c : Chip)

@[simp] theorem errBit_gx : (errBit fn i c).gx = c.gx := by unfold errBit; dsimp only; split <;> simp
@[simp] theorem errBit_net : (errBit fn i c).net = c.net := by unfold errBit; dsimp only; split <;> simp
@[simp] theorem errBit_fwd : (errBit fn i c).fwd = c.fwd := by unfold errBit; dsimp only; split <;> simp
@[simp] theorem errBit_eg : (errBit fn i c).eg = c.eg := by unfold errBit; dsimp only; split <;> simp
@[simp] theorem errBit_aud : (errBit fn i c).aud = c.aud := by unfold errBit; dsimp only; split <;> simp
@[simp] theorem errBit_vid : (errBit fn i c).vid = c.vid := by unfold errBit; dsimp only; split <;> simp
@[simp] theorem errBit_eng : (errBit fn i c).eng = c.eng := by unfold errBit; dsimp only; split <;> simp
@[simp] theorem errBit_sched : (errBit fn i c).sched = c.sched := by unfold errBit; dsimp only; split <;> simp
@[simp] theorem errBit_pools : (errBit fn i c).pools = c.pools := by unfold errBit; dsimp only; split <;> simp
@[simp] theorem errBit_chans : (errBit fn i c).chans = c.chans := by unfold errBit; dsimp only; split <;> simp
@[simp] theorem errBit_dram : (errBit fn i c).dram = c.dram := by unfold errBit; dsimp only; split <;> simp
@[simp] theorem errBit_time : (errBit fn i c).time = c.time := by unfold errBit; dsimp only; split <;> simp
@[simp] theorem errBit_twin : (errBit fn i c).twin = c.twin := by unfold errBit; dsimp only; split <;> simp
@[simp] theorem errBit_pwr : (errBit fn i c).pwr = c.pwr := by unfold errBit; dsimp only; split <;> simp
@[simp] theorem errBit_mgmt : (errBit fn i c).mgmt = c.mgmt := by unfold errBit; dsimp only; split <;> simp
@[simp] theorem errBit_ctrs : (errBit fn i c).ctrs = c.ctrs := by unfold errBit; dsimp only; split <;> simp
@[simp] theorem errBit_free : (errBit fn i c).free = c.free := by unfold errBit; dsimp only; split <;> simp

end

/-! `errAccess` changes `host` and `out` alone. -/
section
variable (fn i : Nat) (c : Chip)

@[simp] theorem errAccess_gx : (errAccess fn i c).gx = c.gx := by simp [errAccess]
@[simp] theorem errAccess_net : (errAccess fn i c).net = c.net := by simp [errAccess]
@[simp] theorem errAccess_fwd : (errAccess fn i c).fwd = c.fwd := by simp [errAccess]
@[simp] theorem errAccess_eg : (errAccess fn i c).eg = c.eg := by simp [errAccess]
@[simp] theorem errAccess_aud : (errAccess fn i c).aud = c.aud := by simp [errAccess]
@[simp] theorem errAccess_vid : (errAccess fn i c).vid = c.vid := by simp [errAccess]
@[simp] theorem errAccess_eng : (errAccess fn i c).eng = c.eng := by simp [errAccess]
@[simp] theorem errAccess_sched : (errAccess fn i c).sched = c.sched := by simp [errAccess]
@[simp] theorem errAccess_pools : (errAccess fn i c).pools = c.pools := by simp [errAccess]
@[simp] theorem errAccess_chans : (errAccess fn i c).chans = c.chans := by simp [errAccess]
@[simp] theorem errAccess_dram : (errAccess fn i c).dram = c.dram := by simp [errAccess]
@[simp] theorem errAccess_time : (errAccess fn i c).time = c.time := by simp [errAccess]
@[simp] theorem errAccess_twin : (errAccess fn i c).twin = c.twin := by simp [errAccess]
@[simp] theorem errAccess_pwr : (errAccess fn i c).pwr = c.pwr := by simp [errAccess]
@[simp] theorem errAccess_mgmt : (errAccess fn i c).mgmt = c.mgmt := by simp [errAccess]
@[simp] theorem errAccess_ctrs : (errAccess fn i c).ctrs = c.ctrs := by simp [errAccess]
@[simp] theorem errAccess_free : (errAccess fn i c).free = c.free := by simp [errAccess]

end

/-! `finish` changes `host` and `out` alone. -/
section
variable (k : Nat) (r : Res) (c : Chip)

@[simp] theorem finish_gx : (finish k r c).gx = c.gx := by unfold finish; dsimp only; split <;> simp
@[simp] theorem finish_net : (finish k r c).net = c.net := by unfold finish; dsimp only; split <;> simp
@[simp] theorem finish_fwd : (finish k r c).fwd = c.fwd := by unfold finish; dsimp only; split <;> simp
@[simp] theorem finish_eg : (finish k r c).eg = c.eg := by unfold finish; dsimp only; split <;> simp
@[simp] theorem finish_aud : (finish k r c).aud = c.aud := by unfold finish; dsimp only; split <;> simp
@[simp] theorem finish_vid : (finish k r c).vid = c.vid := by unfold finish; dsimp only; split <;> simp
@[simp] theorem finish_eng : (finish k r c).eng = c.eng := by unfold finish; dsimp only; split <;> simp
@[simp] theorem finish_sched : (finish k r c).sched = c.sched := by unfold finish; dsimp only; split <;> simp
@[simp] theorem finish_pools : (finish k r c).pools = c.pools := by unfold finish; dsimp only; split <;> simp
@[simp] theorem finish_chans : (finish k r c).chans = c.chans := by unfold finish; dsimp only; split <;> simp
@[simp] theorem finish_dram : (finish k r c).dram = c.dram := by unfold finish; dsimp only; split <;> simp
@[simp] theorem finish_time : (finish k r c).time = c.time := by unfold finish; dsimp only; split <;> simp
@[simp] theorem finish_twin : (finish k r c).twin = c.twin := by unfold finish; dsimp only; split <;> simp
@[simp] theorem finish_pwr : (finish k r c).pwr = c.pwr := by unfold finish; dsimp only; split <;> simp
@[simp] theorem finish_mgmt : (finish k r c).mgmt = c.mgmt := by unfold finish; dsimp only; split <;> simp
@[simp] theorem finish_ctrs : (finish k r c).ctrs = c.ctrs := by unfold finish; dsimp only; split <;> simp
@[simp] theorem finish_free : (finish k r c).free = c.free := by unfold finish; dsimp only; split <;> simp

end

/-! What they do to the field that they change. -/

@[simp] theorem emit_out (o : Out) (c : Chip) : (emit o c).out = o :: c.out := rfl
@[simp] theorem modPwr_pwr (f : Power → Power) (c : Chip) : (modPwr f c).pwr = f c.pwr := rfl
@[simp] theorem modMgmt_mgmt (f : Mgmt → Mgmt) (c : Chip) : (modMgmt f c).mgmt = f c.mgmt := rfl
@[simp] theorem modTwin_twin (f : Twin → Twin) (c : Chip) : (modTwin f c).twin = f c.twin := rfl
@[simp] theorem modTw_twin (f : Twin → Twin) (c : Chip) : (modTw f c).twin = f c.twin := rfl
@[simp] theorem modGx_gx (f : Guxus → Guxus) (c : Chip) : (modGx f c).gx = f c.gx := rfl
@[simp] theorem modNet_net (f : Net4 → Net4) (c : Chip) : (modNet f c).net = f c.net := rfl
@[simp] theorem modFwd_fwd (f : Fwd → Fwd) (c : Chip) : (modFwd f c).fwd = f c.fwd := rfl
@[simp] theorem modEg_eg (f : Egress → Egress) (c : Chip) : (modEg f c).eg = f c.eg := rfl
@[simp] theorem modAud_aud (f : Audio → Audio) (c : Chip) : (modAud f c).aud = f c.aud := rfl
@[simp] theorem modVid_vid (f : Video → Video) (c : Chip) : (modVid f c).vid = f c.vid := rfl
@[simp] theorem modSched_sched (f : Sched → Sched) (c : Chip) : (modSched f c).sched = f c.sched := rfl
@[simp] theorem modTime_time (f : TimeBase → TimeBase) (c : Chip) : (modTime f c).time = f c.time := rfl
@[simp] theorem modFn_fns (fn : Nat) (f : Fn → Fn) (c : Chip) : (modFn fn f c).host.fns = tmod Fn.zero c.host.fns fn f := rfl
@[simp] theorem modFn_slots (fn : Nat) (f : Fn → Fn) (c : Chip) : (modFn fn f c).host.slots = c.host.slots := rfl
@[simp] theorem putSlot_slots (k : Nat) (x : Slot) (c : Chip) : (putSlot k x c).host.slots = tput c.host.slots k x := rfl
@[simp] theorem putSlot_fns (k : Nat) (x : Slot) (c : Chip) : (putSlot k x c).host.fns = c.host.fns := rfl

end Sys2Proof.Machine
end

