-- ==== Sys2Proof/Laws/Tables.lean ====
section
/-!
SUPPORT. Laws of the sparse tables: a read after a write to the same key gives the value written, and a write leaves every
other key alone.
-/
namespace Sys2Proof.Machine
open Sys2Proof

variable {α : Type}

@[simp] theorem tget_nil (d : α) (i : Nat) : tget d [] i = d := rfl
@[simp] theorem tfind_nil (i : Nat) : tfind ([] : Tbl α) i = none := rfl

@[simp] theorem tget_tput_same (d : α) (t : Tbl α) (i : Nat) (x : α) : tget d (tput t i x) i = x := by
  induction t with
  | nil => simp [tput, tget]
  | cons e t ih =>
    obtain ⟨k, v⟩ := e
    simp only [tput]
    split
    · simp [tget]
    · split
      · simp [tget]
      · rename_i h _; simp [tget, h, ih]

theorem tget_tput_other (d : α) (t : Tbl α) {i j : Nat} (x : α) (h : i ≠ j) : tget d (tput t i x) j = tget d t j := by
  induction t with
  | nil => simp [tput, tget, h]
  | cons e t ih =>
    obtain ⟨k, v⟩ := e
    simp only [tput]
    split
    · rename_i hk; subst hk; simp [tget, h]
    · split
      · simp [tget, h]
      · simp only [tget]; split <;> [rfl; exact ih]

@[simp] theorem tfind_tput_same (t : Tbl α) (i : Nat) (x : α) : tfind (tput t i x) i = some x := by
  induction t with
  | nil => simp [tput, tfind]
  | cons e t ih =>
    obtain ⟨k, v⟩ := e
    simp only [tput]
    split
    · simp [tfind]
    · split
      · simp [tfind]
      · rename_i h _; simp [tfind, h, ih]

theorem tfind_tput_other (t : Tbl α) {i j : Nat} (x : α) (h : i ≠ j) : tfind (tput t i x) j = tfind t j := by
  induction t with
  | nil => simp [tput, tfind, h]
  | cons e t ih =>
    obtain ⟨k, v⟩ := e
    simp only [tput]
    split
    · rename_i hk; subst hk; simp [tfind, h]
    · split
      · simp [tfind, h]
      · simp only [tfind]; split <;> [rfl; exact ih]

theorem tget_eq_tfind (d : α) (t : Tbl α) (i : Nat) : tget d t i = (tfind t i).getD d := by
  induction t with
  | nil => rfl
  | cons e t ih =>
    obtain ⟨k, v⟩ := e
    simp only [tget, tfind]
    split <;> simp [ih]

@[simp] theorem tget_tmod_same (d : α) (t : Tbl α) (i : Nat) (f : α → α) : tget d (tmod d t i f) i = f (tget d t i) := by
  simp [tmod]

theorem tget_tmod_other (d e : α) (t : Tbl α) {i j : Nat} (f : α → α) (h : i ≠ j) : tget d (tmod e t i f) j = tget d t j := by
  simp [tmod, tget_tput_other _ _ _ h]

/-- A key that was taken out reads as the default. -/
@[simp] theorem tget_tdel_same (d : α) (t : Tbl α) (i : Nat) : tget d (tdel t i) i = d := by
  induction t with
  | nil => rfl
  | cons e t ih =>
    obtain ⟨k, v⟩ := e
    by_cases h : k = i
    · simpa [tdel, h] using ih
    · have : tdel ((k, v) :: t) i = (k, v) :: tdel t i := by simp [tdel, h]
      rw [this]; simp only [tget, h, if_false]; exact ih

theorem tget_tdel_other (d : α) (t : Tbl α) {i j : Nat} (h : i ≠ j) : tget d (tdel t i) j = tget d t j := by
  induction t with
  | nil => rfl
  | cons e t ih =>
    obtain ⟨k, v⟩ := e
    by_cases hk : k = i
    · have hd : tdel ((k, v) :: t) i = tdel t i := by simp [tdel, hk]
      rw [hd, ih]; simp [tget, hk, h]
    · have : tdel ((k, v) :: t) i = (k, v) :: tdel t i := by simp [tdel, hk]
      rw [this]; simp only [tget]; split <;> [rfl; exact ih]

/-- Rising lists: insertion keeps the order. -/
theorem risingFrom_mono {lo lo' : Nat} {l : List Nat} (h : risingFrom lo l = true) (hl : lo' ≤ lo) : risingFrom lo' l = true := by
  cases l with
  | nil => rfl
  | cons k t =>
    simp only [risingFrom, Bool.and_eq_true, decide_eq_true_eq] at h ⊢
    exact ⟨le_trans hl h.1, h.2⟩

theorem risingFrom_lower {lo k : Nat} {l : List Nat} (h : risingFrom lo l = true) (hk : k ∈ l) : lo ≤ k := by
  induction l generalizing lo with
  | nil => cases hk
  | cons a t ih =>
    simp only [risingFrom, Bool.and_eq_true, decide_eq_true_eq] at h
    rcases List.mem_cons.1 hk with rfl | hk
    · exact h.1
    · have := ih h.2 hk; omega

theorem risingFrom_filter {lo : Nat} {l : List Nat} (p : Nat → Bool) (h : risingFrom lo l = true) : risingFrom lo (l.filter p) = true := by
  induction l generalizing lo with
  | nil => rfl
  | cons a t ih =>
    simp only [risingFrom, Bool.and_eq_true, decide_eq_true_eq] at h
    have := ih h.2
    by_cases hp : p a
    · simp [hp, risingFrom, h.1, this]
    · simp [hp, risingFrom_mono this (Nat.le_succ_of_le h.1)]

theorem linsert_rising {lo x : Nat} {l : List Nat} (h : risingFrom lo l = true) (hx : lo ≤ x) : risingFrom lo (linsert l x) = true := by
  induction l generalizing lo with
  | nil => simp [linsert, risingFrom, hx]
  | cons y t ih =>
    have h0 := h
    simp only [risingFrom, Bool.and_eq_true, decide_eq_true_eq] at h
    simp only [linsert]
    split
    · exact h0
    · split
      · simp only [risingFrom, Bool.and_eq_true, decide_eq_true_eq]
        exact ⟨hx, by omega, h.2⟩
      · simp only [risingFrom, Bool.and_eq_true, decide_eq_true_eq]
        exact ⟨h.1, ih h.2 (by omega)⟩

theorem tput_rising {lo i : Nat} {t : Tbl α} (x : α) (h : risingFrom lo (t.map Prod.fst) = true) (hi : lo ≤ i) :
    risingFrom lo ((tput t i x).map Prod.fst) = true := by
  induction t generalizing lo with
  | nil => simp [tput, risingFrom, hi]
  | cons e t ih =>
    obtain ⟨k, v⟩ := e
    simp only [List.map_cons, risingFrom, Bool.and_eq_true, decide_eq_true_eq] at h
    simp only [tput]
    split
    · rename_i hk; subst hk; simp [risingFrom, h.1, h.2]
    · split
      · simp only [List.map_cons, risingFrom, Bool.and_eq_true, decide_eq_true_eq]
        exact ⟨hi, by omega, h.2⟩
      · simp only [List.map_cons, risingFrom, Bool.and_eq_true, decide_eq_true_eq]
        exact ⟨h.1, ih h.2 (by omega)⟩

theorem rising_filter_fst {lo : Nat} {t : Tbl α} (p : Nat × α → Bool) (h : risingFrom lo (t.map Prod.fst) = true) :
    risingFrom lo ((t.filter p).map Prod.fst) = true := by
  induction t generalizing lo with
  | nil => rfl
  | cons a t ih =>
    simp only [List.map_cons, risingFrom, Bool.and_eq_true, decide_eq_true_eq] at h
    have := ih h.2
    by_cases hp : p a
    · simp [hp, risingFrom, h.1, this]
    · simp [hp, risingFrom_mono this (Nat.le_succ_of_le h.1)]

end Sys2Proof.Machine
end

