-- ==== Sys2Proof/Laws/Books.lean ====
section
/-!
SUPPORT. What counting, raising events, and taking and freeing buffers can touch: pools, statistics, the event collector, the draws of free
values, and the pause marks of host frame rings. Proofs cite these lemmas and unfold no allocation.
-/
namespace Sys2Proof.Machine
open Sys2Proof

/-- From `c` to `d` only bookkeeping has moved. -/
structure Books (c d : Chip) : Prop where
  host : d.host = c.host
  gx : d.gx = c.gx
  net : d.net = c.net
  fwd : d.fwd = c.fwd
  eg : d.eg = c.eg
  aud : d.aud = c.aud
  eng : d.eng = c.eng
  sched : d.sched = c.sched
  chans : d.chans = c.chans
  dram : d.dram = c.dram
  time : d.time = c.time
  twin : d.twin = c.twin
  pwr : d.pwr = c.pwr
  out : d.out = c.out
  vid : { d.vid with canvases := [] } = { c.vid with canvases := [] }
  canvas : ∀ i, { tget CanvasRun.zero d.vid.canvases i with ringPaused := false } = { tget CanvasRun.zero c.vid.canvases i with ringPaused := false }
  mgmt : { d.mgmt with iseq := [], incoming := [], limits := [] } = { c.mgmt with iseq := [], incoming := [], limits := [] }
  log : c.mgmt.incoming <+: d.mgmt.incoming

namespace Books

theorem refl (c : Chip) : Books c c :=
  ⟨rfl, rfl, rfl, rfl, rfl, rfl, rfl, rfl, rfl, rfl, rfl, rfl, rfl, rfl, rfl, fun _ => rfl, rfl, List.prefix_refl _⟩

theorem trans {a b c : Chip} (x : Books a b) (y : Books b c) : Books a c :=
  ⟨y.host.trans x.host, y.gx.trans x.gx, y.net.trans x.net, y.fwd.trans x.fwd, y.eg.trans x.eg, y.aud.trans x.aud, y.eng.trans x.eng,
   y.sched.trans x.sched, y.chans.trans x.chans, y.dram.trans x.dram, y.time.trans x.time, y.twin.trans x.twin, y.pwr.trans x.pwr,
   y.out.trans x.out, y.vid.trans x.vid, fun i => (y.canvas i).trans (x.canvas i), y.mgmt.trans x.mgmt, x.log.trans y.log⟩

theorem foldl {α : Type} (f : Chip → α → Chip) (h : ∀ c x, Books c (f c x)) (l : List α) (c : Chip) : Books c (l.foldl f c) := by
  induction l generalizing c with
  | nil => exact refl c
  | cons x l ih => exact (h c x).trans (ih (f c x))

theorem decs {c d : Chip} (h : Books c d) : d.vid.decs = c.vid.decs := by have := congrArg Video.decs h.vid; exact this
theorem rends {c d : Chip} (h : Books c d) : d.vid.rends = c.vid.rends := by have := congrArg Video.rends h.vid; exact this
theorem cfg {c d : Chip} (h : Books c d) : Machine.cfg d = Machine.cfg c := by unfold Machine.cfg; rw [h.gx]
theorem getLport {c d : Chip} (h : Books c d) (l : Nat) : Machine.getLport d l = Machine.getLport c l := by unfold Machine.getLport; rw [h.net]
theorem getLeg {c d : Chip} (h : Books c d) (l : Nat) : Machine.getLeg d l = Machine.getLeg c l := by unfold Machine.getLeg; rw [h.eg]
theorem getTask {c d : Chip} (h : Books c d) (n : Nat) : Machine.getTask d n = Machine.getTask c n := by unfold Machine.getTask; rw [h.sched]

/-- Pools, counters and draws alone. -/
theorem of_pools {c d : Chip} (h : d = { c with pools := d.pools, ctrs := d.ctrs, free := d.free }) : Books c d := by
  rw [h]; exact ⟨rfl, rfl, rfl, rfl, rfl, rfl, rfl, rfl, rfl, rfl, rfl, rfl, rfl, rfl, rfl, fun _ => rfl, rfl, List.prefix_refl _⟩

theorem of_raise (i k : Nat) (fn : Option Nat) (o d : Nat) (c : Chip) : Books c (raise i k fn o d c) :=
  ⟨rfl, rfl, rfl, rfl, rfl, rfl, rfl, rfl, rfl, rfl, rfl, rfl, rfl, rfl, rfl, fun _ => rfl, rfl, List.prefix_append _ _⟩

theorem of_limits (c : Chip) (l : Tbl RateWin) : Books c { c with mgmt := { c.mgmt with limits := l } } :=
  ⟨rfl, rfl, rfl, rfl, rfl, rfl, rfl, rfl, rfl, rfl, rfl, rfl, rfl, rfl, rfl, fun _ => rfl, rfl, List.prefix_refl _⟩

theorem of_raiseRated (i k : Nat) (fn : Option Nat) (o : Nat) (mk : Nat → Nat) (n : Nat) (c : Chip) : Books c (raiseRated i k fn o mk n c) := by
  unfold raiseRated; dsimp only; split
  · exact (of_limits _ _).trans (of_raise _ _ _ _ _ _)
  · exact of_limits _ _

theorem of_bump (o s p n : Nat) (c : Chip) : Books c (bump o s p n c) := by
  unfold bump; dsimp only; split
  · exact of_pools rfl
  · split
    · exact of_pools rfl
    · exact (of_pools rfl).trans (of_raise _ _ _ _ _ _)

theorem of_modPool (p : Nat) (f : Pool → Pool) (c : Chip) : Books c (modPool p f c) := of_pools rfl
theorem of_modUse (i p : Nat) (f : Use → Use) (c : Chip) : Books c (modUse i p f c) := of_pools rfl
theorem of_modBuf (h : Nat) (f : Buf → Buf) (c : Chip) : Books c (modBuf h f c) := of_modPool _ _ _
theorem of_poolSticky (p i : Nat) (c : Chip) : Books c (poolSticky p i c) := of_modPool _ _ _
theorem of_answered (r h : Nat) (c : Chip) : Books c (answered r h c) := of_pools rfl
theorem of_draw (c : Chip) : Books c (draw c).2 := of_pools rfl

/-- The pause mark of one canvas's ring. -/
theorem of_pause (i : Nat) (b : Bool) (c : Chip) :
    Books c { c with vid := { c.vid with canvases := tmod CanvasRun.zero c.vid.canvases i (fun x => { x with ringPaused := b }) } } := by
  refine ⟨rfl, rfl, rfl, rfl, rfl, rfl, rfl, rfl, rfl, rfl, rfl, rfl, rfl, rfl, rfl, fun j => ?_, rfl, List.prefix_refl _⟩
  by_cases h : i = j
  · subst h; simp
  · simp [tget_tmod_other _ _ _ _ h]

theorem of_ringPauses (st : Nat) (c : Chip) : Books c (ringPauses st c) := by
  unfold ringPauses; exact foldl _ (fun c e => (of_pause _ _ _).trans (of_raise _ _ _ _ _ _)) _ _

theorem of_watermark (p : Nat) (c : Chip) : Books c (watermark p c) := by
  unfold watermark; dsimp only; split
  · exact refl c
  · exact ((of_modPool _ _ _).trans (of_raise _ _ _ _ _ _)).trans (of_ringPauses _ _)

theorem of_countResult (i p r : Nat) (c : Chip) : Books c (countResult i p r c) := by
  unfold countResult; split
  · exact of_bump _ _ _ _ _
  · exact refl c

theorem of_takeBuffer (i p : Nat) (c : Chip) : Books c (takeBuffer i p c).2 :=
  (((of_draw c).trans (of_modPool _ _ _)).trans (of_modUse _ _ _ _)).trans (of_watermark _ _)

theorem of_allocIn (i p : Nat) (c : Chip) : Books c (allocIn i p c).2.2 := by
  unfold allocIn; dsimp only; split
  · exact of_takeBuffer _ _ _
  · exact of_countResult _ _ _ _

theorem of_alloc (i size cls : Nat) (c : Chip) : Books c (alloc i size cls c).2.2 := by
  unfold alloc; dsimp only
  repeat' split
  all_goals first | exact of_allocIn _ _ _ | (dsimp only; exact of_countResult _ _ _ _)

theorem of_refuseHandle (i h : Nat) (c : Chip) : Books c (refuseHandle i h c).2 := by
  unfold refuseHandle; dsimp only; split
  all_goals dsimp only; exact ((of_countResult _ _ _ _).trans (of_poolSticky _ _ _)).trans (of_raiseRated _ _ _ _ _ _ _)

theorem of_returnBuffer (h : Nat) (c : Chip) : Books c (returnBuffer h c) :=
  (((of_modBuf _ _ _).trans (of_modPool _ _ _)).trans (of_modUse _ _ _ _)).trans (of_watermark _ _)

theorem of_loseBuffer (h : Nat) (c : Chip) : Books c (loseBuffer h c) := by
  unfold loseBuffer; dsimp only; split
  · refine Books.trans ?_ (((of_modBuf _ _ _).trans (of_modPool _ _ _)).trans (((of_poolSticky _ _ _).trans (of_watermark _ _)).trans (of_raise _ _ _ _ _ _)))
    split
    · exact (of_modPool _ _ _).trans (of_modUse _ _ _ _)
    · exact refl c
  · exact refl c

theorem of_retain (i h : Nat) (c : Chip) : Books c (retain i h c).2 := by
  unfold retain; split
  · exact of_refuseHandle _ _ _
  · split
    · exact refl c
    · exact of_modBuf _ _ _

theorem of_release (i h : Nat) (c : Chip) : Books c (release i h c).2 := by
  unfold release; split
  · exact of_refuseHandle _ _ _
  · split
    · exact of_returnBuffer _ _
    · exact of_modBuf _ _ _

theorem of_handover (i h d : Nat) (c : Chip) : Books c (handover i h d c).2 := by
  unfold handover; dsimp only; split
  · exact of_refuseHandle _ _ _
  · split
    · exact of_countResult _ _ _ _
    · exact (((of_modBuf _ _ _).trans (of_modUse _ _ _ _)).trans (of_modUse _ _ _ _)).trans (of_watermark _ _)

theorem of_drop (h : Nat) (c : Chip) : Books c (drop h c) := by unfold drop; split <;> [exact of_release _ _ _; exact refl c]
theorem of_keep (h : Nat) (c : Chip) : Books c (keep h c) := by unfold keep; split <;> [exact of_retain _ _ _; exact refl c]
theorem of_dropPkts (q : List EgPkt) (c : Chip) : Books c (dropPkts q c) := by unfold dropPkts; exact foldl _ (fun c k => of_drop _ _) _ _

end Books
end Sys2Proof.Machine
end

