-- ==== Sys2Proof/Laws/Memory.lean ====
section
/-!
SUPPORT. Laws of memory: every memory operation keeps the canonical form; a byte written reads back, and every other byte
reads as before.
-/
namespace Sys2Proof.Machine
open Sys2Proof

/-! One byte. -/

@[simp] theorem cellPut_same (l : List Host.Cell) (a : Nat) (b : Byte) (h : risingFrom 0 (l.map Prod.fst) = true) :
    tget 0 (cellPut l a b) a = b := by
  suffices H : ∀ (l : List Host.Cell) (lo : Nat), risingFrom lo (l.map Prod.fst) = true → tget 0 (cellPut l a b) a = b from H l 0 h
  intro l
  induction l with
  | nil => intro lo _; by_cases hb : b = 0 <;> simp only [cellPut, tget, hb, if_true, if_false]
  | cons e t ih =>
    obtain ⟨k, v⟩ := e
    intro lo h
    simp only [List.map_cons, risingFrom, Bool.and_eq_true, decide_eq_true_eq] at h
    have absent : ∀ (t : List Host.Cell), risingFrom (a + 1) (t.map Prod.fst) = true → tget (0 : Byte) t a = 0 := by
      intro t ht
      induction t with
      | nil => rfl
      | cons e t ih2 =>
        obtain ⟨k, v⟩ := e
        simp only [List.map_cons, risingFrom, Bool.and_eq_true, decide_eq_true_eq] at ht
        have hk : k ≠ a := by omega
        simp only [tget, hk, if_false]
        exact ih2 (risingFrom_mono ht.2 (by omega))
    simp only [cellPut]
    split
    · rename_i hk; subst hk
      by_cases hb : b = 0
      · simp only [hb, if_true]; exact absent t h.2
      · simp only [hb, if_false, tget, if_true]
    · rename_i hk
      split
      · by_cases hb : b = 0
        · rename_i hlt
          simp only [hb, if_true, tget, hk, if_false]
          exact absent t (risingFrom_mono h.2 (by omega))
        · simp only [hb, if_false, tget, if_true]
      · simp only [tget, hk, if_false]; exact ih (k + 1) h.2

theorem cellPut_other (l : List Host.Cell) {a x : Nat} (b : Byte) (h : x ≠ a) : tget 0 (cellPut l a b) x = tget 0 l x := by
  induction l with
  | nil => by_cases hb : b = 0 <;> simp only [cellPut, tget, hb, if_true, if_false, Ne.symm h]
  | cons e t ih =>
    obtain ⟨k, v⟩ := e
    simp only [cellPut]
    split
    · rename_i hk; subst hk
      by_cases hb : b = 0 <;> simp only [hb, tget, if_true, if_false, Ne.symm h]
    · split
      · by_cases hb : b = 0 <;> simp only [hb, tget, if_true, if_false, Ne.symm h]
      · simp only [tget]; split <;> [rfl; exact ih]

theorem cellPut_rising {lo a : Nat} {l : List Host.Cell} (b : Byte) (h : risingFrom lo (l.map Prod.fst) = true) (ha : lo ≤ a) :
    risingFrom lo ((cellPut l a b).map Prod.fst) = true := by
  induction l generalizing lo with
  | nil => by_cases hb : b = 0 <;> simp only [cellPut, hb, if_true, if_false, List.map_cons, List.map_nil, risingFrom, ha, decide_true, Bool.and_self]
  | cons e t ih =>
    obtain ⟨k, v⟩ := e
    have h0 := h
    simp only [List.map_cons, risingFrom, Bool.and_eq_true, decide_eq_true_eq] at h
    simp only [cellPut]
    split
    · rename_i hk; subst hk
      by_cases hb : b = 0
      · simp only [hb, if_true]; exact risingFrom_mono h.2 (by omega)
      · simp only [hb, if_false, List.map_cons, risingFrom, Bool.and_eq_true, decide_eq_true_eq]; exact h
    · split
      · by_cases hb : b = 0
        · simpa only [hb, if_true] using h0
        · simp only [hb, if_false, List.map_cons, risingFrom, Bool.and_eq_true, decide_eq_true_eq]
          exact ⟨ha, by omega, h.2⟩
      · simp only [List.map_cons, risingFrom, Bool.and_eq_true, decide_eq_true_eq]
        exact ⟨h.1, ih h.2 (by omega)⟩

theorem cellPut_nonzero (l : List Host.Cell) (a : Nat) (b : Byte) (h : l.all (fun e => e.2 != 0) = true) :
    (cellPut l a b).all (fun e => e.2 != 0) = true := by
  induction l with
  | nil =>
    by_cases hb : b = 0
    · simp only [cellPut, hb, if_true, List.all_nil]
    · simp only [cellPut, hb, if_false, List.all_cons, List.all_nil, Bool.and_true]; simpa using hb
  | cons e t ih =>
    obtain ⟨k, v⟩ := e
    simp only [List.all_cons, Bool.and_eq_true] at h
    simp only [cellPut]
    split
    · by_cases hb : b = 0
      · simpa [hb] using h.2
      · simp only [hb, if_false, List.all_cons, Bool.and_eq_true]; exact ⟨by simpa using hb, h.2⟩
    · split
      · by_cases hb : b = 0
        · simp only [hb, if_true, List.all_cons, Bool.and_eq_true]; exact h
        · simp only [hb, if_false, List.all_cons, Bool.and_eq_true]; exact ⟨by simpa using hb, h.1, h.2⟩
      · simp only [List.all_cons, Bool.and_eq_true]; exact ⟨h.1, ih h.2⟩

/-! Runs of bytes. -/

theorem writeBytes_rising (data : List Byte) (l : List Host.Cell) (a : Nat) (h : risingFrom 0 (l.map Prod.fst) = true) :
    risingFrom 0 ((Mem.writeBytes l a data).map Prod.fst) = true := by
  induction data generalizing l a with
  | nil => exact h
  | cons b t ih => exact ih _ _ (cellPut_rising b h (Nat.zero_le a))

theorem writeBytes_nonzero (data : List Byte) (l : List Host.Cell) (a : Nat) (h : l.all (fun e => e.2 != 0) = true) :
    (Mem.writeBytes l a data).all (fun e => e.2 != 0) = true := by
  induction data generalizing l a with
  | nil => exact h
  | cons b t ih => exact ih _ _ (cellPut_nonzero l a b h)

/-- A run of bytes leaves every address outside it alone. -/
theorem writeBytes_other (data : List Byte) (l : List Host.Cell) {a x : Nat} (h : x < a ∨ a + data.length ≤ x) :
    tget 0 (Mem.writeBytes l a data) x = tget 0 l x := by
  induction data generalizing l a with
  | nil => rfl
  | cons b t ih =>
    simp only [List.length_cons] at h
    rw [Mem.writeBytes, ih _ (by omega), cellPut_other l b (by omega)]

/-- A byte of the run reads back. -/
theorem writeBytes_at (data : List Byte) (l : List Host.Cell) (a i : Nat) (hi : i < data.length)
    (h : risingFrom 0 (l.map Prod.fst) = true) : tget 0 (Mem.writeBytes l a data) (a + i) = data.getD i 0 := by
  induction data generalizing l a i with
  | nil => simp at hi
  | cons b t ih =>
    cases i with
    | zero =>
      rw [Mem.writeBytes, writeBytes_other t _ (by omega)]
      simpa using cellPut_same l a b h
    | succ i =>
      have := ih (cellPut l a b) (a + 1) i (by simpa using hi) (cellPut_rising b h (Nat.zero_le a))
      simpa [Mem.writeBytes, Nat.add_assoc, Nat.add_comm 1 i] using this

/-! The canonical form. -/

theorem Mem.wf_iff (m : Mem) : m.wf = true ↔
    risingFrom 0 (m.cells.map Prod.fst) = true ∧ m.cells.all (fun e => e.2 != 0) = true ∧ risingFrom 0 m.poison = true ∧
      risingFrom 0 (m.flips.map Prod.fst) = true ∧ m.flips.all (fun e => e.2 != 0) = true := by
  simp only [Mem.wf, Bool.and_eq_true]; tauto

theorem all_filter {α : Type} (p q : α → Bool) (l : List α) (h : l.all p = true) : (l.filter q).all p = true := by
  rw [List.all_eq_true] at h ⊢
  exact fun x hx => h x (List.mem_filter.1 hx).1

theorem flipPut_rising (t : Tbl Nat) (w n : Nat) (h : risingFrom 0 (t.map Prod.fst) = true) :
    risingFrom 0 ((flipPut t w n).map Prod.fst) = true := by
  unfold flipPut; split
  · exact rising_filter_fst _ h
  · exact tput_rising n h (Nat.zero_le w)

theorem flipPut_nonzero (t : Tbl Nat) (w n : Nat) (h : t.all (fun e => e.2 != 0) = true) :
    (flipPut t w n).all (fun e => e.2 != 0) = true := by
  unfold flipPut; split
  · exact all_filter _ _ _ h
  · rename_i hn
    induction t with
    | nil => simpa [tput] using hn
    | cons e t ih =>
      obtain ⟨k, v⟩ := e
      simp only [List.all_cons, Bool.and_eq_true] at h
      simp only [tput]
      split
      · simp only [List.all_cons, Bool.and_eq_true]; exact ⟨by simpa using hn, h.2⟩
      · split
        · simp only [List.all_cons, Bool.and_eq_true]; exact ⟨by simpa using hn, h.1, h.2⟩
        · simp only [List.all_cons, Bool.and_eq_true]; exact ⟨h.1, ih h.2⟩

/-- Every memory operation keeps the canonical form. -/
theorem Mem.applyOp_wf (m : Mem) (o : MemOp) (h : m.wf = true) : (m.applyOp o).wf = true := by
  rw [Mem.wf_iff] at h ⊢
  obtain ⟨h1, h2, h3, h4, h5⟩ := h
  cases o with
  | write a l => exact ⟨writeBytes_rising l _ a h1, writeBytes_nonzero l _ a h2, h3, h4, h5⟩
  | zero a n =>
    exact ⟨rising_filter_fst _ h1, all_filter _ _ _ h2, risingFrom_filter _ h3, rising_filter_fst _ h4, all_filter _ _ _ h5⟩
  | zeroSub s top =>
    exact ⟨rising_filter_fst _ h1, all_filter _ _ _ h2, risingFrom_filter _ h3, rising_filter_fst _ h4, all_filter _ _ _ h5⟩
  | poison a on =>
    refine ⟨h1, h2, ?_, h4, h5⟩
    simp only [Mem.applyOp]
    split
    · exact linsert_rising h3 (Nat.zero_le _)
    · exact risingFrom_filter _ h3
  | flip a n => exact ⟨h1, h2, h3, flipPut_rising _ _ n h4, flipPut_nonzero _ _ n h5⟩

theorem Mem.apply_wf (ops : List MemOp) (m : Mem) (h : m.wf = true) : (m.apply ops).wf = true := by
  induction ops generalizing m with
  | nil => exact h
  | cons o t ih => exact ih _ (Mem.applyOp_wf m o h)

@[simp] theorem Mem.apply_nil (m : Mem) : m.apply [] = m := rfl
@[simp] theorem Mem.apply_cons (m : Mem) (o : MemOp) (t : List MemOp) : m.apply (o :: t) = (m.applyOp o).apply t := rfl
theorem Mem.apply_append (a b : List MemOp) (m : Mem) : m.apply (a ++ b) = (m.apply a).apply b := by
  simp [Mem.apply, List.foldl_append]

theorem reset_mem_wf : State.reset.mem.wf = true := rfl

end Sys2Proof.Machine
end

