-- ==== Sys2Proof/Laws/Meaning.lean ====
section
/-!
SUPPORT. The two forms that meanings have: what a next state of each of them is, that both leave the queue alone, and that
they keep memory canonical. A proof about a command cites these and does not unfold them.
-/
namespace Sys2Proof.Machine
open Sys2Proof

theorem act_next (s : State) (f : Chip → Chip) : act s f = .next { s with chip := f s.chip } := rfl

theorem act_cases {s t : State} {f : Chip → Chip} (h : act s f = .next t) : t = { s with chip := f s.chip } := by
  injection h with h; exact h.symm

theorem act_pending {s t : State} {f : Chip → Chip} (h : act s f = .next t) : t.pending = s.pending := by rw [act_cases h]

theorem act_mem {s t : State} {f : Chip → Chip} (h : act s f = .next t) : t.mem = s.mem := by rw [act_cases h]

theorem act_chip {s t : State} {f : Chip → Chip} (h : act s f = .next t) : t.chip = f s.chip := by rw [act_cases h]

theorem actMem_cases {s t : State} {f : Chip → Mem → Chip × List MemOp} (h : actMem s f = .next t) :
    t = { s with chip := (f s.chip s.mem).1, mem := s.mem.apply (f s.chip s.mem).2 } := by
  injection h with h; exact h.symm

theorem actMem_pending {s t : State} {f : Chip → Mem → Chip × List MemOp} (h : actMem s f = .next t) : t.pending = s.pending := by
  rw [actMem_cases h]

theorem actMem_wf {s t : State} {f : Chip → Mem → Chip × List MemOp} (h : actMem s f = .next t) (hm : s.mem.wf = true) :
    t.mem.wf = true := by
  rw [actMem_cases h]; exact Mem.apply_wf _ _ hm

theorem act_wf {s t : State} {f : Chip → Chip} (h : act s f = .next t) (hm : s.mem.wf = true) : t.mem.wf = true := by
  rw [act_mem h]; exact hm

theorem step_idle (s : State) (h : s.pending = []) : step s = .next (tick s) := by simp [step, h]

theorem step_front (s : State) (i : Instr) (rest : List Instr) (h : s.pending = i :: rest) :
    step s = exec i { s with pending := rest } := by simp [step, h]

end Sys2Proof.Machine
end

