-- ==== Sys2Proof/Laws/Form.lean ====
section
/-!
SUPPORT. What a command can do at all, said once: it answers a change of the chip alone, or of chip and memory, or it stops with the
fault of an address that does not exist. Proofs over all commands cite this and do not unfold the meanings.
-/
namespace Sys2Proof.Machine
open Sys2Proof

/-- The three forms of an answer. -/
inductive Form (s : State) : Host.Outcome State Fault Refusal → Prop where
  | chip (f : Chip → Chip) : Form s (act s f)
  | both (f : Chip → Mem → Chip × List MemOp) : Form s (actMem s f)
  | stop (a : Nat) : Form s (.fault (.noAddress a))

theorem exec_form (i : Instr) (s : State) : Form s (exec i s) := by
  cases i with
  | dbSubmit fn v => show Form s (execDbSubmit fn v s); unfold execDbSubmit; exact .chip _
  | dbRetire fn v => show Form s (execDbRetire fn v s); unfold execDbRetire; exact .chip _
  | dbCancel fn v => show Form s (execDbCancel fn v s); unfold execDbCancel; exact .chip _
  | slotWrite fn slot word v => show Form s (execSlotWrite fn slot word v s); unfold execSlotWrite; exact .chip _
  | fnCtrlWrite fn v => show Form s (execFnCtrlWrite fn v s); unfold execFnCtrlWrite; exact .chip _
  | evqHeadWrite fn v => show Form s (execEvqHeadWrite fn v s); unfold execEvqHeadWrite; exact .chip _
  | evqLostRead fn => show Form s (execEvqLostRead fn s); unfold execEvqLostRead; exact .chip _
  | errCountRead fn => show Form s (execErrCountRead fn s); unfold execErrCountRead; exact .chip _
  | b2DomainMissRead fn => show Form s (execB2DomainMissRead fn s); unfold execB2DomainMissRead; exact .chip _
  | unalignedAccess fn bar2 read => show Form s (execUnalignedAccess fn bar2 read s); unfold execUnalignedAccess; exact .chip _
  | poisonedWriteTlp fn bar2 => show Form s (execPoisonedWriteTlp fn bar2 s); unfold execPoisonedWriteTlp; exact .chip _
  | bar4Write fn addr data poisoned => show Form s (execBar4Write fn addr data poisoned s); unfold execBar4Write; exact .both _
  | bar4Read fn addr bytes => show Form s (execBar4Read fn addr bytes s); unfold execBar4Read; exact .both _
  | registerWrite fn bar addr v => show Form s (execRegisterWrite fn bar addr v s); unfold execRegisterWrite; exact .both _
  | b2Unlock fn v => show Form s (execB2Unlock fn v s); unfold execB2Unlock; exact .chip _
  | bar2DomainOffAccess fn addr read => show Form s (execBar2DomainOffAccess fn addr read s); unfold execBar2DomainOffAccess; exact .chip _
  | msixUnmask fn vec => show Form s (execMsixUnmask fn vec s); unfold execMsixUnmask; exact .chip _
  | busMasterEnable fn enable => show Form s (execBusMasterEnable fn enable s); unfold execBusMasterEnable; exact .chip _
  | eventCollect => show Form s (execEventCollect s); unfold execEventCollect; exact .chip _
  | evqCoalesceTimeout fn => show Form s (execEvqCoalesceTimeout fn s); unfold execEvqCoalesceTimeout; exact .chip _
  | perstAssert link => show Form s (execPerstAssert link s); unfold execPerstAssert; exact .chip _
  | perstRelease link => show Form s (execPerstRelease link s); unfold execPerstRelease; exact .chip _
  | pcieHotReset link => show Form s (execPcieHotReset link s); unfold execPcieHotReset; exact .chip _
  | pcieLinkDown link => show Form s (execPcieLinkDown link s); unfold execPcieLinkDown; exact .chip _
  | pcieLinkUp link speed width => show Form s (execPcieLinkUp link speed width s); unfold execPcieLinkUp; exact .chip _
  | flr fn => show Form s (execFlr fn s); unfold execFlr; exact .chip _
  | flrComplete fn => show Form s (execFlrComplete fn s); unfold execFlrComplete; exact .chip _
  | functionReady link => show Form s (execFunctionReady link s); unfold execFunctionReady; exact .chip _
  | purgeCommit => show Form s (execPurgeCommit s); unfold execPurgeCommit; exact .chip _
  | payloadFetchDone cmd data => show Form s (execPayloadFetchDone cmd data s); unfold execPayloadFetchDone; exact .chip _
  | payloadFetchFail cmd => show Form s (execPayloadFetchFail cmd s); unfold execPayloadFetchFail; exact .chip _
  | commandStep cmd => show Form s (execCommandStep cmd s); unfold execCommandStep; exact .both _
  | txnIdleTimeout session => show Form s (execTxnIdleTimeout session s); unfold execTxnIdleTimeout; exact .chip _
  | commitAckTimeout => show Form s (execCommitAckTimeout s); unfold execCommitAckTimeout; exact .chip _
  | commitTablesWritten extra => show Form s (execCommitTablesWritten extra s); unfold execCommitTablesWritten; exact .both _
  | epochActivate => show Form s (execEpochActivate s); unfold execEpochActivate; exact .chip _
  | heldCommitRelease => show Form s (execHeldCommitRelease s); unfold execHeldCommitRelease; exact .chip _
  | epochDrainLimit => show Form s (execEpochDrainLimit s); unfold execEpochDrainLimit; exact .chip _
  | gxNop cmd => show Form s (execGxNop cmd s); unfold execGxNop; exact .chip _
  | gxDeviceInfo cmd => show Form s (execGxDeviceInfo cmd s); unfold execGxDeviceInfo; exact .chip _
  | gxQuotaSet cmd => show Form s (execGxQuotaSet cmd s); unfold execGxQuotaSet; exact .chip _
  | gxQuotaGet cmd => show Form s (execGxQuotaGet cmd s); unfold execGxQuotaGet; exact .chip _
  | gxObjQuery cmd => show Form s (execGxObjQuery cmd s); unfold execGxObjQuery; exact .chip _
  | gxSessionOpen cmd => show Form s (execGxSessionOpen cmd s); unfold execGxSessionOpen; exact .chip _
  | gxSessionClose cmd => show Form s (execGxSessionClose cmd s); unfold execGxSessionClose; exact .chip _
  | gxTxnBegin cmd => show Form s (execGxTxnBegin cmd s); unfold execGxTxnBegin; exact .chip _
  | gxTxnCommit cmd => show Form s (execGxTxnCommit cmd s); unfold execGxTxnCommit; exact .chip _
  | gxTxnRollback cmd => show Form s (execGxTxnRollback cmd s); unfold execGxTxnRollback; exact .chip _
  | gxTxnStatus cmd => show Form s (execGxTxnStatus cmd s); unfold execGxTxnStatus; exact .chip _
  | gxObjDestroy cmd => show Form s (execGxObjDestroy cmd s); unfold execGxObjDestroy; exact .chip _
  | gxEpochConfig cmd => show Form s (execGxEpochConfig cmd s); unfold execGxEpochConfig; exact .chip _
  | gxPortConfig cmd => show Form s (execGxPortConfig cmd s); unfold execGxPortConfig; exact .chip _
  | gxPortStatus cmd => show Form s (execGxPortStatus cmd s); unfold execGxPortStatus; exact .chip _
  | gxAddrSet cmd => show Form s (execGxAddrSet cmd s); unfold execGxAddrSet; exact .chip _
  | gxIceCredSet cmd => show Form s (execGxIceCredSet cmd s); unfold execGxIceCredSet; exact .chip _
  | gxTunnelRingSet cmd => show Form s (execGxTunnelRingSet cmd s); unfold execGxTunnelRingSet; exact .chip _
  | gxTunnelSend cmd => show Form s (execGxTunnelSend cmd s); unfold execGxTunnelSend; exact .chip _
  | gxIngCounters cmd => show Form s (execGxIngCounters cmd s); unfold execGxIngCounters; exact .chip _
  | gxKeyInstall cmd => show Form s (execGxKeyInstall cmd s); unfold execGxKeyInstall; exact .chip _
  | gxKeyStatus cmd => show Form s (execGxKeyStatus cmd s); unfold execGxKeyStatus; exact .chip _
  | gxCryptoCounters cmd => show Form s (execGxCryptoCounters cmd s); unfold execGxCryptoCounters; exact .chip _
  | gxConfSet cmd => show Form s (execGxConfSet cmd s); unfold execGxConfSet; exact .chip _
  | gxSourceSet cmd => show Form s (execGxSourceSet cmd s); unfold execGxSourceSet; exact .chip _
  | gxLegSet cmd => show Form s (execGxLegSet cmd s); unfold execGxLegSet; exact .chip _
  | gxOutslotSet cmd => show Form s (execGxOutslotSet cmd s); unfold execGxOutslotSet; exact .chip _
  | gxEdgeSet cmd => show Form s (execGxEdgeSet cmd s); unfold execGxEdgeSet; exact .chip _
  | gxLegBulkCreate cmd => show Form s (execGxLegBulkCreate cmd s); unfold execGxLegBulkCreate; exact .chip _
  | gxEdgeQuery cmd => show Form s (execGxEdgeQuery cmd s); unfold execGxEdgeQuery; exact .chip _
  | gxFwdConfig cmd => show Form s (execGxFwdConfig cmd s); unfold execGxFwdConfig; exact .chip _
  | gxFwdCounters cmd => show Form s (execGxFwdCounters cmd s); unfold execGxFwdCounters; exact .chip _
  | gxLegShapeSet cmd => show Form s (execGxLegShapeSet cmd s); unfold execGxLegShapeSet; exact .chip _
  | gxCcfbSet cmd => show Form s (execGxCcfbSet cmd s); unfold execGxCcfbSet; exact .chip _
  | gxLegAdaptQuery cmd => show Form s (execGxLegAdaptQuery cmd s); unfold execGxLegAdaptQuery; exact .chip _
  | gxEgressCounters cmd => show Form s (execGxEgressCounters cmd s); unfold execGxEgressCounters; exact .chip _
  | gxMixGroupSet cmd => show Form s (execGxMixGroupSet cmd s); unfold execGxMixGroupSet; exact .chip _
  | gxAudioLegSet cmd => show Form s (execGxAudioLegSet cmd s); unfold execGxAudioLegSet; exact .chip _
  | gxMixContribSet cmd => show Form s (execGxMixContribSet cmd s); unfold execGxMixContribSet; exact .chip _
  | gxDetectorSet cmd => show Form s (execGxDetectorSet cmd s); unfold execGxDetectorSet; exact .chip _
  | gxDtmfSend cmd => show Form s (execGxDtmfSend cmd s); unfold execGxDtmfSend; exact .chip _
  | gxAudioCoefLoad cmd => show Form s (execGxAudioCoefLoad cmd s); unfold execGxAudioCoefLoad; exact .chip _
  | gxAudioCoefSwap cmd => show Form s (execGxAudioCoefSwap cmd s); unfold execGxAudioCoefSwap; exact .chip _
  | gxAudioSync cmd => show Form s (execGxAudioSync cmd s); unfold execGxAudioSync; exact .chip _
  | gxAudioMeterRead cmd => show Form s (execGxAudioMeterRead cmd s); unfold execGxAudioMeterRead; exact .chip _
  | gxAudioCounters cmd => show Form s (execGxAudioCounters cmd s); unfold execGxAudioCounters; exact .chip _
  | gxDecodeSet cmd => show Form s (execGxDecodeSet cmd s); unfold execGxDecodeSet; exact .chip _
  | gxDecodeQuery cmd => show Form s (execGxDecodeQuery cmd s); unfold execGxDecodeQuery; exact .chip _
  | gxDecodeCounters cmd => show Form s (execGxDecodeCounters cmd s); unfold execGxDecodeCounters; exact .chip _
  | gxCanvasSet cmd => show Form s (execGxCanvasSet cmd s); unfold execGxCanvasSet; exact .chip _
  | gxLayerSet cmd => show Form s (execGxLayerSet cmd s); unfold execGxLayerSet; exact .chip _
  | gxOrderSet cmd => show Form s (execGxOrderSet cmd s); unfold execGxOrderSet; exact .chip _
  | gxLayerImageUpdate cmd => show Form s (execGxLayerImageUpdate cmd s); unfold execGxLayerImageUpdate; exact .both _
  | gxBeaconSet cmd => show Form s (execGxBeaconSet cmd s); unfold execGxBeaconSet; exact .chip _
  | gxHostRingSet cmd => show Form s (execGxHostRingSet cmd s); unfold execGxHostRingSet; exact .chip _
  | gxCanvasQuery cmd => show Form s (execGxCanvasQuery cmd s); unfold execGxCanvasQuery; exact .chip _
  | gxCompCounters cmd => show Form s (execGxCompCounters cmd s); unfold execGxCompCounters; exact .chip _
  | gxRenditionSet cmd => show Form s (execGxRenditionSet cmd s); unfold execGxRenditionSet; exact .chip _
  | gxRenditionKeyframe cmd => show Form s (execGxRenditionKeyframe cmd s); unfold execGxRenditionKeyframe; exact .chip _
  | gxRenditionQuery cmd => show Form s (execGxRenditionQuery cmd s); unfold execGxRenditionQuery; exact .chip _
  | gxEncCounters cmd => show Form s (execGxEncCounters cmd s); unfold execGxEncCounters; exact .chip _
  | gxProgramLoad cmd => show Form s (execGxProgramLoad cmd s); unfold execGxProgramLoad; exact .chip _
  | gxProgramQuery cmd => show Form s (execGxProgramQuery cmd s); unfold execGxProgramQuery; exact .chip _
  | gxEngineStatus cmd => show Form s (execGxEngineStatus cmd s); unfold execGxEngineStatus; exact .chip _
  | gxTaskSubmit cmd => show Form s (execGxTaskSubmit cmd s); unfold execGxTaskSubmit; exact .chip _
  | gxTaskCancel cmd => show Form s (execGxTaskCancel cmd s); unfold execGxTaskCancel; exact .chip _
  | gxTaskAlloc cmd => show Form s (execGxTaskAlloc cmd s); unfold execGxTaskAlloc; exact .chip _
  | gxTaskSignal cmd => show Form s (execGxTaskSignal cmd s); unfold execGxTaskSignal; exact .chip _
  | gxSchedCounters cmd => show Form s (execGxSchedCounters cmd s); unfold execGxSchedCounters; exact .chip _
  | gxPoolLayout cmd => show Form s (execGxPoolLayout cmd s); unfold execGxPoolLayout; exact .chip _
  | gxRequesterSet cmd => show Form s (execGxRequesterSet cmd s); unfold execGxRequesterSet; exact .chip _
  | gxDmaSubmit cmd => show Form s (execGxDmaSubmit cmd s); unfold execGxDmaSubmit; exact .chip _
  | gxWindowMap cmd => show Form s (execGxWindowMap cmd s); unfold execGxWindowMap; exact .both _
  | gxPoolCounters cmd => show Form s (execGxPoolCounters cmd s); unfold execGxPoolCounters; exact .chip _
  | gxMemStatus cmd => show Form s (execGxMemStatus cmd s); unfold execGxMemStatus; exact .chip _
  | gxMemErrors cmd => show Form s (execGxMemErrors cmd s); unfold execGxMemErrors; exact .chip _
  | gxMemPpr cmd => show Form s (execGxMemPpr cmd s); unfold execGxMemPpr; exact .chip _
  | gxMemTest cmd => show Form s (execGxMemTest cmd s); unfold execGxMemTest; exact .chip _
  | gxMemFreezeRead cmd => show Form s (execGxMemFreezeRead cmd s); unfold execGxMemFreezeRead; exact .chip _
  | gxTimeGet cmd => show Form s (execGxTimeGet cmd s); unfold execGxTimeGet; exact .chip _
  | gxPtpRingSet cmd => show Form s (execGxPtpRingSet cmd s); unfold execGxPtpRingSet; exact .chip _
  | gxPtpSend cmd => show Form s (execGxPtpSend cmd s); unfold execGxPtpSend; exact .chip _
  | gxTwinSet cmd => show Form s (execGxTwinSet cmd s); unfold execGxTwinSet; exact .chip _
  | gxTwinSecretSet cmd => show Form s (execGxTwinSecretSet cmd s); unfold execGxTwinSecretSet; exact .chip _
  | gxJournalReplay cmd => show Form s (execGxJournalReplay cmd s); unfold execGxJournalReplay; exact .chip _
  | gxTwinHandover cmd => show Form s (execGxTwinHandover cmd s); unfold execGxTwinHandover; exact .chip _
  | gxTwinMap cmd => show Form s (execGxTwinMap cmd s); unfold execGxTwinMap; exact .chip _
  | gxPowerDomainSet cmd => show Form s (execGxPowerDomainSet cmd s); unfold execGxPowerDomainSet; exact .chip _
  | gxClusterClockSet cmd => show Form s (execGxClusterClockSet cmd s); unfold execGxClusterClockSet; exact .chip _
  | gxDeviceReset cmd => show Form s (execGxDeviceReset cmd s); unfold execGxDeviceReset; exact .chip _
  | gxImageVerify cmd => show Form s (execGxImageVerify cmd s); unfold execGxImageVerify; exact .chip _
  | gxLogRead cmd => show Form s (execGxLogRead cmd s); unfold execGxLogRead; exact .chip _
  | gxLifeStatus cmd => show Form s (execGxLifeStatus cmd s); unfold execGxLifeStatus; exact .chip _
  | macFrameReceive lport frame => show Form s (execMacFrameReceive lport frame s); unfold execMacFrameReceive; exact .chip _
  | packetParse pipe poison bad head => show Form s (execPacketParse pipe poison bad head s); unfold execPacketParse; exact .chip _
  | keyDeriveDone set bad => show Form s (execKeyDeriveDone set bad s); unfold execKeyDeriveDone; exact .chip _
  | alternateKeyExpire obj => show Form s (execAlternateKeyExpire obj s); unfold execAlternateKeyExpire; exact .chip _
  | portAnComplete lport => show Form s (execPortAnComplete lport s); unfold execPortAnComplete; exact .chip _
  | portTrainingDone lport => show Form s (execPortTrainingDone lport s); unfold execPortTrainingDone; exact .chip _
  | portTrainingTimeout lport lanes => show Form s (execPortTrainingTimeout lport lanes s); unfold execPortTrainingTimeout; exact .chip _
  | portRetryWaitExpiry lport => show Form s (execPortRetryWaitExpiry lport s); unfold execPortRetryWaitExpiry; exact .chip _
  | portPcsLock lport => show Form s (execPortPcsLock lport s); unfold execPortPcsLock; exact .chip _
  | portLinkFault lport localFault remoteFault => show Form s (execPortLinkFault lport localFault remoteFault s); unfold execPortLinkFault; exact .chip _
  | fecRatioWindow lport corrected uncorrectable corrSymbols symbols => show Form s (execFecRatioWindow lport corrected uncorrectable corrSymbols symbols s); unfold execFecRatioWindow; exact .chip _
  | replication pipe srcBad edgeBad slotBad legBad => show Form s (execReplication pipe srcBad edgeBad slotBad legBad s); unfold execReplication; exact .chip _
  | edgeCacheFill pipe line => show Form s (execEdgeCacheFill pipe line s); unfold execEdgeCacheFill; exact .chip _
  | nackUpTimer source => show Form s (execNackUpTimer source s); unfold execNackUpTimer; exact .chip _
  | rtxCacheExpire => show Form s (execRtxCacheExpire s); unfold execRtxCacheExpire; exact .chip _
  | rtcpReportTimer leg => show Form s (execRtcpReportTimer leg s); unfold execRtcpReportTimer; exact .chip _
  | speakerSelectDue conf => show Form s (execSpeakerSelectDue conf s); unfold execSpeakerSelectDue; exact .chip _
  | speakerSelectRun conf => show Form s (execSpeakerSelectRun conf s); unfold execSpeakerSelectRun; exact .chip _
  | adaptRunDue leg => show Form s (execAdaptRunDue leg s); unfold execAdaptRunDue; exact .chip _
  | adaptRun leg => show Form s (execAdaptRun leg s); unfold execAdaptRun; exact .chip _
  | probeEnd leg => show Form s (execProbeEnd leg s); unfold execProbeEnd; exact .chip _
  | ccfbReportTimer source => show Form s (execCcfbReportTimer source s); unfold execCcfbReportTimer; exact .chip _
  | egressSelect lport => show Form s (execEgressSelect lport s); unfold execEgressSelect; exact .chip _
  | frameTransmit lport poison => show Form s (execFrameTransmit lport poison s); unfold execFrameTransmit; exact .chip _
  | launchTimeReached leg cls => show Form s (execLaunchTimeReached leg cls s); unfold execLaunchTimeReached; exact .chip _
  | legBucketRecover leg => show Form s (execLegBucketRecover leg s); unfold execLegBucketRecover; exact .chip _
  | gateConfigChange fn lport => show Form s (execGateConfigChange fn lport s); unfold execGateConfigChange; exact .chip _
  | gateCancel fn lport => show Form s (execGateCancel fn lport s); unfold execGateCancel; exact .chip _
  | gateAdminWrite fn lport off v => show Form s (execGateAdminWrite fn lport off v s); unfold execGateAdminWrite; exact .chip _
  | gateTakeover lport => show Form s (execGateTakeover lport s); unfold execGateTakeover; exact .chip _
  | gateEntryBoundary lport => show Form s (execGateEntryBoundary lport s); unfold execGateEntryBoundary; exact .chip _
  | portRateWrite fn lport v => show Form s (execPortRateWrite fn lport v s); unfold execPortRateWrite; exact .chip _
  | egrPortCtrlWrite fn lport v => show Form s (execEgrPortCtrlWrite fn lport v s); unfold execEgrPortCtrlWrite; exact .chip _
  | audioBlockStart => show Form s (execAudioBlockStart s); unfold execAudioBlockStart; exact .chip _
  | audioInputBlock leg poison => show Form s (execAudioInputBlock leg poison s); unfold execAudioInputBlock; exact .chip _
  | mixSelect group => show Form s (execMixSelect group s); unfold execMixSelect; exact .chip _
  | mixBlock group bad => show Form s (execMixBlock group bad s); unfold execMixBlock; exact .chip _
  | audioOutputBlock master index => show Form s (execAudioOutputBlock master index s); unfold execAudioOutputBlock; exact .chip _
  | audioSyncEdge highNs => show Form s (execAudioSyncEdge highNs s); unfold execAudioSyncEdge; exact .chip _
  | coefSwapTakeEffect profile => show Form s (execCoefSwapTakeEffect profile s); unfold execCoefSwapTakeEffect; exact .chip _
  | assemblyTimeout source => show Form s (execAssemblyTimeout source s); unfold execAssemblyTimeout; exact .chip _
  | decodeDone source report => show Form s (execDecodeDone source report s); unfold execDecodeDone; exact .both _
  | decCoreFault core => show Form s (execDecCoreFault core s); unfold execDecCoreFault; exact .chip _
  | decPliRepeat source => show Form s (execDecPliRepeat source s); unfold execDecPliRepeat; exact .chip _
  | canvasFrameDeadline canvas => show Form s (execCanvasFrameDeadline canvas s); unfold execCanvasFrameDeadline; exact .chip _
  | composeBandDone canvas mvs badLayers badPlanes => show Form s (execComposeBandDone canvas mvs badLayers badPlanes s); unfold execComposeBandDone; exact .both _
  | composeDone canvas fault head bad => show Form s (execComposeDone canvas fault head bad s); unfold execComposeDone; exact .chip _
  | compFault unit out => show Form s (execCompFault unit out s); unfold execCompFault; exact .chip _
  | daymarkRebuild canvas => show Form s (execDaymarkRebuild canvas s); unfold execDaymarkRebuild; exact .both _
  | rateControlRun rend satd => show Form s (execRateControlRun rend satd s); unfold execRateControlRun; exact .chip _
  | voteWindowEnd rend => show Form s (execVoteWindowEnd rend s); unfold execVoteWindowEnd; exact .chip _
  | encodePartStart rend layer part => show Form s (execEncodePartStart rend layer part s); unfold execEncodePartStart; exact .chip _
  | encodeRowDone rend layer part bits poisonIn badRefs => show Form s (execEncodeRowDone rend layer part bits poisonIn badRefs s); unfold execEncodeRowDone; exact .chip _
  | encodePartDone rend layer part sizes poison => show Form s (execEncodePartDone rend layer part sizes poison s); unfold execEncodePartDone; exact .both _
  | encCoreFault core => show Form s (execEncCoreFault core s); unfold execEncCoreFault; exact .chip _
  | ltrAckTimeout rend => show Form s (execLtrAckTimeout rend s); unfold execLtrAckTimeout; exact .chip _
  | scalarAlu engine op d s1 src pair => show Form s (execScalarAlu engine op d s1 src pair s); unfold execScalarAlu; exact .chip _
  | load engine t ar mode size sx pair => show Form s (execLoad engine t ar mode size sx pair s); unfold execLoad; exact .chip _
  | store engine t ar mode size pair => show Form s (execStore engine t ar mode size pair s); unfold execStore; exact .chip _
  | atomic engine op t ar mode pair => show Form s (execAtomic engine op t ar mode pair s); unfold execAtomic; exact .chip _
  | xfer engine s1 pair => show Form s (execXfer engine s1 pair s); unfold execXfer; exact .chip _
  | wait engine mask pair => show Form s (execWait engine mask pair s); unfold execWait; exact .chip _
  | fence engine pair => show Form s (execFence engine pair s); unfold execFence; exact .chip _
  | branch engine cond s1 off pair => show Form s (execBranch engine cond s1 off pair s); unfold execBranch; exact .chip _
  | jump engine s1 link pair => show Form s (execJump engine s1 link pair s); unfold execJump; exact .chip _
  | nop engine pair => show Form s (execNop engine pair s); unfold execNop; exact .chip _
  | mfc engine d cr pair => show Form s (execMfc engine d cr pair s); unfold execMfc; exact .chip _
  | mtc engine cr s1 pair => show Form s (execMtc engine cr s1 pair s); unfold execMtc; exact .chip _
  | end_ engine s1 pair => show Form s (execEnd engine s1 pair s); unfold execEnd; exact .chip _
  | break_ engine code pair => show Form s (execBreak engine code pair s); unfold execBreak; exact .chip _
  | cmac engine acc s1 s2 sh neg conj pair => show Form s (execCmac engine acc s1 s2 sh neg conj pair s); unfold execCmac; exact .chip _
  | dmac engine acc s1 s2 sh neg pair => show Form s (execDmac engine acc s1 s2 sh neg pair s); unfold execDmac; exact .chip _
  | smac engine acc s1 s2 sh neg high pair => show Form s (execSmac engine acc s1 s2 sh neg high pair s); unfold execSmac; exact .chip _
  | accClear engine acc pair => show Form s (execAccClear engine acc pair s); unfold execAccClear; exact .chip _
  | accLoad engine acc s1 pair => show Form s (execAccLoad engine acc s1 pair s); unfold execAccLoad; exact .chip _
  | accShift engine acc by_ pair => show Form s (execAccShift engine acc by_ pair s); unfold execAccShift; exact .chip _
  | accx engine d acc sh rnd width pair => show Form s (execAccx engine d acc sh rnd width pair s); unfold execAccx; exact .chip _
  | maxx engine d s1 s2 u inc pair => show Form s (execMaxx engine d s1 s2 u inc pair s); unfold execMaxx; exact .chip _
  | minx engine d s1 s2 u inc pair => show Form s (execMinx engine d s1 s2 u inc pair s); unfold execMinx; exact .chip _
  | urgentEntry engine => show Form s (execUrgentEntry engine s); unfold execUrgentEntry; exact .chip _
  | xferComplete engine shadow tag => show Form s (execXferComplete engine shadow tag s); unfold execXferComplete; exact .both _
  | pageLoadDone engine => show Form s (execPageLoadDone engine s); unfold execPageLoadDone; exact .chip _
  | engineInternalFault engine => show Form s (execEngineInternalFault engine s); unfold execEngineInternalFault; exact .chip _
  | engineRetireTimeout engine => show Form s (execEngineRetireTimeout engine s); unfold execEngineRetireTimeout; exact .chip _
  | schedTick => show Form s (execSchedTick s); unfold execSchedTick; exact .chip _
  | taskRelease task => show Form s (execTaskRelease task s); unfold execTaskRelease; exact .chip _
  | taskDispatch target unit upset => show Form s (execTaskDispatch target unit upset s); unfold execTaskDispatch; exact .chip _
  | taskEnd task => show Form s (execTaskEnd task s); unfold execTaskEnd; exact .chip _
  | taskWaitTimeout task => show Form s (execTaskWaitTimeout task s); unfold execTaskWaitTimeout; exact .chip _
  | schedModeWrite fn v => show Form s (execSchedModeWrite fn v s); unfold execSchedModeWrite; exact .chip _
  | schedTickWrite fn v => show Form s (execSchedTickWrite fn v s); unfold execSchedTickWrite; exact .chip _
  | bufferAlloc ident size cls => show Form s (execBufferAlloc ident size cls s); unfold execBufferAlloc; exact .chip _
  | bufferRetain ident handle ue => show Form s (execBufferRetain ident handle ue s); unfold execBufferRetain; exact .chip _
  | bufferFree ident handle ue => show Form s (execBufferFree ident handle ue s); unfold execBufferFree; exact .chip _
  | bufferHandover ident handle dest ue => show Form s (execBufferHandover ident handle dest ue s); unfold execBufferHandover; exact .chip _
  | dmaDescriptorStart chan => show Form s (execDmaDescriptorStart chan s); unfold execDmaDescriptorStart; exact .both _
  | dmaDescriptorDone chan hostSrc hostDst => show Form s (execDmaDescriptorDone chan hostSrc hostDst s); unfold execDmaDescriptorDone; exact .both _
  | dmaPause fn chan => show Form s (execDmaPause fn chan s); unfold execDmaPause; exact .both _
  | dmaPaused chan moved hostSrc hostDst => show Form s (execDmaPaused chan moved hostSrc hostDst s); unfold execDmaPaused; exact .both _
  | dmaResume fn chan => show Form s (execDmaResume fn chan s); unfold execDmaResume; exact .both _
  | dmaAbort fn chan => show Form s (execDmaAbort fn chan s); unfold execDmaAbort; exact .both _
  | shadowArm fn chan held => show Form s (execShadowArm fn chan held s); unfold execShadowArm; exact .both _
  | shadowDisarm fn chan held => show Form s (execShadowDisarm fn chan held s); unfold execShadowDisarm; exact .both _
  | shadowWordWrite fn chan word v held => show Form s (execShadowWordWrite fn chan word v held s); unfold execShadowWordWrite; exact .both _
  | dmaHeldWriteApply chan => show Form s (execDmaHeldWriteApply chan s); unfold execDmaHeldWriteApply; exact .chip _
  | dmaCqHeadWrite fn chan v => show Form s (execDmaCqHeadWrite fn chan v s); unfold execDmaCqHeadWrite; exact .both _
  | dramRead source addr bytes errors => simp only [exec, execDramRead]; split <;> first | exact .stop _ | exact .both _
  | dramWrite source addr data poisoned => simp only [exec, execDramWrite]; split <;> first | exact .stop _ | exact .both _
  | refreshDue sub granted => show Form s (execRefreshDue sub granted s); unfold execRefreshDue; exact .chip _
  | selfRefreshIdle sub => show Form s (execSelfRefreshIdle sub s); unfold execSelfRefreshIdle; exact .chip _
  | mr4Poll sub doubled hot mr4 => show Form s (execMr4Poll sub doubled hot mr4 s); unfold execMr4Poll; exact .chip _
  | dramTrainingStepDone sub passed => show Form s (execDramTrainingStepDone sub passed s); unfold execDramTrainingStepDone; exact .both _
  | retrainInterval sub drift => show Form s (execRetrainInterval sub drift s); unfold execRetrainInterval; exact .chip _
  | retrainStepDone sub last passed => show Form s (execRetrainStepDone sub last passed s); unfold execRetrainStepDone; exact .chip _
  | caParityError sub ranks => show Form s (execCaParityError sub ranks s); unfold execCaParityError; exact .chip _
  | scrubBurst errors => show Form s (execScrubBurst errors s); unfold execScrubBurst; exact .both _
  | sramScrubPass found spare => show Form s (execSramScrubPass found spare s); unfold execSramScrubPass; exact .both _
  | injectAddrWrite fn lo hi => show Form s (execInjectAddrWrite fn lo hi s); unfold execInjectAddrWrite; exact .both _
  | timeIncWrite fn domain lo hi => show Form s (execTimeIncWrite fn domain lo hi s); unfold execTimeIncWrite; exact .chip _
  | stepCmdGo fn domain v => show Form s (execStepCmdGo fn domain v s); unfold execStepCmdGo; exact .chip _
  | timeSelectWrite fn v => show Form s (execTimeSelectWrite fn v s); unfold execTimeSelectWrite; exact .chip _
  | slewPpbWrite fn v => show Form s (execSlewPpbWrite fn v s); unfold execSlewPpbWrite; exact .chip _
  | timeOffsetCleared => show Form s (execTimeOffsetCleared s); unfold execTimeOffsetCleared; exact .chip _
  | timeCaptureRead fn addr => show Form s (execTimeCaptureRead fn addr s); unfold execTimeCaptureRead; exact .chip _
  | ppsInEdge domain falling => show Form s (execPpsInEdge domain falling s); unfold execPpsInEdge; exact .chip _
  | ppsOutPulse domain => show Form s (execPpsOutPulse domain s); unfold execPpsOutPulse; exact .chip _
  | ppsOutPulseEnd domain => show Form s (execPpsOutPulseEnd domain s); unfold execPpsOutPulseEnd; exact .chip _
  | fliuskLinkUp => show Form s (execFliuskLinkUp s); unfold execFliuskLinkUp; exact .chip _
  | fliuskLinkLoss => show Form s (execFliuskLinkLoss s); unfold execFliuskLinkLoss; exact .chip _
  | helloTimer => show Form s (execHelloTimer s); unfold execHelloTimer; exact .chip _
  | fliuskHello serial random version num macOk behind theyLack split => show Form s (execFliuskHello serial random version num macOk behind theyLack split s); unfold execFliuskHello; exact .chip _
  | heartbeatSend => show Form s (execHeartbeatSend s); unfold execHeartbeatSend; exact .chip _
  | fliuskHeartbeat frameSeq tagOk => show Form s (execFliuskHeartbeat frameSeq tagOk s); unfold execFliuskHeartbeat; exact .chip _
  | twinAliveTransition => show Form s (execTwinAliveTransition s); unfold execTwinAliveTransition; exact .chip _
  | heartbeatWindow => show Form s (execHeartbeatWindow s); unfold execHeartbeatWindow; exact .chip _
  | takeoverRequest frameSeq tagOk seq confs eject => show Form s (execTakeoverRequest frameSeq tagOk seq confs eject s); unfold execTakeoverRequest; exact .chip _
  | takeoverTablesWritten extra => show Form s (execTakeoverTablesWritten extra s); unfold execTakeoverTablesWritten; exact .chip _
  | announceRepeat => show Form s (execAnnounceRepeat s); unfold execAnnounceRepeat; exact .chip _
  | takeoverDone => show Form s (execTakeoverDone s); unfold execTakeoverDone; exact .chip _
  | journalRecord frameSeq tagOk seq rec_ => show Form s (execJournalRecord frameSeq tagOk seq rec_ s); unfold execJournalRecord; exact .chip _
  | journalAck frameSeq tagOk chan seq paired => show Form s (execJournalAck frameSeq tagOk chan seq paired s); unfold execJournalAck; exact .chip _
  | fliuskRetransmit => show Form s (execFliuskRetransmit s); unfold execFliuskRetransmit; exact .chip _
  | mirrorSend => show Form s (execMirrorSend s); unfold execMirrorSend; exact .chip _
  | mirrorRecord frameSeq tagOk seq m => show Form s (execMirrorRecord frameSeq tagOk seq m s); unfold execMirrorRecord; exact .chip _
  | twinEventRecord frameSeq tagOk words head => show Form s (execTwinEventRecord frameSeq tagOk words head s); unfold execTwinEventRecord; exact .chip _
  | twinReserveRequest frameSeq tagOk seq conf usage => show Form s (execTwinReserveRequest frameSeq tagOk seq conf usage s); unfold execTwinReserveRequest; exact .chip _
  | twinReserveAnswer frameSeq tagOk seq ok needed avail => show Form s (execTwinReserveAnswer frameSeq tagOk seq ok needed avail s); unfold execTwinReserveAnswer; exact .chip _
  | twinReserveTimeout => show Form s (execTwinReserveTimeout s); unfold execTwinReserveTimeout; exact .chip _
  | twinReserveRelease frameSeq tagOk seq conf => show Form s (execTwinReserveRelease frameSeq tagOk seq conf s); unfold execTwinReserveRelease; exact .chip _
  | handoverTactReturn frameSeq tagOk seq sec ns ids => show Form s (execHandoverTactReturn frameSeq tagOk seq sec ns ids s); unfold execHandoverTactReturn; exact .chip _
  | relayFrame frameSeq tagOk frame => show Form s (execRelayFrame frameSeq tagOk frame s); unfold execRelayFrame; exact .chip _
  | relayEnd => show Form s (execRelayEnd s); unfold execRelayEnd; exact .chip _
  | ejectRequest => show Form s (execEjectRequest s); unfold execEjectRequest; exact .chip _
  | ejectBudgetExpiry => show Form s (execEjectBudgetExpiry s); unfold execEjectBudgetExpiry; exact .chip _
  | powerSwitchBegin => show Form s (execPowerSwitchBegin s); unfold execPowerSwitchBegin; exact .chip _
  | loadstepLeadExpiry => show Form s (execLoadstepLeadExpiry s); unfold execLoadstepLeadExpiry; exact .chip _
  | powerRampEnd => show Form s (execPowerRampEnd s); unfold execPowerRampEnd; exact .chip _
  | loadstepRelease => show Form s (execLoadstepRelease s); unfold execLoadstepRelease; exact .chip _
  | powerDomainUsable => show Form s (execPowerDomainUsable s); unfold execPowerDomainUsable; exact .chip _
  | powerGoodTimeout => show Form s (execPowerGoodTimeout s); unfold execPowerGoodTimeout; exact .chip _
  | unitStartCredit kind => show Form s (execUnitStartCredit kind s); unfold execUnitStartCredit; exact .chip _
  | vcoreStep => show Form s (execVcoreStep s); unfold execVcoreStep; exact .chip _
  | pmbAlert status fatal => show Form s (execPmbAlert status fatal s); unfold execPmbAlert; exact .chip _
  | pwrgdLoss rail => show Form s (execPwrgdLoss rail s); unfold execPwrgdLoss; exact .both _
  | pwrgdRestore rail bootMode => show Form s (execPwrgdRestore rail bootMode s); unfold execPwrgdRestore; exact .chip _
  | powerOnReset rail => show Form s (execPowerOnReset rail s); unfold execPowerOnReset; exact .both _
  | powerOnResetRelease bootMode => show Form s (execPowerOnResetRelease bootMode s); unfold execPowerOnResetRelease; exact .chip _
  | bootImageReadDone readOk keyOk sigOk version => show Form s (execBootImageReadDone readOk keyOk sigOk version s); unfold execBootImageReadDone; exact .chip _
  | startupStepDone ok units => show Form s (execStartupStepDone ok units s); unfold execStartupStepDone; exact .chip _
  | deviceWarmReset bootMode => show Form s (execDeviceWarmReset bootMode s); unfold execDeviceWarmReset; exact .chip _
  | keeperResetDone => show Form s (execKeeperResetDone s); unfold execKeeperResetDone; exact .chip _
  | sysRefclkLoss => show Form s (execSysRefclkLoss s); unfold execSysRefclkLoss; exact .chip _
  | netRefclkLoss port => show Form s (execNetRefclkLoss port s); unfold execNetRefclkLoss; exact .chip _
  | netRefclkReturn port => show Form s (execNetRefclkReturn port s); unfold execNetRefclkReturn; exact .chip _
  | twinRefclkLoss => show Form s (execTwinRefclkLoss s); unfold execTwinRefclkLoss; exact .chip _
  | pcieRefclkLoss link => show Form s (execPcieRefclkLoss link s); unfold execPcieRefclkLoss; exact .chip _
  | wdogKick proc => show Form s (execWdogKick proc s); unfold execWdogKick; exact .chip _
  | wdogRestart poison => show Form s (execWdogRestart poison s); unfold execWdogRestart; exact .chip _
  | ctrlResetHoldEnd => show Form s (execCtrlResetHoldEnd s); unfold execCtrlResetHoldEnd; exact .chip _
  | fwRecoveryDone => show Form s (execFwRecoveryDone s); unfold execFwRecoveryDone; exact .chip _
  | stuckWorkCheck => show Form s (execStuckWorkCheck s); unfold execStuckWorkCheck; exact .chip _
  | thermalSample sensor temp => show Form s (execThermalSample sensor temp s); unfold execThermalSample; exact .chip _
  | thermalClockStep die => show Form s (execThermalClockStep die s); unfold execThermalClockStep; exact .chip _
  | thermalHardTrip sensor temp => show Form s (execThermalHardTrip sensor temp s); unfold execThermalHardTrip; exact .chip _
  | railSample rail die mv => show Form s (execRailSample rail die mv s); unfold execRailSample; exact .chip _
  | ageingMeasure drifts => show Form s (execAgeingMeasure drifts s); unfold execAgeingMeasure; exact .chip _
  | ageingHistoryStore => show Form s (execAgeingHistoryStore s); unfold execAgeingHistoryStore; exact .chip _
  | lifeCounterWrite => show Form s (execLifeCounterWrite s); unfold execLifeCounterWrite; exact .chip _
  | unitSelfTestDone cls unit passed => show Form s (execUnitSelfTestDone cls unit passed s); unfold execUnitSelfTestDone; exact .chip _
  | spareRemapComplete => show Form s (execSpareRemapComplete s); unfold execSpareRemapComplete; exact .chip _
  | lampOverrideExpiry lamp => show Form s (execLampOverrideExpiry lamp s); unfold execLampOverrideExpiry; exact .chip _
  | identity req => show Form s (execIdentity req s); unfold execIdentity; exact .chip _
  | status req => show Form s (execStatus req s); unfold execStatus; exact .chip _
  | thermal req => show Form s (execThermal req s); unfold execThermal; exact .chip _
  | rails req => show Form s (execRails req s); unfold execRails; exact .chip _
  | configGet req => show Form s (execConfigGet req s); unfold execConfigGet; exact .chip _
  | configSet req => show Form s (execConfigSet req s); unfold execConfigSet; exact .chip _
  | logRead req => show Form s (execLogRead req s); unfold execLogRead; exact .chip _
  | life req => show Form s (execLife req s); unfold execLife; exact .chip _
  | spareMap req => show Form s (execSpareMap req s); unfold execSpareMap; exact .chip _
  | ageing req => show Form s (execAgeing req s); unfold execAgeing; exact .chip _
  | lampSet req => show Form s (execLampSet req s); unfold execLampSet; exact .chip _
  | severitySet req => show Form s (execSeveritySet req s); unfold execSeveritySet; exact .chip _
  | spareRetire req => show Form s (execSpareRetire req s); unfold execSpareRetire; exact .chip _
  | deviceReset req => show Form s (execDeviceReset req s); unfold execDeviceReset; exact .chip _
  | keeperReset req => show Form s (execKeeperReset req s); unfold execKeeperReset; exact .chip _
  | imageChunk req => show Form s (execImageChunk req s); unfold execImageChunk; exact .chip _
  | imageEnd req keyOk sigOk version => show Form s (execImageEnd req keyOk sigOk version s); unfold execImageEnd; exact .chip _
  | mgmtResponseRead => show Form s (execMgmtResponseRead s); unfold execMgmtResponseRead; exact .chip _
  | smbusAlertResponse => show Form s (execSmbusAlertResponse s); unfold execSmbusAlertResponse; exact .chip _
  | smbusAddressResolution addr => show Form s (execSmbusAddressResolution addr s); unfold execSmbusAddressResolution; exact .chip _
  | illegal engine words poison => show Form s (execIllegal engine words poison s); unfold execIllegal; exact .chip _
  | unassignedOpcode cmd => show Form s (execUnassignedOpcode cmd s); unfold execUnassignedOpcode; exact .chip _
  | unknownCode req code => show Form s (execUnknownCode req code s); unfold execUnknownCode; exact .chip _
  | keeperSelfCheck => show Form s (execKeeperSelfCheck s); unfold execKeeperSelfCheck; exact .chip _
  | d3hotTransition fn d3hot => show Form s (execD3hotTransition fn d3hot s); unfold execD3hotTransition; exact .chip _
  | vfEnableChange pf numVfs => show Form s (execVfEnableChange pf numVfs s); unfold execVfEnableChange; exact .chip _
  | forwarderRecordRewrite kind key => show Form s (execForwarderRecordRewrite kind key s); unfold execForwarderRecordRewrite; exact .chip _
  | logStoreWrite => show Form s (execLogStoreWrite s); unfold execLogStoreWrite; exact .chip _
  | lowWordRead fn bar addr => show Form s (execLowWordRead fn bar addr s); unfold execLowWordRead; exact .chip _

end Sys2Proof.Machine
end

