-- ==== Sys2Proof/Laws/Serve.lean ====
section
/-!
SUPPORT. What firmware's service of a command slot does: the one lemma about `serve` that proofs about Guxus commands cite,
and what the end of a command leaves in its slot.
-/
namespace Sys2Proof.Machine
open Sys2Proof

/-! Word accesses of BAR2 (R11, R13, R56, R79). -/

/-- An access that the function may make, to a block whose domains are on, through an open lock or to a field without one, is not turned
away. -/
theorem b2Turned_none {fn addr : Nat} {rwl : Bool} {v : Word} {c : Chip} (hr : bar2Reach c fn = true) (hd : blockOff c addr = false)
    (hl : (rwl && locked c (addr / 0x100000)) = false) : b2Turned fn addr rwl v c = none := by
  simp [b2Turned, hr, hd, hl]

theorem b2Write_through {fn addr : Nat} {v : Word} {c : Chip} (f : Chip → Chip) (hr : bar2Reach c fn = true) (hd : blockOff c addr = false)
    (hl : locked c (addr / 0x100000) = false) : b2Write fn addr v f c = f c := by
  rw [b2Write, b2Turned_none hr hd (by simp [hl])]

/-- A closed lock turns the write away and raises BAR2_LOCK_VIOLATION. -/
theorem b2Write_locked {fn addr : Nat} {v : Word} {c : Chip} (f : Chip → Chip) (hr : bar2Reach c fn = true) (hd : blockOff c addr = false)
    (hl : locked c (addr / 0x100000) = true) : b2Write fn addr v f c = lockViolation addr v c := by
  simp [b2Write, b2Turned, hr, hd, hl]

theorem b2Pair_through {fn addr : Nat} {lo hi : Word} {c : Chip} (hr : bar2Reach c fn = true) (hd : blockOff c addr = false)
    (hl : locked c (addr / 0x100000) = false) : b2Pair fn addr lo hi c = none := by
  rw [b2Pair, b2Turned_none hr hd (by simp [hl])]; rfl

theorem b2Read_through {fn addr : Nat} {c : Chip} (f : Chip → Chip) (hr : bar2Reach c fn = true) (hd : blockOff c addr = false) :
    b2Read fn addr f c = f c := by
  simp [b2Read, hr, hd]

/-- The registers of a block answer while every domain it lies in is on. -/
theorem blockOff_of {c : Chip} {addr : Nat} (h : ∀ d ∈ blockDomains addr, domOn c d = true) : blockOff c addr = false := by
  simpa [blockOff] using h

/-! Slots. -/

@[simp] theorem getSlot_putSlot_same (k : Nat) (x : Slot) (c : Chip) : getSlot (putSlot k x c) k = x := by simp [getSlot]

theorem getSlot_putSlot_other {k j : Nat} (x : Slot) (c : Chip) (h : k ≠ j) : getSlot (putSlot k x c) j = getSlot c j := by
  simp [getSlot, tget_tput_other _ _ _ h]

@[simp] theorem getSlot_modSlot_same (k : Nat) (f : Slot → Slot) (c : Chip) : getSlot (modSlot k f c) k = f (getSlot c k) := by
  simp [modSlot]

theorem getSlot_modSlot_other {k j : Nat} (f : Slot → Slot) (c : Chip) (h : k ≠ j) : getSlot (modSlot k f c) j = getSlot c j := by
  simp [modSlot, getSlot_putSlot_other _ _ h]

@[simp] theorem getSlot_modFn (k fn : Nat) (f : Fn → Fn) (c : Chip) : getSlot (modFn fn f c) k = getSlot c k := rfl

@[simp] theorem getSlot_emit (k : Nat) (o : Out) (c : Chip) : getSlot (emit o c) k = getSlot c k := rfl

@[simp] theorem getSlot_msix (k fn v : Nat) (c : Chip) : getSlot (msix fn v c) k = getSlot c k := by
  unfold msix; dsimp only; split <;> simp

/-- The slot of a command that has ended (R61, R102). -/
theorem getSlot_finish_same (k : Nat) (r : Res) (c : Chip) (h : (getSlot c k).open_ = true) :
    getSlot (finish k r c) k =
      { Slot.zero with st := .done, tag := (getSlot c k).tag, status := r.status, resultBytes := r.bytes,
                       submitNs := (getSlot c k).submitNs, doneNs := svc c % 2 ^ 32, order := (getSlot c k).order, taken := true,
                       words := wordsPut [] 4 (r.words (getSlot c k).op (getSlot c k).session) } := by
  unfold finish; dsimp only; rw [if_pos h]; simp

theorem getSlot_finish_other {k j : Nat} (r : Res) (c : Chip) (h : k ≠ j) : getSlot (finish k r c) j = getSlot c j := by
  unfold finish; dsimp only; split
  · simp [getSlot_putSlot_other _ _ h]
  · rfl

/-- A command that is not under way in steps has no mark to act on. -/
theorem cancelAt_of_not_progress (k : Nat) (c : Chip) (h : (getSlot c k).st ≠ .progress) : cancelAt k c = c := by
  unfold cancelAt; dsimp only; rw [if_neg (fun a => h a.1)]

@[simp] theorem cancelAt_finish (k : Nat) (r : Res) (c : Chip) : cancelAt k (finish k r c) = finish k r c := by
  apply cancelAt_of_not_progress
  by_cases h : (getSlot c k).open_ = true
  · rw [getSlot_finish_same k r c h]; simp
  · have : finish k r c = c := by unfold finish; dsimp only; rw [if_neg h]
    rw [this]; intro hp; exact h (by simp [Slot.open_, hp])

theorem touchSession_none (c : Chip) (fn n : Nat) (h : heldSession c fn n = none) : touchSession fn n c = c := by
  simp [touchSession, h]

theorem heldSession_modSlot (k fn n : Nat) (f : Slot → Slot) (c : Chip) : heldSession (modSlot k f c) fn n = heldSession c fn n := rfl

/-- What service does to a command that firmware serves now and whose body fields are in range: the command's own part runs on the
chip that has taken it, and then a mark is acted on. -/
theorem serve_served {op : Nat} {r : CmdRef} {s : State} {fields : List Word → Option Nat} {run : Ctx → Chip → Chip}
    (h : Served op r s) (hf : fields (bodyAt r s) = none) :
    serve op r fields run s.chip = cancelAt (slotKey r.fn r.slot) (run (ctxAt r s) (took r s)) := by
  obtain ⟨h1, h2, h3, h4, h5, h6, h7, h8, h9, _, hb⟩ := h
  have ht : touchSession r.fn 0 (took r s) = took r s := touchSession_none _ _ _ h9
  unfold slotAt at *
  unfold bodyAt slotAt at hf
  have hop : (operatorOps.contains op && !(getSlot s.chip (slotKey r.fn r.slot)).opAtCapture) = false := by
    cases ho : operatorOps.contains op with
    | false => rfl
    | true => rw [h5 ho]; rfl
  unfold serve; dsimp only
  rw [h1, h2, h3, h4, h6, h7, h8, hop]
  simp only [Bool.and_self, Bool.not_true, beq_self_eq_true, Bool.false_eq_true, if_false, hf, hb, ne_eq, not_true, false_and]
  show cancelAt _ (run (ctxOf _ _ _) (touchSession r.fn 0 (took r s))) = _
  rw [ht]; rfl

/-- The same for a command in a session or with an extension. -/
theorem serve_taken {op n : Nat} {body : List Word} {r : CmdRef} {s : State} {fields : List Word → Option Nat} {run : Ctx → Chip → Chip}
    (h : Takes op n body r s) (hf : fields body = none) :
    serve op r fields run s.chip = cancelAt (slotKey r.fn r.slot) (run (ctxWith body r s) (tookIn n r s)) := by
  obtain ⟨h1, h2, h3, h4, h5, h6, h7, h8, h9, _, hb⟩ := h
  unfold bodyAt slotAt at *
  have hop : (operatorOps.contains op && !(getSlot s.chip (slotKey r.fn r.slot)).opAtCapture) = false := by
    cases ho : operatorOps.contains op with
    | false => rfl
    | true => rw [h5 ho]; rfl
  have hs : ¬ ((getSlot s.chip (slotKey r.fn r.slot)).session ≠ 0 ∧
      (heldSession s.chip r.fn (getSlot s.chip (slotKey r.fn r.slot)).session).isNone = true) := by
    rw [h8]
    rintro ⟨a, b⟩
    rcases h9 with h | h
    · exact a h
    · rw [Option.isNone_iff_eq_none] at b; rw [b] at h; exact absurd h (by simp)
  unfold serve; dsimp only
  rw [h1, h2, h3, h4, h6, hop]
  simp only [Bool.and_self, Bool.not_true, beq_self_eq_true, Bool.false_eq_true, if_false]
  rcases h7 with ⟨he, rfl⟩ | ⟨he, data, hd, rfl⟩
  · rw [he, if_neg Bool.false_ne_true]; simp only [hf, hb, Bool.false_eq_true, if_false]; rw [if_neg hs]; subst h8; rfl
  · rw [he, if_pos rfl, hd]; simp only [hf, hb, Bool.false_eq_true, if_false]; rw [if_neg hs]; subst h8; rfl

/-- A command in a session or with an extension that ends at once. -/
theorem taken_ends {op n : Nat} {body : List Word} {r : CmdRef} {s : State} {fields : List Word → Option Nat} {run : Ctx → Chip → Chip}
    {res : Res} {c : Chip} (h : Takes op n body r s) (hf : fields body = none)
    (hr : run (ctxWith body r s) (tookIn n r s) = (ctxWith body r s).done res c) :
    act s (serve op r fields run) = .next (endedWith body r res c s) := by
  rw [act, serve_taken h hf, hr]
  show Host.Outcome.next { s with chip := cancelAt (slotKey r.fn r.slot) (finish (slotKey r.fn r.slot) _ c) } = _
  rw [cancelAt_finish]; rfl

/-- The slot of a command that is under way in steps (R61, R105). -/
theorem getSlot_progress (k n : Nat) (w : List Nat) (c : Chip) :
    getSlot (progress k n w c) k =
      { getSlot c k with st := .progress, fraction := n % 4096, steps := (getSlot c k).steps + 1, work := w, turn := c.host.nextOrder } := by
  unfold progress goBehind; rw [getSlot_modSlot_same]; rfl

/-- A command acts for the function whose slot it is in. -/
theorem ctxAt_fn {op : Nat} {r : CmdRef} {s : State} (h : Served op r s) : (ctxAt r s).fn = r.fn := by
  obtain ⟨_, _, _, _, _, _, _, _, _, h, _⟩ := h
  show (r.fn * 64 + r.slot) / 64 = r.fn
  omega

/-- A command that ends at once. -/
theorem serve_ends {op : Nat} {r : CmdRef} {s : State} {fields : List Word → Option Nat} {run : Ctx → Chip → Chip} {res : Res} {c : Chip}
    (h : Served op r s) (hf : fields (bodyAt r s) = none) (hr : run (ctxAt r s) (took r s) = (ctxAt r s).done res c) :
    act s (serve op r fields run) = .next (ended r res c s) := by
  rw [act, serve_served h hf, hr]
  show Host.Outcome.next { s with chip := cancelAt (slotKey r.fn r.slot) (finish (slotKey r.fn r.slot) _ c) } = _
  rw [cancelAt_finish]; rfl

/-- A command that firmware serves is captured and has no result yet. -/
theorem served_busy {op : Nat} {r : CmdRef} {s : State} (h : Served op r s) : (slotAt r s).st = .busy := by
  have := h.2.2.1
  unfold slotTurn slotWaits at this
  simp only [Bool.and_eq_true, beq_iff_eq] at this
  exact this.1.1.1.1

/-- The slot once firmware has taken the command. -/
theorem getSlot_took (r : CmdRef) (s : State) : getSlot (took r s) (slotKey r.fn r.slot) = { slotAt r s with taken := true } := by
  unfold took; rw [getSlot_modSlot_same]; rfl

/-- Naming an object leaves the status, the length and the body of a result alone. -/
@[simp] theorem naming_status (x : Ctx) (r : Res) (c : Chip) : (x.naming r c).status = r.status := by unfold Ctx.naming; split <;> rfl
@[simp] theorem naming_body (x : Ctx) (r : Res) (c : Chip) : (x.naming r c).body = r.body := by unfold Ctx.naming; split <;> rfl
@[simp] theorem naming_bytes (x : Ctx) (r : Res) (c : Chip) : (x.naming r c).bytes = r.bytes := by unfold Ctx.naming; split <;> rfl

/-- The slot of a served command that has ended. -/
theorem getSlot_ended {op : Nat} {r : CmdRef} {s : State} {res : Res} {c : Chip} (h : Served op r s)
    (hs : getSlot c (slotKey r.fn r.slot) = getSlot (took r s) (slotKey r.fn r.slot)) :
    slotAt r (ended r res c s) =
      { Slot.zero with st := .done, tag := (slotAt r s).tag, status := res.status, resultBytes := res.bytes,
                       submitNs := (slotAt r s).submitNs, doneNs := svc c % 2 ^ 32, order := (slotAt r s).order, taken := true,
                       words := wordsPut [] 4 (((ctxAt r s).naming res c).words (slotAt r s).op (slotAt r s).session) } := by
  have ho : (getSlot c (slotKey r.fn r.slot)).open_ = true := by
    rw [hs, getSlot_took]; unfold Slot.open_; dsimp only; rw [served_busy h]; rfl
  show getSlot (finish _ _ _) _ = _
  rw [getSlot_finish_same _ _ _ ho, hs, getSlot_took, naming_status, naming_bytes]; rfl

/-- A command that is under way in steps after its first, without a mark. -/
theorem serve_steps {op n : Nat} {r : CmdRef} {s : State} {fields : List Word → Option Nat} {run : Ctx → Chip → Chip} {w : List Nat} {c : Chip}
    (h : Served op r s) (hf : fields (bodyAt r s) = none) (hc : (slotAt r s).cancel = false)
    (hr : run (ctxAt r s) (took r s) = progress (slotKey r.fn r.slot) n w c)
    (hs : getSlot c (slotKey r.fn r.slot) = getSlot (took r s) (slotKey r.fn r.slot)) :
    serve op r fields run s.chip = progress (slotKey r.fn r.slot) n w c := by
  rw [serve_served h hf, hr]; unfold cancelAt; dsimp only
  rw [if_neg]
  rintro ⟨-, hm⟩
  rw [getSlot_progress] at hm
  have : (getSlot c (slotKey r.fn r.slot)).cancel = false := by rw [hs, getSlot_took]; exact hc
  have hm2 : (getSlot c (slotKey r.fn r.slot)).cancel = true := hm
  rw [this] at hm2; cases hm2

end Sys2Proof.Machine
end

