-- ==== Sys2Proof/WellFormed.lean ====
section
/-!
DEFINITION. Which commands are well formed: every index lies in the range the spec gives it (R22, R24, R53, R59, R132, R458,
R474, R493, R577, R588, R608).
-/
namespace Sys2Proof
open Sys2Proof.Machine

/-- A command slot of the device: 256 function indexes (R53) of 64 slots (R59). -/
def CmdRef.wf (r : CmdRef) : Bool := decide (r.fn < 256) && decide (r.slot < 64)

def Instr.wf : Instr → Bool
  | .dbSubmit fn _ | .dbRetire fn _ | .dbCancel fn _ => decide (fn < 256)
  | .slotWrite fn slot word _ => decide (fn < 256) && decide (slot < 64) && decide (word < 128)
  | .fnCtrlWrite fn _ | .evqHeadWrite fn _ | .evqLostRead fn | .errCountRead fn | .b2DomainMissRead fn | .unalignedAccess fn _ _
  | .poisonedWriteTlp fn _ | .bar4Write fn _ _ _ | .bar4Read fn _ _ | .registerWrite fn _ _ _ | .b2Unlock fn _ | .bar2DomainOffAccess fn _ _
  | .msixUnmask fn _ | .busMasterEnable fn _ => decide (fn < 256)
  | .eventCollect => true
  | .evqCoalesceTimeout fn => decide (fn < 256)
  | .perstAssert link | .perstRelease link | .pcieHotReset link | .pcieLinkDown link | .pcieLinkUp link _ _ => decide (link < 4)
  | .flr fn | .flrComplete fn => decide (fn < 256)
  | .functionReady link => decide (link < 4)
  | .purgeCommit => true
  | .payloadFetchDone cmd _ | .payloadFetchFail cmd | .commandStep cmd => cmd.wf
  | .txnIdleTimeout _ | .commitAckTimeout | .commitTablesWritten _ | .epochActivate | .heldCommitRelease | .epochDrainLimit => true
  | .gxNop cmd | .gxDeviceInfo cmd | .gxQuotaSet cmd | .gxQuotaGet cmd | .gxObjQuery cmd | .gxSessionOpen cmd | .gxSessionClose cmd
  | .gxTxnBegin cmd | .gxTxnCommit cmd | .gxTxnRollback cmd | .gxTxnStatus cmd | .gxObjDestroy cmd | .gxEpochConfig cmd | .gxPortConfig cmd
  | .gxPortStatus cmd | .gxAddrSet cmd | .gxIceCredSet cmd | .gxTunnelRingSet cmd | .gxTunnelSend cmd | .gxIngCounters cmd
  | .gxKeyInstall cmd | .gxKeyStatus cmd | .gxCryptoCounters cmd | .gxConfSet cmd | .gxSourceSet cmd | .gxLegSet cmd | .gxOutslotSet cmd
  | .gxEdgeSet cmd | .gxLegBulkCreate cmd | .gxEdgeQuery cmd | .gxFwdConfig cmd | .gxFwdCounters cmd | .gxLegShapeSet cmd | .gxCcfbSet cmd
  | .gxLegAdaptQuery cmd | .gxEgressCounters cmd | .gxMixGroupSet cmd | .gxAudioLegSet cmd | .gxMixContribSet cmd | .gxDetectorSet cmd
  | .gxDtmfSend cmd | .gxAudioCoefLoad cmd | .gxAudioCoefSwap cmd | .gxAudioSync cmd | .gxAudioMeterRead cmd | .gxAudioCounters cmd
  | .gxDecodeSet cmd | .gxDecodeQuery cmd | .gxDecodeCounters cmd | .gxCanvasSet cmd | .gxLayerSet cmd | .gxOrderSet cmd
  | .gxLayerImageUpdate cmd | .gxBeaconSet cmd | .gxHostRingSet cmd | .gxCanvasQuery cmd | .gxCompCounters cmd | .gxRenditionSet cmd
  | .gxRenditionKeyframe cmd | .gxRenditionQuery cmd | .gxEncCounters cmd | .gxProgramLoad cmd | .gxProgramQuery cmd | .gxEngineStatus cmd
  | .gxTaskSubmit cmd | .gxTaskCancel cmd | .gxTaskAlloc cmd | .gxTaskSignal cmd | .gxSchedCounters cmd | .gxPoolLayout cmd
  | .gxRequesterSet cmd | .gxDmaSubmit cmd | .gxWindowMap cmd | .gxPoolCounters cmd | .gxMemStatus cmd | .gxMemErrors cmd | .gxMemPpr cmd
  | .gxMemTest cmd | .gxMemFreezeRead cmd | .gxTimeGet cmd | .gxPtpRingSet cmd | .gxPtpSend cmd | .gxTwinSet cmd | .gxTwinSecretSet cmd
  | .gxJournalReplay cmd | .gxTwinHandover cmd | .gxTwinMap cmd | .gxPowerDomainSet cmd | .gxClusterClockSet cmd | .gxDeviceReset cmd
  | .gxImageVerify cmd | .gxLogRead cmd | .gxLifeStatus cmd => cmd.wf
  | .macFrameReceive lport _ => decide (lport < 8)
  | .packetParse pipe _ _ _ => decide (pipe < 4)
  | .keyDeriveDone _ _ | .alternateKeyExpire _ => true
  | .portAnComplete lport | .portTrainingDone lport | .portTrainingTimeout lport _ | .portRetryWaitExpiry lport | .portPcsLock lport => decide (lport < 9)
  | .portLinkFault lport _ _ => decide (lport < 8)
  | .fecRatioWindow lport _ _ _ _ => decide (lport < 9)
  | .replication pipe _ _ _ _ | .edgeCacheFill pipe _ => decide (pipe < 4)
  | .nackUpTimer source => decide (source < 524288)
  | .rtxCacheExpire => true
  | .rtcpReportTimer leg => decide (leg < 262144)
  | .speakerSelectDue conf | .speakerSelectRun conf => decide (conf < 65536)
  | .adaptRunDue leg => decide (leg < 262144)
  | .adaptRun leg => decide (leg.unit < 262144)
  | .probeEnd leg => decide (leg < 262144)
  | .ccfbReportTimer source => decide (source < 524288)
  | .egressSelect lport => decide (lport.unit < 8)
  | .frameTransmit lport _ => decide (lport < 8)
  | .launchTimeReached leg cls => decide (leg < 262144) && decide (cls < 4)
  | .legBucketRecover leg => decide (leg < 262144)
  | .gateConfigChange fn lport | .gateCancel fn lport | .gateAdminWrite fn lport _ _ => decide (fn < 256) && decide (lport < 8)
  | .gateTakeover lport | .gateEntryBoundary lport => decide (lport < 8)
  | .portRateWrite fn lport _ | .egrPortCtrlWrite fn lport _ => decide (fn < 256) && decide (lport < 8)
  | .audioBlockStart => true
  | .audioInputBlock leg _ => decide (leg < 262144)
  | .mixSelect group | .mixBlock group _ => decide (group < 8192)
  | .audioOutputBlock master index => true && decide (index < if master then 8192 else 262144)
  | .audioSyncEdge _ => true
  | .coefSwapTakeEffect profile => decide (profile < 64)
  | .assemblyTimeout source | .decodeDone source _ => decide (source < 524288)
  | .decCoreFault core => decide (core < 52)
  | .decPliRepeat source => decide (source < 524288)
  | .canvasFrameDeadline canvas | .composeBandDone canvas _ _ _ | .composeDone canvas _ _ _ => decide (canvas < 4096)
  | .compFault unit _ => decide (unit < 16)
  | .daymarkRebuild canvas => decide (canvas < 4096)
  | .rateControlRun rend _ | .voteWindowEnd rend => decide (rend < 2048)
  | .encodePartStart rend layer part | .encodeRowDone rend layer part _ _ _ | .encodePartDone rend layer part _ _ => decide (rend < 2048) && decide (layer < 3) && decide (part < 8)
  | .encCoreFault core => decide (core < 68)
  | .ltrAckTimeout rend => decide (rend < 2048)
  | .scalarAlu engine _ d s1 _ _ => decide (engine < 1024) && decide (d < 32) && decide (s1 < 32)
  | .load engine t ar _ size _ _ | .store engine t ar _ size _ => decide (engine < 1024) && decide (t < 32) && decide (ar < 8) && decide (size < 4)
  | .atomic engine op t ar _ _ => decide (engine < 1024) && decide (op < 4) && decide (t < 32) && decide (ar < 8)
  | .xfer engine s1 _ => decide (engine < 1024) && decide (s1 < 32)
  | .wait engine mask _ => decide (engine < 1024) && decide (mask < 256)
  | .fence engine _ => decide (engine < 1024)
  | .branch engine cond s1 _ _ => decide (engine < 1024) && decide (cond < 8) && decide (s1 < 32)
  | .jump engine s1 _ _ => decide (engine < 1024) && decide (s1 < 32)
  | .nop engine _ => decide (engine < 1024)
  | .mfc engine d cr _ => decide (engine < 1024) && decide (d < 32) && decide (cr < 32)
  | .mtc engine cr s1 _ => decide (engine < 1024) && decide (cr < 32) && decide (s1 < 32)
  | .end_ engine s1 _ => decide (engine < 1024) && decide (s1 < 32)
  | .break_ engine code _ => decide (engine < 1024) && decide (code < 32)
  | .cmac engine acc s1 s2 sh _ _ _ | .dmac engine acc s1 s2 sh _ _ | .smac engine acc s1 s2 sh _ _ _ => decide (engine < 1024) && decide (acc < 8) && decide (s1 < 32) && decide (s2 < 32) && decide (sh < 4)
  | .accClear engine acc _ => decide (engine < 1024) && decide (acc < 8)
  | .accLoad engine acc s1 _ => decide (engine < 1024) && decide (acc < 8) && decide (s1 < 32)
  | .accShift engine acc _ _ => decide (engine < 1024) && decide (acc < 8)
  | .accx engine d acc sh _ width _ => decide (engine < 1024) && decide (d < 32) && decide (acc < 8) && decide (sh < 32) && decide (width < 3)
  | .maxx engine d s1 s2 _ _ _ | .minx engine d s1 s2 _ _ _ => decide (engine < 1024) && decide (d < 32) && decide (s1 < 32) && decide (s2 < 32)
  | .urgentEntry engine => decide (engine < 1024)
  | .xferComplete engine _ tag => decide (engine < 1024) && decide (tag < 8)
  | .pageLoadDone engine | .engineInternalFault engine | .engineRetireTimeout engine => decide (engine < 1024)
  | .schedTick => true
  | .taskRelease task => decide (task < 262144)
  | .taskDispatch target _ upset => decide (target < 5) && decide (upset < 3)
  | .taskEnd task | .taskWaitTimeout task => decide (task < 262144)
  | .schedModeWrite fn _ | .schedTickWrite fn _ => decide (fn < 256)
  | .bufferAlloc _ _ cls => decide (cls < 4)
  | .bufferRetain _ _ _ | .bufferFree _ _ _ | .bufferHandover _ _ _ _ => true
  | .dmaDescriptorStart chan | .dmaDescriptorDone chan _ _ => decide (chan < 64)
  | .dmaPause fn chan => decide (fn < 256) && decide (chan < 64)
  | .dmaPaused chan _ _ _ => decide (chan < 64)
  | .dmaResume fn chan | .dmaAbort fn chan | .shadowArm fn chan _ | .shadowDisarm fn chan _ => decide (fn < 256) && decide (chan < 64)
  | .shadowWordWrite fn chan word _ _ => decide (fn < 256) && decide (chan < 64) && decide (word < 128)
  | .dmaHeldWriteApply chan => decide (chan < 64)
  | .dmaCqHeadWrite fn chan _ => decide (fn < 256) && decide (chan < 64)
  | .dramRead source _ _ _ | .dramWrite source _ _ _ => decide (source < 524288)
  | .refreshDue sub _ | .selfRefreshIdle sub | .mr4Poll sub _ _ _ | .dramTrainingStepDone sub _ | .retrainInterval sub _
  | .retrainStepDone sub _ _ | .caParityError sub _ => decide (sub < 24)
  | .scrubBurst _ | .sramScrubPass _ _ => true
  | .injectAddrWrite fn _ _ => decide (fn < 256)
  | .timeIncWrite fn domain _ _ | .stepCmdGo fn domain _ => decide (fn < 256) && decide (domain < 2)
  | .timeSelectWrite fn _ | .slewPpbWrite fn _ => decide (fn < 256)
  | .timeOffsetCleared => true
  | .timeCaptureRead fn _ => decide (fn < 256)
  | .ppsInEdge domain _ | .ppsOutPulse domain | .ppsOutPulseEnd domain => decide (domain < 2)
  | .fliuskLinkUp | .fliuskLinkLoss | .helloTimer | .fliuskHello _ _ _ _ _ _ _ _ | .heartbeatSend | .fliuskHeartbeat _ _
  | .twinAliveTransition | .heartbeatWindow | .takeoverRequest _ _ _ _ _ | .takeoverTablesWritten _ | .announceRepeat | .takeoverDone
  | .journalRecord _ _ _ _ => true
  | .journalAck _ _ chan _ _ => decide (chan < 8)
  | .fliuskRetransmit | .mirrorSend | .mirrorRecord _ _ _ _ | .twinEventRecord _ _ _ _ => true
  | .twinReserveRequest _ _ _ conf _ => decide (conf < 2 ^ 32)
  | .twinReserveAnswer _ _ _ _ _ _ | .twinReserveTimeout => true
  | .twinReserveRelease _ _ _ conf => decide (conf < 2 ^ 32)
  | .handoverTactReturn _ _ _ _ _ _ | .relayFrame _ _ _ | .relayEnd | .ejectRequest | .ejectBudgetExpiry | .powerSwitchBegin
  | .loadstepLeadExpiry | .powerRampEnd | .loadstepRelease | .powerDomainUsable | .powerGoodTimeout => true
  | .unitStartCredit kind => decide (kind < 8)
  | .vcoreStep | .pmbAlert _ _ => true
  | .pwrgdLoss rail | .pwrgdRestore rail _ | .powerOnReset rail => decide (rail < 7)
  | .powerOnResetRelease _ | .bootImageReadDone _ _ _ _ | .startupStepDone _ _ | .deviceWarmReset _ | .keeperResetDone | .sysRefclkLoss
  | .netRefclkLoss _ | .netRefclkReturn _ | .twinRefclkLoss => true
  | .pcieRefclkLoss link => decide (link < 4)
  | .wdogKick _ | .wdogRestart _ | .ctrlResetHoldEnd | .fwRecoveryDone | .stuckWorkCheck => true
  | .thermalSample sensor _ => decide (sensor < 64)
  | .thermalClockStep _ => true
  | .thermalHardTrip sensor _ => decide (sensor < 64)
  | .railSample rail _ _ => decide (rail < 7)
  | .ageingMeasure _ | .ageingHistoryStore | .lifeCounterWrite => true
  | .unitSelfTestDone cls _ _ => decide (cls < 4)
  | .spareRemapComplete | .lampOverrideExpiry _ | .identity _ | .status _ | .thermal _ | .rails _ | .configGet _ | .configSet _ | .logRead _
  | .life _ | .spareMap _ | .ageing _ | .lampSet _ | .severitySet _ | .spareRetire _ | .deviceReset _ | .keeperReset _ | .imageChunk _
  | .imageEnd _ _ _ _ | .mgmtResponseRead | .smbusAlertResponse | .smbusAddressResolution _ => true
  | .illegal engine _ _ => decide (engine < 1024)
  | .unassignedOpcode cmd => cmd.wf
  | .unknownCode _ _ | .keeperSelfCheck => true
  | .d3hotTransition fn _ => decide (fn < 256)
  | .vfEnableChange pf _ => decide (pf < 4)
  | .forwarderRecordRewrite kind _ => decide (kind < 3)
  | .logStoreWrite => true
  | .lowWordRead fn _ _ => decide (fn < 256)

end Sys2Proof
end

