-- ==== Sys2Proof/Tests/Slice0.lean ====
section
/-!
SUPPORT. Tests of single steps on small states, well-formedness checks, and for each statement a state and operands that meet its
hypotheses.
-/
namespace Sys2Proof.Tests
open Sys2Proof Sys2Proof.Machine

set_option maxRecDepth 100000
set_option linter.unusedVariables false
set_option Elab.async false

/-- A chip in service with every domain on, the operator PF set up and reachable, and all BAR2 locks open. -/
def up : Chip :=
  { Chip.reset with
    pwr := { Power.reset with phase := .service, on := 0xFFFFFF }
    dram := { Dram.reset with capGib := 384 }
    host := { HostIf.reset with
      b2Lock := 0
      links := [(0, { perst := false, up := true, speed := 5, width := 16, refclk := true })]
      fns := [(0, { Fn.zero with enable := true, ready := true, busMaster := true })] } }

/-- That chip in a state of its own. -/
def upS : State := { State.reset with chip := up }

/-- A captured command: opcode, session, body. -/
def cmdSlot (op session : Nat) (body : List Word) : Slot :=
  { Slot.zero with
    st := .busy
    tag := 7
    opAtCapture := true
    words := wordsPut [] 0 ([wd (7 * 2 ^ 16), wd op, wd (session + 2 ^ 16 * (4 * body.length)), 0, 0, 0, 0, 0] ++ body) }

def r0 : CmdRef := ⟨0, 0⟩

/-- The chip `c` with a command waiting in slot 0 of function 0. -/
def withCmd (c : Chip) (op : Nat) (body : List Word) : State := { State.reset with chip := putSlot 0 (cmdSlot op 0 body) c }

/-- A property of the next state that an outcome is. -/
def nextIs (o : Host.Outcome State Fault Refusal) (p : State → Bool) : Bool := match o with | .next t => p t | _ => false

/-- A command of an opcode that firmware serves on `c`. -/
def servedOn (c : Chip) (op : Nat) (body : List Word) : Bool :=
  let s := withCmd c op body
  firmwareUp s.chip && (getFn s.chip 0).ready && slotTurn s.chip 0 (slotAt r0 s) && (slotAt r0 s).op == op &&
    !headerBad (slotAt r0 s) && !(slotAt r0 s).ext && (slotAt r0 s).session == 0 && (heldSession s.chip 0 0).isNone && !resultShut s.chip op 0

/-- A state of a chip. -/
def st (c : Chip) : State := { State.reset with chip := c }

/-- `up` with one of its parts changed. -/
def upPools (f : Pools → Pools) : Chip := { up with pools := f up.pools }
def upSched (f : Sched → Sched) : Chip := { up with sched := f up.sched }
def upDram (f : Dram → Dram) : Chip := { up with dram := f up.dram }
def upMgmt (f : Mgmt → Mgmt) : Chip := { up with mgmt := f up.mgmt }
def upPwr (f : Power → Power) : Chip := { up with pwr := f up.pwr }
def upTime (n : Nat) : Chip := { up with time := { up.time with cyc := n } }

/-- A chip with one buffer of P2 in use by identity 0: its handle is `hBuf`. -/
def hBuf : Nat := mkHandle 2 1 0
def bufUp (refs : Nat) : Chip := upPools (fun p =>
  { p with windowBytes := 2 ^ 30, pages := [], pools := [(2, { Pool.ofCount 1000 with used := 1, bufs := [(0, { Buf.zero with refs := refs, gen := 1, used := true })] })] })

def portUp (f : LPort → LPort) : Chip := modLport 1 f up

def taskUp (t : Task) : Chip := upSched fun x => { x with tasks := [(5, t)] }
def chanUp (c : Chan) : Chip := { up with chans := [(3, c)] }

def subUp (f : Sub → Sub) : Chip := upDram fun d => { d with subs := [(3, f Sub.zero)] }
def startUp : Chip := upPwr fun p => { p with phase := .starting }

def frz : FreezeRec := { sub := 3, reason := 1, parityRanks := 1, stampNs := 0, rdq := 0, wrq := 0, refDebt := 0, failStep := 0, openBanks := 0, delays := [], cmds := [], parityCmd := 0 }
def fill16 : DmaDesc := { DmaDesc.zero with op := 1, dstSpace := 1, length := 16, dst := 0 }
def onChan (f : Chan → Chan) : State := st (chanUp (f Chan.zero))
def directS (f : Chan → Chan) : State := st { up with chans := [(57, f Chan.zero)] }
def dbuf : Chip := upPools (fun p => { p with pools := [(2, { Pool.ofCount 1000 with used := 1, bufs := [(0, { Buf.zero with owner := 7, refs := 1, gen := 1, used := true })] })] })
def openCmd : Chip := putSlot 0 { Slot.zero with st := .busy, tag := 7 } up

def swOf (p : SwitchPhase) : Switch := { dom := 12, on := true, phase := p, startNs := 0, deadline := 5 }
def swUp (p : SwitchPhase) : State := st (upPwr fun x => { x with switch := some (swOf p) })
def reqUp (d : Nat) : State := st (upPwr fun x => { x with req := { PowerCmd.none with on := [d] } })

def slotUp (x : Slot) : State := st (putSlot 0 x up)
def fnUp (f : Fn → Fn) : Chip := modFn 0 f up

def mapUp : State := st (upPools fun p => { p with windowBytes := 2 ^ 30, pages := [(0, 3)] })

def ev1 : EvRec := { sec := 0, ns := 0, island := 2, iseq := 0, code := 0x201, severity := 1, fn := 0, object := 0, detail := 0 }

def engOf (f : USet → USet) : Chip :=
  { up with
    eng := { up.eng with engines := [(0, { Engine.zero with
      prim := f { USet.zero with task := 6, program := 1024, winBase := 0x10000, winSize := 64 }, pages := [(1024, 0, 0)] })] }
    sched := { up.sched with tasks := [(5, { Task.zero with st := .running })] } }
def engS : State := st (engOf id)
def ofs (n : Nat) : USet → USet := fun u => { u with a := [(1, wd n)] }

def xf : Xfer := { tag := 2, local_ := 0, length := 8, out := true, handle := hBuf, offset := 0, failed := 0 }
def xfUp : Chip := { bufUp 1 with
  eng := (engOf fun u => { u with xfers := [xf] }).eng, sched := (engOf id).sched,
  pools := { (bufUp 1).pools with pools := [(2, { Pool.ofCount 1000 with used := 1, bufs := [(0, { Buf.zero with owner := identity 0 5, refs := 1, gen := 1, used := true })] })] } }
def engRec (f : Engine → Engine) : State := st { up with eng := { up.eng with engines := [(0, f Engine.zero)] } }

/-- A command of session 1 that function 0 holds. -/
def sesOf (t : Option Txn) : Session := { fn := 0, idleS := 10, lastNs := 0, txn := t }
def inSes (c : Chip) (op : Nat) (body : List Word) (t : Option Txn) : State :=
  st (putSlot 0 (cmdSlot op 1 body) { c with gx := { c.gx with sessions := [(1, sesOf t)] } })
def emptyTxn : Txn := { staged := [], bytes := 0 }
def cmtOf (k : CommitKind) (g : CommitStage) : Commit :=
  { kind := k, fn := 0, slot := none, session := 0, ticket := 1, staged := [], stage := g, next := Cfg.empty, deadline := 5, unmirrored := false, auto := false, asking := [],
    journal := 0, discard := false, more := [], cause := 0, start := 0, ids := [], left := 0, only := false, asked := 0 }
/-- `Takes`, of a command without an extension. -/
theorem takes_plain {op n : Nat} {b : List Word} {r : CmdRef} {s : State} (h : (firmwareUp s.chip = true ∧ (getFn s.chip r.fn).ready = true ∧
    slotTurn s.chip (slotKey r.fn r.slot) (slotAt r s) = true ∧ (slotAt r s).op = op ∧
    (operatorOps.contains op = true → (slotAt r s).opAtCapture = true) ∧ headerBad (slotAt r s) = false) ∧
    ((slotAt r s).ext = false ∧ b = bodyAt r s) ∧
    (slotAt r s).session = n ∧ (n = 0 ∨ (heldSession s.chip r.fn n).isSome = true) ∧ r.slot < 64 ∧ resultShut s.chip op r.fn = false) :
    Takes op n b r s := by
  obtain ⟨⟨h1, h2, h3, h4, h5, h6⟩, h7, h8⟩ := h
  exact ⟨h1, h2, h3, h4, h5, h6, .inl h7, h8⟩

def gxUp (f : Guxus → Guxus) : Chip := { up with gx := f up.gx }

/-- `up` with a configuration, and its logical ports up. -/
def cfgUp (objs : Tbl Obj) (cards : List (Nat × List Word)) : Chip :=
  { up with
    gx := { up.gx with bank1 := { Cfg.empty with epoch := 1, objs := objs, cards := cards } }
    net := { up.net with lports := [(0, { LPort.zero with st := .up })] } }
def o1 : Obj := { Obj.none with gen := 1 }
def legUp : Chip := cfgUp [(mkKey tLeg 0, o1), (mkKey tLeg 1, o1), (mkKey tLeg 2, o1)] []
def srcUp : Chip := cfgUp [(mkKey tSource 3, o1)] []
def netUp : Chip := cfgUp [] [(cardKey 0x0202 0 0, List.replicate 12 0)]
def arpF : Frame := { len := 64, dst := 0xFFFFFFFFFFFF, srcMac := 0, fcsOk := true, fecBad := false, vlans := [], net := .arp 0 }
def arpQ : FifoFrame := { lport := 0, addr := 4096, stampNs := 0, stampA := 0, stampB := 0, frame := arpF, poison := false }
def fifoUp (q : List FifoFrame) : Chip := modPipe 0 (fun p => { p with fifo := q }) netUp

def pk : Pkt := { source := 3, desc := 0, seq := 0, ts := 0, pt := 0, marker := false, bytes := 100, hdrBytes := 12, b0 := 0x80, tail := 0, frameBytes := 100, cacheRef := 0, pid := 0, pidBits := 0, tl0 := 0, hasTl0 := false, stampNs := 0, payload := 0, buf := 0, epoch := 0, walk := [], late := false, launchNs := 0 }
def replUp (k : Pkt) : State := st (modPipe 0 (fun p => { p with repl := [k] }) srcUp)
def fwdUp (f : Fwd → Fwd) : Chip := { srcUp with fwd := f srcUp.fwd }
def gp (m : List Nat) (a : Bool) : Gap := { source := 3, missing := m, dueNs := 5, asked := a }
def ce (n : Nat) : CacheEntry := { idx := 0, gen := 0, pkt := pk, endNs := n, bytes := 100, pipeline := 0, poison := false }
def fwTask (s : TaskSt) (work obj : Nat) : Sched := { up.sched with tasks := [(5, { Task.zero with st := s, desc := { TaskDesc.zero with work := work, args := [wd obj] } })] }
def confUp : Chip := cfgUp [(mkKey tConf 4, o1)] []

def ek : EgPkt := EgPkt.plain (.echoReply 0) 100 1
def egUp (r : LegRun) : Chip := modLeg 2 (fun _ => r) legUp

def audUp (f : Audio → Audio) : Chip := { up with aud := f up.aud }
def runS (c : Chip) (work obj : Nat) : State := st { c with sched := fwTask .running work obj }
/-- The same for a run that took epoch 1 at its start. -/
def runE (c : Chip) (work obj : Nat) : State :=
  st { c with sched := { up.sched with tasks := [(5, { Task.zero with st := .running, epoch := 1, desc := { TaskDesc.zero with work := work, args := [wd obj] } })] } }

def af : AsmFrame := { num := 0, firstSeq := none, lastSeq := none, seqs := [], firstStamp := 0, deadline := 5, ts := 0, key := true, spatial := 0, temporal := 0, disposable := false, bufs := [], retried := false }
def db : DecBusy := { frame := af, core := 4, epoch := 1, handle := hBuf, reduced := 0, task := 0 }
def rep : DecReport := { poisonIn := false, poisonState := false, params := none, recovers := false, clears := false, rasl := false, refs := [], poisonRefs := [], recoveryAt := none, pos := 0, slots := 0, short := true, long := false, unmark := [], toLong := [], shown := true, outputs := [], width := 0, height := 0, mono := false, matrix := 0, transfer := 0, primaries := 0, fullRange := false }
def decUp (f : DecRun → DecRun) : Chip := { cfgUp [(mkKey tSource 3, o1)] [(cardKey 0x0600 (mkKey tSource 3) 0, [1])] with vid := { up.vid with decs := [(3, f DecRun.zero)] } }

def ep (begun done : Bool) (core : Option Nat) (rows rowsDone : Nat) : EncPart :=
  { layer := 0, part := 0, core := core, task := 0, begun := begun, done := done, luma := 0, rows := rows, rowsDone := rowsDone, bits := 0, qp := 30, b := 1000, h := 2000, steps := 0, guardRows := 0, capped := false, sizes := [] }
def ef (parts : List EncPart) : EncFrame :=
  { num := 6, epoch := 1, deadlineNs := 0, buffer := hBuf, key := true, recovery := false, temporal := 0, spatialUp := false, rcDone := false, satd := [], base := [], baseNk := [], qps := [], codecQps := [], parts := parts, begun := true, retried := false, poisonIn := false, overshoot := false, recs := [], streams := [], field := [], fallback := false }
def bandIt : BandItem := { frame := 6, firstRow := 0, rows := 16, last := true, buffer := hBuf, discard := false, skip := false, epoch := 1 }
def rendUp (parts : List EncPart) : Chip :=
  { cfgUp [(mkKey tRend 3, o1)] [] with vid := { up.vid with rends := [(3, { RendRun.zero with busy := some (ef parts), queue := [bandIt] })] } }
def ltr0 : Ltr := { slot := 0, frame := 6, acked := false, atNs := 0, open_ := [] }

def cf (u : Option Nat) (row : Nat) : CFrame := { num := 6, epoch := 1, buffer := hBuf, row := row, task := 0, compositor := u, record := FrameRec.zero, uses := [], fetched := [], poison := false }
def cvBody : List Word := [0, 0, 0, 64 + 64 * 2 ^ 16, 30]
def cvUp (b : Option CFrame) : Chip :=
  { cfgUp [(mkKey tCanvas 3, { o1 with body := cvBody })] [(cardKey 0x0701 (mkKey tCanvas 3) 5, [0, 5, 3 * 2 ^ 12])] with vid := { up.vid with canvases := [(3, { CanvasRun.zero with busy := b })] } }

def twUp (f : Twin → Twin) : Chip := { netUp with twin := f up.twin }
def ses (f : Twin → Twin) : Chip := twUp (fun t => f { t with session := true, phyUp := true, st := 2 })

def actUp (a : Commit) : Chip := { ses id with gx := { (ses id).gx with active := some a } }
def ask : Commit := { cmtOf .host .reserve with asking := [mkKey tConf 4] }
def ho : Handover := { confs := [mkKey tConf 4], relay := true, th := 0, thLocal := 0, cmd := 1, relaying := false, cards := [], lastRelay := 0, moved := 0 }
def udpF : Frame := { arpF with net := .ip false 20 1 0 false false true true 0 (.udp false true 0 0 0 0 .other) }
def frel : Chip := { ses id with gx := { netUp.gx with bank1 := { netUp.gx.bank1 with objs := [] } } }

def keyUp : Chip := let c := cfgUp [(mkKey tLeg 2, o1)] [(cardKey 0x0210 (mkKey tLeg 2) 0, [1, 0, 0, 0])]; { c with net := { c.net with cryUnits := 0xFFFFF } }

/-- A device with one object of each kind, and a transactional command in the open transaction of session 1; `w` holds images already fetched. -/
def fullUp : Chip :=
  cfgUp [(mkKey tConf 4, o1), (mkKey tSource 3, o1), (mkKey tLeg 2, o1), (mkKey tGroup 2, o1), (mkKey tCanvas 3, o1), (mkKey tRend 3, o1), (mkKey tProgram 3, o1)]
    [(cardKey 0x0202 0 0, List.replicate 12 0)]
def txnS (op : Nat) (b : List Word) (w : List Nat) : State :=
  let s := inSes fullUp op b (some emptyTxn)
  st (modSlot 0 (fun x => { x with work := w }) s.chip)

/-- Body words: zeros but for the listed ones. -/
def bodyW (n : Nat) (l : List (Nat × Nat)) : List Word := l.foldl (fun b e => b.set (e.1 / 4) (wd e.2)) (List.replicate n 0)

/-- A transactional command with AUTO_COMMIT in a session without a transaction, while a commit is under way. -/
def autoS : State :=
  let s := inSes (gxUp fun g => { g with active := some (cmtOf .host .writing) }) 0x0202 (bodyW 8 []) none
  st (modSlot 0 (fun x => { x with words := tput x.words 1 0x20202 }) s.chip)

/-- The hypotheses of `Stages`, decided on such a state. -/
def canStage (op : Nat) (fields : List Word → Option Nat) (stage : Ctx → List Staged → Chip → Staging) (b : List Word) : Bool :=
  let s := txnS op b []
  let x := slotAt r0 s
  firmwareUp s.chip && (getFn s.chip 0).ready && slotTurn s.chip 0 x && x.op == op && (!operatorOps.contains op || x.opAtCapture) && !headerBad x && !x.ext &&
    bodyAt r0 s == b && x.session == 1 && (heldSession s.chip 0 1).any (fun e => e.txn == some emptyTxn) && fields b == none &&
    (stage (ctxWith b r0 s) [] (tookIn 1 r0 s)).toBool

/-- Those of `StagesImages`: besides, the images are there and are valid. -/
def canStageImages (op k : Nat) (fields : List Word → Option Nat) (wants : List Word → List (Nat × Nat)) (make : Ctx → Chip → List Word → Except Res (List Word))
    (stage : Ctx → List Staged → Chip → Staging) (b : List Word) (w : List Nat) : Bool :=
  let s := txnS op b w
  let x := slotAt r0 s
  canStage op fields (fun _ _ c => .ok ({ op := 0, fn := 0, asOp := false, obj := 0, create := false, more := [], body := [] }, c)) b &&
    (({ ctxWith b r0 s with body := words k b }.preStage stage (tookIn 1 r0 s)) == none) &&
    decide (((wants b).map (fun w => (w.2 + 3) / 4)).sum ≤ (fetched r0 s).length) && x.session == 1 &&
    match make (ctxWith b r0 s) (tookIn 1 r0 s) (fetched r0 s) with
    | .ok more => (stage { ctxWith b r0 s with body := words k b ++ more } [] (tookIn 1 r0 s)).toBool
    | .error _ => false


/-- A program image of one word, and its CRC. -/
def progImg : List Nat :=
  [0x5552594D, 0x10000, 4, 0, 0, 0, 0, crc32 [1, 0, 0, 0], 0, 0, 0, 0, 0, 0, 0, 0, 1]

/-- What `servedOn` decides is the hypothesis of the statements about Guxus commands. -/
theorem served_of (c : Chip) (op : Nat) (body : List Word) (h : servedOn c op body = true)
    (ho : (slotAt r0 (withCmd c op body)).opAtCapture = true) : Served op r0 (withCmd c op body) := by
  simp only [servedOn, Bool.and_eq_true, beq_iff_eq, Bool.not_eq_true', Option.isNone_iff_eq_none] at h
  obtain ⟨⟨⟨⟨⟨⟨⟨⟨h1, h2⟩, h3⟩, h4⟩, h5⟩, h6⟩, h7⟩, h8⟩, h9⟩ := h
  exact ⟨h1, h2, h3, h4, fun _ => ho, h5, h6, h7, h8, by decide, h9⟩

/-- Witness: SelectKeepsServiceTime. -/
theorem wit_SelectKeepsServiceTime : bar2Reach up 0 = true ∧ domOn up 0 = true ∧ locked up 1 = false ∧ (1 : Word).getLsbD 0 ≠ up.time.selB := by decide

def pulseUp : Chip := { up with time := { up.time with
  a := { up.time.a with ppsCtrl := 5, edgeAt := 1, pulse := true }, b := { up.time.b with ppsCtrl := 5 }, off := -1, slewPpb := 1 } }

/-- Witness: TimeBlockCommands, its clauses in order. -/
theorem wit_TimeBlockCommands :
    (bar2Reach up 0 = true ∧ domOn up 0 = true ∧ locked up 1 = false ∧ incOk (0x40000000 + 2 ^ 32) = true) ∧
      ((-500000 : Int) ≤ (1 : Word).toInt ∧ 0 < (1 : Word).toInt ∧ pulseUp.time.off < 0) ∧
      ((2 : Word).toInt ≠ 0 ∧ up.time.off = 0) ∧ pulseUp.time.slewPpb ≠ 0 ∧
      ((pulseUp.time.dom 0).ppsCtrl.getLsbD 2 = true ∧ (pulseUp.time.dom 0).edgeAt ≠ 0 ∧
        localNs pulseUp + 1 < (pulseUp.time.dom 0).edgeAt + 500000000) ∧
      ((pulseUp.time.dom 1).ppsCtrl.getLsbD 2 = true ∧ (pulseUp.time.dom 1).edgeAt = 0) ∧
      ((pulseUp.time.dom 1).ppsCtrl.getLsbD 0 = true ∧ (pulseUp.time.dom 1).pulse = false ∧ 0 < (pulseUp.time.dom 1).inc) ∧
      (pulseUp.time.dom 0).pulse = true ∧ ((up.time.dom 1).stepOk = true ∧ 1 ≠ up.time.selNum) ∧ locked up 1 = false ∧
      servedOn up 0x0C00 [] = true := by decide

/-- Witness: StagedCommandsJoin, its rows in order. -/
theorem wit_StagedCommandsJoin :
    canStage 0x0003 quotaFields (stagePlain 50) (bodyW 6 [(4, 1), (8, 8)]) = true ∧
    canStage 0x0106 noFields stageDestroy (bodyW 3 [(0, mkId tConf 1 4)]) = true ∧
    canStage 0x0202 noFields (stagePlain 8) (bodyW 8 []) = true ∧
    canStage 0x0203 iceFields stageIce (bodyW 12 [(0, mkId tLeg 1 2), (8, 4 + 256 * 4 + 65536 * 22)]) = true ∧
    canStage 0x0210 keyFields stageKey (bodyW 28 [(0, mkId tLeg 1 2), (4, 1 + 16)]) = true ∧
    canStage 0x0300 (fun b => firstBad [(decide (10000 < bf b 16 0 14), 16)]) stageConf (bodyW 5 []) = true ∧
    canStage 0x0301 sourceFields stageSource (bodyW 21 [(4, mkId tConf 1 4)]) = true ∧
    canStage 0x0302 legFields stageLeg (bodyW 18 [(4, mkId tConf 1 4), (36, 2 ^ 16)]) = true ∧
    canStage 0x0303 (fun b => firstBad [(decide (2 < osKind b), 16), (!zeroOr (bf b 20 0 12) 20 4000, 20)]) stageSlot (bodyW 8 [(0, mkId tLeg 1 2)]) = true ∧
    canStage 0x0304 noFields stageEdge (bodyW 5 [(4, mkId tLeg 1 2), (8, mkId tSource 1 3)]) = true ∧
    canStage 0x0400 shapeFields stageShape (bodyW 13 [(0, mkId tLeg 1 2)]) = true ∧
    canStage 0x0401 (fun b => firstBad [(!zeroOr (bf b 8 16 9) 20 500, 8)]) stageCcfb (bodyW 3 [(0, mkId tSource 1 3)]) = true ∧
    canStage 0x0500 groupFields stageGroup (bodyW 7 [(4, mkId tConf 1 4)]) = true ∧
    canStage 0x0501 audioFields stageAudio (bodyW 11 [(0, mkId tLeg 1 2), (8, 1)]) = true ∧
    canStage 0x0502 (fun b => firstBad [(decide (0x8000 < mcGain b), 12)]) stageContrib (bodyW 4 [(0, mkId tLeg 1 2), (4, mkId tGroup 1 2)]) = true ∧
    canStage 0x0503 detectorFields stageDetector (bodyW 18 [(0, mkId tLeg 1 2)]) = true ∧
    canStage 0x0600 decodeFields stageDecode (bodyW 6 [(0, mkId tSource 1 3), (16, 30)]) = true ∧
    canStage 0x0700 canvasFields stageCanvas (bodyW 9 [(4, mkId tConf 1 4), (16, 30 + 2 ^ 16)]) = true ∧
    canStageImages 0x0701 16 layerFields layerWants (fun _ _ w => .ok w) stageLayer (bodyW 16 [(0, mkId tCanvas 1 3), (0x1C, 2 + 2 * 2 ^ 16)]) [] = true ∧
    canStage 0x0702 (fun b => firstBad [(outside (bf b 8 0 7) 1 64, 8)]) stageOrder (bodyW 20 [(0, mkId tCanvas 1 3), (8, 1)]) = true ∧
    canStageImages 0x0704 8 (fun b => if bit (bw b 8) 0 then some 8 else beaconFields b) (fun b => [(bcAddr b, beaconBytes (bcW b) (bcH b))]) beaconMake stageBeacon
      (bodyW 8 [(0, mkId tCanvas 1 3), (16, 2 + 2 * 2 ^ 16)]) [0, 0, 0] = true ∧
    canStage 0x0800 rendFields stageRend (bodyW 16 [(4, mkId tCanvas 1 3)]) = true ∧
    canStageImages 0x0900 5 (fun b => if programBadLength (bw b 16) then some 16 else firstBad [(bd b 8 % 8 != 0, 8)]) (fun b => [(bd b 8, bw b 16)])
      (fun x _ w => programMake (bw x.body 16) w) stageProgram (bodyW 5 [(16, 68)]) progImg = true ∧
    canStage 0x0A01 (fun b => let l := bf b 12 0 24; firstBad [(l != 0 && decide (l < bf b 8 0 24), 12)]) (stagePlain 4) (bodyW 4 []) = true :=
  by and_intros <;> decide +kernel

/-- Witness: StagedCommandsJoin and GeneralCommands, the removal of a beacon. -/
theorem wit_beacon_removal :
    canStage 0x0704 beaconFields (fun x l c => stageBeacon { x with body := words 9 x.body } l c) (bodyW 9 [(0, mkId tCanvas 1 3), (8, 1)]) = true ∧
      bit (bw (bodyW 9 [(0, mkId tCanvas 1 3), (8, 1)]) 8) 0 = true := by decide +kernel

/-- Witness: SessionsOpenAndEnd, a command with AUTO_COMMIT while another commit is under way. -/
theorem wit_SessionsOpenAndEnd_auto :
    ∃ (s : State) (r : CmdRef) (n : Nat) (b : List Word), ∃ row ∈ stagedRows, Takes row.1 n b r s ∧ row.2.1 b = none ∧
      (heldSession s.chip r.fn n).bind (·.txn) = none ∧ (slotAt r s).autoCommit = true ∧
      (match row.2.2.1 (ctxWith b r s) [] (tookIn n r s) with
        | .ok (_, c) => decide (c.pwr.phase ≠ .ejecting ∧ c.twin.st ≠ 5 ∧ c.gx.draining = 0 ∧ mustHold c = true ∧ heldCount c < 64)
        | .error _ => false) = true :=
  ⟨autoS, r0, 1, bodyW 8 [], _, List.mem_cons_of_mem _ (List.mem_cons_of_mem _ List.mem_cons_self),
   takes_plain (by decide +kernel), rfl, by and_intros <;> decide +kernel⟩

/-- Each range of WellFormed, and a term that lies just beyond it. -/
theorem test_ill_formed_refused :
    ([
      .dbSubmit 256 0,
      .slotWrite 0 64 0 0,
      .slotWrite 0 0 128 0,
      .perstAssert 4,
      .payloadFetchDone ⟨256, 0⟩ [],
      .payloadFetchDone ⟨0, 64⟩ [],
      .portLinkFault 8 false false,
      .packetParse 4 false ⟨false, []⟩ 0,
      .portAnComplete 9,
      .nackUpTimer 524288,
      .rtcpReportTimer 262144,
      .speakerSelectDue 65536,
      .launchTimeReached 0 4,
      .mixSelect 8192,
      .audioOutputBlock false 262144,
      .coefSwapTakeEffect 64,
      .decCoreFault 52,
      .canvasFrameDeadline 4096,
      .compFault 16 false,
      .rateControlRun 2048 [],
      .encodePartStart 0 3 0,
      .encodePartStart 0 0 8,
      .encCoreFault 68,
      .scalarAlu 1024 .add 0 0 (.imm 0) none,
      .scalarAlu 0 .add 32 0 (.imm 0) none,
      .scalarAlu 0 .add 0 32 (.imm 0) none,
      .load 0 32 0 (.offset 0) 0 false none,
      .load 0 0 8 (.offset 0) 0 false none,
      .load 0 0 0 (.offset 0) 4 false none,
      .atomic 0 4 0 0 (.offset 0) none,
      .wait 0 256 none,
      .branch 0 8 0 0 none,
      .mfc 0 0 32 none,
      .break_ 0 32 none,
      .cmac 0 8 0 0 0 false false none,
      .cmac 0 0 0 32 0 false false none,
      .cmac 0 0 0 0 4 false false none,
      .accx 0 0 0 32 false 0 none,
      .accx 0 0 0 0 false 3 none,
      .xferComplete 0 false 8,
      .taskRelease 262144,
      .taskDispatch 5 0 0,
      .taskDispatch 0 0 3,
      .dmaDescriptorStart 64,
      .refreshDue 24 false,
      .timeIncWrite 0 2 0 0,
      .journalAck 0 false 8 0 none,
      .twinReserveRequest 0 false 0 (2 ^ 32) [],
      .unitStartCredit 8,
      .pwrgdLoss 7,
      .thermalSample 64 0,
      .vfEnableChange 4 0,
      .forwarderRecordRewrite 3 0] : List Instr).all (fun i => !i.wf) = true := by decide +kernel

/-- The last value of a range is well formed. -/
theorem test_well_formed_accepted : ([.dbSubmit 255 0, .slotWrite 255 63 127 0, .perstAssert 3, .payloadFetchDone ⟨255, 63⟩ [], .nackUpTimer 524287] : List Instr).all Instr.wf = true := by decide +kernel

/-- Witness: TransactionsOfSessions, the clause over the transactional commands. -/
theorem wit_TransactionsOfSessions_rows :
    ∃ (s : State) (r : CmdRef) (n : Nat) (b : List Word), ∃ row ∈ stagingRows, Takes row.1 n b r s ∧ row.2.1 b = none ∧
      (heldSession s.chip r.fn n).bind (·.txn) = none ∧ (slotAt r s).autoCommit = false :=
  ⟨inSes up 0x0106 (bodyW 3 [(0, 5)]) none, r0, 1, bodyW 3 [(0, 5)], _, List.mem_cons_of_mem _ List.mem_cons_self,
   takes_plain (by decide +kernel), rfl, by decide +kernel, by decide +kernel⟩

/-- The example of R405's ring addressing (spec/12_urymon_engines.md): base 0x4000, length 0x180. -/
theorem test_ring_addressing :
    let u := fun (a : Word) => ({ USet.zero with a := [(0, a)], b := [(0, 0x4000)], l := [(0, 0x180)] } : USet)
    (u 0x4170).address 0 (.postImm 1) 8 = (0x4170, some 0x4178) ∧ (u 0x4178).address 0 (.postImm 1) 8 = (0x4178, some 0x4000) ∧
      (u 0x4000).address 0 (.offset (-1)) 8 = (0x4178, none) := by decide +kernel

/-- The charges of the example canvas (spec/10_composition.md) and of a rendition without partition (spec/11_video_encode.md). -/
theorem test_charges :
    canvasCharge (bodyW 9 [(12, 1920 + 2 ^ 16 * 1080), (16, 30)]) = 63 ∧ canvasDram (bodyW 9 [(12, 1920 + 2 ^ 16 * 1080), (16, 30)]) = 221 := by decide +kernel

/-- The row guard of the example frame (spec/11_video_encode.md): row 16 reaches the budget, and the guard raises QP by 2 for the next row. -/
theorem test_row_guard :
    let b := bodyW 16 [(28, 2 * 256), (44, 44 * 256)]
    let p := { ep true false (some 4) 45 16 with bits := 48000, qp := 30, b := 50000, h := 75000 }
    (encRow b 3000 p).qp = 32 ∧ (encRow b 3000 p).bits = 51000 ∧ (encRow b 3000 p).guardRows = 1 ∧ (encRow b 3000 p).capped = false ∧
      (encRow b 2999 { p with bits := 46000 }).qp = 30 := by decide +kernel

/-- The example of a late base (spec/07_leg_adaptation_egress.md): latched at 2,000 s + 300,000 ns, it takes over at 2,000 s + 1,250,000 ns. -/
theorem test_late_base :
    let p := { EgPort.zero with admSec := 2000, admNs := 250000, admCycle := 1000000, admLen := 1, adm := [(1, 1000000)] }
    let c := { up with eg := { up.eg with ports := [(2, p)] }, time := { up.time with a := { up.time.a with t := (2000 * 10 ^ 9 + 300000) * 2 ^ 32 } } }
    (getEgPort (gateChange 2 c) 2).changeNs = 2000 * 10 ^ 9 + 1250000 ∧ (getEgPort (gateChange 2 c) 2).lateBase = true := by decide +kernel

/-- Witness: StepRunsFrontCommand. -/
theorem wit_StepRunsFrontCommand :
    (∃ (s : State), s.pending = []) :=
  ⟨upS, rfl⟩

/-- Witness: MemoryCanonicalKept. -/
theorem wit_MemoryCanonicalKept :
    (∃ s t : State, MemInv s ∧ step s = .next t) :=
  ⟨upS, _, by unfold MemInv; decide +kernel, rfl⟩

/-- Witness: CommandsLeaveQueue. -/
theorem wit_CommandsLeaveQueue :
    (∃ (i : Instr) (s t : State), exec i s = .next t) ∧
    (∃ i : Instr, (∀ a b c d, i ≠ .dramRead a b c d) ∧ ∀ a b c d, i ≠ .dramWrite a b c d) :=
  ⟨⟨.timeOffsetCleared, upS, _, rfl⟩,
   ⟨.timeOffsetCleared, (by intro a b c d h; cases h), (by intro a b c d h; cases h)⟩⟩

/-- Witness: BufferOperations. -/
theorem wit_BufferOperations :
    (∃ (s : State) (i : Nat) (size : Nat), size ≤ 16384 ∧ grantRule s.chip i (poolOfSize size) = 0) ∧
    (∃ (s : State) (i : Nat) (size : Nat), size ≤ 16384 ∧ grantRule s.chip i (poolOfSize size) ≠ 0) ∧
    (∃ (s : State) (i : Nat) (h : Nat), current s.chip h = true ∧ (getBuf s.chip h).owner = i ∧ (getBuf s.chip h).refs < 1048575) ∧
    (∃ (s : State) (i : Nat) (h : Nat), current s.chip h = true ∧ (getBuf s.chip h).owner = i ∧ 1048575 ≤ (getBuf s.chip h).refs) ∧
    (∃ (s : State) (i : Nat) (h : Nat), current s.chip h = true ∧ (getBuf s.chip h).owner = i ∧ 1 < (getBuf s.chip h).refs) ∧
    (∃ (s : State) (i : Nat) (h : Nat), current s.chip h = true ∧ (getBuf s.chip h).owner = i ∧ (getBuf s.chip h).refs ≤ 1) ∧
    (∃ (s : State) (i : Nat) (h : Nat) (d : Nat), current s.chip h = true ∧ (getBuf s.chip h).owner = i ∧ grantRule s.chip d (handlePool h) = 0) ∧
    (∃ (s : State) (r : CmdRef) (w : Nat) (c : Chip), Served 0x0A00 r s ∧ (layoutShares (bodyAt r s)).sum = 100 ∧ (∀ p, 2 ≤ p → p < 8 → (getPool s.chip p).used = 0) ∧ s.chip.pools.pages = [] ∧ w = bf (bodyAt r s) 0 0 10 * 2 ^ 30 ∧ fixedBytes + w ≤ capBytes s.chip ∧ c = { took r s with pools := { s.chip.pools with windowBytes := w, shares := layoutShares (bodyAt r s) } }) ∧
    (∃ (s : State) (r : CmdRef) (p : Nat), Served 0x0A00 r s ∧ (layoutShares (bodyAt r s)).sum = 100 ∧ 2 ≤ p ∧ p < 8 ∧ 0 < (getPool s.chip p).used) ∧
    (∃ (s : State) (r : CmdRef) (i : Nat), Served 0x0A04 r s ∧ i = bf (bodyAt r s) 0 0 12 ∧ ((ctxAt r s).operator = true ∨ i / 16 = r.fn)) ∧
    (∃ (s : State) (i : Nat) (h : Nat) (d : Nat) (op : Instr), current s.chip h = false ∧ (op = .bufferRetain i h false ∨ op = .bufferFree i h false ∨ op = .bufferHandover i h d false)) :=
  ⟨⟨st (bufUp 1), 0, 100, by and_intros <;> decide +kernel⟩,
   ⟨st up, 0, 100, by and_intros <;> decide +kernel⟩,
   ⟨st (bufUp 1), 0, hBuf, by and_intros <;> decide +kernel⟩,
   ⟨st (bufUp 1048575), 0, hBuf, by and_intros <;> decide +kernel⟩,
   ⟨st (bufUp 2), 0, hBuf, by and_intros <;> decide +kernel⟩,
   ⟨st (bufUp 1), 0, hBuf, by and_intros <;> decide +kernel⟩,
   ⟨st (bufUp 1), 0, hBuf, 1, by and_intros <;> decide +kernel⟩,
   ⟨withCmd up 0x0A00 [1, 25 + 256 * 75], r0, 2 ^ 30, _, by unfold Served; decide +kernel, by decide +kernel, by intro p h1 h2; interval_cases p <;> decide +kernel, by decide +kernel, by decide +kernel, by decide +kernel, rfl⟩,
   ⟨withCmd (bufUp 1) 0x0A00 [1, 25 + 256 * 75], r0, 2, by unfold Served; decide +kernel, by and_intros <;> decide +kernel⟩,
   ⟨withCmd up 0x0A04 [0], r0, 0, by unfold Served; decide +kernel, by and_intros <;> decide +kernel⟩,
   ⟨st (bufUp 1), 0, 5, 1, .bufferFree 0 5 false, by decide +kernel, .inr (.inl rfl)⟩⟩

/-- Witness: PortBringUp. -/
theorem wit_PortBringUp :
    (∃ (s : State) (lp : Nat), (getLport s.chip lp).st = .negotiating) ∧
    (∃ (s : State) (lp : Nat), (getLport s.chip lp).st = .training ∧ (getLport s.chip lp).aligning = false) ∧
    (∃ (s : State) (lp : Nat), (getLport s.chip lp).st = .training ∧ (getLport s.chip lp).aligning = true ∧ lp < 8) ∧
    (∃ (s : State) (lp : Nat) (lanes : BitVec 4), (getLport s.chip lp).st = .training ∧ (getLport s.chip lp).aligning = false ∧ lp < 8 ∧ lpFallback s.chip lp = 0) ∧
    (∃ (s : State) (lp : Nat) (lanes : BitVec 4), (getLport s.chip lp).st = .training ∧ (getLport s.chip lp).aligning = false ∧ lpFallback s.chip lp ≠ 0) ∧
    (∃ (s : State) (lp : Nat), (getLport s.chip lp).st = .waiting ∧ lpEnabled s.chip lp = true ∧ domOn s.chip (portIsland lp) = true ∧ lpMedia s.chip lp = 0) ∧
    (∃ (s : State) (lp : Nat) (co : Nat) (un : Nat) (cs : Nat) (n : Nat), (getLport s.chip lp).linkUp = true ∧ 24 * n < cs * 100000 ∧ (getLport s.chip lp).fecDegraded = false) ∧
    (∃ (s : State) (lp : Nat) (co : Nat) (un : Nat) (cs : Nat) (n : Nat), (getLport s.chip lp).linkUp = true ∧ cs * 100000 < 10 * n ∧ 9 ≤ (getLport s.chip lp).fecGoodS) :=
  ⟨⟨st (portUp fun p => { p with st := .negotiating }), 1, by decide +kernel⟩,
   ⟨st (portUp fun p => { p with st := .training }), 1, by and_intros <;> decide +kernel⟩,
   ⟨st (portUp fun p => { p with st := .training, aligning := true }), 1, by and_intros <;> decide +kernel⟩,
   ⟨st (portUp fun p => { p with st := .training }), 1, 5, by and_intros <;> decide +kernel⟩,
   ⟨st { portUp (fun p => { p with st := .training }) with net := { (portUp (fun p => { p with st := .training })).net with ports := [(0, { PortCfg.zero with fallback := 3 })] } }, 1, 5, by and_intros <;> decide +kernel⟩,
   ⟨st { portUp (fun p => { p with st := .waiting, enabled := true }) with net := { (portUp (fun p => { p with st := .waiting, enabled := true })).net with ports := [(0, { PortCfg.zero with split := 2 })] } }, 1, by and_intros <;> decide +kernel⟩,
   ⟨st (portUp fun p => { p with st := .up }), 1, 0, 0, 100, 100, by and_intros <;> decide +kernel⟩,
   ⟨st (portUp fun p => { p with st := .up, fecGoodS := 9 }), 1, 0, 0, 0, 100, by and_intros <;> decide +kernel⟩⟩

/-- Witness: PortClockAndCommands. -/
theorem wit_PortClockAndCommands :
    (∃ (s : State) (lp : Nat) (lf : Bool) (rf : Bool), (getLport s.chip lp).linkUp = true ∧ lp < 8) ∧
    (∃ (s : State) (m : Nat), m < 2) ∧
    (∃ (s : State) (m : Nat), m < 2) ∧
    (∃ (s : State) (r : CmdRef), Served 0x0200 r s ∧ portConfigFields (bodyAt r s) = none ∧ (∀ k < 4, (cfg s.chip).usesLport (4 * bf (bodyAt r s) 0 0 1 + k) = false)) ∧
    (∃ (s : State) (r : CmdRef), Served 0x0201 r s) :=
  ⟨⟨st (portUp fun p => { p with st := .up }), 1, true, false, by and_intros <;> decide +kernel⟩,
   ⟨st up, 1, by decide +kernel⟩,
   ⟨st up, 1, by decide +kernel⟩,
   ⟨withCmd up 0x0200 [0, 1522, 0, 1000], r0, by unfold Served; decide +kernel, by and_intros <;> decide +kernel⟩,
   ⟨withCmd up 0x0201 [0], r0, by unfold Served; decide +kernel⟩⟩

/-- Witness: SchedulerRows. -/
theorem wit_SchedulerRows :
    (∃ (s : State), domOn s.chip 9 = true) ∧
    (∃ (s : State) (k : Nat), (getTask s.chip k).st = .delayed ∧ (getTask s.chip k).comparator = true ∧ (getTask s.chip k).desc.target ≠ 7 ∧ targetAlive (waitSvc (getTask s.chip k).desc.release s.chip) (getTask s.chip k).desc = true) ∧
    (∃ (s : State) (ch : Nat) (k : Nat) (x : Task), domOn s.chip 9 = true ∧ s.chip.gx.draining = 0 ∧ dispatchHead s.chip 4 ch = some (k, x)) ∧
    (∃ (s : State) (k : Nat), s.chip.gx.draining = 0 ∧ (getTask s.chip k).st = .running ∧ (getTask s.chip k).done = true ∧ (getTask s.chip k).desc.flowEn = false ∧ (getTask s.chip k).desc.succ0.getLsbD 31 = false ∧ (getTask s.chip k).desc.succ1.getLsbD 31 = false ∧ (getTask s.chip k).status = 0 ∧ (getTask s.chip k).desc.compq ≠ 0 ∧ (getTask s.chip k).desc.compq ≠ 255) ∧
    (∃ (s : State) (k : Nat), s.chip.sched.mode ≠ 3 ∧ (getTask s.chip k).st = .waiting ∧ (getTask s.chip k).waitTick + s.chip.sched.waitTimeout ≤ s.chip.sched.ticks ∧ (getTask s.chip k).desc.flowEn = false ∧ (getTask s.chip k).desc.succ0.getLsbD 31 = false ∧ (getTask s.chip k).desc.succ1.getLsbD 31 = false) ∧
    (∃ (s : State) (fn : Nat) (v : Word), bar2Reach s.chip fn = true ∧ domOn s.chip 9 = true ∧ locked s.chip 7 = false) ∧
    (∃ (s : State) (fn : Nat) (v : Word), bar2Reach s.chip fn = true ∧ domOn s.chip 9 = true ∧ locked s.chip 7 = false ∧ 5 ≤ v.toNat % 1024 ∧ v.toNat % 1024 ≤ 1000) ∧
    (∃ (s : State) (fn : Nat) (v : Word), bar2Reach s.chip fn = true ∧ domOn s.chip 9 = true ∧ locked s.chip 7 = false ∧ (v.toNat % 1024 < 5 ∨ 1000 < v.toNat % 1024)) :=
  ⟨⟨upS, by decide +kernel⟩,
   ⟨st (taskUp { Task.zero with st := .delayed, comparator := true, desc := { TaskDesc.zero with target := 4 } }), 5, by and_intros <;> decide +kernel⟩,
   ⟨st (taskUp { Task.zero with st := .ready, desc := { TaskDesc.zero with target := 4 } }), 3, 5, { Task.zero with st := .ready, desc := { TaskDesc.zero with target := 4 } }, by and_intros <;> decide +kernel⟩,
   ⟨st (taskUp { Task.zero with st := .running, done := true, desc := { TaskDesc.zero with target := 4, compq := 9 } }), 5, by and_intros <;> decide +kernel⟩,
   ⟨st { taskUp { Task.zero with st := .waiting } with sched := { (taskUp { Task.zero with st := .waiting }).sched with ticks := 10000000 } }, 5, by and_intros <;> decide +kernel⟩,
   ⟨st { up with host := { up.host with b2Lock := 0 } }, 0, 1, by and_intros <;> decide +kernel⟩,
   ⟨upS, 0, 5, by and_intros <;> decide +kernel⟩,
   ⟨upS, 0, 4, by and_intros <;> decide +kernel⟩⟩

/-- Witness: TaskCommands. -/
theorem wit_TaskCommands :
    (∃ (s : State) (r : CmdRef), Served 0x0910 r s ∧ (taskDescOf (bodyAt r s)).target = 7 ∧ (taskDescOf (bodyAt r s)).succ0.getLsbD 31 = false ∧ (taskDescOf (bodyAt r s)).succ1.getLsbD 31 = false ∧ (taskDescOf (bodyAt r s)).flowEn = false ∧ bw (bodyAt r s) 0x40 = 0 ∧ 0 < (taskDescOf (bodyAt r s)).depCount ∧ operatorTasks s.chip < operatorLimit ∧ slotsFree s.chip (decide ((taskDescOf (bodyAt r s)).prio < 4)) ≠ 0) ∧
    (∃ (s : State) (r : CmdRef), Served 0x0913 r s ∧ 1 ≤ bf (bodyAt r s) 0 0 7 ∧ bf (bodyAt r s) 0 0 7 ≤ 64 ∧ operatorTasks s.chip + bf (bodyAt r s) 0 0 7 ≤ operatorLimit ∧ bf (bodyAt r s) 0 0 7 ≤ slotsFree s.chip false) ∧
    (∃ (s : State) (r : CmdRef) (x : Task), Served 0x0914 r s ∧ 1 ≤ bf (bodyAt r s) 4 0 16 ∧ operatorTask s.chip (bw (bodyAt r s) 0) = some x ∧ x.st = .allocated) ∧
    (∃ (s : State) (r : CmdRef) (x : Task), Served 0x0911 r s ∧ operatorTask s.chip (bw (bodyAt r s) 0) = some x ∧ x.st = .allocated ∧ x.desc.flowEn = false ∧ x.desc.succ0.getLsbD 31 = false ∧ x.desc.succ1.getLsbD 31 = false ∧ x.desc.compq = 0) ∧
    (∃ (s : State) (r : CmdRef), Served 0x0912 r s) ∧
    (∃ (s : State), inService s.chip = true ∧ s.chip.mgmt.keeperReset = 0 ∧ s.chip.gx.draining = 0 ∧ (∀ k ∈ s.chip.sched.tasks, k.2.st ≠ .running)) :=
  ⟨⟨withCmd up 0x0910 [7 + 65536], r0, by unfold Served; decide +kernel, by and_intros <;> decide +kernel⟩,
   ⟨withCmd up 0x0913 [2], r0, by unfold Served; decide +kernel, by and_intros <;> decide +kernel⟩,
   ⟨withCmd (taskUp { Task.zero with st := .allocated, operator := true }) 0x0914 [5, 1], r0, { Task.zero with st := .allocated, operator := true }, by unfold Served; decide +kernel, by and_intros <;> decide +kernel⟩,
   ⟨withCmd (taskUp { Task.zero with st := .allocated, operator := true }) 0x0911 [5], r0, { Task.zero with st := .allocated, operator := true }, by unfold Served; decide +kernel, by and_intros <;> decide +kernel⟩,
   ⟨withCmd up 0x0912 [1], r0, by unfold Served; decide +kernel⟩,
   ⟨upS, by and_intros <;> decide +kernel⟩⟩

/-- Witness: DramReadWrite. -/
theorem wit_DramReadWrite :
    (∃ (s : State) (src : Nat) (a : Nat) (data : List Byte) (p : Bool), MemInv s ∧ a + data.length ≤ capBytes s.chip ∧ anyFrozen s.chip = false) ∧
    (∃ (s : State) (src : Nat) (a : Nat) (n : Nat), a + n ≤ capBytes s.chip ∧ anyFrozen s.chip = false ∧ markedIn s.mem a n = []) ∧
    (∃ (s : State) (src : Nat) (a : Nat), a % 8 = 0 ∧ a + 8 ≤ capBytes s.chip ∧ anyFrozen s.chip = false ∧ a < packetBase ∧ markedIn s.mem a 8 = [a / 8] ∧ s.mem.bad a = false ∧ 3 ≤ tget 0 s.mem.flips (a / 8)) ∧
    (∃ (s : State) (src : Nat) (a : Nat) (n : Nat) (e : List (Nat × Nat)), capBytes s.chip < a + n) ∧
    (∃ (s : State) (src : Nat) (a : Nat) (data : List Byte) (p : Bool), capBytes s.chip < a + data.length) :=
  ⟨⟨upS, 0, 0, [7], true, by unfold MemInv; decide +kernel, by and_intros <;> decide +kernel⟩,
   ⟨upS, 0, 0, 8, by and_intros <;> decide +kernel⟩,
   ⟨{ upS with mem := { upS.mem with flips := [(1, 3)] } }, 0, 8, by and_intros <;> decide +kernel⟩,
   ⟨upS, 0, 2 ^ 40, 8, [], by decide +kernel⟩,
   ⟨upS, 0, 2 ^ 40, [1], false, by decide +kernel⟩⟩

/-- Witness: DramUpkeep. -/
theorem wit_DramUpkeep :
    (∃ (s : State) (u : Nat), u < 24 ∧ ((getSub s.chip u).st = 1 ∨ (getSub s.chip u).st = 2) ∧ (getSub s.chip u).selfRefresh = false) ∧
    (∃ (s : State) (u : Nat), u < 24 ∧ ((getSub s.chip u).st = 1 ∨ (getSub s.chip u).st = 2) ∧ (getSub s.chip u).selfRefresh = false ∧ (getSub s.chip u).refsb = false ∧ (getSub s.chip u).debt + 4 < 16) ∧
    (∃ (s : State) (u : Nat), u < 24 ∧ (getSub s.chip u).srEn = true ∧ (getSub s.chip u).selfRefresh = false ∧ ((getSub s.chip u).st = 1 ∨ (getSub s.chip u).st = 2)) ∧
    (∃ (s : State) (u : Nat) (d : Bool) (v : BitVec 8), u < 24 ∧ ((getSub s.chip u).st = 1 ∨ (getSub s.chip u).st = 2)) ∧
    (∃ (s : State) (u : Nat), u < 24 ∧ s.chip.pwr.phase = .starting ∧ domOn s.chip 7 = true ∧ domOn s.chip 8 = true ∧ (getSub s.chip u).st = 0 ∧ (getSub s.chip u).step < 8) ∧
    (∃ (s : State) (u : Nat), u < 24 ∧ s.chip.pwr.phase = .starting ∧ domOn s.chip 7 = true ∧ domOn s.chip 8 = true ∧ (getSub s.chip u).st = 0 ∧ (getSub s.chip u).step = 8) ∧
    (∃ (s : State) (u : Nat) (d : Nat), u < 24 ∧ (getSub s.chip u).st = 1 ∧ (getSub s.chip u).retraining = false ∧ (getSub s.chip u).driftPs < d) ∧
    (∃ (s : State) (u : Nat), u < 24 ∧ (getSub s.chip u).retraining = true) ∧
    (∃ (s : State) (u : Nat), u < 24 ∧ (getSub s.chip u).retraining = true ∧ (getSub s.chip u).consecFails = 2) ∧
    (∃ (s : State) (u : Nat) (k : BitVec 2), u < 24 ∧ ((getSub s.chip u).st = 1 ∨ (getSub s.chip u).st = 2)) ∧
    (∃ (s : State), s.chip.dram.scrubEn = true ∧ inService s.chip = true ∧ s.chip.dram.scrubPos + 64 < capBytes s.chip ∧ frozen s.chip s.chip.dram.scrubPos = false ∧ markedIn s.mem s.chip.dram.scrubPos 64 = []) ∧
    (∃ (s : State) (i : Nat) (w : Nat) (n : Nat), i < 27 ∧ s.chip.dram.sramErr.contains (i * 2 ^ 20 + w) = true ∧ s.chip.dram.sramRepairs.contains (i * 2 ^ 20 + w) = false) ∧
    (∃ (s : State) (fn : Nat) (lo : Word) (hi : Word), MemInv s ∧ bar2Reach s.chip fn = true ∧ domOn s.chip 7 = true ∧ domOn s.chip 8 = true ∧ locked s.chip 4 = false ∧ (lo.toNat + 2 ^ 32 * hi.toNat) % 8 = 0 ∧ lo.toNat + 2 ^ 32 * hi.toNat < capBytes s.chip ∧ s.chip.dram.injArm = true ∧ 1 ≤ s.chip.dram.injMode ∧ s.chip.dram.injMode ≤ 3) :=
  ⟨⟨st (subUp fun x => { x with st := 1 }), 3, by and_intros <;> decide +kernel⟩,
   ⟨st (subUp fun x => { x with st := 2, refsb := false }), 3, by and_intros <;> decide +kernel⟩,
   ⟨st (subUp fun x => { x with st := 1, srEn := true }), 3, by and_intros <;> decide +kernel⟩,
   ⟨st (subUp fun x => { x with st := 1 }), 3, false, 5, by and_intros <;> decide +kernel⟩,
   ⟨st { startUp with dram := (subUp fun x => { x with step := 7 }).dram }, 3, by and_intros <;> decide +kernel⟩,
   ⟨st { startUp with dram := (subUp fun x => { x with step := 8 }).dram }, 3, by and_intros <;> decide +kernel⟩,
   ⟨st (subUp fun x => { x with st := 1, driftPs := 1 }), 3, 2, by and_intros <;> decide +kernel⟩,
   ⟨st (subUp fun x => { x with st := 1, retraining := true }), 3, by and_intros <;> decide +kernel⟩,
   ⟨st (subUp fun x => { x with st := 1, retraining := true, consecFails := 2 }), 3, by and_intros <;> decide +kernel⟩,
   ⟨st (subUp fun x => { x with st := 1 }), 3, 1, by and_intros <;> decide +kernel⟩,
   ⟨st (upDram fun d => { d with scrubEn := true }), by and_intros <;> decide +kernel⟩,
   ⟨st (upDram fun d => { d with sramErr := [7] }), 0, 7, 0, by and_intros <;> decide +kernel⟩,
   ⟨st (upDram fun d => { d with injArm := true, injMode := 1 }), 0, 64, 0, by unfold MemInv; decide +kernel, by and_intros <;> decide +kernel⟩⟩

/-- Witness: MemoryCommands. -/
theorem wit_MemoryCommands :
    (∃ (s : State) (r : CmdRef), Served 0x0B00 r s) ∧
    (∃ (s : State) (r : CmdRef), Served 0x0B01 r s ∧ bf (bodyAt r s) 0 0 5 < 24 ∧ bd (bodyAt r s) 8 % 8 = 0 ∧ bit (bw (bodyAt r s) 0) 8 = false) ∧
    (∃ (s : State) (r : CmdRef), Served 0x0B02 r s ∧ (slotAt r s).cancel = false ∧ pprRange s.chip (bodyAt r s) = true ∧ s.chip.dram.busy = false ∧ (getSub s.chip (bf (bodyAt r s) 0 0 5)).st ≠ 3 ∧ (getSub s.chip (bf (bodyAt r s) 0 0 5)).ppr.contains (bf (bodyAt r s) 0 8 1 * 8 + bf (bodyAt r s) 0 12 3) = false) ∧
    (∃ (s : State) (r : CmdRef), Served 0x0B03 r s ∧ (slotAt r s).cancel = false ∧ current s.chip (bw (bodyAt r s) 0) = true ∧ 2 ≤ handlePool (bw (bodyAt r s) 0) ∧ (getBuf s.chip (bw (bodyAt r s) 0)).owner = identity (operatorFn s.chip) 0 ∧ s.chip.dram.busy = false ∧ frozenIn s.chip (bufAddr s.chip (bw (bodyAt r s) 0)) (poolBytes (handlePool (bw (bodyAt r s) 0))) = []) ∧
    (∃ (s : State) (r : CmdRef) (f : FreezeRec), Served 0x0B04 r s ∧ bd (bodyAt r s) 0 % 8 = 0 ∧ s.chip.dram.freeze = some f) ∧
    (∃ (s : State) (r : CmdRef), Served 0x0B04 r s ∧ bd (bodyAt r s) 0 % 8 = 0 ∧ s.chip.dram.freeze = none) ∧
    (∃ (s : State) (r : CmdRef), Served 0x0B03 r s ∧ current s.chip (bw (bodyAt r s) 0) = true ∧ 2 ≤ handlePool (bw (bodyAt r s) 0) ∧ (getBuf s.chip (bw (bodyAt r s) 0)).owner = identity (operatorFn s.chip) 0 ∧ s.chip.dram.busy = false ∧ frozenIn s.chip (bufAddr s.chip (bw (bodyAt r s) 0)) (poolBytes (handlePool (bw (bodyAt r s) 0))) ≠ []) :=
  ⟨⟨withCmd up 0x0B00 [], r0, by unfold Served; decide +kernel⟩,
   ⟨withCmd up 0x0B01 [3, 0, 8, 0], r0, by unfold Served; decide +kernel, by and_intros <;> decide +kernel⟩,
   ⟨withCmd (subUp fun x => { x with st := 1 }) 0x0B02 [3, 7], r0, by unfold Served; decide +kernel, by and_intros <;> decide +kernel⟩,
   ⟨withCmd (bufUp 1) 0x0B03 [wd hBuf], r0, by unfold Served; decide +kernel, by and_intros <;> decide +kernel⟩,
   ⟨withCmd (upDram fun d => { d with freeze := some frz }) 0x0B04 [8, 0], r0, frz, by unfold Served; decide +kernel, by and_intros <;> decide +kernel⟩,
   ⟨withCmd up 0x0B04 [8, 0], r0, by unfold Served; decide +kernel, by and_intros <;> decide +kernel⟩,
   ⟨withCmd { bufUp 1 with dram := { up.dram with subs := (List.range 24).map (fun i => (i, { Sub.zero with st := 3 })) } } 0x0B03 [wd hBuf], r0, by unfold Served; decide +kernel, by and_intros <;> decide +kernel⟩⟩

/-- Witness: DmaDescriptors. -/
theorem wit_DmaDescriptors :
    (∃ (s : State) (ch : Nat) (d : DmaDesc) (rest : List DmaDesc), ch < 64 ∧ (getChan s.chip ch).active = false ∧ (getChan s.chip ch).pause = false ∧ (getChan s.chip ch).paused = false ∧ (getChan s.chip ch).cqFull = false ∧ (getChan s.chip ch).chain = d :: rest ∧ (getChan s.chip ch).cut = [] ∧ checkDesc s.chip d = 0 ∧ d.length ≠ 0) ∧
    (∃ (s : State) (ch : Nat) (d : DmaDesc), ch < 64 ∧ (getChan s.chip ch).active = false ∧ (getChan s.chip ch).pause = false ∧ (getChan s.chip ch).paused = false ∧ (getChan s.chip ch).cqFull = false ∧ (getChan s.chip ch).chain = [d] ∧ (getChan s.chip ch).cut = [] ∧ (getChan s.chip ch).results = [] ∧ d.record = false ∧ checkDesc s.chip d ≠ 0 ∧ (getChan s.chip ch).cmd ≠ 0 ∧ (getSlot s.chip ((getChan s.chip ch).cmd - 1)).open_ = true) ∧
    (∃ (s : State) (ch : Nat) (ps : Nat) (pd : Nat) (hs : List Byte) (hd : List Byte), ch < 64 ∧ MemInv s ∧ anyFrozen s.chip = false ∧ (getChan s.chip ch).active = true ∧ (getChan s.chip ch).started = true ∧ (getChan s.chip ch).paused = false ∧ (getChan s.chip ch).act.op = 0 ∧ (getChan s.chip ch).act.srcSpace = 0 ∧ (getChan s.chip ch).act.dstSpace = 0 ∧ (getChan s.chip ch).act.record = false ∧ spacePieces s.chip 0 (getChan s.chip ch).act.func (getChan s.chip ch).actSrc (getChan s.chip ch).actLen = some [(ps, (getChan s.chip ch).actLen)] ∧ spacePieces s.chip 0 (getChan s.chip ch).act.func (getChan s.chip ch).actDst (getChan s.chip ch).actLen = some [(pd, (getChan s.chip ch).actLen)] ∧ markedIn s.mem ps (getChan s.chip ch).actLen = []) ∧
    (∃ (s : State) (fn : Nat) (ch : Nat), ch < 64 ∧ bar2Reach s.chip fn = true ∧ domOn s.chip 9 = true ∧ locked s.chip 5 = false ∧ (getChan s.chip ch).active = false) ∧
    (∃ (s : State) (ch : Nat) (n : Nat) (hs : List Byte) (hd : List Byte), ch < 64 ∧ (getChan s.chip ch).active = true ∧ (getChan s.chip ch).started = true ∧ (getChan s.chip ch).pause = true ∧ (getChan s.chip ch).paused = false) ∧
    (∃ (s : State) (fn : Nat) (ch : Nat), ch < 64 ∧ bar2Reach s.chip fn = true ∧ domOn s.chip 9 = true ∧ locked s.chip 5 = false ∧ (getChan s.chip ch).active = true) ∧
    (∃ (s : State) (fn : Nat) (ch : Nat), ch < 64 ∧ bar2Reach s.chip fn = true ∧ domOn s.chip 9 = true ∧ locked s.chip 5 = false ∧ (getChan s.chip ch).active = true ∧ (getChan s.chip ch).started = true ∧ (getChan s.chip ch).paused = true ∧ (getChan s.chip ch).act.record = false ∧ (getChan s.chip ch).cmd = 0 ∧ (getChan s.chip ch).task = 0 ∧ (getChan s.chip ch).arm = false) :=
  ⟨⟨onChan (fun c => { c with chain := [fill16] }), 3, fill16, [], by and_intros <;> decide +kernel⟩,
   ⟨st { openCmd with chans := [(3, { Chan.zero with chain := [{ fill16 with length := 8 }], cmd := 1 })] }, 3, { fill16 with length := 8 }, by and_intros <;> decide +kernel⟩,
   ⟨st { dbuf with chans := [(3, { Chan.zero with active := true, started := true, actSrc := hBuf, actDst := hBuf + 2 ^ 36, actLen := 16 })] }, 3, bufAddr dbuf hBuf, bufAddr dbuf hBuf + 16, [], [], by decide +kernel, by unfold MemInv; decide +kernel, by and_intros <;> decide +kernel⟩,
   ⟨onChan id, 0, 3, by and_intros <;> decide +kernel⟩,
   ⟨onChan (fun c => { c with active := true, started := true, pause := true }), 3, 0, [], [], by and_intros <;> decide +kernel⟩,
   ⟨onChan (fun c => { c with active := true }), 0, 3, by and_intros <;> decide +kernel⟩,
   ⟨onChan (fun c => { c with active := true, started := true, paused := true }), 0, 3, by and_intros <;> decide +kernel⟩⟩

/-- Witness: ShadowAndSubmit. -/
theorem wit_ShadowAndSubmit :
    (∃ (s : State) (fn : Nat) (ch : Nat), bar2Reach s.chip fn = true ∧ domOn s.chip 9 = true ∧ locked s.chip 5 = false ∧ directChan ch = true ∧ (getChan s.chip ch).active = true) ∧
    (∃ (s : State) (fn : Nat) (ch : Nat), bar2Reach s.chip fn = true ∧ domOn s.chip 9 = true ∧ locked s.chip 5 = false ∧ directChan ch = true) ∧
    (∃ (s : State) (fn : Nat) (ch : Nat) (w : Nat) (v : Word), bar2Reach s.chip fn = true ∧ domOn s.chip 9 = true ∧ locked s.chip 5 = false ∧ directChan ch = true ∧ w < 8) ∧
    (∃ (s : State) (ch : Nat) (w : Nat) (v : Word), w < 8 ∧ (getChan s.chip ch).heldWrite = some (0x20 + 4 * w, v) ∧ (getChan s.chip ch).arm = false) ∧
    (∃ (s : State) (fn : Nat) (ch : Nat) (v : Word), bar2Reach s.chip fn = true ∧ domOn s.chip 9 = true ∧ locked s.chip 5 = false ∧ directChan ch = true ∧ (getChan s.chip ch).stalled = none) ∧
    (∃ (s : State) (r : CmdRef), Served 0x0A02 r s ∧ 1 ≤ bf (bodyAt r s) 0 0 5 ∧ bf (bodyAt r s) 0 0 5 ≤ 16 ∧ idleChans s.chip ≠ []) ∧
    (∃ (s : State) (r : CmdRef), Served 0x0A03 r s ∧ (∀ p ∈ windowPagesOf (bodyAt r s), (p + 1) * pageBytes ≤ bar4Bytes s.chip r.fn) ∧ bit (bw (bodyAt r s) 8) 0 = false ∧ (windowPagesOf (bodyAt r s)).length ≤ (freePages s.chip).length) ∧
    (∃ (s : State) (r : CmdRef), Served 0x0A03 r s ∧ (∀ p ∈ windowPagesOf (bodyAt r s), (p + 1) * pageBytes ≤ bar4Bytes s.chip r.fn) ∧ bit (bw (bodyAt r s) 8) 0 = true) ∧
    (∃ (s : State) (ch : Nat) (d : DmaDesc) (rest : List DmaDesc), ch < 64 ∧ (getChan s.chip ch).active = false ∧ (getChan s.chip ch).pause = false ∧ (getChan s.chip ch).paused = false ∧ (getChan s.chip ch).cqFull = false ∧ (getChan s.chip ch).chain = d :: rest ∧ (getChan s.chip ch).cut = [] ∧ checkDesc s.chip d = 0 ∧ d.length ≠ 0) ∧
    (∃ (s : State) (ch : Nat) (ps : Nat) (pd : Nat) (hs : List Byte) (hd : List Byte), ch < 64 ∧ MemInv s ∧ anyFrozen s.chip = false ∧ (getChan s.chip ch).active = true ∧ (getChan s.chip ch).started = true ∧ (getChan s.chip ch).paused = false ∧ (getChan s.chip ch).act.op = 0 ∧ (getChan s.chip ch).act.srcSpace = 0 ∧ (getChan s.chip ch).act.dstSpace = 0 ∧ (getChan s.chip ch).act.record = false ∧ spacePieces s.chip 0 (getChan s.chip ch).act.func (getChan s.chip ch).actSrc (getChan s.chip ch).actLen = some [(ps, (getChan s.chip ch).actLen)] ∧ spacePieces s.chip 0 (getChan s.chip ch).act.func (getChan s.chip ch).actDst (getChan s.chip ch).actLen = some [(pd, (getChan s.chip ch).actLen)] ∧ markedIn s.mem ps (getChan s.chip ch).actLen = []) ∧
    (∃ (s : State) (fn : Nat) (ch : Nat), ch < 64 ∧ bar2Reach s.chip fn = true ∧ domOn s.chip 9 = true ∧ locked s.chip 5 = false ∧ (getChan s.chip ch).active = false) ∧
    (∃ (s : State) (ch : Nat) (n : Nat) (hs : List Byte) (hd : List Byte), ch < 64 ∧ (getChan s.chip ch).active = true ∧ (getChan s.chip ch).started = true ∧ (getChan s.chip ch).pause = true ∧ (getChan s.chip ch).paused = false) ∧
    (∃ (s : State) (fn : Nat) (ch : Nat), ch < 64 ∧ bar2Reach s.chip fn = true ∧ domOn s.chip 9 = true ∧ locked s.chip 5 = false ∧ (getChan s.chip ch).active = true) ∧
    (∃ (s : State) (fn : Nat) (ch : Nat), ch < 64 ∧ bar2Reach s.chip fn = true ∧ domOn s.chip 9 = true ∧ locked s.chip 5 = false ∧ (getChan s.chip ch).active = true ∧ (getChan s.chip ch).started = true ∧ (getChan s.chip ch).paused = true ∧ (getChan s.chip ch).act.record = false ∧ (getChan s.chip ch).cmd = 0 ∧ (getChan s.chip ch).task = 0 ∧ (getChan s.chip ch).arm = false) :=
  ⟨⟨directS (fun c => { c with active := true }), 0, 57, by and_intros <;> decide +kernel⟩,
   ⟨directS id, 0, 57, by and_intros <;> decide +kernel⟩,
   ⟨directS id, 0, 57, 3, 9, by and_intros <;> decide +kernel⟩,
   ⟨directS (fun c => { c with heldWrite := some (0x20 + 4 * 3, 9) }), 57, 3, 9, by and_intros <;> decide +kernel⟩,
   ⟨directS id, 0, 57, 1, by and_intros <;> decide +kernel⟩,
   ⟨withCmd up 0x0A02 [1], r0, by unfold Served; decide +kernel, by and_intros <;> decide +kernel⟩,
   ⟨withCmd (bufUp 1) 0x0A03 [0, 1, 0], r0, by unfold Served; decide +kernel, by and_intros <;> decide +kernel⟩,
   ⟨withCmd up 0x0A03 [0, 1, 1], r0, by unfold Served; decide +kernel, by and_intros <;> decide +kernel⟩,
   ⟨onChan (fun c => { c with chain := [fill16] }), 3, fill16, [], by and_intros <;> decide +kernel⟩,
   ⟨st { dbuf with chans := [(3, { Chan.zero with active := true, started := true, actSrc := hBuf, actDst := hBuf + 2 ^ 36, actLen := 16 })] }, 3, bufAddr dbuf hBuf, bufAddr dbuf hBuf + 16, [], [], by decide +kernel, by unfold MemInv; decide +kernel, by and_intros <;> decide +kernel⟩,
   ⟨onChan id, 0, 3, by and_intros <;> decide +kernel⟩,
   ⟨onChan (fun c => { c with active := true, started := true, pause := true }), 3, 0, [], [], by and_intros <;> decide +kernel⟩,
   ⟨onChan (fun c => { c with active := true }), 0, 3, by and_intros <;> decide +kernel⟩,
   ⟨onChan (fun c => { c with active := true, started := true, paused := true }), 0, 3, by and_intros <;> decide +kernel⟩⟩

/-- Witness: PowerGovernor. -/
theorem wit_PowerGovernor :
    (∃ (s : State) (d : Nat) (l : List Nat), s.chip.pwr.switch = none ∧ s.chip.mgmt.keeperReset = 0 ∧ s.chip.pwr.req.on = d :: l ∧ stepAmps d ≤ 10) ∧
    (∃ (s : State) (d : Nat) (l : List Nat), s.chip.pwr.switch = none ∧ s.chip.mgmt.keeperReset = 0 ∧ s.chip.pwr.req.on = d :: l ∧ 10 < stepAmps d) ∧
    (∃ (s : State) (w : Switch), s.chip.pwr.switch = some w ∧ w.phase = .lead ∧ w.on = true) ∧
    (∃ (s : State) (w : Switch), s.chip.pwr.switch = some w ∧ w.phase = .ramp ∧ w.on = true) ∧
    (∃ (s : State) (w : Switch), s.chip.pwr.switch = some w ∧ w.phase = .wake ∧ w.on = true ∧ w.dom < 24 ∧ s.chip.pwr.phase = .starting) ∧
    (∃ (s : State), s.chip.pwr.loadstepN = false ∧ s.chip.pwr.loadstepEnd ≠ 0) ∧
    (∃ (s : State) (w : Switch), s.chip.pwr.switch = some w ∧ (w.phase = .ramp ∨ w.phase = .wake) ∧ w.on = true ∧ w.dom < 24) ∧
    (∃ (s : State) (k : Nat), unitAmps k ≤ creditAfter s.chip.pwr.credit (s.chip.time.cyc - s.chip.pwr.creditCyc)) ∧
    (∃ (s : State) (k : Nat), s.chip.pwr.creditCyc ≤ s.chip.time.cyc ∧ creditAfter s.chip.pwr.credit (s.chip.time.cyc - s.chip.pwr.creditCyc) < unitAmps k) ∧
    (∃ (s : State), s.chip.pwr.vcoreOn = true ∧ s.chip.pwr.switch = none ∧ s.chip.pwr.mvNow < s.chip.pwr.mvTarget) :=
  ⟨⟨reqUp 6, 6, [], by and_intros <;> decide +kernel⟩,
   ⟨reqUp 14, 14, [], by and_intros <;> decide +kernel⟩,
   ⟨swUp .lead, swOf .lead, by and_intros <;> decide +kernel⟩,
   ⟨swUp .ramp, swOf .ramp, by and_intros <;> decide +kernel⟩,
   ⟨st (upPwr fun x => { x with switch := some (swOf .wake), phase := .starting }), swOf .wake, by and_intros <;> decide +kernel⟩,
   ⟨st (upPwr fun x => { x with loadstepN := false, loadstepEnd := 7 }), by and_intros <;> decide +kernel⟩,
   ⟨swUp .ramp, swOf .ramp, by and_intros <;> decide +kernel⟩,
   ⟨st (upPwr fun x => { x with credit := 200 }), 0, by decide +kernel⟩,
   ⟨st (upPwr fun x => { x with credit := 0 }), 0, by and_intros <;> decide +kernel⟩,
   ⟨st (upPwr fun x => { x with vcoreOn := true, mvNow := 700, mvTarget := 750 }), by and_intros <;> decide +kernel⟩⟩

/-- Witness: ResetsAndStart. -/
theorem wit_ResetsAndStart :
    (∃ (s : State) (rail : Nat), rail < 2) ∧
    (∃ (s : State) (b : Nat), s.chip.pwr.phase = .held) ∧
    (∃ (s : State) (rail : Nat), 2 ≤ rail ∧ rail < 7 ∧ inService s.chip = true) ∧
    (∃ (s : State) (rail : Nat) (b : Nat), s.chip.pwr.phase = .fatal ∧ s.chip.mgmt.fatalCause = 2 ∧ (∀ x ∈ s.chip.pwr.pgLow, x = rail)) ∧
    (∃ (s : State) (b : Nat), s.chip.pwr.resetAt ≠ 0) ∧
    (∃ (s : State) (v : Nat), s.chip.pwr.phase = .starting ∧ s.chip.pwr.step = 4 ∧ s.chip.pwr.bootMode = 0 ∧ s.chip.pwr.tried = [] ∧ Config.minSecurityVersion ≤ v) ∧
    (∃ (s : State) (k : Bool) (g : Bool) (v : Nat), s.chip.pwr.phase = .starting ∧ s.chip.pwr.step = 4 ∧ s.chip.pwr.bootMode = 0 ∧ s.chip.pwr.tried = []) ∧
    (∃ (s : State) (u : BitVec 20), s.chip.pwr.phase = .starting ∧ s.chip.pwr.step = 1 ∧ s.chip.pwr.bootMode < 4) ∧
    (∃ (s : State) (u : BitVec 20), s.chip.pwr.phase = .starting ∧ s.chip.pwr.step = 2 ∧ s.chip.pwr.pgLow = []) ∧
    (∃ (s : State) (u : BitVec 20), s.chip.pwr.phase = .starting ∧ s.chip.pwr.step = 11 ∧ haveOn s.chip (startDomains s.chip) = true) :=
  ⟨⟨upS, 1, by decide +kernel⟩,
   ⟨st (upPwr fun x => { x with phase := .held }), 0, by decide +kernel⟩,
   ⟨upS, 3, by and_intros <;> decide +kernel⟩,
   ⟨st { up with pwr := { up.pwr with phase := .fatal, pgLow := [3] }, mgmt := { up.mgmt with fatalCause := 2 } }, 3, 0, by and_intros <;> decide +kernel⟩,
   ⟨st (upPwr fun x => { x with resetAt := 5 }), 0, by decide +kernel⟩,
   ⟨st (upPwr fun x => { x with phase := .starting, step := 4, tried := [] }), Config.minSecurityVersion, by decide +kernel, by decide +kernel, by decide +kernel, by decide +kernel, Nat.le_refl _⟩,
   ⟨st (upPwr fun x => { x with phase := .starting, step := 4, tried := [] }), true, true, 0, by and_intros <;> decide +kernel⟩,
   ⟨st (upPwr fun x => { x with phase := .starting, step := 1 }), 0, by and_intros <;> decide +kernel⟩,
   ⟨st (upPwr fun x => { x with phase := .starting, step := 2, pgLow := [] }), 0, by and_intros <;> decide +kernel⟩,
   ⟨st (upPwr fun x => { x with phase := .starting, step := 11 }), 0, by and_intros <;> decide +kernel⟩⟩

/-- Witness: PowerCommands. -/
theorem wit_PowerCommands :
    (∃ (s : State) (r : CmdRef), Served 0x0E00 r s ∧ bf (bodyAt r s) 0 0 24 &&& bf (bodyAt r s) 4 0 24 = 0 ∧ (∀ d ∈ maskDomains (bf (bodyAt r s) 0 0 24) ++ maskDomains (bf (bodyAt r s) 4 0 24), isBaseDomain d = false ∧ s.chip.pwr.failed.contains d = false) ∧ (∀ d ∈ maskDomains (bf (bodyAt r s) 4 0 24), domOn s.chip d = false) ∧ (∃ d ∈ maskDomains (bf (bodyAt r s) 0 0 24), domOn s.chip d = false) ∧ powerBusy s.chip = false) ∧
    (∃ (s : State) (r : CmdRef), Served 0x0E00 r s ∧ bf (bodyAt r s) 0 0 24 &&& bf (bodyAt r s) 4 0 24 = 0 ∧ (∃ d ∈ maskDomains (bf (bodyAt r s) 0 0 24) ++ maskDomains (bf (bodyAt r s) 4 0 24), isBaseDomain d = true)) ∧
    (∃ (s : State) (r : CmdRef), Served 0x0E01 r s ∧ 350 ≤ bf (bodyAt r s) 4 0 11 ∧ bf (bodyAt r s) 4 0 11 ≤ 1400 ∧ bf (bodyAt r s) 4 0 11 % 50 = 0 ∧ usage s.chip 12 ≤ capacity (setClocks (bw (bodyAt r s) 0) (bf (bodyAt r s) 4 0 11) s.chip) 12) ∧
    (∃ (s : State) (r : CmdRef), Served 0x0E02 r s ∧ bf (bodyAt r s) 0 0 16 = 0xD0A7) ∧
    (∃ (s : State) (r : CmdRef), Served 0x0E10 r s ∧ 1 ≤ bw (bodyAt r s) 8 ∧ bw (bodyAt r s) 8 ≤ 16777216 ∧ hostReach s.chip r.fn = true ∧ (slotAt r s).cancel = false) :=
  ⟨⟨withCmd (upPwr fun x => { x with on := 0xFFEFFF }) 0x0E00 [4096, 0], r0, by unfold Served; decide +kernel, by and_intros <;> decide +kernel⟩,
   ⟨withCmd up 0x0E00 [2, 0], r0, by unfold Served; decide +kernel, by and_intros <;> decide +kernel⟩,
   ⟨withCmd up 0x0E01 [1, 1000], r0, by unfold Served; decide +kernel, by decide +kernel, by decide +kernel, by decide +kernel, Nat.le_trans (Nat.le_of_eq (show _ = 0 by decide +kernel)) (Nat.zero_le _)⟩,
   ⟨withCmd up 0x0E02 [0xD0A7], r0, by unfold Served; decide +kernel, by decide +kernel⟩,
   ⟨withCmd up 0x0E10 [0, 0, 4], r0, by unfold Served; decide +kernel, by and_intros <;> decide +kernel⟩⟩

/-- Witness: SlotMisuseIgnored. -/
theorem wit_SlotMisuseIgnored :
    (∃ (s : State) (fn : Nat) (k : Nat) (w : Nat) (v : Word), barReach s.chip fn = true ∧ k < 64 ∧ (getSlot s.chip (slotKey fn k)).st ≠ .empty) ∧
    (∃ (s : State) (fn : Nat) (v : Word), barReach s.chip fn = true ∧ (getFn s.chip fn).enable = true ∧ (getSlot s.chip (slotKey fn (bits v.toNat 0 6))).st ≠ .empty) ∧
    (∃ (s : State) (fn : Nat) (v : Word), barReach s.chip fn = true ∧ ((getSlot s.chip (slotKey fn (bits v.toNat 16 6))).st ≠ .done ∨ (getSlot s.chip (slotKey fn (bits v.toNat 16 6))).tag ≠ bits v.toNat 0 16)) ∧
    (∃ (s : State) (fn : Nat) (v : Word), barReach s.chip fn = true ∧ ((getSlot s.chip (slotKey fn (bits v.toNat 16 6))).open_ = false ∨ (getSlot s.chip (slotKey fn (bits v.toNat 16 6))).tag ≠ bits v.toNat 0 16)) :=
  ⟨⟨slotUp { Slot.zero with st := .done }, 0, 0, 0, 1, by and_intros <;> decide +kernel⟩,
   ⟨slotUp { Slot.zero with st := .done }, 0, 0, by and_intros <;> decide +kernel⟩,
   ⟨slotUp { Slot.zero with st := .done, tag := 7 }, 0, 8, by and_intros <;> decide +kernel⟩,
   ⟨slotUp { Slot.zero with st := .busy, tag := 7 }, 0, 8, by and_intros <;> decide +kernel⟩⟩

/-- Witness: UnalignedAccessCounted. -/
theorem wit_UnalignedAccessCounted :
    (∃ (s : State) (fn : Nat) (bar2 : Bool) (rd : Bool), accessReach s.chip fn bar2 = true) :=
  ⟨upS, 0, true, true, by decide +kernel⟩

/-- Witness: Bar4Window. -/
theorem wit_Bar4Window :
    (∃ (s : State) (fn : Nat) (a : Nat) (d : Nat) (data : List Byte), MemInv s ∧ barReach s.chip fn = true ∧ data ≠ [] ∧ anyFrozen s.chip = false ∧ a % pageBytes + data.length ≤ pageBytes ∧ windowAddr s.chip fn a = some d) ∧
    (∃ (s : State) (fn : Nat) (a : Nat) (data : List Byte) (p : Bool), barReach s.chip fn = true ∧ data ≠ [] ∧ a % pageBytes + data.length ≤ pageBytes ∧ windowAddr s.chip fn a = none) ∧
    (∃ (s : State) (fn : Nat) (a : Nat) (n : Nat), barReach s.chip fn = true ∧ 0 < n ∧ a % pageBytes + n ≤ pageBytes ∧ windowAddr s.chip fn a = none) ∧
    (∃ (s : State) (fn : Nat) (a : Nat) (n : Nat) (d : Nat), barReach s.chip fn = true ∧ 0 < n ∧ a % pageBytes + n ≤ pageBytes ∧ windowAddr s.chip fn a = some d ∧ anyFrozen s.chip = false ∧ markedIn s.mem d n = []) :=
  ⟨⟨mapUp, 0, 64, fixedBytes + 3 * pageBytes + 64, [1, 2], by unfold MemInv; decide +kernel, by and_intros <;> decide +kernel⟩,
   ⟨upS, 0, 64, [1], true, by and_intros <;> decide +kernel⟩,
   ⟨upS, 0, 64, 4, by and_intros <;> decide +kernel⟩,
   ⟨mapUp, 0, 64, 4, fixedBytes + 3 * pageBytes + 64, by and_intros <;> decide +kernel⟩⟩

/-- Witness: MailboxRegisters. -/
theorem wit_MailboxRegisters :
    (∃ (s : State) (fn : Nat) (k : Nat) (w : Nat) (v : Word), barReach s.chip fn = true ∧ k < 64 ∧ w < 128 ∧ (getSlot s.chip (slotKey fn k)).st = .empty) ∧
    (∃ (s : State) (fn : Nat) (v : Word), barReach s.chip fn = true ∧ (getFn s.chip fn).enable = true ∧ (getSlot s.chip (slotKey fn (bits v.toNat 0 6))).st = .empty) ∧
    (∃ (s : State) (fn : Nat) (v : Word), barReach s.chip fn = true ∧ (getSlot s.chip (slotKey fn (bits v.toNat 16 6))).st = .done ∧ (getSlot s.chip (slotKey fn (bits v.toNat 16 6))).tag = bits v.toNat 0 16) ∧
    (∃ (s : State) (fn : Nat) (v : Word), barReach s.chip fn = true ∧ (getSlot s.chip (slotKey fn (bits v.toNat 16 6))).open_ = true ∧ (getSlot s.chip (slotKey fn (bits v.toNat 16 6))).tag = bits v.toNat 0 16) ∧
    (∃ (s : State) (fn : Nat) (v : Word), barReach s.chip fn = true ∧ v.getLsbD 1 = false) ∧
    (∃ (s : State) (fn : Nat) (v : Word), barReach s.chip fn = true ∧ v.getLsbD 1 = true ∧ (getFn s.chip fn).evqEnable = false ∧ evqValid (getFn s.chip fn) = false) ∧
    (∃ (s : State) (fn : Nat) (v : Word), barReach s.chip fn = true ∧ v.toNat < 2 ^ (getFn s.chip fn).evqLog2 ∧ (v.toNat + 2 ^ (getFn s.chip fn).evqLog2 - (getFn s.chip fn).evqHead) % 2 ^ (getFn s.chip fn).evqLog2 ≤ ((getFn s.chip fn).evqTail + 2 ^ (getFn s.chip fn).evqLog2 - (getFn s.chip fn).evqHead) % 2 ^ (getFn s.chip fn).evqLog2) ∧
    (∃ (s : State) (fn : Nat), barReach s.chip fn = true) ∧
    (∃ (s : State) (fn : Nat), barReach s.chip fn = true) ∧
    (∃ (s : State) (fn : Nat), bar2Reach s.chip fn = true ∧ blockOff s.chip 0xC = false) ∧
    (∃ (s : State) (fn : Nat) (b : Bool), accessReach s.chip fn b = true) ∧
    (∃ (s : State) (fn : Nat) (v : Word), bar2Reach s.chip fn = true ∧ bits v.toNat 16 16 = 0xB2C1) ∧
    (∃ (s : State) (fn : Nat) (v : Word), bar2Reach s.chip fn = true ∧ bits v.toNat 16 16 ≠ 0xB2C1) ∧
    (∃ (s : State) (fn : Nat) (a : Nat) (rd : Bool), bar2Reach s.chip fn = true ∧ blockOff s.chip a = true) ∧
    (∃ (s : State) (fn : Nat) (b : Bool) (rd : Bool), accessReach s.chip fn b = true) ∧
    (∃ (s : State) (fn : Nat) (a : Nat) (d : Nat) (data : List Byte), MemInv s ∧ barReach s.chip fn = true ∧ data ≠ [] ∧ anyFrozen s.chip = false ∧ a % pageBytes + data.length ≤ pageBytes ∧ windowAddr s.chip fn a = some d) ∧
    (∃ (s : State) (fn : Nat) (a : Nat) (n : Nat) (d : Nat), barReach s.chip fn = true ∧ 0 < n ∧ a % pageBytes + n ≤ pageBytes ∧ windowAddr s.chip fn a = some d ∧ anyFrozen s.chip = false ∧ markedIn s.mem d n = []) :=
  ⟨⟨upS, 0, 5, 4, 9, by and_intros <;> decide +kernel⟩,
   ⟨upS, 0, 3, by and_intros <;> decide +kernel⟩,
   ⟨slotUp { Slot.zero with st := .done, tag := 7 }, 0, 7, by and_intros <;> decide +kernel⟩,
   ⟨slotUp { Slot.zero with st := .busy, tag := 7 }, 0, 7, by and_intros <;> decide +kernel⟩,
   ⟨upS, 0, 1, by and_intros <;> decide +kernel⟩,
   ⟨upS, 0, 2, by and_intros <;> decide +kernel⟩,
   ⟨st (fnUp fun f => { f with evqLog2 := 6, evqTail := 5, evqHead := 2 }), 0, 5, by and_intros <;> decide +kernel⟩,
   ⟨upS, 0, by decide +kernel⟩,
   ⟨upS, 0, by decide +kernel⟩,
   ⟨upS, 0, by and_intros <;> decide +kernel⟩,
   ⟨upS, 0, false, by decide +kernel⟩,
   ⟨upS, 0, 0xB2C10001, by and_intros <;> decide +kernel⟩,
   ⟨upS, 0, 1, by and_intros <;> decide +kernel⟩,
   ⟨st (upPwr fun x => { x with on := 0xFFFDFF }), 0, 0x700000, true, by and_intros <;> decide +kernel⟩,
   ⟨upS, 0, true, true, by decide +kernel⟩,
   ⟨mapUp, 0, 64, fixedBytes + 3 * pageBytes + 64, [1, 2], by unfold MemInv; decide +kernel, by and_intros <;> decide +kernel⟩,
   ⟨mapUp, 0, 64, 4, fixedBytes + 3 * pageBytes + 64, by and_intros <;> decide +kernel⟩⟩

/-- Witness: EventsAndFetches. -/
theorem wit_EventsAndFetches :
    (∃ (s : State) (fn : Nat) (v : Nat), fnExists s.chip fn = true ∧ v < msixSize fn ∧ (getFn s.chip fn).busMaster = true ∧ (getFn s.chip fn).msixPend = [v]) ∧
    (∃ (s : State) (fn : Nat) (v : Nat), fnExists s.chip fn = true ∧ (getFn s.chip fn).msixPend = [v] ∧ (getFn s.chip fn).msixOpen.contains v = true) ∧
    (∃ (s : State) (r : EvRec) (l : List EvRec), s.chip.mgmt.incoming = r :: l ∧ s.chip.mgmt.buffered < 4096) ∧
    (∃ (s : State) (fn : Nat), 0 < (getFn s.chip fn).unsignalled ∧ 0 < (getFn s.chip fn).coalCount ∧ 0 < (getFn s.chip fn).coalUs) ∧
    (∃ (s : State) (r : CmdRef) (a : Nat) (n : Nat) (d : List Word), (slotAt r s).fetch = .waiting a n ∧ d.length = (n + 3) / 4) ∧
    (∃ (s : State) (r : CmdRef) (a : Nat) (n : Nat), (slotAt r s).fetch = .waiting a n ∧ (slotAt r s).open_ = true) ∧
    (∃ (s : State) (r : CmdRef), firmwareUp s.chip = true ∧ (getFn s.chip r.fn).ready = true ∧ slotTurn s.chip (slotKey r.fn r.slot) (slotAt r s) = true ∧ assignedOp (slotAt r s).op = false) :=
  ⟨⟨st (fnUp fun f => { f with msixPend := [3] }), 0, 3, by and_intros <;> decide +kernel⟩,
   ⟨st (fnUp fun f => { f with msixPend := [3], msixOpen := [3] }), 0, 3, by and_intros <;> decide +kernel⟩,
   ⟨st (upMgmt fun m => { m with incoming := [ev1] }), ev1, [], by and_intros <;> decide +kernel⟩,
   ⟨st (fnUp fun f => { f with unsignalled := 1, coalCount := 2, coalUs := 1 }), 0, by and_intros <;> decide +kernel⟩,
   ⟨slotUp { Slot.zero with st := .busy, fetch := .waiting 0 4 }, r0, 0, 4, [9], by and_intros <;> decide +kernel⟩,
   ⟨slotUp { Slot.zero with st := .busy, fetch := .waiting 0 4 }, r0, 0, 4, by and_intros <;> decide +kernel⟩,
   ⟨withCmd up 0xFFFF [], r0, by and_intros <;> decide +kernel⟩⟩

/-- Witness: LinkAndFunctionResets. -/
theorem wit_LinkAndFunctionResets :
    (∃ (s : State) (n : Nat) (fn : Nat) (op : Instr), linkExists s.chip n = true ∧ (getLink s.chip n).perst = false ∧ (getLink s.chip n).up = true ∧ fn ∈ linkFns s.chip n ∧ (op = .perstAssert n ∨ op = .pcieHotReset n ∨ op = .pcieLinkDown n ∨ op = .pcieRefclkLoss n)) ∧
    (∃ (s : State) (fn : Nat) (g : Nat), fnExists s.chip fn = true ∧ (getLink s.chip (linkOf s.chip.host.split fn)).up = true ∧ g ∈ (if isVf fn = true then [fn] else vfsOf s.chip (fn / 64) ++ [fn])) ∧
    (∃ (s : State) (n : Nat), linkExists s.chip n = true ∧ (getLink s.chip n).perst = true) ∧
    (∃ (s : State) (n : Nat) (sp : Nat) (w : Nat), linkExists s.chip n = true ∧ (getLink s.chip n).perst = false ∧ domOn s.chip 2 = true ∧ linkTrains s.chip n sp w = true) ∧
    (∃ (s : State) (fn : Nat), (getFn s.chip fn).flrBusy = true) ∧
    (∃ (s : State) (n : Nat) (fn : Nat), inService s.chip = true ∧ (getLink s.chip n).up = true ∧ fn ∈ linkFns s.chip n ∧ (getFn s.chip fn).flrBusy = false) ∧
    (∃ (s : State) (fn : Nat) (b : Bool), fnExists s.chip fn = true) ∧
    (∃ (s : State) (pf : Nat) (n : Nat), pf < 4 ∧ 1 ≤ n ∧ n ≤ 63) :=
  ⟨⟨upS, 0, 0, .pcieHotReset 0, by decide +kernel, by decide +kernel, by decide +kernel, by decide +kernel, .inr (.inl rfl)⟩,
   ⟨st { up with host := { up.host with vfs := [(0, 2)] } }, 64 * 0, 1, by and_intros <;> decide +kernel⟩,
   ⟨st { up with host := { up.host with links := [(0, { PcieLink.zero with perst := true })] } }, 0, by and_intros <;> decide +kernel⟩,
   ⟨upS, 0, 5, 16, by and_intros <;> decide +kernel⟩,
   ⟨st (fnUp fun f => { f with flrBusy := true }), 0, by decide +kernel⟩,
   ⟨upS, 0, 0, by and_intros <;> decide +kernel⟩,
   ⟨upS, 0, true, by decide +kernel⟩,
   ⟨upS, 0, 3, by and_intros <;> decide +kernel⟩⟩

/-- Witness: RegisterAccess. -/
theorem wit_RegisterAccess :
    (∃ (s : State) (fn : Nat) (a : Nat) (v : Word), bar2Reach s.chip fn = true ∧ a % 4 = 0 ∧ 11 ≤ b2Block a ∧ domOn s.chip 2 = true) ∧
    (∃ (s : State) (fn : Nat) (v : Word), bar2Reach s.chip fn = true ∧ domOn s.chip 2 = true) ∧
    (∃ (s : State) (fn : Nat) (v : Word), bar2Reach s.chip fn = true ∧ domOn s.chip 9 = true ∧ locked s.chip 7 = true) ∧
    (∃ (s : State) (fn : Nat) (v : Word), bar2Reach s.chip fn = true ∧ domOn s.chip 9 = true ∧ locked s.chip 7 = false ∧ 1 ≤ v.toNat % 65536 ∧ 4 ≤ bits v.toNat 16 4) ∧
    (∃ (s : State) (fn : Nat) (v : Word), bar2Reach s.chip fn = true ∧ domOn s.chip 0 = true ∧ locked s.chip 3 = false ∧ 5 ≤ bits v.toNat 0 8 ∧ bits v.toNat 0 8 ≤ 100 ∧ 10 ≤ bits v.toNat 8 8) ∧
    (∃ (s : State) (fn : Nat) (p : Nat) (v : Word), bar2Reach s.chip fn = true ∧ domOn s.chip 9 = true ∧ locked s.chip 6 = false ∧ p < 8 ∧ (getPool s.chip p).wmCritical < (getPool s.chip p).wmWarning ∧ (getPool s.chip p).wmWarning < v.toNat % 2 ^ 24 ∧ v.toNat % 2 ^ 24 ≤ (getPool s.chip p).count) ∧
    (∃ (s : State) (fn : Nat) (p : Nat) (v : Word), bar2Reach s.chip fn = true ∧ domOn s.chip 9 = true ∧ locked s.chip 6 = false ∧ p < 8 ∧ v.toNat % 2 ^ 24 ≤ (getPool s.chip p).wmWarning) ∧
    (∃ (s : State) (fn : Nat) (v : Word), fn < 256 ∧ barReach s.chip fn = true ∧ (getFn s.chip fn).evqEnable = false) ∧
    (∃ (s : State) (fn : Nat) (bar : Nat) (a : Nat) (x : Nat), regReach s.chip fn bar = true ∧ ownRead bar a = false ∧ a % 4 = 0 ∧ (bar ≠ 0 → blockOff s.chip a = false) ∧ isEstimate bar a = false ∧ reg64 s.chip fn bar a = some x) :=
  ⟨⟨upS, 0, 0xC00000, 1, by and_intros <;> decide +kernel⟩,
   ⟨upS, 0, 1, by and_intros <;> decide +kernel⟩,
   ⟨st { up with host := { up.host with b2Lock := 0x3FE } }, 0, 1, by and_intros <;> decide +kernel⟩,
   ⟨upS, 0, 0x40001, by and_intros <;> decide +kernel⟩,
   ⟨upS, 0, 0xA05, by and_intros <;> decide +kernel⟩,
   ⟨st (upPools fun p => { p with pools := [(2, Pool.ofCount 1000)] }), 0, 2, 400, by and_intros <;> decide +kernel⟩,
   ⟨st (upPools fun p => { p with pools := [(2, Pool.ofCount 1000)] }), 0, 2, 100, by and_intros <;> decide +kernel⟩,
   ⟨upS, 0, 9, by and_intros <;> decide +kernel⟩,
   ⟨upS, 0, 0, 0x108, 0, by and_intros <;> decide +kernel⟩⟩

/-- Witness: RepairCompletes. -/
theorem wit_RepairCompletes :
    (∃ (s : State) (r : CmdRef) (u : Nat) (rank : Nat) (bg : Nat) (bank : Nat) (row : Nat), firmwareUp s.chip = true ∧ (getFn s.chip r.fn).ready = true ∧ r.slot < 64 ∧ (slotAt r s).st = .progress ∧ (slotAt r s).op = 0x0B02 ∧ (slotAt r s).fetch = .idle ∧ (slotAt r s).cancel = false ∧ firstInLine s.chip (slotKey r.fn r.slot) (slotAt r s).turn = true ∧ (slotAt r s).work = [u, rank, bg, bank, row] ∧ (getSub s.chip u).st ≠ 3) :=
  ⟨st (putSlot 0 { cmdSlot 0x0B02 0 [] with st := .progress, work := [3, 0, 1, 2, 9] } up), r0, 3, 0, 1, 2, 9, by and_intros <;> decide +kernel⟩

/-- Witness: ManagementReports. -/
theorem wit_ManagementReports :
    (∃ (s : State) (f : List Word), portFree s) ∧
    (∃ (s : State) (f : List Word), portFree s) ∧
    (∃ (s : State) (f : List Word), portFree s) ∧
    (∃ (s : State) (i : Word), portFree s ∧ 1 ≤ i.toNat ∧ i.toNat ≤ 15) ∧
    (∃ (s : State) (p : Word) (i : Word) (n : Word), portFree s ∧ p.toNat ≤ 1 ∧ i.toNat < ringSlots (p.toNat == 1) ∧ 1 ≤ n.toNat ∧ n.toNat ≤ 7) ∧
    (∃ (s : State) (a : Word) (n : Word), portFree s ∧ 1 ≤ n.toNat ∧ n.toNat ≤ 64 ∧ a.toNat + n.toNat ≤ 64) ∧
    (∃ (s : State) (k : Word) (i : Word), portFree s ∧ k.toNat ≤ 2 ∧ i.toNat < (if k.toNat = 0 then 32 else 4)) ∧
    (∃ (s : State) (i : Word), portFree s ∧ i.toNat < 198) ∧
    (∃ (s : State) (f : List Word), portFree s) ∧
    (∃ (s : State) (f : List Word), keeperUp s.chip = true) ∧
    (∃ (s : State) (f : List Word) (code : Nat), portFree s ∧ knownCodes.contains code = false) ∧
    (∃ (s : State), keeperUp s.chip = true ∧ s.chip.mgmt.port.once = 0 ∧ s.chip.mgmt.port.busy = false ∧ s.chip.mgmt.port.code = 2) ∧
    (∃ (s : State), keeperUp s.chip = true ∧ s.chip.mgmt.alert = true) ∧
    (∃ (s : State) (a : Nat), keeperUp s.chip = true ∧ 0x08 ≤ a ∧ a ≤ 0x77) :=
  ⟨⟨upS, [1], by unfold portFree; decide +kernel⟩,
   ⟨upS, [], by unfold portFree; decide +kernel⟩,
   ⟨upS, [], by unfold portFree; decide +kernel⟩,
   ⟨upS, 6, by unfold portFree; decide +kernel, by and_intros <;> decide +kernel⟩,
   ⟨upS, 0, 0, 7, by unfold portFree; decide +kernel, by and_intros <;> decide +kernel⟩,
   ⟨upS, 60, 4, by unfold portFree; decide +kernel, by and_intros <;> decide +kernel⟩,
   ⟨upS, 1, 3, by unfold portFree; decide +kernel, by and_intros <;> decide +kernel⟩,
   ⟨upS, 197, by unfold portFree; decide +kernel, by decide +kernel⟩,
   ⟨upS, [], by unfold portFree; decide +kernel⟩,
   ⟨upS, [], by decide +kernel⟩,
   ⟨upS, [], 0x7F, by unfold portFree; decide +kernel, by decide +kernel⟩,
   ⟨st (upMgmt fun m => { m with port := { m.port with code := 2 } }), by and_intros <;> decide +kernel⟩,
   ⟨st (upMgmt fun m => { m with alert := true }), by and_intros <;> decide +kernel⟩,
   ⟨upS, 0x77, by and_intros <;> decide +kernel⟩⟩

/-- Witness: ManagementActs. -/
theorem wit_ManagementActs :
    (∃ (s : State) (i : Word) (v : Word), portFree s ∧ configValid i.toNat v.toNat = true ∧ i.toNat ≠ 2) ∧
    (∃ (s : State) (p : Word) (n : Word) (sec : Word), portFree s ∧ p.toNat ≤ 5 ∧ 1 ≤ sec.toNat ∧ sec.toNat ≤ 65535) ∧
    (∃ (s : State), s.chip.mgmt.lampA.on = true) ∧
    (∃ (s : State) (k : Word) (v : Word), portFree s ∧ k.toNat ≤ 65535 ∧ v.toNat ≤ 5) ∧
    (∃ (s : State) (n : Word), portFree s ∧ n.toNat < 52 ∧ (getUnit s.chip 1 n.toNat).st ≠ .retired) ∧
    (∃ (s : State), portFree s) ∧
    (∃ (s : State), portFree s) ∧
    (∃ (s : State), keeperUp s.chip = true) ∧
    (∃ (s : State), s.chip.mgmt.keeperReset ≠ 0) ∧
    (∃ (s : State), boxHolds s 0x20 ∧ s.chip.mgmt.waitImage = true ∧ kf (boxFields s) 0 + kf (boxFields s) 1 % 65536 + 1 ≤ 16777216) ∧
    (∃ (s : State) (v : Nat), boxHolds s 0x21 ∧ s.chip.mgmt.waitImage = true ∧ kf (boxFields s) 0 ≤ 16777216 ∧ Config.minSecurityVersion ≤ v ∧ s.chip.pwr.tried = []) :=
  ⟨⟨upS, 9, 15, by unfold portFree; decide +kernel, by and_intros <;> decide +kernel⟩,
   ⟨upS, 5, 3, 65535, by unfold portFree; decide +kernel, by and_intros <;> decide +kernel⟩,
   ⟨st (upMgmt fun m => { m with lampA := { m.lampA with on := true } }), by decide +kernel⟩,
   ⟨upS, 65535, 5, by unfold portFree; decide +kernel, by and_intros <;> decide +kernel⟩,
   ⟨upS, 51, by unfold portFree; decide +kernel, by and_intros <;> decide +kernel⟩,
   ⟨upS, by unfold portFree; decide +kernel⟩,
   ⟨upS, by unfold portFree; decide +kernel⟩,
   ⟨upS, by decide +kernel⟩,
   ⟨st (upMgmt fun m => { m with keeperReset := 5 }), by decide +kernel⟩,
   ⟨st (upMgmt fun m => { m with waitImage := true, kmbCode := 0x20, kmbLen := 12, kmbReq := [(0, 16), (1, 3)], mailbox := { m.mailbox with busy := true } }), by unfold boxHolds; decide +kernel, by and_intros <;> decide +kernel⟩,
   ⟨st (upMgmt fun m => { m with waitImage := true, kmbCode := 0x21, kmbLen := 4, kmbReq := [(0, 16)], mailbox := { m.mailbox with busy := true } }), Config.minSecurityVersion, by unfold boxHolds; decide +kernel, by decide +kernel, by decide +kernel, Nat.le_refl _, by decide +kernel⟩⟩

/-- Witness: KeeperWatches. -/
theorem wit_KeeperWatches :
    (∃ (s : State) (p : Nat), p < 4 ∧ domOn s.chip 1 = true ∧ s.chip.mgmt.holdEnd = 0) ∧
    (∃ (s : State), inService s.chip = true ∧ s.chip.mgmt.keeperReset = 0 ∧ s.chip.mgmt.holdEnd = 0) ∧
    (∃ (s : State), s.chip.mgmt.holdEnd ≠ 0) ∧
    (∃ (s : State), s.chip.mgmt.recovering = true ∧ s.chip.mgmt.holdEnd = 0) ∧
    (∃ (s : State) (n : Nat) (v : Int), n < 24 ∧ s.chip.mgmt.keeperReset = 0 ∧ (config s.chip 13 : Int) * 8 ≤ v ∧ v < 880 ∧ s.chip.mgmt.warned.contains n = false) ∧
    (∃ (s : State) (d : Nat) (cl : Nat) (f : Nat), d < 4 ∧ (tget Throttle.zero s.chip.mgmt.throttle d).active = true ∧ (tget Throttle.zero s.chip.mgmt.throttle d).restoring = false ∧ s.chip.pwr.clkNow = [(cl, f)] ∧ cl / 8 = d ∧ 400 ≤ f) ∧
    (∃ (s : State) (v : Int), 920 ≤ v ∧ s.chip.mgmt.keeperReset = 0) ∧
    (∃ (s : State) (r : Nat) (d : Nat) (mv : Nat), r < 7 ∧ d < 5 ∧ (mv * 100 < railNominal s.chip r * 95 ∨ railNominal s.chip r * 105 < mv * 100) ∧ 2 ≤ tget 0 s.chip.mgmt.railOut (r * 8 + d) ∧ tget 0 s.chip.mgmt.railOut (r * 8 + d) + 1000000 ≤ localNs s.chip + 2) ∧
    (∃ (s : State) (i : Nat) (v : Nat), s.chip.mgmt.keeperReset = 0 ∧ s.chip.pwr.phase = .service) ∧
    (∃ (s : State), s.chip.mgmt.keeperReset = 0 ∧ s.chip.pwr.phase = .service) ∧
    (∃ (s : State), s.chip.mgmt.keeperReset = 0 ∧ s.chip.pwr.phase = .service) ∧
    (∃ (s : State) (n : Nat), (getUnit s.chip 1 n).st = .selfTest) ∧
    (∃ (s : State) (n : Nat) (i : Nat), s.chip.mgmt.remap = unitKey 1 n + 1 ∧ n < 52 ∧ unitIdle s.chip 1 n = true ∧ (unitPeers 1 n).find? (fun j => (getUnit s.chip 1 j).st == .spare) = some i ∧ i ≠ n ∧ s.chip.mgmt.remapLater = []) :=
  ⟨⟨upS, 3, by and_intros <;> decide +kernel⟩,
   ⟨upS, by and_intros <;> decide +kernel⟩,
   ⟨st (upMgmt fun m => { m with holdEnd := 5 }), by decide +kernel⟩,
   ⟨st (upMgmt fun m => { m with recovering := true }), by and_intros <;> decide +kernel⟩,
   ⟨upS, 23, 879, by and_intros <;> decide +kernel⟩,
   ⟨st { up with mgmt := { up.mgmt with throttle := [(1, { Throttle.zero with active := true })] }, pwr := { up.pwr with clkNow := [(9, 400)] } }, 1, 9, 400, by and_intros <;> decide +kernel⟩,
   ⟨upS, 920, by and_intros <;> decide +kernel⟩,
   ⟨st { up with mgmt := { up.mgmt with railOut := [(33, 2)] }, time := { up.time with cyc := 800001 } }, 4, 1, 0, by and_intros <;> decide +kernel⟩,
   ⟨upS, 0, 0, by and_intros <;> decide +kernel⟩,
   ⟨upS, by and_intros <;> decide +kernel⟩,
   ⟨upS, by and_intros <;> decide +kernel⟩,
   ⟨st (upMgmt fun m => { m with units := [(unitKey 1 51, { UnitRec.zero with st := .selfTest })] }), 51, by decide +kernel⟩,
   ⟨st (upMgmt fun m => { m with units := [(unitKey 1 3, { UnitRec.zero with st := .retiring }), (unitKey 1 12, { UnitRec.zero with st := .spare })], remap := unitKey 1 3 + 1 }), 3, 12, by and_intros <;> decide +kernel⟩⟩

/-- Witness: LogAndLifeCommands. -/
theorem wit_LogAndLifeCommands :
    (∃ (s : State) (r : CmdRef), Served 0x0F00 r s ∧ bf (bodyAt r s) 4 0 16 < ringSlots (bit (bw (bodyAt r s) 0) 0) ∧ 1 ≤ bf (bodyAt r s) 8 0 13 ∧ bf (bodyAt r s) 8 0 13 ≤ 4096 ∧ bd (bodyAt r s) 16 % 8 = 0 ∧ hostReach s.chip r.fn = true) ∧
    (∃ (s : State) (r : CmdRef), Served 0x0F01 r s) :=
  ⟨⟨withCmd up 0x0F00 [0, 0, 1, 0, 0, 0], r0, by unfold Served; decide +kernel, by and_intros <;> decide +kernel⟩,
   ⟨withCmd up 0x0F01 [], r0, by unfold Served; decide +kernel⟩⟩

/-- Witness: EngineScalar. -/
theorem wit_EngineScalar :
    (∃ (s : State) (e : Nat) (d : Nat) (s1 : Nat) (op : AluOp) (v : Word), engRuns s e (.alu op d s1 (.imm v))) ∧
    (∃ (s : State) (e : Nat) (x : Nat) (k : Nat) (d : Int), engRuns s e (.load x k (.offset d) 2 false) ∧ ((engSet s e).address k (.offset d) 4).1.toNat % 4 = 0 ∧ urange false (engSet s e) ((engSet s e).address k (.offset d) 4).1.toNat 4 = some .local_ ∧ (tget PWord.zero (getEng s.chip e).mem (((engSet s e).address k (.offset d) 4).1.toNat / 8)).poison = false) ∧
    (∃ (s : State) (e : Nat) (x : Nat) (k : Nat) (d : Int), engRuns s e (.store x k (.offset d) 2) ∧ ((engSet s e).address k (.offset d) 4).1.toNat % 4 = 0 ∧ urange false (engSet s e) ((engSet s e).address k (.offset d) 4).1.toNat 4 = some .local_) ∧
    (∃ (s : State) (e : Nat) (x : Nat) (k : Nat) (d : Int), engRuns s e (.atomic 0 x k (.offset d)) ∧ ((engSet s e).address k (.offset d) 4).1.toNat % 4 = 0 ∧ urange false (engSet s e) ((engSet s e).address k (.offset d) 4).1.toNat 4 = some .shared ∧ (tget PWord.zero (getCluster s.chip (e / 32)).shared (((engSet s e).address k (.offset d) 4).1.toNat / 8)).poison = false) ∧
    (∃ (s : State) (e : Nat) (s1 : Nat), engRuns s e (.xfer s1) ∧ ((engSet s e).rg s1).toNat % 16 = 0 ∧ ((engSet s e).rg s1).toNat + 16 ≤ 0xE000 ∧ (tget PWord.zero (getEng s.chip e).mem (((engSet s e).rg s1).toNat / 8)).poison = false ∧ (tget PWord.zero (getEng s.chip e).mem (((engSet s e).rg s1).toNat / 8 + 1)).poison = false ∧ (engSet s e).open_ = []) ∧
    (∃ (s : State) (e : Nat) (m : Nat), engRuns s e (.wait m) ∧ (engSet s e).xfers = []) ∧
    (∃ (s : State) (e : Nat), engRuns s e .fence ∧ (engSet s e).open_ = []) ∧
    (∃ (s : State) (e : Nat) (cond : Nat) (s1 : Nat) (off : Int), engRuns s e (.branch cond s1 off)) ∧
    (∃ (s : State) (e : Nat) (s1 : Nat) (link : Bool), engRuns s e (.jump s1 link)) ∧
    (∃ (s : State) (e : Nat), engRuns s e .nop) ∧
    (∃ (s : State) (e : Nat) (d : Nat), engRuns s e (.mfc d 1)) ∧
    (∃ (s : State) (e : Nat) (s1 : Nat), engRuns s e (.mtc 0 s1)) :=
  ⟨⟨engS, 0, 1, 2, .add, 5, by unfold engRuns; decide +kernel⟩,
   ⟨st (engOf (ofs 8)), 0, 1, 1, 4, by unfold engRuns; decide +kernel, by and_intros <;> decide +kernel⟩,
   ⟨st (engOf (ofs 8)), 0, 1, 1, 4, by unfold engRuns; decide +kernel, by and_intros <;> decide +kernel⟩,
   ⟨st (engOf (ofs 0x10000)), 0, 1, 1, 0, by unfold engRuns; decide +kernel, by and_intros <;> decide +kernel⟩,
   ⟨engS, 0, 1, by unfold engRuns; decide +kernel, by and_intros <;> decide +kernel⟩,
   ⟨engS, 0, 3, by unfold engRuns; decide +kernel, by decide +kernel⟩,
   ⟨engS, 0, by unfold engRuns; decide +kernel, by decide +kernel⟩,
   ⟨engS, 0, 1, 2, 4, by unfold engRuns; decide +kernel⟩,
   ⟨engS, 0, 1, true, by unfold engRuns; decide +kernel⟩,
   ⟨engS, 0, by unfold engRuns; decide +kernel⟩,
   ⟨engS, 0, 1, by unfold engRuns; decide +kernel⟩,
   ⟨engS, 0, 1, by unfold engRuns; decide +kernel⟩⟩

/-- Witness: EngineMultiply. -/
theorem wit_EngineMultiply :
    (∃ (s : State) (e : Nat) (acc : Nat) (s1 : Nat) (s2 : Nat) (sh : Nat) (ng : Bool) (cj : Bool), engRuns s e (.cmac acc s1 s2 sh ng cj)) ∧
    (∃ (s : State) (e : Nat) (acc : Nat) (s1 : Nat) (s2 : Nat) (sh : Nat) (ng : Bool), engRuns s e (.dmac acc s1 s2 sh ng)) ∧
    (∃ (s : State) (e : Nat) (acc : Nat) (s1 : Nat) (s2 : Nat) (sh : Nat) (ng : Bool) (hi : Bool), engRuns s e (.smac acc s1 s2 sh ng hi)) ∧
    (∃ (s : State) (e : Nat) (acc : Nat), engRuns s e (.accClear acc)) ∧
    (∃ (s : State) (e : Nat) (acc : Nat) (s1 : Nat), engRuns s e (.accLoad acc s1)) ∧
    (∃ (s : State) (e : Nat) (acc : Nat) (n : Int), engRuns s e (.accShift acc n)) ∧
    (∃ (s : State) (e : Nat) (d : Nat) (acc : Nat) (sh : Nat) (w : Nat) (rn : Bool), engRuns s e (.accx d acc sh rn w)) ∧
    (∃ (s : State) (e : Nat) (d : Nat) (s1 : Nat) (s2 : Nat) (u : Bool) (inc : Bool), engRuns s e (.maxx d s1 s2 u inc)) ∧
    (∃ (s : State) (e : Nat) (d : Nat) (s1 : Nat) (s2 : Nat) (u : Bool) (inc : Bool), engRuns s e (.minx d s1 s2 u inc)) :=
  ⟨⟨engS, 0, 0, 2, 4, 0, false, true, by unfold engRuns; decide +kernel⟩,
   ⟨engS, 0, 0, 2, 4, 0, true, by unfold engRuns; decide +kernel⟩,
   ⟨engS, 0, 0, 2, 4, 0, false, true, by unfold engRuns; decide +kernel⟩,
   ⟨engS, 0, 1, by unfold engRuns; decide +kernel⟩,
   ⟨engS, 0, 1, 2, by unfold engRuns; decide +kernel⟩,
   ⟨engS, 0, 1, -3, by unfold engRuns; decide +kernel⟩,
   ⟨engS, 0, 1, 1, 3, 1, true, by unfold engRuns; decide +kernel⟩,
   ⟨engS, 0, 2, 4, 6, true, true, by unfold engRuns; decide +kernel⟩,
   ⟨engS, 0, 2, 4, 6, true, true, by unfold engRuns; decide +kernel⟩⟩

/-- Witness: EngineTasks. -/
theorem wit_EngineTasks :
    (∃ (s : State) (e : Nat) (s1 : Nat), engRuns s e (.end_ s1) ∧ (engSet s e).xfers = [] ∧ (getTask s.chip ((engSet s e).task - 1)).st = .running) ∧
    (∃ (s : State) (e : Nat) (code : Nat), engRuns s e (.break_ code) ∧ (engSet s e).xfers = [] ∧ (getTask s.chip ((engSet s e).task - 1)).st = .running) ∧
    (∃ (s : State) (e : Nat) (ws : List Word), (getEng s.chip e).inShadow = false ∧ (getEng s.chip e).prim.task ≠ 0 ∧ (getEng s.chip e).prim.stall = .run ∧ domOn s.chip (clusterDomain (e / 32)) = true ∧ (getEng s.chip e).prim.open_ = [] ∧ bundleIllegal (getEng s.chip e).prim.branch.isSome ws = true ∧ fetchedAt s.chip (getEng s.chip e).prim ws = true ∧ (getTask s.chip ((getEng s.chip e).prim.task - 1)).st = .running) ∧
    (∃ (s : State) (e : Nat) (tag : Nat) (x : Xfer), MemInv s ∧ anyFrozen s.chip = false ∧ (getEng s.chip e).prim.open_.find? (fun y => y.tag == tag) = some x ∧ x.out = true ∧ xferCheck s.chip (getTask s.chip ((getEng s.chip e).prim.task - 1)).fn false (getEng s.chip e).prim x = 0) ∧
    (∃ (s : State) (e : Nat) (p : Nat × Nat × Nat) (l : List (Nat × Nat × Nat)), (getEng s.chip e).loading = p :: l ∧ (getEng s.chip e).pages.length < 4) ∧
    (∃ (s : State) (e : Nat), (getEng s.chip e).urgent ≠ 0 ∧ (getEng s.chip e).shad.task = 0 ∧ (getEng s.chip e).prim.branch = none ∧ domOn s.chip (clusterDomain (e / 32)) = true ∧ (∀ p < (progInfo s.chip (getTask s.chip ((getEng s.chip e).urgent - 1)).desc.work (getTask s.chip ((getEng s.chip e).urgent - 1)).desc.etag).pages, ((getTask s.chip ((getEng s.chip e).urgent - 1)).desc.work, (progInfo s.chip (getTask s.chip ((getEng s.chip e).urgent - 1)).desc.work (getTask s.chip ((getEng s.chip e).urgent - 1)).desc.etag).ver, p) ∈ (getEng s.chip e).pages)) ∧
    (∃ (s : State) (e : Nat) (p : Nat), domOn s.chip (clusterDomain (e / 32)) = true ∧ enginePhys s.chip (e / 32) (e % 32) = some p ∧ (getEng s.chip e).prim.task = 0 ∧ (getEng s.chip e).shad.task = 0 ∧ (getEng s.chip e).urgent = 0) ∧
    (∃ (s : State) (e : Nat), (getEng s.chip e).retireAt ≠ 0) :=
  ⟨⟨engS, 0, 1, by unfold engRuns; decide +kernel, by and_intros <;> decide +kernel⟩,
   ⟨engS, 0, 9, by unfold engRuns; decide +kernel, by and_intros <;> decide +kernel⟩,
   ⟨engS, 0, [0x7C000000], by and_intros <;> decide +kernel⟩,
   ⟨st xfUp, 0, 2, xf, by unfold MemInv; decide +kernel, by and_intros <;> decide +kernel⟩,
   ⟨engRec (fun x => { x with loading := [(1, 0, 0)] }), 0, (1, 0, 0), [], by and_intros <;> decide +kernel⟩,
   ⟨st { up with sched := { up.sched with tasks := [(5, Task.zero)] }, eng := { up.eng with engines := [(0, { Engine.zero with urgent := 6 })] } }, 0, by and_intros <;> decide +kernel⟩,
   ⟨st (upMgmt fun m => { m with units := [(unitKey 0 0, UnitRec.zero)] }), 0, 0, by and_intros <;> decide +kernel⟩,
   ⟨engRec (fun x => { x with retireAt := 5 }), 0, by decide +kernel⟩⟩

/-- Witness: EngineCommands. -/
theorem wit_EngineCommands :
    (∃ (s : State) (r : CmdRef) (o : Obj), Served 0x0901 r s ∧ idType (bw (bodyAt r s) 0) = tProgram ∧ (ctxAt r s).names (cfg s.chip) (bw (bodyAt r s) 0) = some o) ∧
    (∃ (s : State) (r : CmdRef), Served 0x0902 r s) :=
  ⟨⟨withCmd { up with gx := { up.gx with bank1 := { Cfg.empty with epoch := 1, objs := [(mkKey tProgram 3, { Obj.none with gen := 1 })] } } } 0x0901 [wd (mkId tProgram 1 3)], r0, { Obj.none with gen := 1 }, by unfold Served; decide +kernel, by and_intros <;> decide +kernel⟩,
   ⟨withCmd up 0x0902 [], r0, by unfold Served; decide +kernel⟩⟩

/-- Witness: TransactionsOfSessions. -/
theorem wit_TransactionsOfSessions :
    (∃ (s : State) (r : CmdRef) (n : Nat) (b : List Word) (ses : Session), Takes 0x0102 n b r s ∧ heldSession s.chip r.fn n = some ses ∧ ses.txn = none) ∧
    (∃ (s : State) (r : CmdRef) (n : Nat) (b : List Word) (ses : Session), Takes 0x0102 n b r s ∧ heldSession s.chip r.fn n = some ses ∧ ses.txn.isSome = true) ∧
    (∃ (s : State) (r : CmdRef), Served 0x0102 r s) ∧
    (∃ (s : State) (r : CmdRef) (n : Nat) (b : List Word), Takes 0x0103 n b r s ∧ (heldSession s.chip r.fn n).bind (·.txn) = none) :=
  ⟨⟨inSes up 0x0102 [] none, r0, 1, [], sesOf none, takes_plain (by decide +kernel), by and_intros <;> decide +kernel⟩,
   ⟨inSes up 0x0102 [] (some emptyTxn), r0, 1, [], sesOf (some emptyTxn), takes_plain (by decide +kernel), by and_intros <;> decide +kernel⟩,
   ⟨withCmd up 0x0102 [], r0, by unfold Served; decide +kernel⟩,
   ⟨inSes up 0x0103 [] none, r0, 1, [], takes_plain (by decide +kernel), by decide +kernel⟩⟩

/-- Witness: SessionsOpenAndEnd. -/
theorem wit_SessionsOpenAndEnd :
    (∃ (s : State) (r : CmdRef) (n : Nat), Served 0x0100 r s ∧ bf (bodyAt r s) 0 0 16 ≤ 600 ∧ nextSession s.chip = some n ∧ (s.chip.gx.sessions.filter (fun e => e.2.fn == r.fn)).length < 16 ∧ s.chip.gx.sessions.length < 1024) ∧
    (∃ (s : State) (r : CmdRef) (n : Nat) (b : List Word) (ses : Session), Takes 0x0101 n b r s ∧ heldSession s.chip r.fn n = some ses) ∧
    (∃ (s : State) (r : CmdRef) (n : Nat) (b : List Word) (ses : Session) (t : Txn), Takes 0x0104 n b r s ∧ heldSession s.chip r.fn n = some ses ∧ ses.txn = some t) ∧
    (∃ (s : State) (r : CmdRef) (o : Outcome4), Served 0x0105 r s ∧ s.chip.gx.outcomes.find? (fun o => o.ticket == bw (bodyAt r s) 0 && o.fn == r.fn) = some o) ∧
    (∃ (s : State) (n : Nat) (ses : Session) (t : Txn), tfind s.chip.gx.sessions n = some ses ∧ ses.txn = some t) ∧
    (∃ (s : State) (r : CmdRef) (n : Nat) (b : List Word) (ses : Session), Takes 0x0102 n b r s ∧ heldSession s.chip r.fn n = some ses ∧ ses.txn = none) ∧
    (∃ (s : State) (r : CmdRef) (n : Nat) (b : List Word) (ses : Session) (t : Txn), Takes 0x0103 n b r s ∧ heldSession s.chip r.fn n = some ses ∧ ses.txn = some t ∧ (slotAt r s).validateOnly = false ∧ s.chip.pwr.phase ≠ .ejecting ∧ s.chip.twin.st ≠ 5 ∧ s.chip.gx.draining = 0 ∧ mustHold s.chip = true ∧ heldCount s.chip < 64) ∧
    (∃ (s : State) (a : Commit) (l : List Commit), s.chip.gx.held = a :: l ∧ a.kind = .host ∧ mayBeginCommit s.chip = true) ∧
    (∃ (s : State) (a : Commit) (l : List Commit), s.chip.gx.held = a :: l ∧ a.kind = .purge ∧ mayBeginCommit s.chip = true) ∧
    (∃ (s : State) (a : Commit), s.chip.gx.active = some a ∧ a.stage = .journalled ∧ firmwareUp s.chip = true) ∧
    (∃ (s : State) (a : Commit) (extra : Nat), s.chip.gx.active = some a ∧ a.stage = .writing ∧ a.kind ≠ .takeover ∧ firmwareUp s.chip = true) ∧
    (∃ (s : State), s.chip.gx.published ≠ 0) ∧
    (∃ (s : State), s.chip.gx.draining ≠ 0) :=
  ⟨⟨withCmd up 0x0100 [600], r0, 1, by unfold Served; decide +kernel, by and_intros <;> decide +kernel⟩,
   ⟨inSes up 0x0101 [] none, r0, 1, [], sesOf none, takes_plain (by decide +kernel), by decide +kernel⟩,
   ⟨inSes up 0x0104 [] (some emptyTxn), r0, 1, [], sesOf (some emptyTxn), emptyTxn, takes_plain (by decide +kernel), by and_intros <;> decide +kernel⟩,
   ⟨withCmd { up with gx := { up.gx with outcomes := [{ ticket := 3, fn := 0, state := 2, status := 0, epoch := 2 }] } } 0x0105 [3], r0, { ticket := 3, fn := 0, state := 2, status := 0, epoch := 2 }, by unfold Served; decide +kernel, by decide +kernel⟩,
   ⟨inSes up 0x0104 [] (some emptyTxn), 1, sesOf (some emptyTxn), emptyTxn, by and_intros <;> decide +kernel⟩,
   ⟨inSes up 0x0102 [] none, r0, 1, [], sesOf none, takes_plain (by decide +kernel), by and_intros <;> decide +kernel⟩,
   ⟨inSes (gxUp fun g => { g with active := some (cmtOf .host .writing) }) 0x0103 [] (some emptyTxn), r0, 1, [], sesOf (some emptyTxn), emptyTxn, takes_plain (by decide +kernel), by and_intros <;> decide +kernel⟩,
   ⟨st (gxUp fun g => { g with held := [cmtOf .host .queued] }), cmtOf .host .queued, [], by and_intros <;> decide +kernel⟩,
   ⟨st (gxUp fun g => { g with held := [cmtOf .purge .queued] }), cmtOf .purge .queued, [], by and_intros <;> decide +kernel⟩,
   ⟨st (gxUp fun g => { g with active := some (cmtOf .host .journalled) }), cmtOf .host .journalled, by and_intros <;> decide +kernel⟩,
   ⟨st (gxUp fun g => { g with active := some (cmtOf .host .writing) }), cmtOf .host .writing, 0, by and_intros <;> decide +kernel⟩,
   ⟨st (gxUp fun g => { g with published := 2 }), by decide +kernel⟩,
   ⟨st (gxUp fun g => { g with draining := 2 }), by decide +kernel⟩⟩

/-- Witness: CommitIsCarriedOut. -/
theorem wit_CommitIsCarriedOut :
    (∃ (s : State) (r : CmdRef) (n : Nat) (b : List Word) (ses : Session) (t : Txn), Takes 0x0103 n b r s ∧ heldSession s.chip r.fn n = some ses ∧ ses.txn = some t ∧ (slotAt r s).validateOnly = false ∧ s.chip.pwr.phase ≠ .ejecting ∧ s.chip.twin.st ≠ 5 ∧ s.chip.twin.session = false ∧ s.chip.gx.draining = 0 ∧ mustHold s.chip = false ∧ t.staged.length ≤ validBatch ∧ (checked t.staged r.fn (setTxn n none (tookIn n r s))).res.status = 0) ∧
    (∃ (s : State) (r : CmdRef) (n : Nat) (b : List Word) (ses : Session) (t : Txn), Takes 0x0103 n b r s ∧ heldSession s.chip r.fn n = some ses ∧ ses.txn = some t ∧ (slotAt r s).validateOnly = false ∧ s.chip.pwr.phase ≠ .ejecting ∧ s.chip.twin.st ≠ 5 ∧ s.chip.gx.draining = 0 ∧ mustHold s.chip = true ∧ heldCount s.chip < 64) ∧
    (∃ (s : State) (r : CmdRef) (n : Nat) (b : List Word) (ses : Session) (t : Txn), Takes 0x0103 n b r s ∧ heldSession s.chip r.fn n = some ses ∧ ses.txn = some t ∧ (slotAt r s).validateOnly = true ∧ s.chip.twin.session = false ∧ t.staged.length ≤ validBatch ∧ (validate r.fn (restage t.staged (tookIn n r s)).1 (tookIn n r s)).res.status = 0) ∧
    (∃ (s : State) (a : Commit) (l : List Commit), s.chip.gx.held = a :: l ∧ a.kind = .host ∧ mayBeginCommit s.chip = true) ∧
    (∃ (s : State) (a : Commit) (l : List Commit), s.chip.gx.held = a :: l ∧ a.kind = .purge ∧ mayBeginCommit s.chip = true ∧ s.chip.twin.session = false) ∧
    (∃ (s : State) (a : Commit), s.chip.gx.active = some a ∧ a.stage = .journalled ∧ firmwareUp s.chip = true) ∧
    (∃ (s : State) (a : Commit) (extra : Nat), s.chip.gx.active = some a ∧ a.stage = .writing ∧ a.kind = .host ∧ firmwareUp s.chip = true) ∧
    (∃ (s : State), s.chip.gx.published ≠ 0) ∧
    (∃ (s : State), s.chip.gx.draining ≠ 0) :=
  ⟨⟨inSes up 0x0103 [] (some emptyTxn), r0, 1, [], sesOf (some emptyTxn), emptyTxn, takes_plain (by decide +kernel), by and_intros <;> decide +kernel⟩,
   ⟨inSes (gxUp fun g => { g with active := some (cmtOf .host .writing) }) 0x0103 [] (some emptyTxn), r0, 1, [], sesOf (some emptyTxn), emptyTxn, takes_plain (by decide +kernel), by and_intros <;> decide +kernel⟩,
   ⟨st (putSlot 0 { cmdSlot 0x0103 1 [] with words := wordsPut [] 0 [wd (7 * 2 ^ 16), 0x0103 + 0x40000, 1, 0, 0, 0, 0, 0] } (inSes up 0x0103 [] (some emptyTxn)).chip), r0, 1, [], sesOf (some emptyTxn), emptyTxn, takes_plain (by decide +kernel), by and_intros <;> decide +kernel⟩,
   ⟨st (gxUp fun g => { g with held := [cmtOf .host .queued] }), cmtOf .host .queued, [], by and_intros <;> decide +kernel⟩,
   ⟨st (gxUp fun g => { g with held := [cmtOf .purge .queued] }), cmtOf .purge .queued, [], by and_intros <;> decide +kernel⟩,
   ⟨st (gxUp fun g => { g with active := some (cmtOf .host .journalled) }), cmtOf .host .journalled, by and_intros <;> decide +kernel⟩,
   ⟨st (gxUp fun g => { g with active := some (cmtOf .host .writing) }), cmtOf .host .writing, 0, by and_intros <;> decide +kernel⟩,
   ⟨st (gxUp fun g => { g with published := 2 }), by decide +kernel⟩,
   ⟨st (gxUp fun g => { g with draining := 2 }), by decide +kernel⟩⟩

/-- Witness: GeneralCommands. -/
theorem wit_GeneralCommands :
    (∃ (s : State) (r : CmdRef), Served 0x0001 r s) ∧
    (∃ (s : State) (r : CmdRef), Served 0x0002 r s ∧ s.chip.gx.draining = 0) ∧
    (∃ (s : State) (r : CmdRef), Served 0x0004 r s ∧ ((slotAt r s).opAtCapture = true ∨ bf (bodyAt r s) 0 0 8 = r.fn)) ∧
    (∃ (s : State) (r : CmdRef) (o : Obj), Served 0x0005 r s ∧ (ctxAt r s).names (cfg s.chip) (bw (bodyAt r s) 0) = some o) ∧
    (∃ (s : State) (r : CmdRef), Served 0x0107 r s ∧ (slotAt r s).opAtCapture = true ∧ 20 ≤ bf (bodyAt r s) 0 0 11 ∧ bf (bodyAt r s) 0 0 11 ≤ 2000) ∧
    (∃ (s : State) (r : CmdRef), Served 0x0107 r s ∧ bf (bodyAt r s) 0 0 11 = 0) ∧
    (∃ (s : State) (r : CmdRef) (b : List Word), Takes 0x0305 0 b r s ∧ heldSession s.chip r.fn 0 = none ∧ 1 ≤ bf b 0 0 13 ∧ bf b 0 0 13 ≤ 4096 ∧ bd b 8 % 8 = 0 ∧ hostReach s.chip r.fn = true ∧ 32 * bf b 0 0 13 + (bodyAt r s).length ≤ b.length ∧ (slotAt r s).cancel = false) :=
  ⟨⟨withCmd up 0x0001 [], r0, by unfold Served; decide +kernel⟩,
   ⟨withCmd up 0x0002 [], r0, by unfold Served; decide +kernel, by decide +kernel⟩,
   ⟨withCmd up 0x0004 [0], r0, by unfold Served; decide +kernel, by decide +kernel⟩,
   ⟨withCmd { up with gx := { up.gx with bank1 := { Cfg.empty with epoch := 1, objs := [(mkKey tProgram 3, { Obj.none with gen := 1 })] } } } 0x0005 [wd (mkId tProgram 1 3)], r0, { Obj.none with gen := 1 }, by unfold Served; decide +kernel, by decide +kernel⟩,
   ⟨withCmd up 0x0107 [2000], r0, by unfold Served; decide +kernel, by and_intros <;> decide +kernel⟩,
   ⟨withCmd up 0x0107 [0], r0, by unfold Served; decide +kernel, by decide +kernel⟩,
   ⟨st (putSlot 0 { cmdSlot 0x0305 0 [1, 0, 0, 0] with fetch := .got (List.replicate 32 0), words := wordsPut [] 0 [wd (7 * 2 ^ 16), 0x10305, wd (2 ^ 16 * 16), 128, 0, 0, 0, 0, 1, 0, 0, 0] } up), r0, [1, 0, 0, 0] ++ List.replicate 32 0, ⟨by decide +kernel, by decide +kernel, by decide +kernel, by decide +kernel, by decide +kernel, by decide +kernel, .inr ⟨by decide +kernel, List.replicate 32 0, by decide +kernel, by decide +kernel⟩, by and_intros <;> decide +kernel⟩, by and_intros <;> decide +kernel⟩⟩

/-- Witness: FramesAreTakenIn. -/
theorem wit_FramesAreTakenIn :
    (∃ (s : State) (lp : Nat) (p : Nat) (a : Nat) (f : Frame), lportUp s.chip lp = true ∧ macDrops s.chip lp f = false ∧ handedOver s.chip lp f = none ∧ steer s.chip (cfg s.chip) lp f = some (p, a) ∧ fifoBytes (getPipe s.chip p).fifo + f.len ≤ 1048576) ∧
    (∃ (s : State) (lp : Nat) (p : Nat) (a : Nat) (f : Frame), lportUp s.chip lp = true ∧ macDrops s.chip lp f = false ∧ handedOver s.chip lp f = none ∧ steer s.chip (cfg s.chip) lp f = some (p, a) ∧ 1048576 < fifoBytes (getPipe s.chip p).fifo + f.len) ∧
    (∃ (s : State) (lp : Nat) (f : Frame), lportUp s.chip lp = true ∧ macDrops s.chip lp f = true) ∧
    (∃ (s : State) (lp : Nat) (f : Frame), lportUp s.chip lp = true ∧ macDrops s.chip lp f = false ∧ handedOver s.chip lp f = none ∧ steer s.chip (cfg s.chip) lp f = none) ∧
    (∃ (s : State) (p : Nat) (head : Nat) (sb : Bool) (bad : List Nat) (f : FifoFrame) (rest : List FifoFrame), (getPipe s.chip p).fifo = f :: rest ∧ (getPipe s.chip p).repl.length < 4096 ∧ (getPipe s.chip p).entry = [] ∧ (missq s.chip p).length < 512) ∧
    (∃ (s : State) (p : Nat) (head : Nat) (ip : Nat) (f : FifoFrame) (rest : List FifoFrame), (getPipe s.chip p).fifo = f :: rest ∧ (getPipe s.chip p).repl.length < 4096 ∧ (getPipe s.chip p).entry = [] ∧ (missq s.chip p).length < 512 ∧ f.poison = false ∧ f.frame.net = .arp ip ∧ (addrByIp s.chip (cfg s.chip) f.lport ip f.frame.vlans).isSome = true ∧ lportUp s.chip f.lport = true) :=
  ⟨⟨st netUp, 0, 0, 4096, arpF, by and_intros <;> decide +kernel⟩,
   ⟨st (fifoUp [{ arpQ with frame := { arpF with len := 1048576 } }]), 0, 0, 4096, arpF, by and_intros <;> decide +kernel⟩,
   ⟨st netUp, 0, { arpF with fcsOk := false }, by and_intros <;> decide +kernel⟩,
   ⟨st netUp, 0, { arpF with net := .other }, by and_intros <;> decide +kernel⟩,
   ⟨st (fifoUp [arpQ]), 0, 0, false, [], arpQ, [], by and_intros <;> decide +kernel⟩,
   ⟨st (fifoUp [arpQ]), 0, 0, 0, arpQ, [], by and_intros <;> decide +kernel⟩⟩

/-- Witness: CipherCommands. -/
theorem wit_CipherCommands :
    (∃ (s : State) (set : Nat), s.chip.net.deriving_.contains set = true ∧ (∀ p, p < 4 → ∀ m ∈ missq s.chip p, m.setKey ≠ set)) ∧
    (∃ (s : State) (obj : Nat), (tget RxSet.zero s.chip.net.rxSets obj).alt ≠ []) ∧
    (∃ (s : State) (r : CmdRef) (o : Obj), Served 0x0211 r s ∧ idType (bw (bodyAt r s) 0) = tLeg ∧ (ctxAt r s).names (cfg s.chip) (bw (bodyAt r s) 0) = some o) ∧
    (∃ (s : State) (r : CmdRef) (o : Obj), Served 0x0211 r s ∧ idType (bw (bodyAt r s) 0) = tSource ∧ (ctxAt r s).names (cfg s.chip) (bw (bodyAt r s) 0) = some o) ∧
    (∃ (s : State) (r : CmdRef), Served 0x0212 r s) :=
  ⟨⟨st { up with net := { up.net with deriving_ := [5] } }, 5, by and_intros <;> decide +kernel⟩,
   ⟨st { up with net := { up.net with rxSets := [(5, { RxSet.zero with alt := [1] })] } }, 5, by decide +kernel⟩,
   ⟨withCmd legUp 0x0211 [wd (mkId tLeg 1 2)], r0, o1, by unfold Served; decide +kernel, by and_intros <;> decide +kernel⟩,
   ⟨withCmd srcUp 0x0211 [wd (mkId tSource 1 3)], r0, o1, by unfold Served; decide +kernel, by and_intros <;> decide +kernel⟩,
   ⟨withCmd up 0x0212 [0], r0, by unfold Served; decide +kernel⟩⟩

/-- Witness: IndexIsNeverTakenTwice. -/
theorem wit_IndexIsNeverTakenTwice :
    (∃ (g : Cfg) (p : Nat) (l : Nat) (ssrc : Nat) (seq : Nat) (i : Nat) (c : Chip) (c' : Chip), seq < 65536 ∧ protect g p l ssrc (some seq) c = (some i, c')) :=
  ⟨cfg (keyUp), 0, 2, 9, 5, 5, keyUp, _, by decide, Prod.ext (by decide +kernel) rfl⟩

/-- Witness: SpeakerScore. -/
theorem wit_SpeakerScore :
    (∃ (d : BitVec 64) (v : Nat), v = (if dVad d then (127 - dLevel d) * 256 else 0)) :=
  ⟨0, 0, by decide⟩

/-- Witness: ForwarderRows. -/
theorem wit_ForwarderRows :
    (∃ (s : State) (p : Nat) (k : Pkt), nextToReplicate (getPipe s.chip p).repl [] = some k ∧ (cfg s.chip).has tSource k.source = true ∧ (getSrc s.chip k.source).poison = false ∧ stopped s.chip (cfg s.chip) tSource k.source = false) ∧
    (∃ (s : State) (p : Nat) (line : Nat) (k : Pkt), (getPipe s.chip p).repl.find? (fun k => k.epoch != 0 && k.walk.head?.map (· / 2) == some line) = some k) ∧
    (∃ (s : State) (e : CacheEntry), e ∈ s.chip.fwd.cache ∧ (∀ x ∈ s.chip.fwd.cache, x ≠ e → e.endNs < x.endNs)) ∧
    (∃ (s : State) (i : Nat) (q : Gap), firstGap s.chip i = some q ∧ q.missing ≠ [] ∧ q.asked = false) ∧
    (∃ (s : State) (i : Nat) (q : Gap), firstGap s.chip i = some q ∧ q.missing ≠ [] ∧ q.asked = true) ∧
    (∃ (s : State) (i : Nat) (q : Gap), firstGap s.chip i = some q ∧ q.missing = []) ∧
    (∃ (s : State) (l : Nat), (cfg s.chip).has tLeg l = true) ∧
    (∃ (s : State) (i : Nat), ccfbEn ((cfg s.chip).ccfbCard i) = true ∧ (getSrc s.chip i).ccfb.length ≤ 1024) ∧
    (∃ (s : State) (conf : Nat) (t0 : Nat) (c : Chip), (cfg s.chip).has tConf conf = true ∧ fwPending s.chip fwSpeaker conf = false ∧ t0 = max (tget 0 s.chip.fwd.spkDue conf + 20000000) (svc s.chip / 20000000 * 20000000) ∧ c = waitSvc t0 s.chip) ∧
    (∃ (s : State) (conf : Nat) (slot : Nat) (g : Cfg), fwRunning s.chip fwSpeaker conf = some slot ∧ g = cfgAt s.chip (getTask s.chip slot).epoch) ∧
    (∃ (s : State) (e : Nat), s.chip.fwd.rewrites.contains (0, e) = true) ∧
    (∃ (s : State) (i : Nat), s.chip.fwd.rewrites.contains (1, i) = true) ∧
    (∃ (s : State) (k : Nat), s.chip.fwd.rewrites.contains (2, k) = true) :=
  ⟨⟨replUp pk, 0, pk, by and_intros <;> decide +kernel⟩,
   ⟨replUp { pk with epoch := 1, walk := [9] }, 0, 4, { pk with epoch := 1, walk := [9] }, by decide +kernel⟩,
   ⟨st (fwdUp fun w => { w with cache := [ce 9, ce 5] }), ce 5, by and_intros <;> decide +kernel⟩,
   ⟨st (fwdUp fun w => { w with gaps := [gp [7] false] }), 3, gp [7] false, by and_intros <;> decide +kernel⟩,
   ⟨st (fwdUp fun w => { w with gaps := [gp [7] true] }), 3, gp [7] true, by and_intros <;> decide +kernel⟩,
   ⟨st (fwdUp fun w => { w with gaps := [gp [] true] }), 3, gp [] true, by and_intros <;> decide +kernel⟩,
   ⟨st legUp, 2, by decide +kernel⟩,
   ⟨st (cfgUp [] [(cardKey 0x0401 (mkKey tSource 3) 0, [0, 0, 1, 1])]), 3, by and_intros <;> decide +kernel⟩,
   ⟨st confUp, 4, _, _, by decide +kernel, by decide +kernel, rfl, rfl⟩,
   ⟨runE confUp fwSpeaker 4, 4, 5, _, by decide +kernel, rfl⟩,
   ⟨st (fwdUp fun w => { w with rewrites := [(0, 7)] }), 7, by decide +kernel⟩,
   ⟨st (fwdUp fun w => { w with rewrites := [(1, 7)] }), 7, by decide +kernel⟩,
   ⟨st (fwdUp fun w => { w with rewrites := [(2, 7)] }), 7, by decide +kernel⟩⟩

/-- Witness: ForwarderCommands. -/
theorem wit_ForwarderCommands :
    (∃ (s : State) (r : CmdRef), Served 0x0204 r s ∧ ringFields 16 (bodyAt r s) = none ∧ ringZero (hostRingOf (bodyAt r s)) = false) ∧
    (∃ (s : State) (r : CmdRef), Served 0x0C01 r s ∧ ringFields 12 (bodyAt r s) = none ∧ ringZero (hostRingOf (bodyAt r s)) = false) ∧
    (∃ (s : State) (r : CmdRef) (o : Obj), Served 0x0205 r s ∧ idType (bw (bodyAt r s) 0) = tLeg ∧ (ctxAt r s).names (cfg s.chip) (bw (bodyAt r s) 0) = some o ∧ udpFrame ((cfg s.chip).legAddrCard (idIndex (bw (bodyAt r s) 0))) (bf (bodyAt r s) 4 0 14) ≤ (getPort s.chip ((cfg s.chip).legLport (idIndex (bw (bodyAt r s) 0)) / 4)).mtu) ∧
    (∃ (s : State) (r : CmdRef) (o : Obj), Served 0x0306 r s ∧ idType (bw (bodyAt r s) 0) = tEdge ∧ (ctxAt r s).names (cfg s.chip) (bw (bodyAt r s) 0) = some o) ∧
    (∃ (s : State) (r : CmdRef), Served 0x0307 r s ∧ fwdConfigFields (bodyAt r s) = none ∧ (bf (bodyAt r s) 0 0 6 = s.chip.fwd.cacheGib ∨ ∀ i ∈ (cfg s.chip).indexes tSource, srcRtxDepth ((cfg s.chip).body tSource i) = 0)) ∧
    (∃ (s : State) (r : CmdRef), Served 0x0206 r s) ∧
    (∃ (s : State) (r : CmdRef), Served 0x0308 r s) :=
  ⟨⟨withCmd up 0x0204 [4096, 0, 8, 0, 8, 0, 16], r0, by unfold Served; decide +kernel, by and_intros <;> decide +kernel⟩,
   ⟨withCmd up 0x0C01 [4096, 0, 8, 0, 8, 0, 12], r0, by unfold Served; decide +kernel, by and_intros <;> decide +kernel⟩,
   ⟨withCmd legUp 0x0205 [wd (mkId tLeg 1 2), 100], r0, o1, by unfold Served; decide +kernel, by and_intros <;> decide +kernel⟩,
   ⟨withCmd (cfgUp [(mkKey tEdge 9, o1)] []) 0x0306 [wd (mkId tEdge 1 9)], r0, o1, by unfold Served; decide +kernel, by and_intros <;> decide +kernel⟩,
   ⟨withCmd up 0x0307 [32, 500], r0, by unfold Served; decide +kernel, by decide +kernel, .inr (by decide +kernel)⟩,
   ⟨withCmd up 0x0206 [0], r0, by unfold Served; decide +kernel⟩,
   ⟨withCmd up 0x0308 [1], r0, by unfold Served; decide +kernel⟩⟩

/-- Witness: EgressIsFairQueuing. -/
theorem wit_EgressIsFairQueuing :
    (∃ (c : Chip) (lp : Nat) (r : LegRun) (cls : Nat) (k : EgPkt), candidate c lp r = some (cls, k)) ∧
    (∃ (l : List Choice), l.Pairwise (·.leg < ·.leg) ∧ l ≠ []) ∧
    (∃ (lp : Nat) (v : Nat) (f : Nat) (legs : List Nat) (active : List Nat) (x : Choice) (c : Chip) (d : Chip), x.leg ∈ legs ∧ v = (getEgPort c lp).v ∧ f = tagAt v x.f ∧ d = modLeg x.leg (fun r => { r with tag := some f }) c ∧ active = legs.filter (fun l => (getLeg d l).tag.isSome)) ∧
    (∃ (s : State) (lp : Nat) (bad : List Nat) (c0 : Chip) (c1 : Chip) (c2 : Chip), c0 = fillProbes lp s.chip ∧ c1 = refillPort c0 lp ∧ lportUp c1 lp = true ∧ (getEgPort c1 lp).sel = none ∧ (c1.eg.ptpOut.all (fun x => x.lport != lp)) = true ∧ ((getEgPort c1 lp).rateMbps = 0 ∨ 0 ≤ (getEgPort c1 lp).bucket) ∧ c2 = (portLegs c1 lp).foldl (fun c l => noteCapped lp l (readyLeg lp l (if bad.contains l then poisonedLeg l c else c))) c1) :=
  ⟨⟨legUp, 0, { LegRun.zero with q0 := [ek] }, 0, ek, by decide +kernel⟩,
   ⟨[⟨1, 0, ek, 3, 9⟩], by and_intros <;> decide +kernel⟩,
   ⟨0, _, _, [2], _, ⟨2, 0, ek, 3, 9⟩, legUp, _, by decide +kernel, rfl, rfl, rfl, rfl⟩,
   ⟨st legUp, 0, [], _, _, _, rfl, rfl, by decide +kernel, by decide +kernel, by decide +kernel, by decide +kernel, rfl⟩⟩

/-- Witness: EgressRows. -/
theorem wit_EgressRows :
    (∃ (s : State) (lp : Nat) (bad : List Nat) (c0 : Chip) (c1 : Chip) (c2 : Chip), c0 = fillProbes lp s.chip ∧ c1 = refillPort c0 lp ∧ lportUp c1 lp = true ∧ (getEgPort c1 lp).sel = none ∧ (c1.eg.ptpOut.all (fun x => x.lport != lp)) = true ∧ ((getEgPort c1 lp).rateMbps = 0 ∨ 0 ≤ (getEgPort c1 lp).bucket) ∧ c2 = (portLegs c1 lp).foldl (fun c l => noteCapped lp l (readyLeg lp l (if bad.contains l then poisonedLeg l c else c))) c1) ∧
    (∃ (s : State) (lp : Nat) (l : Nat) (cls : Nat) (k : EgPkt), (getEgPort s.chip lp).sel = some (l, cls, k) ∧ lportUp s.chip lp = true ∧ k.poison = false) ∧
    (∃ (s : State) (lp : Nat) (l : Nat) (cls : Nat) (k : EgPkt) (p : Bool), (getEgPort s.chip lp).sel = some (l, cls, k) ∧ lportUp s.chip lp = true ∧ (p || k.poison) = true) ∧
    (∃ (s : State) (lp : Nat) (l : Nat) (cls : Nat) (k : EgPkt) (p : Bool), (getEgPort s.chip lp).sel = some (l, cls, k) ∧ lportUp s.chip lp = false) ∧
    (∃ (s : State) (lp : Nat) (p : Bool) (x : PtpOut), (getEgPort s.chip lp).sel = none ∧ s.chip.eg.ptpOut.find? (fun x => x.lport == lp) = some x ∧ lportUp s.chip lp = true) ∧
    (∃ (s : State) (l : Nat) (cls : Nat) (k : EgPkt) (q : List EgPkt), (getLeg s.chip l).queue cls = k :: q ∧ (getEgPort s.chip ((legCfg s.chip l).legLport l)).launchEn = true) ∧
    (∃ (s : State) (l : Nat) (lp : Nat) (r : LegRun), lp = (legCfg s.chip l).legLport l ∧ r = refillLeg s.chip lp ((legCfg s.chip l).shape l) (getLeg s.chip l) ∧ r.queued ≠ [] ∧ r.rate ≠ 0) ∧
    (∃ (s : State) (r : CmdRef) (a : List Word) (w : RateWin), Served 0x0C02 r s ∧ (cfg s.chip).addr (bf (bodyAt r s) 0 0 12) = some a ∧ addrActive s.chip (cfg s.chip) (bf (bodyAt r s) 0 0 12) = true ∧ lportUp s.chip (addrLport a) = true ∧ 34 ≤ bf (bodyAt r s) 4 0 11 ∧ bf (bodyAt r s) 4 0 11 ≤ 1024 ∧ udpFrame a (bf (bodyAt r s) 4 0 11) ≤ (getPort s.chip (addrLport a / 4)).mtu ∧ (tget RateWin.zero s.chip.time.txWin (addrLport a)).take (localNs s.chip) 1024 = some w) ∧
    (∃ (s : State) (r : CmdRef), Served 0x0403 r s ∧ bit (bw (bodyAt r s) 0) 0 = false ∧ (slotAt r s).opAtCapture = true ∧ bw (bodyAt r s) 4 < 8) ∧
    (∃ (s : State) (r : CmdRef) (o : Obj), Served 0x0403 r s ∧ bit (bw (bodyAt r s) 0) 0 = true ∧ idType (bw (bodyAt r s) 4) = tLeg ∧ (ctxAt r s).names (cfg s.chip) (bw (bodyAt r s) 4) = some o) :=
  ⟨⟨st legUp, 0, [], _, _, _, rfl, rfl, by decide +kernel, by decide +kernel, by decide +kernel, by decide +kernel, rfl⟩,
   ⟨st { legUp with eg := { legUp.eg with ports := [(0, { EgPort.zero with sel := some (2, 0, ek) })] } }, 0, 2, 0, ek, by and_intros <;> decide +kernel⟩,
   ⟨st { legUp with eg := { legUp.eg with ports := [(0, { EgPort.zero with sel := some (2, 0, ek) })] } }, 0, 2, 0, ek, true, by and_intros <;> decide +kernel⟩,
   ⟨st { up with eg := { up.eg with ports := [(0, { EgPort.zero with sel := some (2, 0, ek) })] } }, 0, 2, 0, ek, false, by and_intros <;> decide +kernel⟩,
   ⟨st { legUp with eg := { legUp.eg with ptpOut := [⟨0, 0, true, 0, 64, []⟩] } }, 0, false, ⟨0, 0, true, 0, 64, []⟩, by and_intros <;> decide +kernel⟩,
   ⟨st { egUp { LegRun.zero with q0 := [ek] } with eg := { (egUp { LegRun.zero with q0 := [ek] }).eg with ports := [(0, { EgPort.zero with ctrl := 0x20000 })] } }, 2, 0, ek, [], by and_intros <;> decide +kernel⟩,
   ⟨st (egUp { LegRun.zero with q0 := [ek], rate := 5 }), 2, _, _, rfl, rfl, by and_intros <;> decide +kernel⟩,
   ⟨withCmd netUp 0x0C02 [0, 34], r0, List.replicate 12 0, ((tget RateWin.zero netUp.time.txWin 0).take 0 1024).getD RateWin.zero, by unfold Served; decide +kernel, by and_intros <;> decide +kernel⟩,
   ⟨withCmd up 0x0403 [0, 7], r0, by unfold Served; decide +kernel, by and_intros <;> decide +kernel⟩,
   ⟨withCmd legUp 0x0403 [1, wd (mkId tLeg 1 2)], r0, o1, by unfold Served; decide +kernel, by and_intros <;> decide +kernel⟩⟩

/-- Witness: GateLatchRefused. -/
theorem wit_GateLatchRefused :
    (∃ (s : State) (fn : Nat) (lp : Nat), egOpen s fn lp ∧ ((getEgPort s.chip lp).admLen = 0 ∨ 256 < (getEgPort s.chip lp).admLen ∨ (getEgPort s.chip lp).admCycle < 1000 ∨ 1000000000 < (getEgPort s.chip lp).admCycle ∨ 999999999 < (getEgPort s.chip lp).admNs ∨ ∃ i < (getEgPort s.chip lp).admLen, (tget 0 (getEgPort s.chip lp).adm (2 * i + 1)).toNat < 100 ∨ 1000000000 < (tget 0 (getEgPort s.chip lp).adm (2 * i + 1)).toNat)) ∧
    (∃ (s : State) (fn : Nat) (lp : Nat) (off : Nat) (v : Word), egOpen s fn lp ∧ (getEgPort s.chip lp).pend = true ∧ (off = 0x10 ∨ off = 0x14 ∨ off = 0x18 ∨ off = 0x1C ∨ off = 0x20 ∨ (0x1000 ≤ off ∧ off < 0x1800))) ∧
    (∃ (s : State) (fn : Nat) (lp : Nat), egOpen s fn lp ∧ svc s.chip < (getEgPort s.chip lp).changeNs) ∧
    (∃ (s : State) (fn : Nat) (lp : Nat), egOpen s fn lp ∧ (getEgPort s.chip lp).pend = true ∧ (getEgPort s.chip lp).changeNs ≤ svc s.chip) :=
  ⟨⟨upS, 0, 1, by unfold egOpen; decide +kernel, by decide +kernel⟩,
   ⟨st { up with eg := { up.eg with ports := [(1, { EgPort.zero with pend := true })] } }, 0, 1, 0x17FC, 0, by unfold egOpen; decide +kernel, by and_intros <;> decide +kernel⟩,
   ⟨st { up with eg := { up.eg with ports := [(1, { EgPort.zero with pend := true, changeNs := 10 ^ 20 })] } }, 0, 1, by unfold egOpen; decide +kernel, by decide +kernel⟩,
   ⟨st { up with eg := { up.eg with ports := [(1, { EgPort.zero with pend := true })] } }, 0, 1, by unfold egOpen; decide +kernel, by and_intros <;> decide +kernel⟩⟩

/-- Witness: GateListsTakeOver. -/
theorem wit_GateListsTakeOver :
    (∃ (s : State) (fn : Nat) (lp : Nat), egOpen s fn lp ∧ (getEgPort s.chip lp).adminBad = false ∧ svc s.chip + 10000 ≤ (getEgPort s.chip lp).admin.base) ∧
    (∃ (s : State) (fn : Nat) (lp : Nat), egOpen s fn lp ∧ (getEgPort s.chip lp).adminBad = false ∧ (getEgPort s.chip lp).admin.base < svc s.chip + 10000) ∧
    (∃ (s : State) (lp : Nat), (getEgPort s.chip lp).pend = true) :=
  ⟨⟨st { up with eg := { up.eg with ports := [(1, { EgPort.zero with admCycle := 1000, admLen := 1, adm := [(1, 100)], admNs := 10000 })] } }, 0, 1, by unfold egOpen; decide +kernel, by and_intros <;> decide +kernel⟩,
   ⟨st { up with eg := { up.eg with ports := [(1, { EgPort.zero with admCycle := 1000, admLen := 1, adm := [(1, 100)], admNs := 9999 })] } }, 0, 1, by unfold egOpen; decide +kernel, by and_intros <;> decide +kernel⟩,
   ⟨st { up with eg := { up.eg with ports := [(1, { EgPort.zero with pend := true })] } }, 1, by decide +kernel⟩⟩

/-- Witness: ShaperRegisters. -/
theorem wit_ShaperRegisters :
    (∃ (s : State) (fn : Nat) (lp : Nat) (v : Word), egOpen s fn lp ∧ bits v.toNat 0 19 ≤ 400000) ∧
    (∃ (s : State) (fn : Nat) (lp : Nat) (v : Word), egOpen s fn lp) ∧
    (∃ (s : State) (fn : Nat) (lp : Nat) (v : Word), egOpen s fn lp ∧ (getEgPort s.chip lp).pend = false) ∧
    (∃ (s : State) (fn : Nat) (lp : Nat) (v : Word), egOpen s fn lp ∧ (getEgPort s.chip lp).pend = false) ∧
    (∃ (s : State) (fn : Nat) (lp : Nat), egOpen s fn lp ∧ (getEgPort s.chip lp).adminBad = false ∧ svc s.chip + 10000 ≤ (getEgPort s.chip lp).admin.base) ∧
    (∃ (s : State) (fn : Nat) (lp : Nat), egOpen s fn lp ∧ svc s.chip < (getEgPort s.chip lp).changeNs) ∧
    (∃ (s : State) (lp : Nat), (getEgPort s.chip lp).pend = true) ∧
    (∃ (s : State) (fn : Nat) (lp : Nat) (i : Nat) (v : Word), egOpen s fn lp ∧ (getEgPort s.chip lp).pend = false ∧ i < 256) ∧
    (∃ (s : State) (lp : Nat), (getEgPort s.chip lp).gateEn = true ∧ (getEgPort s.chip lp).operValid = true) ∧
    (∃ (s : State) (fn : Nat) (lp : Nat) (v : Word), bar2Reach s.chip fn = true ∧ domOn s.chip 6 = true ∧ lp < 8 ∧ locked s.chip 2 = true) :=
  ⟨⟨upS, 0, 1, 400000, by unfold egOpen; decide +kernel, by decide +kernel⟩,
   ⟨upS, 0, 1, 7, by unfold egOpen; decide +kernel⟩,
   ⟨upS, 0, 1, 5, by unfold egOpen; decide +kernel, by decide +kernel⟩,
   ⟨upS, 0, 1, 5, by unfold egOpen; decide +kernel, by decide +kernel⟩,
   ⟨st { up with eg := { up.eg with ports := [(1, { EgPort.zero with admCycle := 1000, admLen := 1, adm := [(1, 100)], admNs := 10000 })] } }, 0, 1, by unfold egOpen; decide +kernel, by and_intros <;> decide +kernel⟩,
   ⟨st { up with eg := { up.eg with ports := [(1, { EgPort.zero with pend := true, changeNs := 10 ^ 20 })] } }, 0, 1, by unfold egOpen; decide +kernel, by decide +kernel⟩,
   ⟨st { up with eg := { up.eg with ports := [(1, { EgPort.zero with pend := true })] } }, 1, by decide +kernel⟩,
   ⟨upS, 0, 1, 255, 3, by unfold egOpen; decide +kernel, by and_intros <;> decide +kernel⟩,
   ⟨st { up with eg := { up.eg with ports := [(1, { EgPort.zero with ctrl := 0x10000, operValid := true })] } }, 1, by and_intros <;> decide +kernel⟩,
   ⟨st { up with host := { up.host with b2Lock := 0x3FE } }, 0, 1, 5, by and_intros <;> decide +kernel⟩⟩

/-- Witness: AdaptationRows. -/
theorem wit_AdaptationRows :
    (∃ (s : State) (l : Nat) (c : Chip), (cfg s.chip).has tLeg l = true ∧ fwPending s.chip fwAdapt l = false ∧ c = modLeg l (fun r => { r with runDue := nextRun l r.runDue }) (waitSvc (getLeg s.chip l).runDue s.chip)) ∧
    (∃ (s : State) (l : Nat) (c : Chip), (cfg s.chip).has tLeg l = true ∧ fwPending s.chip fwAdapt l = true ∧ c = modLeg l (fun r => { r with runDue := nextRun l r.runDue }) (waitSvc (getLeg s.chip l).runDue s.chip)) ∧
    (∃ (s : State) (l : Nat) (slot : Nat) (bad : List Nat) (g : Cfg), fwRunning s.chip fwAdapt l = some slot ∧ g = cfgAt s.chip (getTask s.chip slot).epoch ∧ g.has tLeg l = true ∧ sameObj s.chip g tLeg l = true) ∧
    (∃ (s : State) (l : Nat) (slot : Nat) (bad : List Nat) (g : Cfg), fwRunning s.chip fwAdapt l = some slot ∧ g = cfgAt s.chip (getTask s.chip slot).epoch ∧ g.has tLeg l = true ∧ sameObj s.chip g tLeg l = false) ∧
    (∃ (s : State) (l : Nat) (c : Chip), (getLeg s.chip l).probeEnd ≠ 0 ∧ c = fillProbe l (waitSvc ((getLeg s.chip l).probeEnd - 1) s.chip)) ∧
    (∃ (l : Nat) (t : Nat), l < 262144) ∧
    (∃ (s : State) (r : CmdRef) (o : Obj) (x : LegRun), Served 0x0402 r s ∧ idType (bw (bodyAt r s) 0) = tLeg ∧ (ctxAt r s).names (cfg s.chip) (bw (bodyAt r s) 0) = some o ∧ x = refillLeg s.chip ((cfg s.chip).legLport (idIndex (bw (bodyAt r s) 0))) ((cfg s.chip).shape (idIndex (bw (bodyAt r s) 0))) (getLeg s.chip (idIndex (bw (bodyAt r s) 0)))) :=
  ⟨⟨st legUp, 2, _, by decide +kernel, by decide +kernel, rfl⟩,
   ⟨st { legUp with sched := fwTask .ready fwAdapt 2 }, 2, _, by decide +kernel, by decide +kernel, rfl⟩,
   ⟨runE legUp fwAdapt 2, 2, 5, [], _, by decide +kernel, rfl, by and_intros <;> decide +kernel⟩,
   ⟨runE { legUp with gx := { legUp.gx with current := 2 } } fwAdapt 2, 2, 5, [], _, by decide +kernel, rfl, by and_intros <;> decide +kernel⟩,
   ⟨st (egUp { LegRun.zero with probeEnd := 7 }), 2, _, by decide +kernel, rfl⟩,
   ⟨9, 5, by decide +kernel⟩,
   ⟨withCmd legUp 0x0402 [wd (mkId tLeg 1 2)], r0, o1, _, by unfold Served; decide +kernel, by decide +kernel, by decide +kernel, rfl⟩⟩

/-- Witness: MixMinus. -/
theorem wit_MixMinus :
    (∃ (terms : List (Nat × List Int)) (l : Nat) (t : List Int), (terms.map Prod.fst).Nodup ∧ (∀ e ∈ terms, e.2.length = 480) ∧ (l, t) ∈ terms) ∧
    (∃ (s : State) (grp : Nat) (bad : List Nat), s.chip.aud.begun = true ∧ domOn s.chip 11 = true ∧ (cfg s.chip).has tGroup grp = true ∧ (getMix s.chip grp).mixed ≠ some (workBlock s.chip) ∧ stopped s.chip (cfg s.chip) tGroup grp = false) :=
  ⟨⟨[(1, List.replicate 480 0)], 1, List.replicate 480 0, by and_intros <;> decide +kernel⟩,
   ⟨st { (cfgUp [(mkKey tGroup 2, o1)] []) with aud := { up.aud with begun := true } }, 2, [], by and_intros <;> decide +kernel⟩⟩

/-- Witness: AudioRows. -/
theorem wit_AudioRows :
    (∃ (s : State) (b : Int), domOn s.chip 11 = true ∧ s.chip.aud.begun = true ∧ s.chip.aud.newOrigin = none ∧ b = max (s.chip.aud.block + 1) (gridIndex s.chip.aud (svc s.chip) / 480)) ∧
    (∃ (s : State) (b : Int) (o : Nat) (cause : Nat) (shift : Int) (a : Audio), domOn s.chip 11 = true ∧ s.chip.aud.begun = true ∧ s.chip.aud.newOrigin = some (o, cause, shift) ∧ b = (((s.chip.aud.lastStart + 10000000 : Nat) : Int) - o + 9999999) / 10000000 ∧ a = { renumber (b - (s.chip.aud.block + 1)) s.chip.aud with origin := o, newOrigin := none }) ∧
    (∃ (s : State) (n : Nat), s.chip.aud.syncPinEn = true ∧ 100 ≤ n ∧ (s.chip.aud.lastEdge = 0 ∨ s.chip.aud.lastEdge - 1 + 100000000 ≤ svc s.chip)) ∧
    (∃ (s : State) (n : Nat), s.chip.aud.syncPinEn = true ∧ s.chip.aud.lastEdge ≠ 0 ∧ svc s.chip < s.chip.aud.lastEdge - 1 + 100000000) ∧
    (∃ (s : State) (l : Nat) (slot : Nat) (g : Cfg), fwRunning s.chip fwAudIn l = some slot ∧ auIn (g.audio l) = true ∧ g = cfgAt s.chip (getTask s.chip slot).epoch ∧ sameObj s.chip g tLeg l = true ∧ (getIn s.chip l).done ≠ some (workBlock s.chip)) ∧
    (∃ (s : State) (g : Nat) (slot : Nat), fwRunning s.chip fwMix g = some slot ∧ (cfg s.chip).has tGroup g = true) ∧
    (∃ (s : State) (grp : Nat) (bad : List Nat), s.chip.aud.begun = true ∧ domOn s.chip 11 = true ∧ (cfg s.chip).has tGroup grp = true ∧ (getMix s.chip grp).mixed ≠ some (workBlock s.chip) ∧ stopped s.chip (cfg s.chip) tGroup grp = false) ∧
    (∃ (s : State) (m : Bool) (i : Nat) (slot : Nat), fwRunning s.chip (if m then fwMaster else fwAudOut) i = some slot) ∧
    (∃ (s : State) (p : Nat) (n : Int), (tget Profile.zero s.chip.aud.profiles p).pend = some n) ∧
    (∃ (s : State) (r : CmdRef) (o : Obj) (d : DtmfPlay), Served 0x0504 r s ∧ idType (bw (bodyAt r s) 0) = tLeg ∧ (ctxAt r s).names (cfg s.chip) (bw (bodyAt r s) 0) = some o ∧ 40 ≤ bf (bodyAt r s) 8 0 16 ∧ bf (bodyAt r s) 8 0 16 ≤ 5000 ∧ auOut ((cfg s.chip).audio (idIndex (bw (bodyAt r s) 0))) = true ∧ (auEventSource ((cfg s.chip).audio (idIndex (bw (bodyAt r s) 0))) ≠ 0 ∨ bit (bw (bodyAt r s) 8) 16 = true) ∧ (getOut s.chip (idIndex (bw (bodyAt r s) 0))).dtmf = none ∧ d = ⟨bf (bodyAt r s) 4 0 4, bf (bodyAt r s) 4 8 6, (bf (bodyAt r s) 8 0 16 + 9) / 10, bit (bw (bodyAt r s) 8) 16, 0, 0, 0⟩) ∧
    (∃ (s : State) (r : CmdRef) (q : Profile) (q2 : Profile), Served 0x0505 r s ∧ bf (bodyAt r s) 0 0 6 ≠ 0 ∧ q = tget Profile.zero s.chip.aud.profiles (bf (bodyAt r s) 0 0 6) ∧ q.pend = none ∧ bit (bw (bodyAt r s) 0) 8 ≠ q.activeB ∧ q2 = (if bit (bw (bodyAt r s) 0) 8 then { q with bankB := bankImage (bodyAt r s) 8 } else { q with bankA := bankImage (bodyAt r s) 8 })) ∧
    (∃ (s : State) (r : CmdRef) (q : Profile), Served 0x0506 r s ∧ q = tget Profile.zero s.chip.aud.profiles (bf (bodyAt r s) 0 0 6) ∧ q.pend = none ∧ gridIndex s.chip.aud (svc s.chip) < bd (bodyAt r s) 8 ∧ (bd (bodyAt r s) 8 : Int) ≤ gridIndex s.chip.aud (svc s.chip) + 480000 ∧ bd (bodyAt r s) 8 ≠ 0) ∧
    (∃ (s : State) (r : CmdRef) (c : Chip), Served 0x0507 r s ∧ bw (bodyAt r s) 16 ≤ 999999999 ∧ bit (bw (bodyAt r s) 0) 1 = true ∧ c = setOrigin (if bit (bw (bodyAt r s) 0) 2 then svc s.chip else bd (bodyAt r s) 8 * 1000000000 + bw (bodyAt r s) 16) 1 (modAud (fun a => { a with syncPinEn := bit (bw (bodyAt r s) 0) 0 }) (took r s))) ∧
    (∃ (s : State) (r : CmdRef) (o : Obj), Served 0x0508 r s ∧ idType (bw (bodyAt r s) 0) = tGroup ∧ (ctxAt r s).names (cfg s.chip) (bw (bodyAt r s) 0) = some o) ∧
    (∃ (s : State) (r : CmdRef), Served 0x0509 r s ∧ bf (bodyAt r s) 0 0 2 = 2 ∧ (slotAt r s).opAtCapture = true) :=
  ⟨⟨st (audUp fun a => { a with begun := true }), _, by decide +kernel, by decide +kernel, by decide +kernel, rfl⟩,
   ⟨st (audUp fun a => { a with begun := true, newOrigin := some (5, 1, 0) }), _, 5, 1, 0, _, by decide +kernel, by decide +kernel, by decide +kernel, rfl, rfl⟩,
   ⟨st (audUp fun a => { a with syncPinEn := true }), 100, by and_intros <;> decide +kernel⟩,
   ⟨st { audUp (fun a => { a with syncPinEn := true, lastEdge := 1 }) with time := { up.time with cyc := 0 } }, 100, by and_intros <;> decide +kernel⟩,
   ⟨runE (cfgUp [(mkKey tLeg 2, o1)] [(cardKey 0x0501 (mkKey tLeg 2) 0, [0, 0, 2])]) fwAudIn 2, 2, 5, _, by decide +kernel, by decide +kernel, rfl, by and_intros <;> decide +kernel⟩,
   ⟨runS (cfgUp [(mkKey tGroup 2, o1)] []) fwMix 2, 2, 5, by and_intros <;> decide +kernel⟩,
   ⟨st { (cfgUp [(mkKey tGroup 2, o1)] []) with aud := { up.aud with begun := true } }, 2, [], by and_intros <;> decide +kernel⟩,
   ⟨runS up fwMaster 2, true, 2, 5, by decide +kernel⟩,
   ⟨st (audUp fun a => { a with profiles := [(3, { Profile.zero with pend := some 480 })] }), 3, 480, by decide +kernel⟩,
   ⟨withCmd (cfgUp [(mkKey tLeg 2, o1)] [(cardKey 0x0501 (mkKey tLeg 2) 0, [0, 0, 4])]) 0x0504 [wd (mkId tLeg 1 2), 5, 40 + 2 ^ 16], r0, o1, _, by unfold Served; decide +kernel, by decide +kernel, by decide +kernel, by decide +kernel, by decide +kernel, by decide +kernel, by decide +kernel, by decide +kernel, rfl⟩,
   ⟨withCmd up 0x0505 [1 + 256, 0], r0, _, _, by unfold Served; decide +kernel, by decide +kernel, rfl, by decide +kernel, by decide +kernel, rfl⟩,
   ⟨withCmd up 0x0506 [1, 0, 1, 0], r0, _, by unfold Served; decide +kernel, rfl, by and_intros <;> decide +kernel⟩,
   ⟨withCmd up 0x0507 [6, 0, 0, 0, 0], r0, _, by unfold Served; decide +kernel, by decide +kernel, by decide +kernel, rfl⟩,
   ⟨withCmd (cfgUp [(mkKey tGroup 2, o1)] []) 0x0508 [wd (mkId tGroup 1 2)], r0, o1, by unfold Served; decide +kernel, by and_intros <;> decide +kernel⟩,
   ⟨withCmd up 0x0509 [2], r0, by unfold Served; decide +kernel, by and_intros <;> decide +kernel⟩⟩

/-- Witness: DecodeRows. -/
theorem wit_DecodeRows :
    (∃ (s : State) (i : Nat) (f : AsmFrame) (rest : List AsmFrame), (getDec s.chip i).asm = f :: rest) ∧
    (∃ (s : State) (i : Nat) (w : DecBusy) (r : DecReport), (getDec s.chip i).busy = some w) ∧
    (∃ (s : State) (i : Nat) (w : DecBusy) (r : DecReport), (getDec s.chip i).busy = some w ∧ (getDec s.chip i).st = .decoding ∧ r.poisonIn = false ∧ r.poisonState = false ∧ r.rasl = false ∧ r.params = none ∧ r.refs = [] ∧ r.poisonRefs = [] ∧ r.short = true) ∧
    (∃ (s : State) (core : Nat), decOn core s.chip = none) ∧
    (∃ (s : State) (core : Nat) (i : Nat) (w : DecBusy), decOn core s.chip = some (i, getDec s.chip i) ∧ (getDec s.chip i).busy = some w ∧ w.frame.retried = false) ∧
    (∃ (s : State) (i : Nat), (cfg s.chip).hasDecode i = true ∧ (getDec s.chip i).begun = true ∧ ((getDec s.chip i).st = .concealed ∨ (getDec s.chip i).st = .waitKey)) ∧
    (∃ (s : State) (r : CmdRef) (o : Obj) (d : DecRun), Served 0x0601 r s ∧ idType (bw (bodyAt r s) 0) = tSource ∧ (ctxAt r s).names (cfg s.chip) (bw (bodyAt r s) 0) = some o ∧ (cfg s.chip).hasDecode (idIndex (bw (bodyAt r s) 0)) = true ∧ d = getDec s.chip (idIndex (bw (bodyAt r s) 0))) ∧
    (∃ (s : State) (r : CmdRef), Served 0x0602 r s ∧ bit (bw (bodyAt r s) 0) 0 = true ∧ (slotAt r s).opAtCapture = true) ∧
    (∃ (s : State) (r : CmdRef) (o : Obj), Served 0x0602 r s ∧ bit (bw (bodyAt r s) 0) 0 = false ∧ idType (bw (bodyAt r s) 4) = tSource ∧ (ctxAt r s).names (cfg s.chip) (bw (bodyAt r s) 4) = some o) :=
  ⟨⟨st (decUp fun d => { d with asm := [af] }), 3, af, [], by decide +kernel⟩,
   ⟨st (decUp fun d => { d with busy := some db }), 3, db, rep, by decide +kernel⟩,
   ⟨st (decUp fun d => { d with busy := some db, st := .decoding }), 3, db, rep, by and_intros <;> decide +kernel⟩,
   ⟨upS, 4, by decide +kernel⟩,
   ⟨st (decUp fun d => { d with busy := some db }), 4, 3, db, by and_intros <;> decide +kernel⟩,
   ⟨st (decUp fun d => { d with begun := true, st := .waitKey }), 3, by and_intros <;> decide +kernel⟩,
   ⟨withCmd (decUp id) 0x0601 [wd (mkId tSource 1 3)], r0, o1, _, by unfold Served; decide +kernel, by decide +kernel, by decide +kernel, by decide +kernel, rfl⟩,
   ⟨withCmd up 0x0602 [1], r0, by unfold Served; decide +kernel, by and_intros <;> decide +kernel⟩,
   ⟨withCmd (decUp id) 0x0602 [0, wd (mkId tSource 1 3)], r0, o1, by unfold Served; decide +kernel, by and_intros <;> decide +kernel⟩⟩

/-- Witness: EncodeRows. -/
theorem wit_EncodeRows :
    (∃ (s : State) (i : Nat) (slot : Nat) (satd : List Nat) (f : EncFrame), fwRunning s.chip fwRate i = some slot ∧ (getRend s.chip i).busy = some f ∧ f.rcDone = false) ∧
    (∃ (s : State) (i : Nat) (c : Chip) (r : RendRun), (cfg s.chip).has tRend i = true ∧ c = (if (getRend s.chip i).voteSeen < (getRend s.chip i).voteWin then s.chip else waitSvc (((getRend s.chip i).voteWin + 1) * 200000000) s.chip) ∧ r = (getRend s.chip i).rollVotes (svc c)) ∧
    (∃ (s : State) (i : Nat) (l : Nat) (p : Nat) (f : EncFrame) (fb : Bool), (getRend s.chip i).busy = some f ∧ f.parts.any (fun x => x.layer == l && x.part == p && x.core.isSome && !x.begun) = true ∧ mayBegin ((cfgAt s.chip f.epoch).body tRend i) ((cfgAt s.chip f.epoch).rendCv i) (rowsHere (getRend s.chip i) f.num) = true ∧ leaderState (cfgAt s.chip f.epoch) ((cfgAt s.chip f.epoch).body tRend i) f.num s.chip = some fb) ∧
    (∃ (s : State) (i : Nat) (l : Nat) (p : Nat) (n : Nat) (f : EncFrame) (x : EncPart), (getRend s.chip i).busy = some f ∧ f.parts.find? (fun x => x.layer == l && x.part == p) = some x ∧ x.begun = true ∧ x.done = false ∧ x.rowsDone < x.rows ∧ (rowsHere (getRend s.chip i) f.num).2 = true ∧ (encRow ((cfgAt s.chip f.epoch).body tRend i) n x).capped = false) ∧
    (∃ (s : State) (i : Nat) (l : Nat) (p : Nat) (sizes : List Nat) (f : EncFrame) (f1 : EncFrame) (x : EncPart), (getRend s.chip i).busy = some f ∧ f.parts.find? (fun x => x.layer == l && x.part == p) = some x ∧ x.begun = true ∧ x.done = false ∧ x.rows ≤ x.rowsDone ∧ f1 = modPart l p (fun y => { y with done := true, sizes := sizes }) f ∧ f1.parts.all (·.done) = false) ∧
    (∃ (s : State) (i : Nat) (l : Nat) (p : Nat) (sizes : List Nat) (f : EncFrame) (f1 : EncFrame) (x : EncPart) (d : Nat × Chip), (getRend s.chip i).busy = some f ∧ f.parts.find? (fun x => x.layer == l && x.part == p) = some x ∧ x.begun = true ∧ x.done = false ∧ x.rows ≤ x.rowsDone ∧ f1 = modPart l p (fun y => { y with done := true, sizes := sizes }) f ∧ f1.parts.all (·.done) = true ∧ d = draw (endTask x.task (unitDone x.task 0 0 false false (modRend i (fun r => { r with busy := some f1 }) s.chip)))) ∧
    (∃ (s : State) (core : Nat), rendOn core s.chip = none) ∧
    (∃ (s : State) (i : Nat) (x : Ltr), (getRend s.chip i).ltrs.find? (fun x => !x.acked) = some x) ∧
    (∃ (s : State) (r : CmdRef) (o : Obj), Served 0x0801 r s ∧ idType (bw (bodyAt r s) 0) = tRend ∧ (ctxAt r s).names (cfg s.chip) (bw (bodyAt r s) 0) = some o) ∧
    (∃ (s : State) (r : CmdRef) (o : Obj) (i : Nat) (x : RendRun), Served 0x0802 r s ∧ idType (bw (bodyAt r s) 0) = tRend ∧ (ctxAt r s).names (cfg s.chip) (bw (bodyAt r s) 0) = some o ∧ i = idIndex (bw (bodyAt r s) 0) ∧ x = getRend s.chip i) ∧
    (∃ (s : State) (r : CmdRef), Served 0x0803 r s ∧ bit (bw (bodyAt r s) 0) 0 = true ∧ (slotAt r s).opAtCapture = true) ∧
    (∃ (s : State) (r : CmdRef) (o : Obj), Served 0x0803 r s ∧ bit (bw (bodyAt r s) 0) 0 = false ∧ idType (bw (bodyAt r s) 4) = tRend ∧ (ctxAt r s).names (cfg s.chip) (bw (bodyAt r s) 4) = some o) :=
  ⟨⟨runS (rendUp []) fwRate 3, 3, 5, [], ef [], by and_intros <;> decide +kernel⟩,
   ⟨st (rendUp []), 3, _, _, by decide +kernel, rfl, rfl⟩,
   ⟨st (rendUp [ep false false (some 4) 4 0]), 3, 0, 0, ef [ep false false (some 4) 4 0], false, by and_intros <;> decide +kernel⟩,
   ⟨st (rendUp [ep true false (some 4) 4 0]), 3, 0, 0, 9, ef [ep true false (some 4) 4 0], ep true false (some 4) 4 0, by and_intros <;> decide +kernel⟩,
   ⟨st (rendUp [ep true false (some 4) 4 4, { ep true false (some 5) 4 0 with part := 1 }]), 3, 0, 0, [], ef [ep true false (some 4) 4 4, { ep true false (some 5) 4 0 with part := 1 }], _, ep true false (some 4) 4 4, by decide +kernel, by decide +kernel, by decide +kernel, by decide +kernel, by decide +kernel, rfl, by decide +kernel⟩,
   ⟨st (rendUp [ep true false (some 4) 4 4]), 3, 0, 0, [], ef [ep true false (some 4) 4 4], _, ep true false (some 4) 4 4, _, by decide +kernel, by decide +kernel, by decide +kernel, by decide +kernel, by decide +kernel, rfl, by decide +kernel, rfl⟩,
   ⟨upS, 4, by decide +kernel⟩,
   ⟨st { up with vid := { up.vid with rends := [(3, { RendRun.zero with ltrs := [ltr0] })] } }, 3, ltr0, by decide +kernel⟩,
   ⟨withCmd (rendUp []) 0x0801 [wd (mkId tRend 1 3)], r0, o1, by unfold Served; decide +kernel, by and_intros <;> decide +kernel⟩,
   ⟨withCmd (rendUp []) 0x0802 [wd (mkId tRend 1 3)], r0, o1, _, _, by unfold Served; decide +kernel, by decide +kernel, by decide +kernel, rfl, rfl⟩,
   ⟨withCmd up 0x0803 [1], r0, by unfold Served; decide +kernel, by and_intros <;> decide +kernel⟩,
   ⟨withCmd (rendUp []) 0x0803 [0, wd (mkId tRend 1 3)], r0, o1, by unfold Served; decide +kernel, by and_intros <;> decide +kernel⟩⟩

/-- Witness: ComposeRows. -/
theorem wit_ComposeRows :
    (∃ (s : State) (cv : Nat) (n : Nat) (d : Nat) (c : Chip), (cfg s.chip).has tCanvas cv = true ∧ (getCv s.chip cv).busy = none ∧ n = (getCv s.chip cv).next ∧ d = cvDeadline ((cfg s.chip).body tCanvas cv) n ∧ c = modCv cv (fun r => { r with next := n + 1 }) (waitSvc d s.chip)) ∧
    (∃ (s : State) (cv : Nat) (u : Nat) (f : CFrame) (mvs : List (Int × Int)) (bl : List (Nat × Nat)) (bp : List (Nat × Nat)) (bb : List (Nat × Nat)), (getCv s.chip cv).busy = some f ∧ f.compositor = some u ∧ f.row < cvH ((cfgAt s.chip f.epoch).body tCanvas cv)) ∧
    (∃ (s : State) (cv : Nat) (u : Nat) (fault : Nat) (head : Nat) (bad : Bool) (f : CFrame), (getCv s.chip cv).busy = some f ∧ f.compositor = some u ∧ f.record.height ≤ f.row) ∧
    (∃ (s : State) (unit : Nat), canvasOn unit s.chip = none) ∧
    (∃ (s : State) (r : CmdRef) (o : Obj) (cv : Nat) (l : Nat) (n : Nat) (b : List Word), Served 0x0703 r s ∧ idType (bw (bodyAt r s) 0) = tCanvas ∧ (ctxAt r s).names (cfg s.chip) (bw (bodyAt r s) 0) = some o ∧ cv = idIndex (bw (bodyAt r s) 0) ∧ l = bf (bodyAt r s) 4 0 6 ∧ b = (cfg s.chip).card 0x0701 (mkKey tCanvas cv) l ∧ b ≠ [] ∧ lyKind b = 3 ∧ (lyImageBytes b + 3) / 4 ≤ (fetched r s).length ∧ n = max (getCv s.chip cv).next (firstFrame ((cfg s.chip).body tCanvas cv) (svc s.chip + 1))) ∧
    (∃ (s : State) (r : CmdRef) (o : Obj) (cv : Nat), Served 0x0705 r s ∧ idType (bw (bodyAt r s) 0) = tCanvas ∧ (ctxAt r s).names (cfg s.chip) (bw (bodyAt r s) 0) = some o ∧ cv = idIndex (bw (bodyAt r s) 0) ∧ hostRingFields (bodyAt r s) = none ∧ (bf (bodyAt r s) 0x20 0 4 = 0 ∨ (0x1000 + strideOf (cvW ((cfg s.chip).body tCanvas cv)) (cv10 ((cfg s.chip).body tCanvas cv)) * up16 (cvH ((cfg s.chip).body tCanvas cv)) * 3 / 2 ≤ bw (bodyAt r s) 0x24 ∧ bd (bodyAt r s) 8 ≠ 0 ∧ bd (bodyAt r s) 0x10 ≠ 0 ∧ bd (bodyAt r s) 0x18 ≠ 0))) ∧
    (∃ (s : State) (r : CmdRef) (o : Obj) (cv : Nat) (x : CanvasRun), Served 0x0706 r s ∧ idType (bw (bodyAt r s) 0) = tCanvas ∧ (ctxAt r s).names (cfg s.chip) (bw (bodyAt r s) 0) = some o ∧ cv = idIndex (bw (bodyAt r s) 0) ∧ x = getCv s.chip cv) ∧
    (∃ (s : State) (r : CmdRef), Served 0x0707 r s ∧ bit (bw (bodyAt r s) 0) 0 = true ∧ (slotAt r s).opAtCapture = true) ∧
    (∃ (s : State) (r : CmdRef) (o : Obj), Served 0x0707 r s ∧ bit (bw (bodyAt r s) 0) 0 = false ∧ idType (bw (bodyAt r s) 4) = tCanvas ∧ (ctxAt r s).names (cfg s.chip) (bw (bodyAt r s) 4) = some o) :=
  ⟨⟨st (cvUp none), 3, _, _, _, by decide +kernel, by decide +kernel, rfl, rfl, rfl⟩,
   ⟨st (cvUp (some (cf (some 4) 0))), 3, 4, cf (some 4) 0, [], [], [], [], by and_intros <;> decide +kernel⟩,
   ⟨st (cvUp (some (cf (some 4) 64))), 3, 4, 5, 0, false, cf (some 4) 64, by and_intros <;> decide +kernel⟩,
   ⟨upS, 4, by decide +kernel⟩,
   ⟨withCmd (cvUp none) 0x0703 [wd (mkId tCanvas 1 3), 5], r0, { o1 with body := cvBody }, _, _, _, _, by unfold Served; decide +kernel, by decide +kernel, by decide +kernel, rfl, rfl, rfl, by decide +kernel, by decide +kernel, by decide +kernel, rfl⟩,
   ⟨withCmd (cvUp none) 0x0705 [wd (mkId tCanvas 1 3)], r0, { o1 with body := cvBody }, _, by unfold Served; decide +kernel, by decide +kernel, by decide +kernel, rfl, by decide +kernel, .inl (by decide +kernel)⟩,
   ⟨withCmd (cvUp none) 0x0706 [wd (mkId tCanvas 1 3)], r0, { o1 with body := cvBody }, _, _, by unfold Served; decide +kernel, by decide +kernel, by decide +kernel, rfl, rfl⟩,
   ⟨withCmd up 0x0707 [1], r0, by unfold Served; decide +kernel, by and_intros <;> decide +kernel⟩,
   ⟨withCmd (cvUp none) 0x0707 [0, wd (mkId tCanvas 1 3)], r0, { o1 with body := cvBody }, by unfold Served; decide +kernel, by and_intros <;> decide +kernel⟩⟩

/-- Witness: TwinSession. -/
theorem wit_TwinSession :
    (∃ (s : State), (getLport s.chip twinLport).linkUp = true ∧ domOn s.chip 5 = true ∧ s.chip.twin.phyUp = false) ∧
    (∃ (s : State), s.chip.twin.phyUp = true) ∧
    (∃ (s : State), s.chip.twin.phyUp = true ∧ s.chip.twin.session = false) ∧
    (∃ (s : State) (serial : Nat) (rnd : Nat) (version : Nat) (num : Nat) (mac : Bool) (b : Bool) (l : Bool) (sp : List (Nat × Nat)), s.chip.twin.phyUp = true ∧ s.chip.twin.session = false ∧ (s.chip.net.pairing = none ∨ mac = false ∨ version ≠ 1)) ∧
    (∃ (s : State) (serial : Nat) (rnd : Nat) (num : Nat) (b : Bool), s.chip.twin.phyUp = true ∧ s.chip.twin.session = false ∧ s.chip.net.pairing.isSome = true ∧ s.chip.twin.st ≠ 5 ∧ s.chip.twin.twinNeedsFull = false ∧ s.chip.twin.journal = []) ∧
    (∃ (s : State), inService s.chip = true ∧ s.chip.twin.hbStopped = false ∧ s.chip.twin.session = true) ∧
    (∃ (s : State) (q : Nat), Hears q s) ∧
    (∃ (s : State) (q : Nat), s.chip.twin.session = true ∧ s.chip.twin.rxSeen.contains q = true) ∧
    (∃ (s : State) (q : Nat), s.chip.twin.session = true ∧ s.chip.twin.tagFails < 15) ∧
    (∃ (s : State), inService s.chip = true ∧ s.chip.twin.hbFrame = true) ∧
    (∃ (s : State), inService s.chip = true ∧ s.chip.twin.hbFrame = false ∧ s.chip.twin.missFrame = 2 ∧ s.chip.twin.session = true ∧ s.chip.twin.ctrl.getLsbD 1 = false ∧ s.chip.twin.st = 3 ∧ s.chip.twin.twinEjected = false) ∧
    (∃ (s : State) (q : Nat) (seq : Nat) (e : Bool), Hears q s ∧ s.chip.twin.st = 3) ∧
    (∃ (s : State) (extra : Nat) (a : Commit), s.chip.gx.active = some a ∧ a.stage = .writing ∧ a.kind = .takeover ∧ a.cause ≠ 3 ∧ firmwareUp s.chip = true) ∧
    (∃ (s : State) (i : Nat) (due : Nat), s.chip.twin.announce = [(i, due)]) ∧
    (∃ (s : State) (x : TakeRun), s.chip.twin.taking = some x ∧ x.tAct ≠ 0) :=
  ⟨⟨st { up with net := { up.net with lports := [(twinLport, { LPort.zero with st := .up })] } }, by and_intros <;> decide +kernel⟩,
   ⟨st (ses id), by decide +kernel⟩,
   ⟨st (twUp fun t => { t with phyUp := true }), by and_intros <;> decide +kernel⟩,
   ⟨st (twUp fun t => { t with phyUp := true }), 9, 9, 1, 1, false, true, true, [], by and_intros <;> decide +kernel⟩,
   ⟨st { twUp (fun t => { t with phyUp := true }) with net := { up.net with pairing := some 1 } }, 9, 9, 1, true, by and_intros <;> decide +kernel⟩,
   ⟨st (ses id), by and_intros <;> decide +kernel⟩,
   ⟨st (ses id), 1, by unfold Hears; decide +kernel⟩,
   ⟨st (ses fun t => { t with rxSeen := [1] }), 1, by and_intros <;> decide +kernel⟩,
   ⟨st (ses fun t => { t with tagFails := 14 }), 1, by and_intros <;> decide +kernel⟩,
   ⟨st (ses fun t => { t with hbFrame := true }), by and_intros <;> decide +kernel⟩,
   ⟨st (ses fun t => { t with ctrl := 0, missFrame := 2, st := 3 }), by and_intros <;> decide +kernel⟩,
   ⟨st (ses fun t => { t with st := 3 }), 1, 1, false, by unfold Hears; decide +kernel, by decide +kernel⟩,
   ⟨st (gxUp fun g => { g with active := some (cmtOf .takeover .writing) }), 0, cmtOf .takeover .writing, by and_intros <;> decide +kernel⟩,
   ⟨st (twUp fun t => { t with announce := [(0, 5)] }), 0, 5, by decide +kernel⟩,
   ⟨st (twUp fun t => { t with taking := some ⟨1, 0, 5, 2, 1, 0, []⟩ }), ⟨1, 0, 5, 2, 1, 0, []⟩, by and_intros <;> decide +kernel⟩⟩

/-- Witness: TwinRecords. -/
theorem wit_TwinRecords :
    (∃ (s : State) (q : Nat) (seq : Nat) (r : JRec), Hears q s ∧ seq = s.chip.twin.jRx ∧ (∀ e, r ≠ .snapshot e) ∧ s.chip.twin.st ≠ 3) ∧
    (∃ (s : State) (q : Nat) (seq : Nat) (r : JRec), Hears q s ∧ seq < s.chip.twin.jRx ∧ (∀ e, r ≠ .snapshot e)) ∧
    (∃ (s : State) (q : Nat) (chan : Nat) (seq : Nat), Hears q s ∧ (chan = 2 → s.chip.gx.active = none)) ∧
    (∃ (s : State) (q : Nat) (seq : Nat) (a : Commit), Hears q s ∧ s.chip.gx.active = some a ∧ a.stage = .journalled ∧ a.journal ≤ seq) ∧
    (∃ (s : State) (chan : Nat) (seq : Nat) (sent : Nat) (m : TwinMsg), s.chip.twin.unacked = [(chan, seq, m, sent)]) ∧
    (∃ (s : State) (l : Nat) (c : Chip), s.chip.twin.session = true ∧ s.chip.twin.mirrorNext < (mirrorItems (cfg s.chip)).length ∧ svc s.chip < s.chip.twin.mirrorPass + 100000000 ∧ (mirrorItems (cfg s.chip))[s.chip.twin.mirrorNext]? = some (true, l) ∧ c = waitSvc (s.chip.twin.mirrorPass + s.chip.twin.mirrorNext * 100000000 / (mirrorItems (cfg s.chip)).length) s.chip) ∧
    (∃ (s : State) (q : Nat) (seq : Nat) (m : MirrorRec), Hears q s ∧ NextRecord 4 seq s) ∧
    (∃ (s : State) (q : Nat) (head : Nat) (w : List Word), Hears q s ∧ s.chip.twin.ring.entries = 0) ∧
    (∃ (s : State) (q : Nat) (head : Nat) (w : List Word), Hears q s ∧ s.chip.twin.ring.entries ≠ 0) ∧
    (∃ (s : State) (q : Nat) (seq : Nat) (conf : Nat) (u : List (Nat × Nat)) (c : Chip), Hears q s ∧ NextRecord 7 seq s ∧ c = heardRecord q 7 seq s) ∧
    (∃ (s : State) (q : Nat) (seq : Nat) (needed : Nat) (avail : Nat) (a : Commit), Hears q s ∧ NextRecord 7 seq s ∧ awaiting s.chip = some a) ∧
    (∃ (s : State) (q : Nat) (seq : Nat) (needed : Nat) (avail : Nat) (a : Commit), Hears q s ∧ NextRecord 7 seq s ∧ awaiting s.chip = some a) ∧
    (∃ (s : State) (a : Commit), awaiting s.chip = some a) ∧
    (∃ (s : State) (q : Nat) (seq : Nat) (conf : Nat), Hears q s ∧ NextRecord 7 seq s ∧ (s.chip.twin.reserves.any (fun e => e.1 == 2 * idKey conf + 1)) = false) ∧
    (∃ (s : State) (q : Nat) (seq : Nat) (sec : Nat) (ns : Nat) (ids : List (Nat × Nat)) (h : Handover), Hears q s ∧ NextRecord 7 seq s ∧ s.chip.twin.handover = some h ∧ h.relaying = false ∧ h.relay = true ∧ h.cards = [] ∧ h.confs ≠ [] ∧ (∀ k ∈ h.confs, ids.any (fun e => e.1 == (cfg s.chip).keyId k) = true) ∧ s.chip.gx.active ≠ none) ∧
    (∃ (s : State) (q : Nat) (f : Frame) (e : Nat × List Word), Hears q s ∧ ((cfg s.chip).addrs.find? (fun e => (steerIn [e] (addrLport e.2) f).isSome && addrActive s.chip (cfg s.chip) e.1)) = some e) ∧
    (∃ (s : State) (h : Handover), s.chip.twin.handover = some h ∧ h.relay = true ∧ h.relaying = true ∧ h.cmd ≠ 0 ∧ s.chip.twin.st ≠ 5) ∧
    (∃ (s : State) (h : Handover), s.chip.pwr.phase = .service ∧ s.chip.twin.st ≠ 5 ∧ s.chip.gx.held = [] ∧ s.chip.twin.handover = some h) ∧
    (∃ (s : State), s.chip.pwr.phase = .service ∧ s.chip.twin.st ≠ 3 ∧ s.chip.gx.held = [] ∧ s.chip.twin.handover = none ∧ s.chip.twin.ejectEnd = 0) ∧
    (∃ (s : State), 1 < s.chip.twin.ejectEnd) :=
  ⟨⟨st (ses fun t => { t with jRx := 1 }), 1, 1, .void 0, by unfold Hears; decide +kernel, by decide +kernel, (by intro e h; cases h), by decide +kernel⟩,
   ⟨st (ses fun t => { t with jRx := 3 }), 1, 1, .void 0, by unfold Hears; decide +kernel, by decide +kernel, (by intro e h; cases h)⟩,
   ⟨st (ses id), 1, 2, 1, by unfold Hears; decide +kernel, by decide +kernel⟩,
   ⟨st (actUp (cmtOf .host .journalled)), 1, 1, cmtOf .host .journalled, by unfold Hears; decide +kernel, by and_intros <;> decide +kernel⟩,
   ⟨st (ses fun t => { t with unacked := [(7, 1, .takeoverReq, 0)] }), 7, 1, 0, .takeoverReq, by decide +kernel⟩,
   ⟨st { legUp with twin := (ses id).twin }, 0, _, by decide +kernel, by decide +kernel, by decide +kernel, by decide +kernel, rfl⟩,
   ⟨st (ses id), 1, 1, .rend 0 0, by unfold Hears; decide +kernel, by unfold NextRecord; decide +kernel⟩,
   ⟨st (ses id), 1, 0, [], by unfold Hears; decide +kernel, by decide +kernel⟩,
   ⟨st (ses fun t => { t with ring := { t.ring with entries := 16 } }), 1, 0, [], by unfold Hears; decide +kernel, by decide +kernel⟩,
   ⟨st (ses id), 1, 1, 4, [], _, by unfold Hears; decide +kernel, by unfold NextRecord; decide +kernel, rfl⟩,
   ⟨st (actUp ask), 1, 1, 0, 0, ask, by unfold Hears; decide +kernel, by unfold NextRecord; decide +kernel, by decide +kernel⟩,
   ⟨st (actUp ask), 1, 1, 5, 4, ask, by unfold Hears; decide +kernel, by unfold NextRecord; decide +kernel, by decide +kernel⟩,
   ⟨st (actUp ask), ask, by decide +kernel⟩,
   ⟨st (ses id), 1, 1, 4, by unfold Hears; decide +kernel, by unfold NextRecord; decide +kernel, by decide +kernel⟩,
   ⟨st { actUp (cmtOf .host .writing) with gx := { (gxUp fun g => { g with active := some (cmtOf .host .writing), bank1 := { Cfg.empty with epoch := 1, objs := [(mkKey tConf 4, o1)] } }).gx with current := 1 }, twin := { (ses id).twin with handover := some ho } }, 1, 1, 0, 0, [(mkId tConf 1 4, 7)], ho, by unfold Hears; decide +kernel, by unfold NextRecord; decide +kernel, by and_intros <;> decide +kernel⟩,
   ⟨st (ses id), 1, udpF, (0, List.replicate 12 0), by unfold Hears; decide +kernel, by decide +kernel⟩,
   ⟨st (ses fun t => { t with handover := some { ho with relaying := true } }), { ho with relaying := true }, by and_intros <;> decide +kernel⟩,
   ⟨st (ses fun t => { t with handover := some ho }), ho, by and_intros <;> decide +kernel⟩,
   ⟨st (ses id), by and_intros <;> decide +kernel⟩,
   ⟨st (ses fun t => { t with ejectEnd := 9 }), by decide +kernel⟩⟩

/-- Witness: TwinCommands. -/
theorem wit_TwinCommands :
    (∃ (s : State) (r : CmdRef), Served 0x0D00 r s ∧ ringFields 16 (bodyAt r s) = none ∧ ringZero (hostRingOf (bodyAt r s)) = false ∧ (∀ f, f < 256 → fnExists s.chip (funcEntry (bodyAt r s) f) = true)) ∧
    (∃ (s : State) (r : CmdRef), Served 0x0D01 r s ∧ s.chip.twin.st ≤ 1) ∧
    (∃ (s : State) (r : CmdRef), Served 0x0D01 r s ∧ 1 < s.chip.twin.st) ∧
    (∃ (s : State) (r : CmdRef), Served 0x0D02 r s ∧ s.chip.twin.st ≠ 2) ∧
    (∃ (s : State) (r : CmdRef), Served 0x0D02 r s ∧ s.chip.twin.st = 2 ∧ (slotAt r s).cancel = false ∧ replayWaits s.chip = false) ∧
    (∃ (s : State) (r : CmdRef), Served 0x0D03 r s ∧ bf (bodyAt r s) 0 0 16 ≤ 4096 ∧ s.chip.twin.st ≠ 3) ∧
    (∃ (s : State) (r : CmdRef), Served 0x0D03 r s ∧ bf (bodyAt r s) 0 0 16 = 0 ∧ bit (bw (bodyAt r s) 0) 17 = false ∧ s.chip.twin.st = 3 ∧ s.chip.twin.handover = none) ∧
    (∃ (s : State) (r : CmdRef) (o : Obj) (k : Nat), Served 0x0D03 r s ∧ bf (bodyAt r s) 0 0 16 = 1 ∧ bit (bw (bodyAt r s) 0) 17 = false ∧ s.chip.twin.st = 3 ∧ s.chip.twin.handover = none ∧ idType (bw (bodyAt r s) 8) = tConf ∧ (cfg s.chip).obj (bw (bodyAt r s) 8) = some o ∧ (slotAt r s).cancel = false ∧ k = idKey (bw (bodyAt r s) 8) ∧ sharedAddr (cfg s.chip) [k] = false) ∧
    (∃ (s : State) (r : CmdRef) (n : Nat), Served 0x0D04 r s ∧ bit (bw (bodyAt r s) 4) 0 = false ∧ ((s.chip.twin.map.filter (fun e => decide (idType e.1 ≤ 8) && thas (cfg s.chip).sobjs (idKey e.1))).find? (fun e => e.1 == bw (bodyAt r s) 0)).map Prod.snd = some n) ∧
    (∃ (s : State) (r : CmdRef), Served 0x0D04 r s ∧ bit (bw (bodyAt r s) 4) 0 = false ∧ (s.chip.twin.map.filter (fun e => decide (idType e.1 ≤ 8) && thas (cfg s.chip).sobjs (idKey e.1))).find? (fun e => e.1 == bw (bodyAt r s) 0) = none) :=
  ⟨⟨withCmd up 0x0D00 [4096, 0, 8, 0, 8, 0, 16], r0, by unfold Served; decide +kernel, by and_intros <;> decide +kernel⟩,
   ⟨withCmd up 0x0D01 [], r0, by unfold Served; decide +kernel, by decide +kernel⟩,
   ⟨withCmd (ses id) 0x0D01 [], r0, by unfold Served; decide +kernel, by decide +kernel⟩,
   ⟨withCmd up 0x0D02 [], r0, by unfold Served; decide +kernel, by decide +kernel⟩,
   ⟨withCmd (ses id) 0x0D02 [], r0, by unfold Served; decide +kernel, by and_intros <;> decide +kernel⟩,
   ⟨withCmd up 0x0D03 [0], r0, by unfold Served; decide +kernel, by and_intros <;> decide +kernel⟩,
   ⟨withCmd (ses fun t => { t with st := 3 }) 0x0D03 [0], r0, by unfold Served; decide +kernel, by and_intros <;> decide +kernel⟩,
   ⟨withCmd { confUp with twin := { (ses id).twin with st := 3 } } 0x0D03 [1, 0, wd (mkId tConf 1 4)], r0, o1, _, by unfold Served; decide +kernel, by decide +kernel, by decide +kernel, by decide +kernel, by decide +kernel, by decide +kernel, by decide +kernel, by decide +kernel, rfl, by decide +kernel⟩,
   ⟨withCmd { up with twin := { up.twin with map := [(mkId tConf 1 4, 77)] }, gx := { up.gx with bank1 := { Cfg.empty with epoch := 1, sobjs := [(mkKey tConf 4, o1)] } } } 0x0D04 [wd (mkId tConf 1 4), 0], r0, 77, by unfold Served; decide +kernel, by and_intros <;> decide +kernel⟩,
   ⟨withCmd up 0x0D04 [5, 0], r0, by unfold Served; decide +kernel, by and_intros <;> decide +kernel⟩⟩

end Sys2Proof.Tests
end

section
/-!
SUPPORT. Host accesses: what a row answers once its access has got through, and what the shared updates leave in the tables they change.
-/
namespace Sys2Proof.Machine
open Sys2Proof

/-! Answers of rows. -/

/-- A row that changes the chip alone answers the state on the new chip. -/
theorem act_onChip {s : State} {f : Chip → Chip} {d : Chip} (h : f s.chip = d) : act s f = .next (onChip s d) := by
  subst h; rfl

/-- A row that asks nothing of memory leaves it alone. -/
theorem actMem_onChip {s : State} {f : Chip → Mem → Chip × List MemOp} {d : Chip} (h : f s.chip s.mem = (d, [])) :
    actMem s f = .next (onChip s d) := by
  simp only [actMem, h, Mem.apply_nil, onChip]

@[simp] theorem onChip_chip (s : State) (c : Chip) : (onChip s c).chip = c := rfl

/-! Tables of functions and of egress ports. -/

/-- What a function's registers become depends on what they hold alone. -/
theorem modFn_congr {fn : Nat} {f g : Fn → Fn} {c : Chip} (h : f (getFn c fn) = g (getFn c fn)) : modFn fn f c = modFn fn g c :=
  congrArg (fun x => { c with host := { c.host with fns := tput c.host.fns fn x } }) h

@[simp] theorem getFn_modFn_same (fn : Nat) (f : Fn → Fn) (c : Chip) : getFn (modFn fn f c) fn = f (getFn c fn) := by simp [getFn]

theorem modEgPort_congr {lp : Nat} {f g : EgPort → EgPort} {c : Chip} (h : f (getEgPort c lp) = g (getEgPort c lp)) :
    modEgPort lp f c = modEgPort lp g c :=
  congrArg (fun x => { c with eg := { c.eg with ports := tput c.eg.ports lp x } }) h

@[simp] theorem getEgPort_modEgPort_same (lp : Nat) (f : EgPort → EgPort) (c : Chip) :
    getEgPort (modEgPort lp f c) lp = f (getEgPort c lp) := by simp [getEgPort, modEgPort]

@[simp] theorem modEgPort_legs (lp : Nat) (f : EgPort → EgPort) (c : Chip) : (modEgPort lp f c).eg.legs = c.eg.legs := rfl

@[simp] theorem getEgPort_raise (i k : Nat) (fn : Option Nat) (o d lp : Nat) (c : Chip) :
    getEgPort (raise i k fn o d c) lp = getEgPort c lp := rfl

@[simp] theorem getEgPort_waitSvc (n lp : Nat) (c : Chip) : getEgPort (waitSvc n c) lp = getEgPort c lp := by simp [getEgPort]

/-! Blocks of BAR2. -/

/-- The registers of a block that lies in one domain answer while that domain is on. -/
theorem blockOff_single {c : Chip} {addr d : Nat} (hb : blockDomains addr = [d]) (hd : domOn c d = true) : blockOff c addr = false :=
  blockOff_of fun e he => by rw [hb, List.mem_singleton] at he; exact he ▸ hd

/-- A block beyond those that hold registers lies in the domain of the host interface (R76). -/
theorem blockDomains_beyond {addr : Nat} (h : 11 ≤ b2Block addr) : blockDomains addr = [2] := by
  rw [blockDomains, ← Nat.sub_add_cancel (show 11 ≤ addr / 0x100000 from h)]
  rfl

theorem bit_eq_testBit (v i : Nat) : bit v i = v.testBit i := by
  unfold bit; rw [Nat.testBit_eq_decide_div_mod_eq]; exact beq_eq_decide ..

theorem bits_lt (v lo n : Nat) : bits v lo n < 2 ^ n := Nat.mod_lt _ (Nat.two_pow_pos n)

end Sys2Proof.Machine
end

section
/-!
SUPPORT. Slots, doorbells, function registers, window control and windows (R57 to R82), and the obligation about them.
-/
namespace Sys2Proof.Machine
open Sys2Proof

/-! Slots and doorbells. -/

theorem slotWrite_empty {fn k w : Nat} {v : Word} {c : Chip} (hk : k < 64) (hw : w < 128) (he : (getSlot c (slotKey fn k)).st = .empty) :
    slotWrite fn k w v c = modSlot (slotKey fn k) (fun x => { x with words := tput x.words w v }) c := by
  simp only [slotWrite, Nat.mod_eq_of_lt hk, Nat.mod_eq_of_lt hw, if_pos he]

theorem dbSubmit_captures {fn : Nat} {v : Word} {c : Chip} (hon : (getFn c fn).enable = true)
    (he : (getSlot c (slotKey fn (bits v.toNat 0 6))).st = .empty) : dbSubmit fn v c = captureSlot fn (bits v.toNat 0 6) c := by
  simp [dbSubmit, hon, he]

@[simp] theorem captureSlot_nextOrder (fn k : Nat) (c : Chip) : (captureSlot fn k c).host.nextOrder = c.host.nextOrder + 1 := rfl

theorem getSlot_captureSlot_same (fn k : Nat) (c : Chip) :
    getSlot (captureSlot fn k c) (slotKey fn k) =
      { getSlot c (slotKey fn k) with
          st := .busy, tag := bits ((getSlot c (slotKey fn k)).word 0) 16 16, submitNs := svc c % 2 ^ 32, order := c.host.nextOrder,
          opAtCapture := isOperator c fn, duringRestart := c.host.fwRestarting, taken := false, cancel := false,
          fetch := .idle, steps := 0, work := [], fraction := 0 } :=
  getSlot_putSlot_same ..

theorem getSlot_captureSlot_other {fn k j : Nat} (c : Chip) (h : j ≠ slotKey fn k) : getSlot (captureSlot fn k c) j = getSlot c j :=
  getSlot_putSlot_other _ _ h.symm

theorem dbRetire_matching {fn : Nat} {v : Word} {c : Chip} (hd : (getSlot c (slotKey fn (bits v.toNat 16 6))).st = .done)
    (ht : (getSlot c (slotKey fn (bits v.toNat 16 6))).tag = bits v.toNat 0 16) :
    dbRetire fn v c = putSlot (slotKey fn (bits v.toNat 16 6)) Slot.zero c :=
  if_pos ⟨hd, ht⟩

theorem dbCancel_matching {fn : Nat} {v : Word} {c : Chip} (ho : (getSlot c (slotKey fn (bits v.toNat 16 6))).open_ = true)
    (ht : (getSlot c (slotKey fn (bits v.toNat 16 6))).tag = bits v.toNat 0 16) :
    dbCancel fn v c = if steppedOps.contains (getSlot c (slotKey fn (bits v.toNat 16 6))).op = true
      then modSlot (slotKey fn (bits v.toNat 16 6)) (fun x => { x with cancel := true }) c else c :=
  if_pos ⟨ho, ht⟩

/-! Function registers. -/

/-- FN_CTRL written with the event queue off takes its four bits, and head and tail stay. -/
theorem fnCtrlWrite_evqOff {fn : Nat} {v : Word} {c : Chip} (h : v.getLsbD 1 = false) :
    fnCtrlWrite fn v c = modFn fn (fun f =>
      { f with enable := v.getLsbD 0, evqEnable := false, purgeOnReset := v.getLsbD 2, errIrqEn := v.getLsbD 3 }) c := by
  simp only [fnCtrlWrite, h, Bool.false_eq_true, false_and, if_false, Bool.false_and]

theorem fnCtrlWrite_evqRefused {fn : Nat} {v : Word} {c : Chip} (hv : v.getLsbD 1 = true) (hoff : (getFn c fn).evqEnable = false)
    (hbad : evqValid (getFn c fn) = false) : fnCtrlWrite fn v c = errAccess fn 5 c := by
  simp [fnCtrlWrite, hv, hoff, hbad]

/-! Window control. -/

/-- The lock bits that B2_UNLOCK opens: those it names, bit 0 being none. -/
theorem testBit_unlockMask (v i : Nat) (hi : i < 10) : (bits v 1 9 * 2).testBit i = (decide (1 ≤ i) && bit v i) := by
  show (v / 2 ^ 1 % 2 ^ 9 * 2 ^ 1).testBit i = _
  rw [bit_eq_testBit, Nat.testBit_mul_two_pow, Nat.testBit_mod_two_pow, Nat.testBit_div_two_pow]
  by_cases h : 1 ≤ i
  · simp [Nat.sub_add_cancel h, show i - 1 < 9 by omega]
  · simp [h]

theorem locked_b2Unlock {v : Word} {c : Chip} (hk : bits v.toNat 16 16 = 0xB2C1) {i : Nat} (hi : i < 10) :
    locked (b2Unlock v c) i = (locked c i && !(decide (1 ≤ i) && bit v.toNat i)) := by
  rw [b2Unlock, if_pos hk]
  simp only [locked, BitVec.getLsbD_and, BitVec.getLsbD_not, BitVec.getLsbD_ofNat, testBit_unlockMask v.toNat i hi, hi, decide_true,
    Bool.true_and]

/-! Windows. -/

/-- A range within one page is one piece. -/
theorem bar4Pieces_onePage {c : Chip} {fn a n : Nat} (hn : 0 < n) (hp : a % pageBytes + n ≤ pageBytes) :
    bar4Pieces c fn a n = [(0, n, windowAddr c fn a)] := by
  have hpos : 0 < pageBytes := by decide
  have hdiv := Nat.div_add_mod a pageBytes
  have hlast : (a + n - 1) / pageBytes = a / pageBytes :=
    Nat.div_eq_of_lt_le (by rw [Nat.mul_comm]; omega) (by rw [Nat.add_mul, Nat.mul_comm]; omega)
  have hlo : max a (a / pageBytes * pageBytes) = a := max_eq_left (Nat.div_mul_le_self ..)
  have hhi : min (a + n) (a / pageBytes * pageBytes + pageBytes) = a + n := min_eq_left (by rw [Nat.mul_comm (a / pageBytes)]; omega)
  simp only [bar4Pieces, if_neg hn.ne', hlast, Nat.sub_self, Nat.zero_add, List.range_one, List.map_cons, List.map_nil, Nat.add_zero,
    hlo, hhi, Nat.add_sub_cancel_left]

theorem bar4Write_onePage {c : Chip} {m : Mem} {fn a d : Nat} {data : List Byte} {poisoned : Bool} (hn : data ≠ [])
    (hp : a % pageBytes + data.length ≤ pageBytes) (hw : windowAddr c fn a = some d) :
    bar4Write fn a data poisoned c m = ((memWrite m d data poisoned c).2, (memWrite m d data poisoned c).1) := by
  simp [bar4Write, bar4Pieces_onePage (List.length_pos_iff.2 hn) hp, hw]

theorem bar4Read_onePage {c : Chip} {m : Mem} {fn a n d : Nat} (hn : 0 < n) (hp : a % pageBytes + n ≤ pageBytes)
    (hw : windowAddr c fn a = some d) (hc : memRead m d n c = (m.bytes d n, [], c)) :
    bar4Read fn a n c m = emit (.readData fn (wordsOf (m.bytes d n))) c := by
  simp [bar4Read, bar4Pieces_onePage hn hp, hw, hc]

/-- A read of words without marks delivers the bytes and changes nothing while no subchannel is frozen. -/
theorem memRead_clean {c : Chip} {m : Mem} {d n : Nat} (hf : anyFrozen c = false) (hm : markedIn m d n = []) :
    memRead m d n c = (m.bytes d n, [], c) := by
  simp [memRead, frozenIn, hf, hm]

/-- Memory operations that set or clear marks and touch no byte. -/
def MemOp.marks : MemOp → Bool
  | .flip _ _ | .poison _ _ => true
  | _ => false

theorem apply_marks_cells {l : List MemOp} (h : ∀ o ∈ l, o.marks = true) (m : Mem) : (m.apply l).cells = m.cells := by
  induction l generalizing m with
  | nil => rfl
  | cons o l ih =>
    rw [Mem.apply_cons, ih fun x hx => h x (List.mem_cons_of_mem _ hx)]
    have ho := h o List.mem_cons_self
    cases o with
    | flip a n => rfl
    | poison a on => rfl
    | write a l => cases ho
    | zero a n => cases ho
    | zeroSub s top => cases ho

/-- A write of clean data is one run of bytes and then marks, while no subchannel is frozen. -/
theorem memWrite_run {c : Chip} {m : Mem} {d : Nat} {data : List Byte} (hf : anyFrozen c = false) (hn : data ≠ []) :
    ∃ l, (∀ o ∈ l, MemOp.marks o = true) ∧ (memWrite m d data false c).1 = .write d data :: l := by
  unfold memWrite
  simp only [List.length_eq_zero_iff, hn, if_false, livePieces, hf, Bool.false_eq_true, false_and, List.singleton_append]
  refine ⟨_, fun o ho => ?_, rfl⟩
  obtain ⟨w, -, ho⟩ := List.mem_flatMap.1 ho
  split at ho
  · simp only [List.mem_cons, List.not_mem_nil, or_false] at ho
    rcases ho with rfl | rfl <;> rfl
  · split at ho
    · simp only [List.mem_cons, List.not_mem_nil, or_false] at ho
      rcases ho with rfl | rfl <;> rfl
    · rw [List.mem_singleton] at ho; subst ho; rfl

/-- The bytes after a write of clean data: those of the run read back, and every other one is as before. -/
theorem memWrite_bytes {c : Chip} {m : Mem} {d : Nat} {data : List Byte} (hm : m.wf = true) (hf : anyFrozen c = false) (hn : data ≠ []) :
    (∀ i < data.length, (m.apply (memWrite m d data false c).1).byte (d + i) = data.getD i 0) ∧
      ∀ x, x < d ∨ d + data.length ≤ x → (m.apply (memWrite m d data false c).1).byte x = m.byte x := by
  obtain ⟨l, hl, hops⟩ := memWrite_run (m := m) (d := d) hf hn
  have hcells : (m.apply (memWrite m d data false c).1).cells = Mem.writeBytes m.cells d data := by
    rw [hops, Mem.apply_cons, apply_marks_cells hl]; rfl
  obtain ⟨hrise, -⟩ := (Mem.wf_iff m).1 hm
  constructor
  · intro i hi; rw [Mem.byte, hcells]; exact writeBytes_at data m.cells d i hi hrise
  · intro x hx; rw [Mem.byte, hcells]; exact writeBytes_other data m.cells hx

/-! Rows. -/

/-- DB_SUBMIT of an EMPTY slot of an enabled function (R61, R65). -/
theorem exec_dbSubmit_captures {s : State} {fn : Nat} {v : Word} (hr : barReach s.chip fn = true) (hon : (getFn s.chip fn).enable = true)
    (he : (getSlot s.chip (slotKey fn (bits v.toNat 0 6))).st = .empty) :
    exec (.dbSubmit fn v) s = .next (onChip s (captureSlot fn (bits v.toNat 0 6) s.chip)) :=
  act_onChip ((if_pos hr).trans (dbSubmit_captures hon he))

/-- BAR4_WRITE of clean data within a mapped page (R80, R515). -/
theorem exec_bar4Write_onePage {s : State} {fn a d : Nat} {data : List Byte} (hr : barReach s.chip fn = true) (hn : data ≠ [])
    (hp : a % pageBytes + data.length ≤ pageBytes) (hw : windowAddr s.chip fn a = some d) :
    exec (.bar4Write fn a data false) s = .next { s with chip := (memWrite s.mem d data false s.chip).2,
                                                         mem := s.mem.apply (memWrite s.mem d data false s.chip).1 } := by
  show execBar4Write fn a data false s = _
  simp only [execBar4Write, actMem, if_pos hr, bar4Write_onePage hn hp hw]

/-- BAR4_READ within a mapped page without marks (R80, R82). -/
theorem exec_bar4Read_onePage {s : State} {fn a n d : Nat} (hr : barReach s.chip fn = true) (hn : 0 < n)
    (hp : a % pageBytes + n ≤ pageBytes) (hw : windowAddr s.chip fn a = some d) (hf : anyFrozen s.chip = false)
    (hm : markedIn s.mem d n = []) :
    exec (.bar4Read fn a n) s = .next (onChip s (emit (.readData fn (wordsOf (s.mem.bytes d n))) s.chip)) := by
  show execBar4Read fn a n s = _
  exact actMem_onChip (by simp only [if_pos hr, bar4Read_onePage hn hp hw (memRead_clean hf hm)])

/-- Settles O23: each register's row acts on the chip alone once its access gets through, and a range within one page of BAR4 is one
piece of memory. -/
theorem mailboxRegisters : Obligations.MailboxRegisters := by
  unfold Obligations.MailboxRegisters
  refine ⟨?slotWrite, ?submit, ?retire, ?cancel, ?fnCtrl, ?fnCtrlRefused, ?head, ?lost, ?errCount, ?domainMiss, ?poisoned, ?unlock,
    ?unlockKey, ?domainOff, ?unaligned, ?bar4Write, ?bar4Read⟩
  case slotWrite => exact fun s fn k w v hr hk hw he => act_onChip ((if_pos hr).trans (slotWrite_empty hk hw he))
  case submit =>
    intro s fn v hr hon he
    have hsame := getSlot_captureSlot_same fn (bits v.toNat 0 6) s.chip
    refine ⟨_, exec_dbSubmit_captures hr hon he, captureSlot_nextOrder .., ?_, ?_, ?_, ?_, ?_, fun k hk => getSlot_captureSlot_other _ hk, rfl⟩
    all_goals rw [onChip_chip, hsame]
  case retire => exact fun s fn v hr hd ht => act_onChip ((if_pos hr).trans (dbRetire_matching hd ht))
  case cancel => exact fun s fn v hr ho ht => act_onChip ((if_pos hr).trans (dbCancel_matching ho ht))
  case fnCtrl => exact fun s fn v hr hv => act_onChip ((if_pos hr).trans (fnCtrlWrite_evqOff hv))
  case fnCtrlRefused => exact fun s fn v hr hv hoff hbad => act_onChip ((if_pos hr).trans (fnCtrlWrite_evqRefused hv hoff hbad))
  case head => exact fun s fn v hr hsize hrange => act_onChip ((if_pos hr).trans (if_pos ⟨hsize, hrange⟩))
  case lost => exact fun s fn hr => act_onChip (if_pos hr)
  case errCount => exact fun s fn hr => act_onChip (if_pos hr)
  case domainMiss => exact fun s fn hr hd => act_onChip (b2Read_through _ hr hd)
  case poisoned => exact fun s fn b hr => act_onChip (if_pos hr)
  case unlock => exact fun s fn v hr hk => ⟨_, act_onChip (if_pos hr), rfl, fun i hi => locked_b2Unlock hk hi⟩
  case unlockKey => exact fun s fn v hr hk => act_onChip ((if_pos hr).trans (if_neg hk))
  case domainOff =>
    intro s fn a rd hr hoff
    refine ⟨_, act_onChip (if_pos ⟨hr, hoff⟩), ?_, ?_, rfl⟩ <;> cases rd <;> rfl
  case unaligned =>
    intro s fn b rd hr
    show execUnalignedAccess fn b rd s = _
    exact act_onChip (if_pos hr)
  case bar4Write =>
    intro s fn a d data hm hr hn hf hp hw
    exact ⟨_, exec_bar4Write_onePage hr hn hp hw, memWrite_bytes hm hf hn⟩
  case bar4Read => exact fun s fn a n d hr hn hp hw hf hm => exec_bar4Read_onePage hr hn hp hw hf hm

end Sys2Proof.Machine
end

section
/-!
SUPPORT. Accesses to registers without a row of their own (R9 to R13, R77, R456, R488, R599), and the obligation about them.
-/
namespace Sys2Proof.Machine
open Sys2Proof

/-! Locks. -/

/-- B2_LOCK closes the locks written 1, bit 0 being none, and opens none (R77). -/
theorem locked_windowWrite {v : Word} {c : Chip} {i : Nat} (hi : i < 10) :
    locked (windowWrite 4 v c).1 i = (locked c i || (decide (1 ≤ i) && v.getLsbD i)) := by
  have hmask : (0x3FE#10).getLsbD i = decide (1 ≤ i) := by interval_cases i <;> rfl
  show (c.host.b2Lock ||| (v.setWidth 10 &&& 0x3FE#10)).getLsbD i = _
  rw [BitVec.getLsbD_or, BitVec.getLsbD_and, BitVec.getLsbD_setWidth, hmask, decide_eq_true hi, Bool.true_and, Bool.and_comm (v.getLsbD i)]
  rfl

theorem rwl_open {addr : Nat} {v : Word} {f : RegFx} {c : Chip} (h : locked c (b2Block addr) = false) : rwl addr v f c = f c :=
  if_neg (by rw [h]; exact Bool.false_ne_true)

theorem rwl_closed {addr : Nat} {v : Word} {f : RegFx} {c : Chip} (h : locked c (b2Block addr) = true) :
    rwl addr v f c = (lockViolation addr v c, []) :=
  if_pos h

/-! What gets through to a register. -/

/-- An aligned write of a BAR2 word whose block is on gets to its register. -/
theorem registerWrite_bar2 {fn addr : Nat} {v : Word} {c : Chip} {m : Mem} (hr : bar2Reach c fn = true) (ha : addr % 4 = 0)
    (hd : blockOff c addr = false) : registerWrite fn 2 addr v c m = regWrite fn 2 addr v m c := by
  simp [registerWrite, regReach, hr, ha, hd]

theorem registerWrite_bar0 {fn addr : Nat} {v : Word} {c : Chip} {m : Mem} (hr : barReach c fn = true) (ha : addr % 4 = 0) :
    registerWrite fn 0 addr v c m = fnWrite fn addr v c := by
  simp [registerWrite, regReach, hr, ha, regWrite]

/-- The row of a BAR2 write that gets to its register and changes the chip alone. -/
theorem exec_registerWrite_bar2 {s : State} {fn addr : Nat} {v : Word} {d : Chip} (hr : bar2Reach s.chip fn = true) (ha : addr % 4 = 0)
    (hd : blockOff s.chip addr = false) (h : regWrite fn 2 addr v s.mem s.chip = (d, [])) :
    exec (.registerWrite fn 2 addr v) s = .next (onChip s d) := by
  show execRegisterWrite fn 2 addr v s = _
  exact actMem_onChip ((registerWrite_bar2 hr ha hd).trans h)

/-- No register lies in a block beyond the last (R11, R76). -/
theorem regWrite_beyond {fn addr : Nat} {v : Word} {m : Mem} {c : Chip} (h : 11 ≤ b2Block addr) : regWrite fn 2 addr v m c = (c, []) := by
  rw [regWrite, if_neg (by decide), ← Nat.sub_add_cancel h]
  rfl

/-! Event queue base. -/

/-- The MSI-X table begins beyond the function registers (R56). -/
theorem msixBase_beyond (fn : Nat) : 0x800 ≤ msixBase fn := by
  unfold msixBase; split <;> decide

/-- The high-word write of EVQ_BASE commits the pair while the queue is off (R9, R71). -/
theorem fnWrite_evqBaseHigh {fn : Nat} {v : Word} {c : Chip} (hoff : (getFn c fn).evqEnable = false) :
    fnWrite fn 0x10C v c = (modFn fn (fun f =>
      { f with evqBase := BitVec.ofNat 64 ((tget 0 f.wrLow 0x108).toNat + 2 ^ 32 * v.toNat) }) c, []) := by
  have htable : ¬ (msixBase fn ≤ 0x10C ∧ 0x10C < msixBase fn + 16 * msixSize fn) := by have := msixBase_beyond fn; omega
  simp only [fnWrite, htable, if_false, hoff, Bool.false_eq_true]
  exact congrArg (·, []) (modFn_congr rfl)

/-! Fields within range. -/

theorem outside_false {v lo hi : Nat} (hlo : lo ≤ v) (hhi : v ≤ hi) : outside v lo hi = false := by
  simp [outside, hlo, hhi]

/-- AGE_CTRL within range (R456). -/
theorem schedRegWrite_ageCtrl {v : Word} {c : Chip} (hl : locked c 7 = false) (hp : 1 ≤ v.toNat % 65536) (hc : 4 ≤ bits v.toNat 16 4) :
    schedRegWrite 0x70000C v c = (modSched (fun x =>
      { x with agePeriod := v.toNat % 65536, ageCeiling := bits v.toNat 16 4, ageEn := v.getLsbD 20 }) c, []) := by
  have hperiod : outside (v.toNat % 65536) 1 65535 = false := outside_false hp (by omega)
  have hceiling : outside (bits v.toNat 16 4) 4 15 = false := outside_false hc (Nat.le_of_lt_succ (bits_lt ..))
  simp only [schedRegWrite, hperiod, hceiling]
  exact rwl_open hl

/-- PWR_GOVERNOR within range (R599). -/
theorem powerRegWrite_governor {v : Word} {c : Chip} (hl : locked c 3 = false) (hlo : 5 ≤ bits v.toNat 0 8) (hhi : bits v.toNat 0 8 ≤ 100)
    (hg : 10 ≤ bits v.toNat 8 8) :
    powerRegWrite 0x30000C v c = (modPwr (fun p => { p with leadUs := bits v.toNat 0 8, gapUs := bits v.toNat 8 8 }) c, []) := by
  have hlead : outside (bits v.toNat 0 8) 5 100 = false := outside_false hlo hhi
  have hgap : outside (bits v.toNat 8 8) 10 255 = false := outside_false hg (Nat.le_of_lt_succ (bits_lt ..))
  simp only [powerRegWrite, hlead, hgap]
  exact rwl_open hl

/-! Watermarks of pools (R466, R488). -/

@[simp] theorem getPool_modPool_same (p : Nat) (f : Pool → Pool) (c : Chip) : getPool (modPool p f c) p = f (getPool c p) := by
  simp [getPool, modPool]

/-- Rings pausing leave the pools alone. -/
@[simp] theorem ringPauses_pools (st : Nat) (c : Chip) : (ringPauses st c).pools = c.pools := by
  unfold ringPauses
  generalize c.vid.canvases.filter _ = l
  exact List.foldlRecOn (motive := fun d : Chip => d.pools = c.pools) l _ rfl fun d hd e _ => hd

/-- A new state of a pool leaves its watermarks alone. -/
theorem watermark_wmCaution (p : Nat) (c : Chip) : (getPool (watermark p c) p).wmCaution = (getPool c p).wmCaution := by
  unfold watermark
  dsimp only
  split
  · rfl
  · simp [getPool, modPool]

/-- The caution watermark of a pool lies at this address (R488). -/
def cautionReg (p : Nat) : Nat := 0x600010 + 0x100 * p

theorem cautionReg_block {p : Nat} (hp : p < 8) : cautionReg p / 0x100000 = 6 := by unfold cautionReg; omega

theorem regWrite_caution {fn p : Nat} {v : Word} {m : Mem} {c : Chip} (hp : p < 8) (hl : locked c 6 = false) :
    regWrite fn 2 (cautionReg p) v m c = (setMarks p (fun x => { x with wmCaution := v.toNat % 2 ^ 24 }) c, []) := by
  have hblock : b2Block (cautionReg p) = 6 := cautionReg_block hp
  have hpool : cautionReg p % 0x100000 / 0x100 = p := by unfold cautionReg; omega
  have hoff : cautionReg p % 0x100000 % 0x100 = 0x10 := by unfold cautionReg; omega
  rw [regWrite, if_neg (by decide), hblock]
  simp only [poolRegWrite, hpool, if_neg (Nat.not_le.2 hp), hoff]
  exact rwl_open (hblock ▸ hl)

theorem exec_cautionWrite {s : State} {fn p : Nat} {v : Word} (hr : bar2Reach s.chip fn = true) (hd : domOn s.chip 9 = true)
    (hl : locked s.chip 6 = false) (hp : p < 8) :
    exec (.registerWrite fn 2 (0x600010 + 0x100 * p) v) s =
      .next (onChip s (setMarks p (fun x => { x with wmCaution := v.toNat % 2 ^ 24 }) s.chip)) := by
  have hdom : blockDomains (cautionReg p) = [9] := by rw [blockDomains, cautionReg_block hp]; rfl
  exact exec_registerWrite_bar2 hr (by omega) (blockOff_single hdom hd) (regWrite_caution hp hl)

theorem setMarks_inOrder {p : Nat} {f : Pool → Pool} {c : Chip} (h1 : (f (getPool c p)).wmCritical < (f (getPool c p)).wmWarning)
    (h2 : (f (getPool c p)).wmWarning < (f (getPool c p)).wmCaution) (h3 : (f (getPool c p)).wmCaution ≤ (f (getPool c p)).count) :
    setMarks p f c = watermark p (modPool p f c) :=
  if_pos ⟨h1, h2, h3⟩

/-! The low word of a 64-bit register (R9). -/

theorem registerRead_low {fn bar a x : Nat} {c : Chip} (hr : regReach c fn bar = true) (ho : ownRead bar a = false) (ha : a % 4 = 0)
    (hd : bar ≠ 0 → blockOff c a = false) (he : isEstimate bar a = false) (hx : reg64 c fn bar a = some x) :
    registerRead fn bar a c = modFn fn (fun f => { f with rdHigh := tput f.rdHigh (a + 4) (wd (x / 2 ^ 32)) })
      (emit (.readData fn [wd (x % 2 ^ 32)]) c) := by
  have hon : ¬ (bar ≠ 0 ∧ blockOff c a = true) := fun h => by rw [hd h.1] at h; exact Bool.false_ne_true h.2
  simp only [registerRead, hr, ho, ha, he, hx, hon, regRead, Bool.not_true, Bool.false_eq_true, if_false, ne_eq, not_true_eq_false]

/-- Settles O26: each write gets to the register at its address, and its row changes the chip as that register's rule says. -/
theorem registerAccess : Obligations.RegisterAccess := by
  unfold Obligations.RegisterAccess
  refine ⟨?beyond, ?lock, ?lockClosed, ?ageCtrl, ?governor, ?caution, ?cautionRefused, ?evqBase, ?lowWord⟩
  case beyond =>
    intro s fn a v hr ha hb hd
    exact exec_registerWrite_bar2 hr ha (blockOff_single (blockDomains_beyond hb) hd) (regWrite_beyond hb)
  case lock =>
    intro s fn v hr hd
    exact ⟨_, exec_registerWrite_bar2 hr rfl (blockOff_single rfl hd) rfl, rfl, fun i hi => locked_windowWrite hi⟩
  case lockClosed =>
    intro s fn v hr hd hl
    exact exec_registerWrite_bar2 hr rfl (blockOff_single rfl hd) (rwl_closed hl)
  case ageCtrl =>
    intro s fn v hr hd hl hp hc
    exact exec_registerWrite_bar2 hr rfl (blockOff_single rfl hd) (schedRegWrite_ageCtrl hl hp hc)
  case governor =>
    intro s fn v hr hd hl hlo hhi hg
    exact exec_registerWrite_bar2 hr rfl (blockOff_single rfl hd) (powerRegWrite_governor hl hlo hhi hg)
  case caution =>
    intro s fn p v hr hd hl hp h1 h2 h3
    refine ⟨_, exec_cautionWrite hr hd hl hp, ?_, rfl⟩
    rw [onChip_chip, setMarks_inOrder h1 h2 h3, watermark_wmCaution, getPool_modPool_same]
  case cautionRefused =>
    intro s fn p v hr hd hl hp hv
    rw [exec_cautionWrite hr hd hl hp, setMarks, if_neg fun h => absurd h.2.1 (Nat.not_lt.2 hv)]
    rfl
  case evqBase =>
    intro s fn v hfn hr hoff
    show execRegisterWrite fn 0 0x10C v s = _
    exact actMem_onChip ((registerWrite_bar0 hr rfl).trans (fnWrite_evqBaseHigh hoff))
  case lowWord =>
    intro s fn bar a x hr ho ha hd he hx
    refine ⟨_, act_onChip (registerRead_low hr ho ha hd he hx), rfl, ?_, rfl⟩
    rw [onChip_chip, getFn_modFn_same, tfind_tput_same]

end Sys2Proof.Machine
end

section
/-!
SUPPORT. Registers of the shapers and gates (R257 to R268), and the obligation about them.
-/
namespace Sys2Proof.Machine
open Sys2Proof

/-! Accesses to a port's region. -/

/-- Every register of a port's region lies in block 2. -/
theorem egReg_block {lp off : Nat} (hlp : lp < 8) (ho : off < 0x10000) : egReg lp off / 0x100000 = 2 := by unfold egReg; omega

theorem blockOff_egReg {c : Chip} {lp off : Nat} (hlp : lp < 8) (ho : off < 0x10000) (hd : domOn c 6 = true) :
    blockOff c (egReg lp off) = false :=
  blockOff_single (by rw [blockDomains, egReg_block hlp ho]; rfl) hd

/-- A write to a port's region through an open lock gets to its register. -/
theorem egWrite_open {s : State} {fn lp off : Nat} {v : Word} (f : Chip → Chip) (h : egOpen s fn lp) (ho : off < 0x10000) :
    egWrite fn lp off v f s.chip = f s.chip := by
  obtain ⟨hr, hd, hlp, hl⟩ := h
  exact (if_pos hlp).trans (b2Write_through f hr (blockOff_egReg hlp ho hd) (egReg_block hlp ho ▸ hl))

/-- A closed lock turns the write away (R13, R78). -/
theorem egWrite_locked {c : Chip} {fn lp off : Nat} {v : Word} (f : Chip → Chip) (hr : bar2Reach c fn = true) (hd : domOn c 6 = true)
    (hlp : lp < 8) (ho : off < 0x10000) (hl : locked c 2 = true) :
    egWrite fn lp off v f c = raise 2 0x2 none (egReg lp off) v.toNat c :=
  (if_pos hlp).trans (b2Write_locked f hr (blockOff_egReg hlp ho hd) (egReg_block hlp ho ▸ hl))

/-! The rate of a port. -/

/-- A rate within range is taken, the bucket starts at zero, and at most an event is raised besides (R257, R268, R269). -/
theorem portRate_inRange {lp : Nat} {v : Word} {c : Chip} (h : bits v.toNat 0 19 ≤ 400000) :
    (getEgPort (portRate lp v c) lp).rateMbps = bits v.toNat 0 19 ∧ (getEgPort (portRate lp v c) lp).bucket = 0 ∧
      (getEgPort (portRate lp v c) lp).oper = (getEgPort c lp).oper ∧ (portRate lp v c).eg.legs = c.eg.legs := by
  rw [portRate, if_neg (Nat.not_lt.2 h)]
  dsimp only
  split <;> simp [resetPortBucket]

/-! The administrative registers. -/

/-- What a write does to an administrative register with no change pending (R260, R267). -/
theorem exec_gateAdminWrite {s : State} {fn lp off : Nat} {v : Word} {d : Chip} (h : egOpen s fn lp) (ho : off < 0x10000)
    (hd : adminWrite fn lp off v s.chip = d) : exec (.gateAdminWrite fn lp off v) s = .next (onChip s d) :=
  act_onChip ((egWrite_open _ h ho).trans hd)

/-- A word of the administrative list is stored, a mask word with its four bits (R267). -/
theorem adminWrite_list {fn lp off : Nat} {v : Word} {c : Chip} (hp : (getEgPort c lp).pend = false) (ho : 0x1000 ≤ off ∧ off < 0x1800) :
    adminWrite fn lp off v c = modEgPort lp (fun p =>
      { p with adm := tput p.adm ((off - 0x1000) / 4) (if off % 8 = 0 then v &&& 15#32 else v) }) c := by
  dsimp only [adminWrite]
  rw [if_neg (by simp [hp]), if_neg (by omega), if_neg (by omega), if_neg (by omega), if_neg (by omega), if_neg (by omega), if_pos ho]

theorem adminWrite_mask {fn lp i : Nat} {v : Word} {c : Chip} (hp : (getEgPort c lp).pend = false) (hi : i < 256) :
    adminWrite fn lp (0x1000 + 8 * i) v c = modEgPort lp (fun p => { p with adm := tput p.adm (2 * i) (v &&& 15#32) }) c := by
  rw [adminWrite_list hp (by omega), if_pos (by omega), show (0x1000 + 8 * i - 0x1000) / 4 = 2 * i by omega]

theorem adminWrite_interval {fn lp i : Nat} {v : Word} {c : Chip} (hp : (getEgPort c lp).pend = false) (hi : i < 256) :
    adminWrite fn lp (0x1004 + 8 * i) v c = modEgPort lp (fun p => { p with adm := tput p.adm (2 * i + 1) v }) c := by
  rw [adminWrite_list hp (by omega), if_neg (by omega), show (0x1004 + 8 * i - 0x1000) / 4 = 2 * i + 1 by omega]

/-- The base seconds wait for their high word (R9). -/
theorem adminWrite_baseLow {fn lp : Nat} {v : Word} {c : Chip} (hp : (getEgPort c lp).pend = false) :
    adminWrite fn lp 0x10 v c = modFn fn (fun f => { f with wrLow := tput f.wrLow (0x200010 + 0x10000 * lp) v }) c := by
  rw [show 0x200010 + 0x10000 * lp = egReg lp 0x10 by unfold egReg; omega]
  simp [adminWrite, hp]

theorem adminWrite_baseHigh {fn lp : Nat} {v : Word} {c : Chip} (hp : (getEgPort c lp).pend = false) :
    adminWrite fn lp 0x14 v c = modEgPort lp (fun p =>
      { p with admSec := v.toNat * 2 ^ 32 + (tget 0 (getFn c fn).wrLow (0x200010 + 0x10000 * lp)).toNat }) c := by
  rw [show 0x200010 + 0x10000 * lp = egReg lp 0x10 by unfold egReg; omega]
  simp [adminWrite, hp]

theorem adminWrite_baseNs {fn lp : Nat} {v : Word} {c : Chip} (hp : (getEgPort c lp).pend = false) :
    adminWrite fn lp 0x18 v c = modEgPort lp (fun p => { p with admNs := v.toNat }) c := by
  simp [adminWrite, hp]

theorem adminWrite_cycle {fn lp : Nat} {v : Word} {c : Chip} (hp : (getEgPort c lp).pend = false) :
    adminWrite fn lp 0x1C v c = modEgPort lp (fun p => { p with admCycle := v.toNat }) c := by
  simp [adminWrite, hp]

theorem adminWrite_length {fn lp : Nat} {v : Word} {c : Chip} (hp : (getEgPort c lp).pend = false) :
    adminWrite fn lp 0x20 v c = modEgPort lp (fun p => { p with admLen := v.toNat % 512 }) c := by
  simp [adminWrite, hp]

/-! The change of the lists. -/

/-- A list within range whose base lies 10 µs ahead becomes pending at its base (R259). -/
theorem gateChange_onTime {lp : Nat} {c : Chip} (hb : (getEgPort c lp).adminBad = false)
    (ht : svc c + 10000 ≤ (getEgPort c lp).admin.base) :
    gateChange lp c = modEgPort lp (fun p => { p with pend := true, pendList := p.admin, changeNs := p.admin.base }) c := by
  dsimp only [gateChange]
  rw [if_neg (by simp [hb]), if_pos ht]
  exact modEgPort_congr rfl

/-- A cancel before the takeover time clears the change (R260). -/
theorem gateCancel_early {lp : Nat} {c : Chip} (ht : svc c < (getEgPort c lp).changeNs) :
    gateCancel lp c = modEgPort lp (fun p => { p with pend := false }) c :=
  if_neg fun h => absurd h.2 (Nat.not_le.2 ht)

/-- At the takeover time the pending list becomes the operating list (R259). -/
theorem gateTakeover_pending {lp : Nat} {c : Chip} (hp : (getEgPort c lp).pend = true) :
    gateTakeover lp c = raise (portIsland lp) 0x404 none lp
      ((getEgPort c lp).pendList.entries.length + 2 ^ 32 * ((getEgPort c lp).changeNs % 1000000000))
      (modEgPort lp (fun p => { p with oper := (getEgPort c lp).pendList, operValid := true, pend := false })
        (waitSvc (getEgPort c lp).changeNs c)) := by
  dsimp only [gateTakeover]
  rw [if_neg (by simp [hp])]
  exact congrArg _ (modEgPort_congr (by rw [getEgPort_waitSvc]))

theorem gateBoundary_operating {lp : Nat} {c : Chip} (hg : (getEgPort c lp).gateEn = true) (hv : (getEgPort c lp).operValid = true) :
    gateBoundary lp c = waitSvc ((getEgPort c lp).oper.at_ (svc c)).2 c :=
  if_pos ⟨hg, hv⟩

/-- Settles O51: a write gets through the power domain and the open lock of its port's region, and its register then takes it. -/
theorem shaperRegisters : Obligations.ShaperRegisters := by
  unfold Obligations.ShaperRegisters
  refine ⟨?rate, ?ctrl, ?admin, ?base, ?latch, ?cancel, ?takeover, ?list, ?boundary, ?closed⟩
  case rate =>
    intro s fn lp v h hv
    obtain ⟨hrate, hbucket, hoper, hlegs⟩ := portRate_inRange (lp := lp) (c := s.chip) hv
    exact ⟨_, act_onChip (egWrite_open _ h (by decide)), hrate, hbucket, hoper, hlegs, rfl⟩
  case ctrl => exact fun s fn lp v h => act_onChip (egWrite_open _ h (by decide))
  case admin =>
    intro s fn lp v h hp
    exact ⟨exec_gateAdminWrite h (by decide) (adminWrite_baseNs hp), exec_gateAdminWrite h (by decide) (adminWrite_cycle hp),
      exec_gateAdminWrite h (by decide) (adminWrite_length hp)⟩
  case base =>
    intro s fn lp v h hp
    exact ⟨exec_gateAdminWrite h (by decide) (adminWrite_baseLow hp), exec_gateAdminWrite h (by decide) (adminWrite_baseHigh hp)⟩
  case latch => exact fun s fn lp h hb ht => act_onChip ((egWrite_open _ h (by decide)).trans (gateChange_onTime hb ht))
  case cancel => exact fun s fn lp h ht => act_onChip ((egWrite_open _ h (by decide)).trans (gateCancel_early ht))
  case takeover => exact fun s lp hp => act_onChip (gateTakeover_pending hp)
  case list =>
    intro s fn lp i v h hp hi
    exact ⟨exec_gateAdminWrite h (by omega) (adminWrite_mask hp hi), exec_gateAdminWrite h (by omega) (adminWrite_interval hp hi)⟩
  case boundary => exact fun s lp hg hv => act_onChip (gateBoundary_operating hg hv)
  case closed =>
    intro s fn lp v hr hd hlp hl
    have haddr : egReg lp 4 = 0x200004 + 0x10000 * lp := by unfold egReg; omega
    exact act_onChip ((egWrite_locked _ hr hd hlp (by decide) hl).trans (by rw [haddr]))

end Sys2Proof.Machine
end

section
/-!
SUPPORT. The queue of waiting commands: no answer touches it, and the two accesses to DRAM alone may stop (R27; logs 6 and 153).
-/
namespace Sys2Proof.Machine
open Sys2Proof

/-- An answer of any of the three forms leaves the queue as it was. -/
theorem Form.next_pending {s t : State} {o : Host.Outcome State Fault Refusal} (hf : Form s o) (h : o = .next t) : t.pending = s.pending := by
  cases hf with
  | chip f => exact act_pending h
  | both f => exact actMem_pending h
  | stop a => cases h

/-- Every row but the two accesses to DRAM has a meaning of the form `act` or `actMem`, which stops nowhere. -/
theorem exec_next_of_not_dram (i : Instr) (s : State) (hr : ∀ a b c d, i ≠ .dramRead a b c d) (hw : ∀ a b c d, i ≠ .dramWrite a b c d) :
    ∃ t, exec i s = .next t := by
  cases i with
  | dramRead source addr bytes errors => exact absurd rfl (hr source addr bytes errors)
  | dramWrite source addr data poisoned => exact absurd rfl (hw source addr data poisoned)
  | _ => exact ⟨_, rfl⟩

/-- Settles O4: a command's answer has one of three forms, none of which touches the queue. -/
theorem commandsLeaveQueue : Obligations.CommandsLeaveQueue := by
  unfold Obligations.CommandsLeaveQueue
  exact ⟨fun i s _ h => (exec_form i s).next_pending h, exec_next_of_not_dram⟩

end Sys2Proof.Machine
end

section
/-!
SUPPORT. What the signal point of the scheduler can touch: tasks, statistics, events and the draws of free values (R433 to R455). Proofs
cite these lemmas and unfold no ending of a task.
-/
namespace Sys2Proof.Machine
open Sys2Proof

/-- From `c` to `d` only the scheduler has moved, with statistics, events and draws. -/
def SchedOnly (c d : Chip) : Prop := ∃ s k n m, d = { c with sched := s, ctrs := k, free := n, mgmt := m }

namespace SchedOnly

theorem refl (c : Chip) : SchedOnly c c := ⟨_, _, _, _, rfl⟩

theorem trans {a b c : Chip} (h : SchedOnly a b) (k : SchedOnly b c) : SchedOnly a c := by
  obtain ⟨_, _, _, _, rfl⟩ := h
  obtain ⟨_, _, _, _, rfl⟩ := k
  exact ⟨_, _, _, _, rfl⟩

theorem gx {c d : Chip} (h : SchedOnly c d) : d.gx = c.gx := by obtain ⟨_, _, _, _, rfl⟩ := h; rfl

theorem vid {c d : Chip} (h : SchedOnly c d) : d.vid = c.vid := by obtain ⟨_, _, _, _, rfl⟩ := h; rfl

/-! Shared updates. -/

theorem of_modSched (f : Sched → Sched) (c : Chip) : SchedOnly c (modSched f c) := ⟨_, _, _, _, rfl⟩

theorem of_putTask (n : Nat) (t : Task) (c : Chip) : SchedOnly c (putTask n t c) := ⟨_, _, _, _, rfl⟩

theorem of_modTask (n : Nat) (f : Task → Task) (c : Chip) : SchedOnly c (modTask n f c) := ⟨_, _, _, _, rfl⟩

theorem of_raise (i k : Nat) (fn : Option Nat) (o d : Nat) (c : Chip) : SchedOnly c (raise i k fn o d c) := ⟨_, _, _, _, rfl⟩

theorem of_draw (c : Chip) : SchedOnly c (draw c).2 := ⟨_, _, _, _, rfl⟩

theorem of_bump (o s p n : Nat) (c : Chip) : SchedOnly c (bump o s p n c) := by
  unfold bump
  dsimp only
  split
  · exact ⟨_, _, _, _, rfl⟩
  · split <;> exact ⟨_, _, _, _, rfl⟩

theorem of_schedCount (p n : Nat) (c : Chip) : SchedOnly c (schedCount p n c) := of_bump _ _ _ _ _

theorem of_staleSignal (c : Chip) : SchedOnly c (staleSignal c) := by
  unfold staleSignal schedSticky
  exact (of_schedCount _ _ _).trans (of_modSched _ _)

theorem of_slotRefused (c : Chip) : SchedOnly c (slotRefused c) := by
  have hwin (w : RateWin) : SchedOnly c (modSched (fun s => { s with slotsWin := w }) (schedSticky 3 (schedCount 4 1 c))) :=
    ((of_schedCount 4 1 c).trans (of_modSched _ _)).trans (of_modSched _ _)
  unfold slotRefused
  dsimp only
  split
  · exact (hwin _).trans (of_raise _ _ _ _ _ _)
  · exact hwin _

theorem of_underflow (id n : Nat) (c : Chip) : SchedOnly c (underflow id n c) := by
  have hwin (w : RateWin) : SchedOnly c (modSched (fun s => { s with underWin := w }) (schedSticky 0 (schedCount 6 n c))) :=
    ((of_schedCount 6 n c).trans (of_modSched _ _)).trans (of_modSched _ _)
  unfold underflow
  split
  · exact refl c
  · dsimp only
    split
    · exact (hwin _).trans (of_raise _ _ _ _ _ _)
    · exact hwin _

/-! The items of the signal point. -/

theorem of_complete (n : Nat) (c : Chip) : SchedOnly c (complete n c) := by
  unfold complete
  dsimp only
  split
  · exact refl c
  · split
    · exact of_raise _ _ _ _ _ _
    · exact of_modSched _ _

theorem of_closeTask (n : Nat) (c : Chip) : SchedOnly c (closeTask n c).2 := by
  unfold closeTask
  dsimp only
  refine SchedOnly.trans ?_ (of_modTask _ _ _)
  refine SchedOnly.trans ?_ (of_complete _ _)
  split
  · exact refl c
  · exact of_schedCount _ _ _

theorem of_stopTask (n st : Nat) (c : Chip) : SchedOnly c (stopTask n st c).2 := by
  unfold stopTask
  dsimp only
  split
  · dsimp only
    exact (of_modTask _ _ _).trans (of_modTask _ _ _)
  · exact (of_modTask _ _ _).trans (of_closeTask _ _)

theorem of_enterTask (n : Nat) (c : Chip) : SchedOnly c (enterTask n c).2 := by
  unfold enterTask
  dsimp only
  split
  · exact of_putTask _ _ _
  · exact refl c

theorem of_readyAt (n t : Nat) (c : Chip) : SchedOnly c (readyAt n t c).2 := by
  unfold readyAt
  dsimp only
  split
  · exact of_putTask _ _ _
  · split <;> exact of_putTask _ _ _

theorem of_signalTask (id n : Nat) (c : Chip) : SchedOnly c (signalTask id n c).2 := by
  unfold signalTask
  dsimp only
  split
  · exact of_staleSignal c
  · split
    · exact of_putTask _ _ _
    · split
      · split
        · exact of_putTask _ _ _
        · exact (of_putTask _ _ _).trans (of_underflow _ _ _)
      · exact of_staleSignal c

theorem of_failTask (id : Nat) (c : Chip) : SchedOnly c (failTask id c).2 := by
  unfold failTask
  split
  · split <;> exact refl c
  · exact refl c

theorem of_schedItem (it : SchedItem) (c : Chip) : SchedOnly c (schedItem it c).2 := by
  cases it with
  | signal id n => exact of_signalTask id n c
  | fail id => exact of_failTask id c
  | enter n => exact of_enterTask n c
  | ready n => exact of_readyAt n _ c
  | stop n st => exact of_stopTask n st c
  | close n => exact of_closeTask n c

theorem of_schedLoop (n : Nat) (l : List SchedItem) (c : Chip) : SchedOnly c (schedLoop n l c) := by
  induction n generalizing l c with
  | zero => exact refl c
  | succ n ih =>
    cases l with
    | nil => exact refl c
    | cons it l => exact (of_schedItem it c).trans (ih _ _)

theorem of_schedRun (l : List SchedItem) (c : Chip) : SchedOnly c (schedRun l c) := of_schedLoop _ _ _

/-! Tasks from their creation to their end. -/

theorem of_allocTask (kept op : Bool) (fn : Nat) (c : Chip) : SchedOnly c (allocTask kept op fn c).2 := by
  unfold allocTask
  split
  · exact of_slotRefused c
  · exact (of_draw c).trans (of_putTask _ _ _)

theorem of_submitTask (n : Nat) (d : TaskDesc) (c : Chip) : SchedOnly c (submitTask n d c) := by
  have hput (e : Chip) (t : Task) (id k : Nat) (he : SchedOnly c e) : SchedOnly c (underflow id k (putTask n t e)) :=
    (he.trans (of_putTask _ _ _)).trans (of_underflow _ _ _)
  have hflow : SchedOnly c (if d.flowEn then modSched (fun s => { s with flowNext := tput s.flowNext d.flow (tget 0 c.sched.flowNext d.flow + 1) }) c else c) := by
    split
    · exact of_modSched _ _
    · exact refl c
  unfold submitTask
  dsimp only
  split
  · exact (hput _ _ _ _ hflow).trans (of_schedRun _ _)
  · exact hput _ _ _ _ hflow

theorem of_createTask (fn : Nat) (d : TaskDesc) (c : Chip) : SchedOnly c (createTask fn d c).2 := by
  unfold createTask
  split
  · exact of_schedCount _ _ _
  · dsimp only
    split
    · exact (of_allocTask _ _ _ _).trans (of_submitTask _ _ _)
    · exact of_allocTask _ _ _ _

theorem of_unitDone (n st : Nat) (exc : BitVec 64) (aov sat : Bool) (c : Chip) : SchedOnly c (unitDone n st exc aov sat c) := by
  unfold unitDone
  split
  · exact of_modTask _ _ _
  · exact refl c

theorem of_endTask (n : Nat) (c : Chip) : SchedOnly c (endTask n c) := by
  unfold endTask
  dsimp only
  split
  · exact of_schedRun _ _
  · exact refl c

end SchedOnly

@[simp] theorem draw_gx (c : Chip) : (draw c).2.gx = c.gx := rfl
@[simp] theorem draw_vid (c : Chip) : (draw c).2.vid = c.vid := rfl
@[simp] theorem schedRun_gx (l : List SchedItem) (c : Chip) : (schedRun l c).gx = c.gx := (SchedOnly.of_schedRun l c).gx
@[simp] theorem createTask_gx (fn : Nat) (d : TaskDesc) (c : Chip) : (createTask fn d c).2.gx = c.gx := (SchedOnly.of_createTask fn d c).gx
@[simp] theorem createTask_vid (fn : Nat) (d : TaskDesc) (c : Chip) : (createTask fn d c).2.vid = c.vid := (SchedOnly.of_createTask fn d c).vid
@[simp] theorem unitDone_gx (n st : Nat) (exc : BitVec 64) (aov sat : Bool) (c : Chip) : (unitDone n st exc aov sat c).gx = c.gx :=
  (SchedOnly.of_unitDone n st exc aov sat c).gx
@[simp] theorem unitDone_vid (n st : Nat) (exc : BitVec 64) (aov sat : Bool) (c : Chip) : (unitDone n st exc aov sat c).vid = c.vid :=
  (SchedOnly.of_unitDone n st exc aov sat c).vid
@[simp] theorem endTask_gx (n : Nat) (c : Chip) : (endTask n c).gx = c.gx := (SchedOnly.of_endTask n c).gx
@[simp] theorem endTask_vid (n : Nat) (c : Chip) : (endTask n c).vid = c.vid := (SchedOnly.of_endTask n c).vid
@[simp] theorem drainTasks_gx (tag : Bool) (c : Chip) : (drainTasks tag c).gx = c.gx := schedRun_gx _ _

/-! Engines give a task up. -/

@[simp] theorem leaveEngine_gx (n : Nat) (c : Chip) : (leaveEngine n c).gx = c.gx := by
  unfold leaveEngine
  dsimp only
  split
  · rfl
  · split <;> rfl

@[simp] theorem leaveEngine_vid (n : Nat) (c : Chip) : (leaveEngine n c).vid = c.vid := by
  unfold leaveEngine
  dsimp only
  split
  · rfl
  · split <;> rfl

@[simp] theorem fwFinish_gx (n : Nat) (c : Chip) : (fwFinish n c).gx = c.gx := by simp [fwFinish]
@[simp] theorem fwFinish_vid (n : Nat) (c : Chip) : (fwFinish n c).vid = c.vid := by simp [fwFinish]

end Sys2Proof.Machine
end

section
/-!
SUPPORT. Leg adaptation (R233 to R246): the runs of a leg, its estimate and its query, and the obligation about them.
-/
namespace Sys2Proof.Machine
open Sys2Proof

/-! Runs that fall due. -/

/-- The chip on which a leg's run falls due: service time has reached it, and the next run is set (R233). -/
def runSet (l : Nat) (c : Chip) : Chip := modLeg l (fun r => { r with runDue := nextRun l r.runDue }) (waitSvc (getLeg c l).runDue c)

@[simp] theorem runSet_gx (l : Nat) (c : Chip) : (runSet l c).gx = c.gx := by simp [runSet]

@[simp] theorem runSet_sched (l : Nat) (c : Chip) : (runSet l c).sched = c.sched := by simp [runSet]

theorem fwFind_congr {c d : Chip} (h : d.sched = c.sched) (prog obj : Nat) (p : Task → Bool) : fwFind d prog obj p = fwFind c prog obj p := by
  simp only [fwFind, h]

theorem cfg_congr {c d : Chip} (h : d.gx = c.gx) : cfg d = cfg c := by simp only [cfg, h]

/-- What falls due is submitted, or skipped and counted while the last run has not started (R234). -/
theorem adaptDue_of_leg {l : Nat} {c : Chip} (hl : (cfg c).has tLeg l = true) :
    adaptDue l c = if fwPending c fwAdapt l then countEg ((cfg c).legLport l) l 10 1 (runSet l c)
      else fwCreate fwAdapt 5 (((cfg c).owner tLeg l).getD 0) l (runSet l c) := by
  have hcfg : cfg (runSet l c) = cfg c := cfg_congr (runSet_gx l c)
  have hpend : fwPending (runSet l c) fwAdapt l = fwPending c fwAdapt l := by simp only [fwPending, fwFind_congr (runSet_sched l c)]
  rw [← hpend, ← hcfg]
  simp only [adaptDue, hl, Bool.not_true, Bool.false_eq_true, if_false]
  rfl

/-! The run. -/

/-- The task that runs does its work under the epoch of its start, and its writes for a leg that is gone are stale (R37, R235). -/
theorem adaptRow_running {l slot : Nat} {bad : List Nat} {c : Chip} (hr : fwRunning c fwAdapt l = some slot)
    (hl : (cfgAt c (getTask c slot).epoch).has tLeg l = true) :
    adaptRow l bad c = fwFinish slot (if sameObj c (cfgAt c (getTask c slot).epoch) tLeg l
      then adaptRun (cfgAt c (getTask c slot).epoch) l bad c else staleWrite c) := by
  simp only [adaptRow, hr, hl, Bool.not_true, Bool.false_eq_true, if_false]

/-- The next run lies within 50 ms, at the leg's place in a period of 50 ms (R233; log 56). -/
theorem nextRun_spread {l : Nat} (t : Nat) (hl : l < 262144) :
    t < nextRun l t ∧ nextRun l t ≤ t + 50000000 ∧ nextRun l t % 50000000 = l * 50000000 / 262144 := by
  unfold nextRun
  dsimp only
  omega

/-- The estimate lies within the leg's limits, and not above one and a half times the received rate plus 100 kb/s unless MIN_RATE is
higher (R239). -/
theorem estimate_bounds (b : List Word) (now : Nat) (f : Feedback) (r : LegRun) :
    shMin b * 1000 ≤ (estimate b now f r).1 ∧ (estimate b now f r).1 ≤ max (shMin b * 1000) (min (shMax b * 1000) (f.rRecv * 3 / 2 + 100000)) := by
  simp only [estimate, clampRate]
  exact ⟨le_max_left .., max_le_max_left _ (min_le_min_left _ (min_le_right ..))⟩

/-! The query. -/

/-- A command on an object that its function may name acts on it. -/
theorem Ctx.withObj_named {x : Ctx} {id ty : Nat} {f : Obj → Chip → Chip} {c : Chip} {o : Obj} (ht : idType id = ty)
    (hn : x.names (cfg c) id = some o) : x.withObj id ty f c = f o c := by
  simp only [Ctx.withObj, if_pos ht, hn]

/-- Settles O52: each row is what falls due or runs, the numbers follow from the formula, and the query reads the refilled leg. -/
theorem adaptationRows : Obligations.AdaptationRows := by
  unfold Obligations.AdaptationRows
  refine ⟨?submit, ?skip, ?run, ?stale, ?probe, fun l t => nextRun_spread t, estimate_bounds, ?query⟩
  case submit =>
    rintro s l c hl hp rfl
    exact act_onChip ((adaptDue_of_leg hl).trans (by rw [hp]; rfl))
  case skip =>
    rintro s l c hl hp rfl
    exact act_onChip ((adaptDue_of_leg hl).trans (by rw [hp]; rfl))
  case run =>
    rintro s l slot bad g hr rfl hl hsame
    exact act_onChip ((adaptRow_running hr hl).trans (by rw [if_pos hsame]))
  case stale =>
    rintro s l slot bad g hr rfl hl hsame
    exact act_onChip ((adaptRow_running hr hl).trans (by rw [hsame]; rfl))
  case probe =>
    rintro s l c hp rfl
    exact act_onChip (if_neg hp)
  case query =>
    rintro s r o x hs ht hn rfl
    exact serve_ends hs rfl (Ctx.withObj_named ht hn)

end Sys2Proof.Machine
end

section
/-!
SUPPORT. Encoding (R370 to R394): what the rows do to the frame of a rendition, and the obligation about them.
-/
namespace Sys2Proof.Machine
open Sys2Proof

/-! The frame of a rendition. -/

theorem getRend_congr {c d : Chip} (h : d.vid = c.vid) (i : Nat) : getRend d i = getRend c i := by simp only [getRend, h]

@[simp] theorem getRend_modRend_same (i : Nat) (f : RendRun → RendRun) (c : Chip) : getRend (modRend i f c) i = f (getRend c i) := by
  simp [getRend, modRend]

@[simp] theorem getRend_putRend_same (i : Nat) (x : RendRun) (c : Chip) : getRend (putRend i x c) i = x := by simp [putRend]

@[simp] theorem modRend_gx (i : Nat) (f : RendRun → RendRun) (c : Chip) : (modRend i f c).gx = c.gx := rfl

@[simp] theorem putRend_gx (i : Nat) (x : RendRun) (c : Chip) : (putRend i x c).gx = c.gx := rfl

theorem getRend_modBusy_same {i : Nat} {f : EncFrame → EncFrame} {c : Chip} {e : EncFrame} (h : (getRend c i).busy = some e) :
    (getRend (modBusy i f c) i).busy = some (f e) := by
  simp [modBusy, h]

@[simp] theorem countEnc_gx (i pos n : Nat) (c : Chip) : (countEnc i pos n c).gx = c.gx := by simp [countEnc]

@[simp] theorem countEnc_vid (i pos n : Nat) (c : Chip) : (countEnc i pos n c).vid = c.vid := by simp [countEnc]

/-! Rate control (R381, R388 to R392). -/

@[simp] theorem staleLtr_gx (g : Cfg) (i island : Nat) (f : EncFrame) (c : Chip) : (staleLtr g i island f c).gx = c.gx := by
  unfold staleLtr
  dsimp only
  split <;> simp

/-- The tasks of a frame's parts move the scheduler alone. -/
theorem SchedOnly.of_partTasks (g : Cfg) (i : Nat) (f : EncFrame) (c : Chip) : SchedOnly c (partTasks g i f c) :=
  List.foldlRecOn (motive := SchedOnly c) f.parts _ (SchedOnly.refl c) fun _ h _ _ => h.trans (SchedOnly.of_createTask _ _ _)

/-- What rate control leaves of the tables' state: one more stale write for a rendition that the current epoch has no longer (R37). -/
theorem staleWrite_gx (c : Chip) : (staleWrite c).gx = { c.gx with staleWrites := c.gx.staleWrites + 1 } := rfl

theorem sameObj_congr {c d : Chip} (h : d.gx = c.gx) (g : Cfg) (ty i : Nat) : sameObj d g ty i = sameObj c g ty i := by
  simp only [sameObj, cfg, h]

/-- Rate control settles the frame that waits for it: the same frame of the same epoch, with its budgets (R381, R391). -/
theorem rateRow_settles {i slot : Nat} {satd : List Nat} {f : EncFrame} {c : Chip} (hr : fwRunning c fwRate i = some slot)
    (hb : (getRend c i).busy = some f) (hf : f.rcDone = false) :
    ∃ f1, (getRend (rateRow i satd c) i).busy = some f1 ∧ f1.rcDone = true ∧ f1.num = f.num ∧ f1.epoch = f.epoch ∧
      (rateRow i satd c).gx = { c.gx with staleWrites := c.gx.staleWrites + (if sameObj c (cfgAt c f.epoch) tRend i = true then 0 else 1) } := by
  have hb0 : (getRend (fwFinish slot c) i).busy = some f := by rw [getRend_congr (fwFinish_vid slot c), hb]
  have hg : cfgAt (fwFinish slot c) f.epoch = cfgAt c f.epoch := by simp only [cfgAt, fwFinish_gx]
  have hsame := sameObj_congr (fwFinish_gx slot c) (cfgAt c f.epoch) tRend i
  simp only [rateRow, hr, hb0, hf, Bool.false_eq_true, if_false, hg, hsame]
  refine ⟨_, congrArg RendRun.busy ((getRend_congr (SchedOnly.of_partTasks _ _ _ _).vid i).trans (getRend_putRend_same _ _ _)), rfl, rfl, rfl, ?_⟩
  rw [(SchedOnly.of_partTasks _ _ _ _).gx, putRend_gx]
  split
  · simp
  · rw [staleWrite_gx]; simp

/-! Parts and rows (R378, R385, R393). -/

/-- A part on a core begins when its rows and its leader's analysis are there (R378, R386). -/
theorem partStart_begins {i l p : Nat} {f : EncFrame} {fb : Bool} {c : Chip} (hb : (getRend c i).busy = some f)
    (hp : f.parts.any (fun x => x.layer == l && x.part == p && x.core.isSome && !x.begun) = true)
    (hm : mayBegin ((cfgAt c f.epoch).body tRend i) ((cfgAt c f.epoch).rendCv i) (rowsHere (getRend c i) f.num) = true)
    (hl : leaderState (cfgAt c f.epoch) ((cfgAt c f.epoch).body tRend i) f.num c = some fb) :
    partStart i l p c = modBusy i (modPart l p (fun x => { x with begun := true })) (if f.begun then c else frameBegin (cfgAt c f.epoch) i f fb c) := by
  simp only [partStart, hb, hp, hm, hl, Bool.and_self, Bool.not_true, Bool.false_eq_true, if_false]
  cases f.begun <;> rfl

/-- A coded row without poison, under its cap, is the row's part in the frame, with the motion of its blocks in the highest layer (R385, R393). -/
theorem rowDone_coded {i l p n : Nat} {f : EncFrame} {x : EncPart} {m : Mem} {c : Chip} (hb : (getRend c i).busy = some f)
    (hx : f.parts.find? (fun x => x.layer == l && x.part == p) = some x) (hbeg : x.begun = true) (hdone : x.done = false)
    (hrows : x.rowsDone < x.rows) (hlast : (rowsHere (getRend c i) f.num).2 = true)
    (hcap : (encRow ((cfgAt c f.epoch).body tRend i) n x).capped = false) :
    (getRend (rowDone i l p n false [] m c) i).busy =
      some { modPart l p (fun _ => encRow ((cfgAt c f.epoch).body tRend i) n x) f with
        field := if l + 1 = rdS ((cfgAt c f.epoch).body tRend i) then
            analyse (cfgAt c f.epoch) i f (codingRow ((cfgAt c f.epoch).body tRend i) f l x * (rdBlock ((cfgAt c f.epoch).body tRend i) / 16))
              (rdBlock ((cfgAt c f.epoch).body tRend i) / 16) m c
          else f.field } := by
  simp only [rowDone, hb, hx, hbeg, hdone, hlast, hcap, Nat.not_le.2 hrows, Bool.not_true, Bool.true_or, Bool.or_false, decide_false,
    Bool.false_eq_true, if_false, false_and, poisonRefs, if_true]
  split
  · rw [getRend_congr (countEnc_vid ..)]; exact getRend_modBusy_same hb
  · exact getRend_modBusy_same hb

/-- A part whose rows are all coded is done; with the last one the frame is finished (R375). -/
theorem partDone_coded {i l p : Nat} {sizes : List Nat} {f : EncFrame} {x : EncPart} {c : Chip} {m : Mem} (hb : (getRend c i).busy = some f)
    (hx : f.parts.find? (fun x => x.layer == l && x.part == p) = some x) (hbeg : x.begun = true) (hdone : x.done = false)
    (hrows : x.rows ≤ x.rowsDone) :
    partDone i l p sizes false c m =
      let f1 := modPart l p (fun y => { y with done := true, sizes := sizes }) f
      let c1 := endTask x.task (unitDone x.task 0 0 false false (modRend i (fun r => { r with busy := some f1 }) c))
      if f1.parts.all (·.done) then
        (finishFrame i f1 (draw c1).2, storeAll m c (frameWrites ((cfgAt c f.epoch).body tRend i) f (draw c1).1 c))
      else (c1, []) := by
  simp [partDone, hb, hx, hbeg, hdone, Nat.not_lt.2 hrows]

/-! Votes, faults and long-term pictures. -/

theorem voteWindow_of_rend {i : Nat} {c : Chip} (h : (cfg c).has tRend i = true) :
    voteWindow i c =
      let c1 := if (getRend c i).voteSeen < (getRend c i).voteWin then c else waitSvc (((getRend c i).voteWin + 1) * 200000000) c
      let r1 := (getRend c i).rollVotes (svc c1)
      putRend i { r1 with t := if rdVoted ((cfg c).body tRend i) then windowT ((cfg c).body tRend i) r1.votesDone r1.t else r1.t,
                          voteSeen := r1.voteWin } c1 := by
  simp only [voteWindow, h, Bool.not_true, Bool.false_eq_true, if_false]

theorem encCoreFault_idle {core : Nat} {c : Chip} (h : rendOn core c = none) :
    encCoreFault core c = unitFault 2 core (raise (encodeIsland core) 0x803 none (encodeIsland core) 0 c) := by
  simp only [encCoreFault, h]

theorem ltrTimeout_open {i : Nat} {x : Ltr} {c : Chip} (h : (getRend c i).ltrs.find? (fun x => !x.acked) = some x) :
    ltrTimeout i c = recSweep i (modRend i (fun r =>
      { r with ltrs := r.ltrs.filter (fun y => y.frame != x.frame), recs := r.recs.map (fun y => if y.frame = x.frame then { y with long := false } else y) })
      (waitSvc (x.atNs + rdAckMs ((cfg c).body tRend i) * 1000000) c)) := by
  simp only [ltrTimeout, h]

/-! Counter commands. -/

theorem scopedCounters_device {op ty n : Nat} {x : Ctx} {c : Chip} (hs : bit (bw x.body 0) 0 = true) (ho : x.operator = true) :
    scopedCounters op ty n x c =
      x.done (Res.ok (ctrWords c op scopeDev n)) (if bit (bw x.body 8) 0 then ctrClear op scopeDev n c else c) := by
  simp only [scopedCounters, hs, ho, if_true]

theorem scopedCounters_object {op ty n : Nat} {x : Ctx} {c : Chip} {o : Obj} (hs : bit (bw x.body 0) 0 = false)
    (ht : idType (bw x.body 4) = ty) (hn : x.names (cfg c) (bw x.body 4) = some o) :
    scopedCounters op ty n x c =
      x.done (Res.ok (ctrWords c op (idIndex (bw x.body 4)) n)) (if bit (bw x.body 8) 0 then ctrClear op (idIndex (bw x.body 4)) n c else c) := by
  simp only [scopedCounters, hs, Bool.false_eq_true, if_false, Ctx.withObj_named ht hn]

/-- Settles O56: each row finds the frame or the part it names and does its work on it, and the commands answer what the rendition holds. -/
theorem encodeRows : Obligations.EncodeRows := by
  unfold Obligations.EncodeRows
  refine ⟨?rate, ?vote, ?start, ?row, ?part, ?last, ?fault, ?ltr, ?key, ?query, ?device, ?object⟩
  case rate =>
    intro s i slot satd f hr hb hf
    obtain ⟨f1, hbusy, hdone, hnum, hepoch, hgx⟩ := rateRow_settles (satd := satd) hr hb hf
    exact ⟨_, f1, act_onChip rfl, hbusy, hdone, hnum, hepoch, hgx, rfl⟩
  case vote =>
    rintro s i c r hi rfl rfl
    exact act_onChip (voteWindow_of_rend hi)
  case start => exact fun s i l p f fb hb hp hm hl => act_onChip (partStart_begins hb hp hm hl)
  case row => exact fun s i l p n f x hb hx hbeg hdone hrows hlast hcap => ⟨_, act_onChip rfl, rfl, rowDone_coded hb hx hbeg hdone hrows hlast hcap⟩
  case part =>
    rintro s i l p sizes f f1 x hb hx hbeg hdone hrows rfl hopen
    exact actMem_onChip ((partDone_coded hb hx hbeg hdone hrows).trans (by simp only [hopen, Bool.false_eq_true, if_false]))
  case last =>
    rintro s i l p sizes f f1 x d hb hx hbeg hdone hrows rfl hall rfl
    show execEncodePartDone i l p sizes false s = _
    simp only [execEncodePartDone, actMem, partDone_coded hb hx hbeg hdone hrows, hall, if_true]
    rfl
  case fault => exact fun s core h => act_onChip (encCoreFault_idle h)
  case ltr => exact fun s i x h => act_onChip (ltrTimeout_open h)
  case key => exact fun s r o hs ht hn => serve_ends hs rfl (Ctx.withObj_named ht hn)
  case query =>
    rintro s r o i x hs ht hn rfl rfl
    exact serve_ends hs rfl (Ctx.withObj_named ht hn)
  case device => exact fun s r hs hd ho => serve_ends hs rfl (scopedCounters_device hd ho)
  case object => exact fun s r o hs hd ht hn => serve_ends hs rfl (scopedCounters_object hd ht hn)

end Sys2Proof.Machine
end

section
/-!
SUPPORT. The queue of commits: how its head is begun (R41, R86, R121), and why the obligation about carrying commits out fails.
-/
namespace Sys2Proof.Machine
open Sys2Proof

/-! The head of the queue. -/

/-- Where no epoch drains there is nothing to retire. -/
theorem settle_of_not_draining {c : Chip} (h : c.gx.draining = 0) : settle c = c := if_neg fun a => a.1 h

theorem mayBeginCommit_iff (c : Chip) : mayBeginCommit c = true ↔
    firmwareUp c = true ∧ c.gx.draining = 0 ∧ c.gx.published = 0 ∧ c.gx.active = none := by
  simp only [mayBeginCommit, Bool.and_eq_true, beq_iff_eq, Option.isNone_iff_eq_none, and_assoc]

/-- The head of the queue is begun when it may be, if it is of the kind asked for and takes nothing over (R41, R86). -/
theorem releaseHeld_begins {purge : Bool} {a : Commit} {l : List Commit} {c : Chip} (hh : c.gx.held = a :: l)
    (hk : (a.kind == .purge) = purge) (ht : a.kind ≠ .takeover) (hb : mayBeginCommit c = true) :
    releaseHeld purge c = startCommit a (modGx (fun g => { g with held := l }) c) := by
  obtain ⟨-, hdrain, -, hact⟩ := (mayBeginCommit_iff c).1 hb
  have hstep : (if purge = true then none else heldStep c) = none := by
    split
    · rfl
    · simp [heldStep, hact]
  simp [releaseHeld, settle_of_not_draining hdrain, hstep, hh, hk, ht, hb]

theorem exec_heldCommitRelease {s : State} {a : Commit} {l : List Commit} (hh : s.chip.gx.held = a :: l) (hk : a.kind = .host)
    (hb : mayBeginCommit s.chip = true) :
    exec .heldCommitRelease s = .next (onChip s (startCommit a (modGx (fun g => { g with held := l }) s.chip))) :=
  act_onChip (releaseHeld_begins hh (by rw [hk]; rfl) (by rw [hk]; decide) hb)

theorem exec_purgeCommit {s : State} {a : Commit} {l : List Commit} (hh : s.chip.gx.held = a :: l) (hk : a.kind = .purge)
    (hb : mayBeginCommit s.chip = true) :
    exec .purgeCommit s = .next (onChip s (startCommit a (modGx (fun g => { g with held := l }) s.chip))) :=
  act_onChip (releaseHeld_begins hh (by rw [hk]; rfl) (by rw [hk]; decide) hb)

/-! A purge that only validates. -/

/-- A purge marked VALIDATE_ONLY, for which no command waits and which asks the twin for nothing, ends with its validation: no commit is
under way behind it (R125). -/
theorem startCommit_purge_only {a : Commit} {c : Chip} (hk : a.kind = .purge) (ho : a.only = true) (hs : a.slot = none) (hm : a.more = []) :
    (startCommit a c).gx.active = c.gx.active := by
  simp [startCommit, goValidated, goReserve, releaseAsked, endCommit, answer, hk, ho, hs, hm]

/-- A purge marked VALIDATE_ONLY. No row of the model queues one, but the obligation speaks of every state. -/
def onlyPurge : Commit :=
  { kind := .purge, fn := 0, slot := none, session := 0, ticket := 0, staged := [], stage := .queued, next := .empty, deadline := 0,
    unmirrored := false, auto := false, asking := [], journal := 0, discard := false, more := [], cause := 0, start := 0, ids := [],
    left := 0, only := true, asked := 0 }

/-- A device in service with every domain on, at whose queue's head that purge waits. -/
def onlyPurgeHeld : State :=
  { State.reset with chip := { Chip.reset with
      pwr := { Power.reset with phase := .service, on := 0xFFFFFF }
      gx := { Guxus.reset with held := [onlyPurge] } } }

/-- Refutes O39: a purge at the head of the queue that is marked VALIDATE_ONLY ends with its validation, so that PURGE_COMMIT leaves no
commit under way whose tables are to be written. -/
theorem not_commitIsCarriedOut : ¬ Obligations.CommitIsCarriedOut := by
  unfold Obligations.CommitIsCarriedOut
  rintro ⟨-, -, -, -, hpurge, -⟩
  have hmay : mayBeginCommit onlyPurgeHeld.chip = true := by decide
  obtain ⟨u, a, hu, ha, -⟩ := hpurge onlyPurgeHeld onlyPurge [] rfl rfl hmay rfl
  rw [exec_purgeCommit rfl rfl hmay] at hu
  cases hu
  rw [onChip_chip, startCommit_purge_only rfl rfl rfl rfl] at ha
  exact nomatch ha

end Sys2Proof.Machine
end

section
/-!
SUPPORT. What the data plane leaves of firmware's record of epochs, sessions and commits when an epoch becomes current or retires: all of
it. One lemma for each operation, in the order of the model's chapters.
-/
namespace Sys2Proof.Machine
open Sys2Proof

/-- A run of steps that each leave the record alone leaves it alone. -/
theorem foldl_gx {α : Type} {f : Chip → α → Chip} (h : ∀ c x, (f c x).gx = c.gx) (l : List α) (c : Chip) : (l.foldl f c).gx = c.gx := by
  induction l generalizing c with
  | nil => rfl
  | cons x l ih => exact (ih (f c x)).trans (h c x)

theorem ite_gx {p : Prop} [Decidable p] {a b : Chip} {g : Guxus} (ha : a.gx = g) (hb : b.gx = g) : (if p then a else b).gx = g := by
  split <;> assumption

/-! Buffers and pools. -/

@[simp] theorem drop_gx (h : Nat) (c : Chip) : (drop h c).gx = c.gx := (Books.of_drop h c).gx
@[simp] theorem keep_gx (h : Nat) (c : Chip) : (keep h c).gx = c.gx := (Books.of_keep h c).gx
@[simp] theorem dropPkts_gx (q : List EgPkt) (c : Chip) : (dropPkts q c).gx = c.gx := (Books.of_dropPkts q c).gx
@[simp] theorem watermark_gx (p : Nat) (c : Chip) : (watermark p c).gx = c.gx := (Books.of_watermark p c).gx
@[simp] theorem allocIn_gx (i p : Nat) (c : Chip) : (allocIn i p c).2.2.gx = c.gx := (Books.of_allocIn i p c).gx
@[simp] theorem alloc_gx (i n k : Nat) (c : Chip) : (alloc i n k c).2.2.gx = c.gx := (Books.of_alloc i n k c).gx

@[simp] theorem applyReserves_gx (c : Chip) : (applyReserves c).gx = c.gx :=
  (foldl_gx (fun _ _ => watermark_gx _ _) _ _).trans (foldl_gx (fun _ _ => modUse_gx _ _ _ _) _ _)

/-! Cipher engines (chapter 05). -/

@[simp] theorem countCrypto_gx (p k : Nat) (c : Chip) : (countCrypto p k c).gx = c.gx := bump_gx _ _ _ _ _
@[simp] theorem modKey_gx (o : Nat) (b : List Word) (f : KeySlot → KeySlot) (c : Chip) : (modKey o b f c).gx = c.gx := rfl
@[simp] theorem rekeyRequired_gx (g : Cfg) (p o d : Nat) (c : Chip) : (rekeyRequired g p o d c).gx = c.gx := rfl
@[simp] theorem putTx_gx (l : Nat) (t : TxSsrc) (c : Chip) : (putTx l t c).gx = c.gx := rfl
@[simp] theorem keySweep_gx (c : Chip) : (keySweep c).gx = c.gx := rfl
@[simp] theorem countSsrcs_gx (old g : Cfg) (l : Nat) (c : Chip) : (countSsrcs old g l c).gx = c.gx := rfl

@[simp] theorem slotUnusable_gx (g : Cfg) (p o : Nat) (b : List Word) (c : Chip) : (slotUnusable g p o b c).gx = c.gx := by
  unfold slotUnusable; split <;> simp

@[simp] theorem keyLevels_gx (g : Cfg) (p o : Nat) (b : List Word) (k : Nat) (s r : Bool) (c : Chip) : (keyLevels g p o b k s r c).gx = c.gx := by
  simp [keyLevels, apply_ite Chip.gx]

@[simp] theorem countUse_gx (g : Cfg) (p o : Nat) (b : List Word) (k : Nat) (s r : Bool) (c : Chip) : (countUse g p o b k s r c).gx = c.gx :=
  keyLevels_gx _ _ _ _ _ _ _ _

@[simp] theorem dkcLookup_gx (p s : Nat) (n b : Bool) (c : Chip) : (dkcLookup p s n b c).2.gx = c.gx := by
  unfold dkcLookup; dsimp only; split
  · split <;> simp
  · simp

@[simp] theorem sendSet_gx (g : Cfg) (p l : Nat) (r n b : Bool) (c : Chip) : (sendSet g p l r n b c).2.gx = c.gx := by
  unfold sendSet; dsimp only
  split
  · simp
  · split
    · rfl
    · split <;> simp

@[simp] theorem protect_gx (g : Cfg) (p l s : Nat) (q : Option Nat) (c : Chip) : (protect g p l s q c).2.gx = c.gx := by
  simp [protect, apply_ite Prod.snd, apply_ite Chip.gx]

@[simp] theorem keysActivate_gx (old g : Cfg) (c : Chip) : (keysActivate old g c).gx = c.gx := by
  refine foldl_gx (fun c l => ?_) _ c
  dsimp only; split <;> simp

/-! Queues of legs (chapter 07). -/

@[simp] theorem countEg_gx (lp l p n : Nat) (c : Chip) : (countEg lp l p n c).gx = c.gx := by simp [countEg]
@[simp] theorem touchLeg_gx (l : Nat) (c : Chip) : (touchLeg l c).gx = c.gx := rfl
@[simp] theorem flushLeg_gx (lp l p : Nat) (c : Chip) : (flushLeg lp l p c).gx = c.gx := by simp [flushLeg]
@[simp] theorem missWait_gx (p s e : Nat) (w : MissWork) (c : Chip) : (missWait p s e w c).gx = c.gx := rfl
@[simp] theorem cacheSet_gx (s : Nat) (d : Derived) (c : Chip) : (cacheSet s d c).gx = c.gx := rfl
@[simp] theorem setUnusable_gx (s : Nat) (c : Chip) : (setUnusable s c).gx = c.gx := foldl_gx (fun _ _ => slotUnusable_gx _ _ _ _ _) _ _

@[simp] theorem enqueue_gx (g : Cfg) (l k : Nat) (p : EgPkt) (c : Chip) : (enqueue g l k p c).gx = c.gx := by
  unfold enqueue; dsimp only
  split
  · simp
  · split
    · simp
    · split
      · simp
      · split
        · simp
        · split
          · simp
          · split <;> simp

/-! Sending (chapter 06). -/

@[simp] theorem countFwd_gx (p k : Nat) (c : Chip) : (countFwd p k c).gx = c.gx := bump_gx _ _ _ _ _
@[simp] theorem modSrc_gx (i : Nat) (f : SourceRun → SourceRun) (c : Chip) : (modSrc i f c).gx = c.gx := rfl

@[simp] theorem sendUnder_gx (g : Cfg) (p : Nat) (j : TxJob) (d : Derived) (c : Chip) : (sendUnder g p j d c).gx = c.gx := by
  unfold sendUnder; dsimp only; split
  · split <;> simp
  · split <;> simp

@[simp] theorem sendJob_gx (g : Cfg) (p : Nat) (n b : Bool) (j : TxJob) (c : Chip) : (sendJob g p n b j c).gx = c.gx := by
  unfold sendJob; dsimp only; split
  · split <;> simp
  · simp
  · split
    · simp
    · split
      · simp
      · split <;> simp

@[simp] theorem sendFeedback_gx (i : Nat) (r : Rtcp) (c : Chip) : (sendFeedback i r c).gx = c.gx := by
  unfold sendFeedback; dsimp only; split
  · rfl
  · exact sendJob_gx _ _ _ _ _ _

@[simp] theorem requestKey_gx (i : Nat) (b : Bool) (c : Chip) : (requestKey i b c).2.gx = c.gx := by
  unfold requestKey; dsimp only; split
  · simp
  · dsimp only; split
    · split <;> simp
    · simp

/-- An edge of the current configuration takes what is written to it: nothing is stale. -/
theorem edgeAsk_gx (e i : Nat) (x : EdgeRun) (c : Chip) : (edgeAsk (cfg c) e i x c).gx = c.gx := by
  have hsame : sameObj (requestKey i false c).2 (cfg c) tEdge e = true := by
    rw [sameObj_congr (requestKey_gx i false c)]; exact beq_self_eq_true _
  simp [edgeAsk, putEdge, hsame]

theorem edgeActivate_gx (old : Cfg) (e : Nat) (c : Chip) : (edgeActivate old (cfg c) e c).gx = c.gx := by
  unfold edgeActivate; dsimp only
  split
  · split
    · rfl
    · exact edgeAsk_gx e _ _ (modFwd _ c)
  · split
    · rfl
    · split <;> rfl

@[simp] theorem slotActivate_gx (old g : Cfg) (l k : Nat) (c : Chip) : (slotActivate old g l k c).gx = c.gx := ite_gx rfl rfl

@[simp] theorem sourceActivate_gx (old g : Cfg) (i : Nat) (c : Chip) : (sourceActivate old g i c).gx = c.gx :=
  ite_gx (ite_gx rfl rfl) (ite_gx rfl rfl)

theorem forwardActivate_gx (old : Cfg) (c : Chip) : (forwardActivate old (cfg c) c).gx = c.gx := by
  refine List.foldlRecOn (motive := fun d : Chip => d.gx = c.gx) _ _ ?_ fun d hd e _ => ?_
  · exact (foldl_gx (fun _ _ => foldl_gx (fun _ _ => slotActivate_gx _ _ _ _ _) _ _) _ _).trans (foldl_gx (fun _ _ => sourceActivate_gx _ _ _ _) _ _)
  · rw [← cfg_congr hd]; exact (edgeActivate_gx old e d).trans hd

/-! Legs (chapter 07). -/

@[simp] theorem newLeg_gx (g : Cfg) (l : Nat) (c : Chip) : (newLeg g l c).gx = c.gx := rfl

@[simp] theorem legActivate_gx (old g : Cfg) (l : Nat) (c : Chip) : (legActivate old g l c).gx = c.gx := by
  refine ite_gx (newLeg_gx g l c) ((touchLeg_gx l _).trans ?_)
  exact ite_gx (ite_gx rfl (flushLeg_gx _ _ _ c)) ((modLeg_gx _ _ _).trans (ite_gx rfl (flushLeg_gx _ _ _ c)))

@[simp] theorem legsActivate_gx (old g : Cfg) (c : Chip) : (legsActivate old g c).gx = c.gx := foldl_gx (fun _ _ => legActivate_gx _ _ _ _) _ _

@[simp] theorem legsRetire_gx (c : Chip) : (legsRetire c).gx = c.gx := by
  show (List.foldl _ c _).gx = c.gx
  exact foldl_gx (fun _ _ => dropPkts_gx _ _) _ _

/-! Audio (chapter 08). -/

@[simp] theorem countAud_gx (l p n : Nat) (c : Chip) : (countAud l p n c).gx = c.gx := by simp [countAud]
@[simp] theorem drainForced_gx (i o k e : Nat) (c : Chip) : (drainForced i o k e c).gx = c.gx := rfl

@[simp] theorem deliverBlock_gx (g : Cfg) (l : Nat) (k : Block) (c : Chip) : (deliverBlock g l k c).gx = c.gx :=
  ite_gx (ite_gx (countAud_gx _ _ _ _) (ite_gx rfl (countAud_gx _ _ _ _))) rfl

@[simp] theorem audioForce_gx (e : Nat) (c : Chip) : (audioForce e c).gx = c.gx := by
  unfold audioForce; dsimp only
  refine (foldl_gx (fun c i => ?_) _ _).trans (foldl_gx (fun c l => ?_) _ c) <;> rfl

@[simp] theorem audioActivate_gx (old g : Cfg) (c : Chip) : (audioActivate old g c).gx = c.gx := by
  refine foldl_gx (fun c l => ?_) _ c
  rfl

@[simp] theorem audioRetire_gx (c : Chip) : (audioRetire c).gx = c.gx := rfl

/-! Decoding (chapter 09). -/

@[simp] theorem modDec_gx (i : Nat) (f : DecRun → DecRun) (c : Chip) : (modDec i f c).gx = c.gx := rfl
@[simp] theorem countDec_gx (i p n : Nat) (c : Chip) : (countDec i p n c).gx = c.gx := by simp [countDec]

@[simp] theorem dropFrame_gx (i : Nat) (f : AsmFrame) (c : Chip) : (dropFrame i f c).gx = c.gx := foldl_gx (fun _ _ => drop_gx _ _) _ _

@[simp] theorem decAskKey_gx (g : Cfg) (i : Nat) (c : Chip) : (decAskKey g i c).gx = c.gx := by
  refine ite_gx ((countDec_gx _ _ _ _).trans ?_) ?_ <;> exact requestKey_gx _ _ _

@[simp] theorem decWaitKey_gx (g : Cfg) (i : Nat) (c : Chip) : (decWaitKey g i c).gx = c.gx := decAskKey_gx _ _ _

@[simp] theorem decReady_gx (g : Cfg) (i : Nat) (c : Chip) : (decReady g i c).gx = c.gx := by
  unfold decReady; dsimp only; split
  · rfl
  · exact ite_gx rfl (createTask_gx _ _ _)

@[simp] theorem decSweep_gx (i : Nat) (c : Chip) : (decSweep i c).gx = c.gx := foldl_gx (fun _ _ => by simp) _ _

@[simp] theorem decLeave_gx (i : Nat) (c : Chip) : (decLeave i c).gx = c.gx := by
  unfold decLeave; split <;> simp

@[simp] theorem decodeForce_gx (e : Nat) (c : Chip) : (decodeForce e c).gx = c.gx := by
  refine foldl_gx (fun c x => ?_) _ c
  dsimp only; split <;> simp

@[simp] theorem decodeActivate_gx (old g : Cfg) (c : Chip) : (decodeActivate old g c).gx = c.gx := by
  refine (foldl_gx (fun c x => ?_) _ _).trans (foldl_gx (fun c i => ?_) _ _)
  · exact (modDec_gx _ _ _).trans (foldl_gx (fun _ _ => dropFrame_gx _ _ _) _ _)
  · exact ite_gx (decAskKey_gx _ _ _) (ite_gx ((decSweep_gx _ _).trans (decWaitKey_gx _ _ _)) rfl)

@[simp] theorem decodeRetire_gx (c : Chip) : (decodeRetire c).gx = c.gx := by
  refine foldl_gx (fun c e => ?_) _ c
  exact ite_gx (decSweep_gx _ _) (decSweep_gx _ _)

/-! Encoding (chapter 11). -/

@[simp] theorem recSweep_gx (i : Nat) (c : Chip) : (recSweep i c).gx = c.gx := foldl_gx (fun _ _ => drop_gx _ _) _ _

@[simp] theorem rateTask_gx (g : Cfg) (i : Nat) (c : Chip) : (rateTask g i c).gx = c.gx := ite_gx rfl (createTask_gx _ _ _)

@[simp] theorem encNext_gx (i : Nat) (c : Chip) : (encNext i c).gx = c.gx := by
  unfold encNext; dsimp only; split
  · exact ite_gx rfl (rateTask_gx _ _ _)
  · rfl
  · exact (rateTask_gx _ _ _).trans (ite_gx (recSweep_gx _ _) rfl)

@[simp] theorem endParts_gx (f : EncFrame) (st : Nat) (c : Chip) : (endParts f st c).gx = c.gx := foldl_gx (fun _ _ => by simp) _ _

@[simp] theorem encLeave_gx (i : Nat) (f : EncFrame) (l : List Nat) (c : Chip) : (encLeave i f l c).gx = c.gx :=
  (foldl_gx (fun _ _ => drop_gx _ _) _ _).trans (drop_gx _ _)

@[simp] theorem noteGone_gx (i n : Nat) (c : Chip) : (noteGone i n c).gx = c.gx := rfl

@[simp] theorem encDiscard_gx (i : Nat) (b : Bool) (st : Nat) (c : Chip) : (encDiscard i b st c).gx = c.gx := by
  unfold encDiscard; split
  · rfl
  · simp [apply_ite Chip.gx]

@[simp] theorem behindSkip_gx (g : Cfg) (i k n : Nat) (c : Chip) : (behindSkip g i k n c).gx = c.gx := by simp [behindSkip]

@[simp] theorem unqueue_gx (i n : Nat) (c : Chip) : (unqueue i n c).gx = c.gx := by
  unfold unqueue; split <;> simp

@[simp] theorem skipBehind_gx (g : Cfg) (i k : Nat) (c : Chip) : (skipBehind g i k c).gx = c.gx := by
  unfold skipBehind; dsimp only
  refine foldl_gx (fun c n => ?_) _ c
  split <;> simp [apply_ite Chip.gx]

@[simp] theorem encItem_gx (i k : Nat) (it : BandItem) (c : Chip) : (encItem i k it c).gx = c.gx := by
  unfold encItem; dsimp only
  refine ite_gx rfl (ite_gx (countEnc_gx _ _ _ _) (ite_gx ?_ (ite_gx (by simp) (ite_gx rfl rfl))))
  split
  · exact ite_gx (encDiscard_gx _ _ _ _) (ite_gx (by simp) rfl)
  · rfl

@[simp] theorem encodeForce_gx (e : Nat) (c : Chip) : (encodeForce e c).gx = c.gx := by
  have hskip (i : Nat) (l : List Nat) (c : Chip) : (l.foldl (fun c n => countEnc i 3 1 (unqueue i n c)) c).gx = c.gx :=
    foldl_gx (fun _ _ => by simp) _ _
  refine foldl_gx (fun c x => ?_) _ c
  simp [apply_ite Chip.gx, hskip]

@[simp] theorem encodeActivate_gx (old g : Cfg) (c : Chip) : (encodeActivate old g c).gx = c.gx := by
  unfold encodeActivate
  refine foldl_gx (fun c i => ?_) _ c
  dsimp only; split <;> rfl

@[simp] theorem encodeRetire_gx (c : Chip) : (encodeRetire c).gx = c.gx := by
  refine foldl_gx (fun c e => ?_) _ c
  exact foldl_gx (fun _ _ => drop_gx _ _) _ c

/-! Composition (chapter 10). -/

@[simp] theorem modCv_gx (i : Nat) (f : CanvasRun → CanvasRun) (c : Chip) : (modCv i f c).gx = c.gx := rfl

@[simp] theorem toRends_gx (g : Cfg) (i k : Nat) (it : BandItem) (c : Chip) : (toRends g i k it c).gx = c.gx :=
  foldl_gx (fun _ _ => encItem_gx _ _ _ _) _ _

@[simp] theorem decHold_gx (i h : Nat) (up : Bool) (c : Chip) : (decHold i h up c).gx = c.gx := ite_gx rfl (decSweep_gx _ _)

@[simp] theorem cvRelease_gx (i : Nat) (f : CFrame) (c : Chip) : (cvRelease i f c).gx = c.gx :=
  (drop_gx _ _).trans (foldl_gx (fun _ _ => decHold_gx _ _ _ _) _ _)

@[simp] theorem cvCut_gx (i st : Nat) (c : Chip) : (cvCut i st c).gx = c.gx := by
  unfold cvCut; split
  · rfl
  · simp [apply_ite Chip.gx]

@[simp] theorem canvasForce_gx (e : Nat) (c : Chip) : (canvasForce e c).gx = c.gx := by
  refine foldl_gx (fun c x => ?_) _ c
  exact cvCut_gx _ _ c

@[simp] theorem canvasTables_gx (g : Cfg) (c : Chip) : (canvasTables g c).gx = c.gx := by
  unfold canvasTables
  refine foldl_gx (fun c cv => foldl_gx (fun c b => ?_) _ c) _ c
  dsimp only
  split
  · rfl
  · split
    · exact allocIn_gx _ _ c
    · exact allocIn_gx _ _ c

@[simp] theorem canvasActivate_gx (old g : Cfg) (t : Nat) (c : Chip) : (canvasActivate old g t c).gx = c.gx := by
  unfold canvasActivate
  refine foldl_gx (fun c cv => ?_) _ c
  dsimp only
  split
  · rfl
  · refine (foldl_gx (fun c e => ?_) _ _).trans ((modCv_gx _ _ _).trans (ite_gx rfl rfl))
    split
    · rfl
    · refine (modCv_gx _ _ _).trans ?_
      split <;> simp

/-- The buffers that a canvas no longer wants are dropped, one by one. -/
theorem dropBufs_gx (l : List (List Word × Nat)) (c : Chip) : (l.foldl (fun c b => drop b.2 c) c).gx = c.gx := foldl_gx (fun _ _ => drop_gx _ _) _ _

@[simp] theorem canvasRetire_gx (c : Chip) : (canvasRetire c).gx = c.gx := by
  unfold canvasRetire
  dsimp only
  refine foldl_gx (fun c e => ?_) _ c
  split
  · exact dropBufs_gx _ _
  · refine (modVid_gx _ _).trans (Eq.trans (foldl_gx (fun c l => ?_) e.2.layers _) (dropBufs_gx _ _))
    split <;> simp

end Sys2Proof.Machine
end

section
/-!
SUPPORT. Epochs: how one becomes current, how one retires, and how written tables publish the next.
-/
namespace Sys2Proof.Machine
open Sys2Proof

/-! Retiring. -/

theorem retireEpoch_gx (c : Chip) : (retireEpoch c).gx = { c.gx with draining := 0 } := by simp [retireEpoch]

/-- Settling retires the draining epoch or does nothing. -/
theorem settle_gx (c : Chip) : (settle c).gx = c.gx ∨ (settle c).gx = { c.gx with draining := 0 } := by
  unfold settle; split
  · exact .inr (retireEpoch_gx c)
  · exact .inl rfl

@[simp] theorem inputGap_gx (g : Cfg) (d : TaskDesc) (c : Chip) : (inputGap g d c).gx = c.gx := ite_gx (deliverBlock_gx _ _ _ _) rfl
@[simp] theorem taskForced_gx (e : Nat) (t : Task) (c : Chip) : (taskForced e t c).gx = c.gx := inputGap_gx _ _ _
@[simp] theorem runForced_gx (e n : Nat) (c : Chip) : (runForced e n c).gx = c.gx := by simp [runForced]

theorem forceDrain_gx {c : Chip} (hd : c.gx.draining ≠ 0) : (forceDrain c).gx = { c.gx with draining := 0 } := by
  have hrun (l : List (Nat × Task)) (e : Nat) (c : Chip) : (l.foldl (fun c x => runForced e x.1 c) c).gx = c.gx :=
    foldl_gx (fun _ _ => runForced_gx _ _ _) _ _
  have hwait (l : List (Nat × Task)) (e : Nat) (c : Chip) : (l.foldl (fun c x => taskForced e x.2 c) c).gx = c.gx :=
    foldl_gx (fun _ _ => taskForced_gx _ _ _) _ _
  simp [forceDrain, hd, retireEpoch_gx, hrun, hwait]

/-! Becoming current (R34, R40). -/

theorem activateEpoch_epochs {c : Chip} (hp : c.gx.published ≠ 0) :
    (activateEpoch c).gx.current = c.gx.published ∧ (activateEpoch c).gx.published = 0 := by
  have hfwd (old : Cfg) {d e : Chip} (h : e.gx = d.gx) : (forwardActivate old (cfg d) e).gx = d.gx := by
    rw [← cfg_congr h, forwardActivate_gx, h]
  unfold activateEpoch
  rw [if_neg hp]
  dsimp only
  generalize hd : applyReserves _ = d
  have hgx : d.gx.current = c.gx.published ∧ d.gx.published = 0 := by
    subst hd
    simp [hfwd]
  rcases settle_gx d with h | h <;> rw [h] <;> exact hgx

/-! What a takeover epoch does beside. -/

@[simp] theorem sendOwn_gx (lp : Nat) (b : EgBody) (n : Nat) (c : Chip) : (sendOwn lp b n c).gx = c.gx := ite_gx rfl rfl

@[simp] theorem announceAddr_gx (i : Nat) (c : Chip) : (announceAddr i c).gx = c.gx := by
  unfold announceAddr; split
  · exact ite_gx (sendOwn_gx _ _ _ _) rfl
  · rfl

@[simp] theorem stopLegs_gx (g : Cfg) (l : List Nat) (n : Nat) (c : Chip) : (stopLegs g l n c).gx = c.gx := by
  refine foldl_gx (fun c l => ?_) _ c
  rfl

@[simp] theorem takeoverActive_gx (old : Cfg) (x : TakeRun) (c : Chip) : (takeoverActive old x c).gx = c.gx := by
  have hann (l : List Nat) (c : Chip) : (l.foldl (fun c i => announceAddr i c) c).gx = c.gx := foldl_gx (fun _ _ => announceAddr_gx _ _) _ _
  unfold takeoverActive
  simp only [hann, modTw_gx, stopLegs_gx]
  refine (foldl_gx (fun c i => ?_) _ _).trans (foldl_gx (fun c l => ?_) _ _)
  · split <;> rfl
  · split <;> rfl

theorem epochActivate_gx {c : Chip} (hp : c.gx.published ≠ 0) : (epochActivate c).gx = (activateEpoch c).gx := by
  simp only [epochActivate, hp, if_false]
  split
  · exact ite_gx (takeoverActive_gx _ _ _) rfl
  · rfl

/-! Publishing (R123). -/

@[simp] theorem twinSend_gx (m : TwinMsg) (c : Chip) : (twinSend m c).gx = c.gx := ite_gx rfl rfl
@[simp] theorem chanSend_gx (k q : Nat) (m : TwinMsg) (c : Chip) : (chanSend k q m c).gx = c.gx := ite_gx (twinSend_gx _ _) rfl
@[simp] theorem recNext_gx (k : Nat) (m : TwinMsg) (c : Chip) : (recNext k m c).gx = c.gx := chanSend_gx _ _ _ _
@[simp] theorem sendSnapshot_gx (c : Chip) : (sendSnapshot c).gx = c.gx := by
  unfold sendSnapshot
  refine (foldl_gx (fun c r => ?_) _ _).trans (modTw_gx _ _)
  exact chanSend_gx _ _ _ _
@[simp] theorem snapshotIfMarked_gx (b : Bool) (c : Chip) : (snapshotIfMarked b c).gx = c.gx := ite_gx (sendSnapshot_gx _) rfl
@[simp] theorem journalPut_gx (r : JRec) (c : Chip) : (journalPut r c).2.gx = c.gx := (snapshotIfMarked_gx _ _).trans (chanSend_gx _ _ _ _)
@[simp] theorem answer_gx (a : Commit) (r : Res) (c : Chip) : (answer a r c).gx = c.gx := by
  unfold answer; split
  · exact ite_gx rfl (finish_gx _ _ _)
  · rfl
@[simp] theorem bulkResult_gx (a : Commit) (ok : Bool) (c : Chip) : (bulkResult a ok c).gx = c.gx := by
  unfold bulkResult; split
  · exact ite_gx rfl rfl
  · rfl
@[simp] theorem programBuffers_gx (old g : Cfg) (c : Chip) : (programBuffers old g c).gx = c.gx := by
  unfold programBuffers
  refine foldl_gx (fun c i => ?_) _ c
  dsimp only
  split
  · rfl
  · split
    · rfl
    · split
      · exact alloc_gx _ _ _ c
      · exact alloc_gx _ _ _ c

/-- The parts of the record that a commit's end leaves to firmware's tables: the commit under way, the epoch that waits, the current one. -/
def Epochs (a : Option Commit) (p e : Nat) (c : Chip) : Prop := c.gx.active = a ∧ c.gx.published = p ∧ c.gx.current = e

theorem Epochs.congr {o : Option Commit} {p e : Nat} {c d : Chip} (h : d.gx = c.gx) (hc : Epochs o p e c) : Epochs o p e d := by
  simpa only [Epochs, h] using hc

theorem Epochs.ticketOutcome {o : Option Commit} {p e : Nat} {c : Chip} (a : Commit) (st status n : Nat) (hc : Epochs o p e c) :
    Epochs o p e (ticketOutcome a st status n c) := by
  unfold Machine.ticketOutcome; split
  · exact hc
  · exact hc

theorem publish_epochs (a : Commit) (extra : Nat) (c : Chip) : Epochs none a.next.epoch c.gx.current (publish a extra c) := by
  have hgone (l : List Nat) (f : Nat → TwinMsg) (c : Chip) : (l.foldl (fun d k => recNext 7 (f k) d) c).gx = c.gx :=
    foldl_gx (fun _ _ => recNext_gx _ _ _) _ _
  unfold publish
  dsimp only
  generalize h1 : modGx _ c = c1
  have hc1 : Epochs none a.next.epoch c.gx.current (unreserve a c1) := by
    subst h1
    refine ⟨rfl, rfl, ?_⟩
    simp only [unreserve, dropTxn, modGx_gx]
    split <;> rfl
  generalize h7 : (if a.ticket = 0 then _ else _ : Chip) = c7
  have hc7 : Epochs none a.next.epoch c.gx.current c7 := by
    subst h7
    refine Epochs.congr (ite_gx (bulkResult_gx _ _ _) rfl) (Epochs.ticketOutcome _ _ _ _ (Epochs.congr ?_ hc1))
    simp [hgone, apply_ite Chip.gx]
  split
  · exact hc7.congr (by simp)
  · exact hc7

end Sys2Proof.Machine
end

section
/-!
SUPPORT. Sessions and submissions: what a command finds once firmware has taken it, and what a commit that must wait leaves.
-/
namespace Sys2Proof.Machine
open Sys2Proof

/-! The command as its own part sees it. -/

theorem ctxWith_fn {op n : Nat} {b : List Word} {r : CmdRef} {s : State} (h : Takes op n b r s) : (ctxWith b r s).fn = r.fn := by
  obtain ⟨-, -, -, -, -, -, -, -, -, hslot, -⟩ := h
  show (r.fn * 64 + r.slot) / 64 = r.fn
  omega

theorem ctxWith_session {op n : Nat} {b : List Word} {r : CmdRef} {s : State} (h : Takes op n b r s) : (ctxWith b r s).session = n := by
  obtain ⟨-, -, -, -, -, -, -, hn, -⟩ := h
  exact hn

theorem taken_busy {op n : Nat} {b : List Word} {r : CmdRef} {s : State} (h : Takes op n b r s) : (slotAt r s).st = .busy := by
  obtain ⟨-, -, hturn, -⟩ := h
  unfold slotTurn slotWaits at hturn
  simp only [Bool.and_eq_true, beq_iff_eq] at hturn
  obtain ⟨⟨⟨⟨hst, -⟩, -⟩, -⟩, -⟩ := hturn
  exact hst

/-- The session of a command that firmware has taken is the one it had, and no longer idle (R115). -/
theorem heldSession_tookIn {n : Nat} {r : CmdRef} {s : State} {ses : Session} (h : heldSession s.chip r.fn n = some ses) :
    heldSession (tookIn n r s) r.fn n = some { ses with lastNs := localNs s.chip } := by
  have hfn : ses.fn = r.fn := by
    unfold heldSession at h
    split at h
    · split at h
      · cases h; assumption
      · cases h
    · cases h
  have ht : heldSession (took r s) r.fn n = some ses := h
  unfold tookIn touchSession
  rw [ht]
  simp only [heldSession, tfind_tput_same, hfn, if_true]
  rfl

/-- A session without a transaction has none once its command is taken. -/
theorem no_txn_tookIn {n : Nat} {r : CmdRef} {s : State} (h : (heldSession s.chip r.fn n).bind (·.txn) = none) :
    (heldSession (tookIn n r s) r.fn n).bind (·.txn) = none := by
  cases hs : heldSession s.chip r.fn n with
  | none =>
    have ht : heldSession (took r s) r.fn n = none := hs
    unfold tookIn
    rw [touchSession_none _ _ _ ht, ht]; rfl
  | some ses => rw [heldSession_tookIn hs]; rw [hs] at h; exact h

theorem Ctx.txn_ctxWith {op n : Nat} {b : List Word} {r : CmdRef} {s : State} (h : Takes op n b r s) (c : Chip) :
    (ctxWith b r s).txn c = (heldSession c r.fn n).bind (·.txn) := by
  rw [Ctx.txn, ctxWith_fn h, ctxWith_session h]

theorem txn_tookIn {op n : Nat} {b : List Word} {r : CmdRef} {s : State} {ses : Session} {t : Txn} (h : Takes op n b r s)
    (hs : heldSession s.chip r.fn n = some ses) (ht : ses.txn = some t) : (ctxWith b r s).txn (tookIn n r s) = some t := by
  rw [Ctx.txn_ctxWith h, heldSession_tookIn hs]
  exact ht

@[simp] theorem tookIn_held (n : Nat) (r : CmdRef) (s : State) : (tookIn n r s).gx.held = s.chip.gx.held := by
  unfold tookIn touchSession; split <;> rfl

@[simp] theorem tookIn_nextTicket (n : Nat) (r : CmdRef) (s : State) : (tookIn n r s).gx.nextTicket = s.chip.gx.nextTicket := by
  unfold tookIn touchSession; split <;> rfl

@[simp] theorem getSlot_tookIn (n k : Nat) (r : CmdRef) (s : State) : getSlot (tookIn n r s) k = getSlot (took r s) k := by
  unfold tookIn touchSession; split <;> rfl

@[simp] theorem setTxn_held (n : Nat) (t : Option Txn) (c : Chip) : (setTxn n t c).gx.held = c.gx.held := rfl
@[simp] theorem getSlot_setTxn (n k : Nat) (t : Option Txn) (c : Chip) : getSlot (setTxn n t c) k = getSlot c k := rfl

/-! A commit that must wait (R41, R111, R120). -/

/-- The commit as it waits in the queue: its command has ended, and a ticket stands for it. -/
def Commit.waiting (a : Commit) (c : Chip) : Commit := { a with slot := none, ticket := c.gx.nextTicket }

/-- The chip once the commit has joined the queue, its outcome under a ticket. -/
def enqueued (fn : Nat) (a : Commit) (c : Chip) : Chip :=
  modGx (fun g => { g with held := g.held ++ [a.waiting c] })
    (putOutcome { ticket := c.gx.nextTicket, fn := fn, state := 0, status := 0, epoch := 0 } (takeTicket c).2)

/-- The identifier that the end of a commit tells: that of its command, where one command is committed by itself. -/
def Commit.told (a : Commit) : Nat := match a.staged.head? with | some s => if a.auto then s.obj else 0 | none => 0

/-- What a command whose commit must wait ends with: GX_PENDING_EPOCH and the ticket. -/
def pendingRes (a : Commit) (c : Chip) : Res :=
  ({ Res.ok (commitBody 0 0 c.gx.nextTicket 0 a.staged.length 0 0 0) with status := 0x0100 }).withObj a.told (((cfg c).obj a.told).getD .none).version

/-- A commit can join the queue and must (R41, R120). -/
structure MustWait (c : Chip) : Prop where
  staying : c.pwr.phase ≠ .ejecting
  standing : c.twin.st ≠ 5
  drained : c.gx.draining = 0
  holds : mustHold c = true
  room : heldCount c < 64

theorem MustWait.tookIn {s : State} (h : MustWait s.chip) (n : Nat) (r : CmdRef) : MustWait (tookIn n r s) := by
  obtain ⟨hp, ht, hd, hm, hc⟩ := h
  unfold Sys2Proof.tookIn touchSession
  split <;> exact ⟨hp, ht, hd, hm, hc⟩

theorem submitCommit_waits {x : Ctx} {a : Commit} {leave back : Chip → Chip} {c : Chip} (hw : MustWait c) (hk : a.kind = .host)
    (hl : (leave c).gx.nextTicket = c.gx.nextTicket) :
    submitCommit x a leave back c = x.done (pendingRes a c) (enqueued x.fn a (leave c)) := by
  obtain ⟨hp, ht, hd, hm, hc⟩ := hw
  have hroom : ¬ 64 ≤ heldCount c := by omega
  have hnot : ¬ (c.pwr.phase = .ejecting ∨ c.twin.st = 5) := by simp [hp, ht]
  have hbulk : a.kind ≠ .bulk := by rw [hk]; decide
  simp only [submitCommit, settle_of_not_draining hd, if_neg hnot, hm, if_true, if_neg hroom, hbulk, if_false, false_and, enqueued, Commit.waiting, pendingRes, takeTicket, hl]
  rfl

/-- A commit that has joined the queue is its newest entry. -/
@[simp] theorem enqueued_held (fn : Nat) (a : Commit) (c : Chip) : (enqueued fn a c).gx.held = c.gx.held ++ [a.waiting c] := rfl
@[simp] theorem getSlot_enqueued (k fn : Nat) (a : Commit) (c : Chip) : getSlot (enqueued fn a c) k = getSlot c k := rfl

/-! The commands. -/

theorem exec_gxTxnCommit_waits {n : Nat} {b : List Word} {r : CmdRef} {s : State} {ses : Session} {t : Txn} (h : Takes 0x0103 n b r s)
    (hs : heldSession s.chip r.fn n = some ses) (ht : ses.txn = some t) (hv : (slotAt r s).validateOnly = false) (hw : MustWait s.chip) :
    exec (.gxTxnCommit r) s =
      let a := newCommit (ctxWith b r s) .host t.staged false
      .next (endedWith b r (pendingRes a (tookIn n r s)) (enqueued r.fn a (setTxn n none (tookIn n r s))) s) := by
  refine taken_ends h rfl ?_
  rw [txnCommit, txn_tookIn h hs ht]
  show (if (slotAt r s).validateOnly then _ else _) = _
  rw [hv, if_neg Bool.false_ne_true, ctxWith_session h, submitCommit_waits (hw.tookIn n r) rfl rfl, ctxWith_fn h]

theorem stageWith_waits {stage : Ctx → List Staged → Chip → Staging} {x : Ctx} {e : Staged} {c d : Chip} (hn : x.txn c = none)
    (ha : x.autoCommit = true) (hs : stage x [] c = .ok (e, d)) (hw : MustWait d) :
    x.stageWith stage c = x.done (pendingRes (newCommit x .host [e] true) d) (enqueued x.fn (newCommit x .host [e] true) d) := by
  rw [Ctx.stageWith, hn]
  simp only [ha, Bool.not_true, Bool.false_eq_true, if_false, hs]
  exact submitCommit_waits hw rfl rfl

/-- A transactional command without images stages what its row says, under its opcode and the check of its fields. -/
theorem stagedRows_serve : ∀ row ∈ stagedRows, ∀ r s, row.2.2.2 r s = act s (serve row.1 r row.2.1 fun x c => x.stageWith row.2.2.1 c) := by
  unfold stagedRows
  repeat refine List.forall_mem_cons.2 ⟨fun _ _ => rfl, ?_⟩
  exact List.forall_mem_nil _

/-- The slot of a command that has ended tells so, with the status of its result. -/
theorem slotAt_endedWith {op n : Nat} {b : List Word} {r : CmdRef} {s : State} {res : Res} {c : Chip} (h : Takes op n b r s)
    (hs : getSlot c (slotKey r.fn r.slot) = getSlot (took r s) (slotKey r.fn r.slot)) :
    (slotAt r (endedWith b r res c s)).st = .done ∧ (slotAt r (endedWith b r res c s)).status = res.status := by
  have ho : (getSlot c (slotKey r.fn r.slot)).open_ = true := by
    rw [hs, getSlot_took, Slot.open_, taken_busy h]; rfl
  have hslot := getSlot_finish_same (slotKey r.fn r.slot) ((ctxWith b r s).naming res c) c ho
  unfold slotAt endedWith
  dsimp only
  rw [hslot, naming_status]
  exact ⟨rfl, rfl⟩

@[simp] theorem endedWith_gx (b : List Word) (r : CmdRef) (res : Res) (c : Chip) (s : State) : (endedWith b r res c s).chip.gx = c.gx :=
  finish_gx _ _ _

/-- The chip once GX_TXN_COMMIT has put the transaction `t` of session `n` in the queue. -/
def txnQueued (b : List Word) (n : Nat) (t : Txn) (r : CmdRef) (s : State) : Chip :=
  enqueued r.fn (newCommit (ctxWith b r s) .host t.staged false) (setTxn n none (tookIn n r s))

theorem txnQueued_held (b : List Word) (n : Nat) (t : Txn) (r : CmdRef) (s : State) : ∃ a,
    (txnQueued b n t r s).gx.held = s.chip.gx.held ++ [a] ∧ a.staged = t.staged ∧ a.ticket = s.chip.gx.nextTicket := by
  refine ⟨(newCommit (ctxWith b r s) .host t.staged false).waiting (setTxn n none (tookIn n r s)), ?_, rfl, tookIn_nextTicket n r s⟩
  rw [txnQueued, enqueued_held, setTxn_held, tookIn_held]

theorem getSlot_txnQueued (b : List Word) (n k : Nat) (t : Txn) (r : CmdRef) (s : State) :
    getSlot (txnQueued b n t r s) k = getSlot (took r s) k := by
  simp [txnQueued]

/-- GX_TXN_COMMIT ends with GX_PENDING_EPOCH and leaves the commands of the transaction in the queue, under the next ticket. -/
theorem gxTxnCommit_queues {n : Nat} {b : List Word} {r : CmdRef} {s : State} {ses : Session} {t : Txn} (h : Takes 0x0103 n b r s)
    (hs : heldSession s.chip r.fn n = some ses) (ht : ses.txn = some t) (hv : (slotAt r s).validateOnly = false) (hw : MustWait s.chip) :
    ∃ u a, exec (.gxTxnCommit r) s = .next u ∧ (slotAt r u).st = .done ∧ (slotAt r u).status = 0x0100 ∧
      u.chip.gx.held = s.chip.gx.held ++ [a] ∧ a.staged = t.staged ∧ a.ticket = s.chip.gx.nextTicket ∧ u.mem = s.mem := by
  obtain ⟨a, hheld, hstaged, hticket⟩ := txnQueued_held b n t r s
  obtain ⟨hdone, hstatus⟩ := slotAt_endedWith (res := pendingRes (newCommit (ctxWith b r s) .host t.staged false) (tookIn n r s)) h
    (getSlot_txnQueued b n _ t r s)
  refine ⟨_, a, exec_gxTxnCommit_waits h hs ht hv hw, hdone, hstatus, ?_, hstaged, hticket, rfl⟩
  exact (congrArg Guxus.held (endedWith_gx b r _ _ s)).trans hheld

/-- A transactional command with AUTO_COMMIT outside a transaction does so with a commit of its own. -/
theorem stagedRow_queues {s : State} {r : CmdRef} {n : Nat} {b : List Word} {e : Staged} {d : Chip}
    {row : Nat × (List Word → Option Nat) × (Ctx → List Staged → Chip → Staging) × (CmdRef → State → Host.Outcome State Fault Refusal)}
    (hrow : row ∈ stagedRows) (h : Takes row.1 n b r s) (hb : row.2.1 b = none) (hn : (heldSession s.chip r.fn n).bind (·.txn) = none)
    (ha : (slotAt r s).autoCommit = true) (hs : row.2.2.1 (ctxWith b r s) [] (tookIn n r s) = .ok (e, d)) (hw : MustWait d) :
    let a := newCommit (ctxWith b r s) .host [e] true
    row.2.2.2 r s = .next (endedWith b r (pendingRes a d) (enqueued r.fn a d) s) := by
  have hno : (ctxWith b r s).txn (tookIn n r s) = none := by rw [Ctx.txn_ctxWith h]; exact no_txn_tookIn hn
  dsimp only
  rw [stagedRows_serve row hrow]
  refine taken_ends h hb ?_
  rw [stageWith_waits hno ha hs hw, ctxWith_fn h]

/-! Sessions and transactions (R107 to R115). -/

theorem sessionOpen_opens {x : Ctx} {c : Chip} {n : Nat} (hn : nextSession c = some n)
    (hm : (c.gx.sessions.filter (fun e => e.2.fn == x.fn)).length < 16) (hl : c.gx.sessions.length < 1024) :
    sessionOpen x c = x.done (Res.ok [wd n]) (modGx (fun g =>
      { g with lastSession := n, sessions := tput g.sessions n ⟨x.fn, orDefault (bf x.body 0 0 16) 10, localNs c, none⟩ }) c) := by
  have hroom : ¬ (16 ≤ (c.gx.sessions.filter (fun e => e.2.fn == x.fn)).length ∨ 1024 ≤ c.gx.sessions.length) := by omega
  unfold sessionOpen
  rw [hn]
  exact if_neg hroom

theorem exec_gxSessionOpen_opens {s : State} {r : CmdRef} {n : Nat} (h : Served 0x0100 r s) (hb : bf (bodyAt r s) 0 0 16 ≤ 600)
    (hn : nextSession s.chip = some n) (hm : (s.chip.gx.sessions.filter (fun e => e.2.fn == r.fn)).length < 16)
    (hl : s.chip.gx.sessions.length < 1024) :
    exec (.gxSessionOpen r) s = .next (ended r (Res.ok [wd n]) (modGx (fun g =>
      { g with lastSession := n, sessions := tput g.sessions n ⟨r.fn, orDefault (bf (bodyAt r s) 0 0 16) 10, localNs s.chip, none⟩ }) (took r s)) s) := by
  have hfields : firstBad [(decide (600 < bf (bodyAt r s) 0 0 16), 0)] = none := by simp [firstBad, hb]
  refine serve_ends h hfields ?_
  have hfn := ctxAt_fn h
  rw [sessionOpen_opens (c := took r s) hn (by rw [hfn]; exact hm) hl, hfn]
  rfl

theorem exec_gxSessionClose_ends {s : State} {r : CmdRef} {n : Nat} {b : List Word} {ses : Session} (h : Takes 0x0101 n b r s)
    (hs : heldSession s.chip r.fn n = some ses) :
    exec (.gxSessionClose r) s = .next (endedWith b r (Res.ok []) (modGx (fun g => { g with sessions := tdel g.sessions n })
      (match ses.txn with | some t => dropTxn t (tookIn n r s) | none => tookIn n r s)) s) := by
  refine taken_ends h rfl ?_
  rw [sessionClose, ctxWith_fn h, ctxWith_session h, heldSession_tookIn hs] <;> rfl

theorem exec_gxTxnBegin_opens {s : State} {r : CmdRef} {n : Nat} {b : List Word} {ses : Session} (h : Takes 0x0102 n b r s)
    (hs : heldSession s.chip r.fn n = some ses) (ht : ses.txn = none) :
    exec (.gxTxnBegin r) s = .next (endedWith b r (Res.ok []) (setTxn n (some { staged := [], bytes := 0 }) (tookIn n r s)) s) := by
  refine taken_ends h rfl ?_
  rw [txnBegin, ctxWith_fn h, ctxWith_session h, heldSession_tookIn hs]
  simp [ht]

theorem exec_gxTxnRollback_drops {s : State} {r : CmdRef} {n : Nat} {b : List Word} {ses : Session} {t : Txn} (h : Takes 0x0104 n b r s)
    (hs : heldSession s.chip r.fn n = some ses) (ht : ses.txn = some t) :
    exec (.gxTxnRollback r) s = .next (endedWith b r (Res.ok []) (setTxn n none (dropTxn t (tookIn n r s))) s) := by
  refine taken_ends h rfl ?_
  rw [txnRollback, txn_tookIn h hs ht, ctxWith_session h]

theorem exec_gxTxnStatus_tells {s : State} {r : CmdRef} {o : Outcome4} (h : Served 0x0105 r s)
    (ho : s.chip.gx.outcomes.find? (fun o => o.ticket == bw (bodyAt r s) 0 && o.fn == r.fn) = some o) :
    exec (.gxTxnStatus r) s = .next (replied r (Res.ok ([wd (o.state + 2 ^ 16 * o.status), 0] ++ wd2 o.epoch)) s) := by
  have hfind : (took r s).gx.outcomes.find? (fun o => o.ticket == bw (ctxAt r s).body 0 && o.fn == (ctxAt r s).fn) = some o := by
    rw [ctxAt_fn h]; exact ho
  refine serve_ends h rfl ?_
  rw [txnStatus, hfind]

/-- A transaction that is dropped frees the identifiers that it reserved, and no other. -/
theorem mem_reserved_dropTxn (k : Nat) (t : Txn) (c : Chip) :
    k ∈ (dropTxn t c).gx.reserved ↔ k ∈ c.gx.reserved ∧ k ∉ reservedBy t.staged := by
  simp [dropTxn]

/-- Once firmware has waited for a time, the time has come. -/
theorem le_localNs_waitLocal (n : Nat) (c : Chip) : n ≤ localNs (waitLocal n c) := by
  simp only [localNs, waitLocal, TimeBase.cycles]
  omega

theorem txnIdle_expires {n : Nat} {c : Chip} {ses : Session} {t : Txn} (hs : tfind c.gx.sessions n = some ses) (ht : ses.txn = some t) :
    txnIdle n c = raise 1 0x102 (some ses.fn) n t.staged.length
      (setTxn n none (dropTxn t (waitLocal (ses.lastNs + ses.idleS * 1000000000) c))) := by
  simp only [txnIdle, hs, ht]
  rfl

/-! Epochs (R34, R41, R42, R123). -/

theorem ackTimeout_unmirrored {c : Chip} {a : Commit} (ha : c.gx.active = some a) (hj : a.stage = .journalled) (hf : firmwareUp c = true) :
    (ackTimeout c).gx.active = some { a with unmirrored := true, stage := .writing } ∧
      ∃ e, (ackTimeout c).mgmt.incoming = c.mgmt.incoming ++ [e] ∧ e.code = 0x104 := by
  simp only [ackTimeout, ha, hj, hf, and_self, if_true]
  exact ⟨rfl, _, rfl, rfl⟩

theorem tablesWritten_epochs {c : Chip} {a : Commit} (extra : Nat) (ha : c.gx.active = some a) (hw : a.stage = .writing)
    (hk : a.kind ≠ .takeover) (hf : firmwareUp c = true) : Epochs none a.next.epoch c.gx.current (tablesWritten extra c) := by
  simp only [tablesWritten, ha, hw, hf, hk, ne_eq, not_false_eq_true, and_self, if_true]
  exact publish_epochs a extra c

theorem epochActivate_epochs {c : Chip} (hp : c.gx.published ≠ 0) :
    (epochActivate c).gx.current = c.gx.published ∧ (epochActivate c).gx.published = 0 := by
  rw [epochActivate_gx hp]
  exact activateEpoch_epochs hp

theorem exec_epochDrainLimit_retires {s : State} (hd : s.chip.gx.draining ≠ 0) :
    ∃ u, exec .epochDrainLimit s = .next u ∧ u.chip.gx.draining = 0 ∧ u.chip.gx.current = s.chip.gx.current ∧ u.mem = s.mem := by
  have hgx : (forceDrain (waitLocal s.chip.gx.drainEnd s.chip)).gx = { s.chip.gx with draining := 0 } :=
    forceDrain_gx (c := waitLocal s.chip.gx.drainEnd s.chip) hd
  have hrun : exec .epochDrainLimit s = .next (onChip s (forceDrain (waitLocal s.chip.gx.drainEnd s.chip))) :=
    congrArg (fun c => Host.Outcome.next (onChip s c)) (if_neg hd)
  refine ⟨_, hrun, ?_, ?_, rfl⟩
  · show (forceDrain _).gx.draining = 0
    rw [hgx]
  · show (forceDrain _).gx.current = _
    rw [hgx]

/-- Settles O38, clause by clause: the commands of sessions by what service leaves of them, the commits that wait by `submitCommit_waits`, and
the epochs by what publishing, activation and retirement leave of the record. -/
theorem sessionsOpenAndEnd : Obligations.SessionsOpenAndEnd := by
  refine ⟨fun s r n h hb hn hm hl => exec_gxSessionOpen_opens h hb hn hm hl, fun s r n b ses h hs => exec_gxSessionClose_ends h hs,
    fun s r n b ses t h hs ht => exec_gxTxnRollback_drops h hs ht, fun s r o h ho => exec_gxTxnStatus_tells h ho,
    fun s n ses t hs ht => ⟨act_onChip (txnIdle_expires hs ht), fun k => mem_reserved_dropTxn k t s.chip, le_localNs_waitLocal _ _⟩,
    fun s r n b ses h hs ht => exec_gxTxnBegin_opens h hs ht,
    fun s r n b ses t h hs ht hv hp htw hd hm hc => gxTxnCommit_queues h hs ht hv ⟨hp, htw, hd, hm, hc⟩,
    fun s r n b x c row hrow h hb hn ha hx hp htw hd hm hc => stagedRow_queues hrow h hb hn ha hx ⟨hp, htw, hd, hm, hc⟩,
    fun s a l hh hk hb => exec_heldCommitRelease hh hk hb, fun s a l hh hk hb => exec_purgeCommit hh hk hb,
    fun s a ha hj hf => ?_, fun s a extra ha hw hk hf => ?_, fun s hp => ?_, fun s hd => exec_epochDrainLimit_retires hd⟩
  · obtain ⟨hact, hev⟩ := ackTimeout_unmirrored ha hj hf
    exact ⟨_, rfl, hact, hev, rfl⟩
  · obtain ⟨hact, hpub, hcur⟩ := tablesWritten_epochs extra ha hw hk hf
    exact ⟨_, rfl, hact, hpub, hcur⟩
  · obtain ⟨hcur, hpub⟩ := epochActivate_epochs hp
    exact ⟨_, rfl, hcur, hpub, rfl⟩

end Sys2Proof.Machine
end

section
/-!
SUPPORT. Accesses that an ERR_STATUS bit marks and that do nothing else (R57, R58, R65), and the obligation about misused slots.
-/
namespace Sys2Proof.Machine
open Sys2Proof

/-! What marking an access leaves of slots and ERR_STATUS. -/

@[simp] theorem msix_slots (fn v : Nat) (c : Chip) : (msix fn v c).host.slots = c.host.slots := by
  unfold msix; dsimp only; split <;> rfl

/-- A message changes the pending vectors of its function alone. -/
theorem errStatus_msix_same (fn v : Nat) (c : Chip) : (getFn (msix fn v c) fn).errStatus = (getFn c fn).errStatus := by
  unfold msix; dsimp only; split
  · rfl
  · rw [getFn_modFn_same]

@[simp] theorem errBit_slots (fn i : Nat) (c : Chip) : (errBit fn i c).host.slots = c.host.slots := by
  unfold errBit; dsimp only; split
  · exact msix_slots _ _ _
  · rfl

theorem errStatus_errBit_same (fn i : Nat) (c : Chip) : (getFn (errBit fn i c) fn).errStatus = withErr c fn i := by
  unfold errBit; dsimp only; split
  · rw [errStatus_msix_same, getFn_modFn_same]; rfl
  · rw [getFn_modFn_same]; rfl

@[simp] theorem errAccess_slots (fn i : Nat) (c : Chip) : (errAccess fn i c).host.slots = c.host.slots := errBit_slots fn i c

theorem errStatus_errAccess_same (fn i : Nat) (c : Chip) : (getFn (errAccess fn i c) fn).errStatus = withErr c fn i := by
  rw [errAccess, errCount, getFn_modFn_same]; exact errStatus_errBit_same fn i c

/-- A row that only marks its access leaves every slot and memory as they were. -/
theorem marked_leaves_slots {s : State} {fn i : Nat} {o : Host.Outcome State Fault Refusal} (h : o = .next (onChip s (errAccess fn i s.chip))) :
    ∃ t, o = .next t ∧ t.chip.host.slots = s.chip.host.slots ∧ (getFn t.chip fn).errStatus = withErr s.chip fn i ∧ t.mem = s.mem :=
  ⟨_, h, errAccess_slots fn i s.chip, errStatus_errAccess_same fn i s.chip, rfl⟩

/-! Misuses. -/

theorem slotWrite_used {fn k w : Nat} {v : Word} {c : Chip} (hk : k < 64) (he : (getSlot c (slotKey fn k)).st ≠ .empty) :
    slotWrite fn k w v c = errAccess fn 1 c := by
  simp only [slotWrite, Nat.mod_eq_of_lt hk, if_neg he]

theorem dbSubmit_used {fn : Nat} {v : Word} {c : Chip} (hon : (getFn c fn).enable = true)
    (he : (getSlot c (slotKey fn (bits v.toNat 0 6))).st ≠ .empty) : dbSubmit fn v c = errAccess fn 0 c := by
  simp [dbSubmit, hon, he, errAccess]

theorem dbRetire_mismatched {fn : Nat} {v : Word} {c : Chip} (h : (getSlot c (slotKey fn (bits v.toNat 16 6))).st ≠ .done ∨
    (getSlot c (slotKey fn (bits v.toNat 16 6))).tag ≠ bits v.toNat 0 16) : dbRetire fn v c = errAccess fn 2 c :=
  if_neg (not_and_or.2 h)

theorem dbCancel_mismatched {fn : Nat} {v : Word} {c : Chip} (h : (getSlot c (slotKey fn (bits v.toNat 16 6))).open_ = false ∨
    (getSlot c (slotKey fn (bits v.toNat 16 6))).tag ≠ bits v.toNat 0 16) : dbCancel fn v c = errAccess fn 3 c :=
  if_neg (not_and_or.2 (h.imp_left Bool.eq_false_iff.1))

/-- Settles O20: each misuse is an access that is marked and does nothing else. -/
theorem slotMisuseIgnored : Obligations.SlotMisuseIgnored :=
  ⟨fun _ _ _ _ _ hr hk he => marked_leaves_slots (act_onChip ((if_pos hr).trans (slotWrite_used hk he))),
   fun _ _ _ hr hon he => marked_leaves_slots (act_onChip ((if_pos hr).trans (dbSubmit_used hon he))),
   fun _ _ _ hr h => marked_leaves_slots (act_onChip ((if_pos hr).trans (dbRetire_mismatched h))),
   fun _ _ _ hr h => marked_leaves_slots (act_onChip ((if_pos hr).trans (dbCancel_mismatched h)))⟩

end Sys2Proof.Machine
end

section
/-!
SUPPORT. BAR4 accesses to a page that nothing maps (R80), and the obligation about the window.
-/
namespace Sys2Proof.Machine
open Sys2Proof

theorem bar4Write_unmapped {c : Chip} {m : Mem} {fn a : Nat} {data : List Byte} {poisoned : Bool} (hn : data ≠ [])
    (hp : a % pageBytes + data.length ≤ pageBytes) (hw : windowAddr c fn a = none) :
    bar4Write fn a data poisoned c m = (errCount fn c, []) := by
  simp [bar4Write, bar4Pieces_onePage (List.length_pos_iff.2 hn) hp, hw]

theorem bar4Read_unmapped {c : Chip} {m : Mem} {fn a n : Nat} (hn : 0 < n) (hp : a % pageBytes + n ≤ pageBytes)
    (hw : windowAddr c fn a = none) : bar4Read fn a n c m = emit (.readData fn (wordsOf (List.replicate n 0))) c := by
  simp [bar4Read, bar4Pieces_onePage hn hp, hw]

theorem exec_bar4Write_unmapped {s : State} {fn a : Nat} {data : List Byte} {poisoned : Bool} (hr : barReach s.chip fn = true) (hn : data ≠ [])
    (hp : a % pageBytes + data.length ≤ pageBytes) (hw : windowAddr s.chip fn a = none) :
    exec (.bar4Write fn a data poisoned) s = .next (onChip s (errCount fn s.chip)) := by
  show execBar4Write fn a data poisoned s = _
  exact actMem_onChip ((if_pos hr).trans (bar4Write_unmapped hn hp hw))

theorem exec_bar4Read_unmapped {s : State} {fn a n : Nat} (hr : barReach s.chip fn = true) (hn : 0 < n)
    (hp : a % pageBytes + n ≤ pageBytes) (hw : windowAddr s.chip fn a = none) :
    exec (.bar4Read fn a n) s = .next (onChip s (emit (.readData fn (wordsOf (List.replicate n 0))) s.chip)) := by
  show execBar4Read fn a n s = _
  exact actMem_onChip (by simp only [if_pos hr, bar4Read_unmapped hn hp hw])

/-- Settles O22: a range within one page is one piece, which is memory where the page is mapped and nothing where it is not. -/
theorem bar4Window : Obligations.Bar4Window :=
  ⟨fun _ _ _ _ _ hm hr hn hf hp hw => ⟨_, exec_bar4Write_onePage hr hn hp hw, memWrite_bytes hm hf hn⟩,
   fun _ _ _ _ _ hr hn hp hw => exec_bar4Write_unmapped hr hn hp hw,
   fun _ _ _ _ hr hn hp hw => exec_bar4Read_unmapped hr hn hp hw,
   fun _ _ _ _ _ hr hn hp hw hf hm => exec_bar4Read_onePage hr hn hp hw hf hm⟩

end Sys2Proof.Machine
end

section
/-!
SUPPORT. What leaves the DMA channels alone: reads and writes of memory, and the retirement of an epoch.
-/
namespace Sys2Proof.Machine
open Sys2Proof

/-- A run of steps that each leave a part of the chip alone leaves it alone. -/
theorem foldl_keeps {α β : Type} {g : Chip → β} {f : Chip → α → Chip} (h : ∀ c x, g (f c x) = g c) (l : List α) (c : Chip) :
    g (l.foldl f c) = g c := by
  induction l generalizing c with
  | nil => rfl
  | cons x l ih => exact (ih (f c x)).trans (h c x)

/-! Memory (R510 to R515). -/

@[simp] theorem correctedAt_chans (a : Nat) (c : Chip) : (correctedAt a c).chans = c.chans := by
  simp [correctedAt, apply_ite Chip.chans]

@[simp] theorem uncorrectableAt_chans (a : Nat) (c : Chip) : (uncorrectableAt a c).chans = c.chans := by
  simp [uncorrectableAt, apply_ite Chip.chans]

@[simp] theorem poisonReadAt_chans (a : Nat) (c : Chip) : (poisonReadAt a c).chans = c.chans := by
  simp [poisonReadAt, apply_ite Chip.chans]

@[simp] theorem readMark_chans (m : Mem) (w : Nat) (bad : List Nat) (c : Chip) : (readMark m w bad c).2.chans = c.chans := by
  unfold readMark; split
  · simp
  · split <;> simp [apply_ite Chip.chans]

@[simp] theorem memRead_chans (m : Mem) (a n : Nat) (c : Chip) : (memRead m a n c).2.2.chans = c.chans := by
  refine (foldl_keeps (fun _ _ => poisonReadAt_chans _ _) _ _).trans ?_
  exact List.foldlRecOn (motive := fun p : List Nat × Chip => p.2.chans = c.chans) _ _ rfl fun p hp w _ => (readMark_chans m w p.1 p.2).trans hp

@[simp] theorem memWrite_chans (m : Mem) (a : Nat) (data : List Byte) (p : Bool) (c : Chip) : (memWrite m a data p c).2.chans = c.chans := by
  unfold memWrite; dsimp only; split
  · rfl
  · split
    · rfl
    · exact foldl_keeps (fun _ _ => readMark_chans _ _ _ _) _ _

/-! Retirement of an epoch (R38, R40). -/

@[simp] theorem drop_chans (h : Nat) (c : Chip) : (drop h c).chans = c.chans := (Books.of_drop h c).chans
@[simp] theorem watermark_chans (p : Nat) (c : Chip) : (watermark p c).chans = c.chans := (Books.of_watermark p c).chans

@[simp] theorem applyReserves_chans (c : Chip) : (applyReserves c).chans = c.chans :=
  (foldl_keeps (fun _ _ => watermark_chans _ _) _ _).trans (foldl_keeps (fun _ _ => modUse_chans _ _ _ _) _ _)

@[simp] theorem legsRetire_chans (c : Chip) : (legsRetire c).chans = c.chans := by
  show (List.foldl _ c _).chans = c.chans
  exact foldl_keeps (fun _ _ => (Books.of_dropPkts _ _).chans) _ c

@[simp] theorem decSweep_chans (i : Nat) (c : Chip) : (decSweep i c).chans = c.chans :=
  foldl_keeps (g := Chip.chans) (fun _ _ => by simp) _ (putDec i _ c)

@[simp] theorem decHold_chans (i h : Nat) (up : Bool) (c : Chip) : (decHold i h up c).chans = c.chans := by
  refine (apply_ite Chip.chans _ _ _).trans ?_
  split
  · rfl
  · exact decSweep_chans i _

@[simp] theorem decodeRetire_chans (c : Chip) : (decodeRetire c).chans = c.chans := by
  refine foldl_keeps (fun c e => ?_) _ c
  dsimp only; split <;> exact decSweep_chans e.1 _

@[simp] theorem encodeRetire_chans (c : Chip) : (encodeRetire c).chans = c.chans := by
  refine foldl_keeps (fun c e => ?_) _ c
  exact foldl_keeps (g := Chip.chans) (fun _ _ => drop_chans _ _) e.2.recs c

@[simp] theorem canvasRetire_chans (c : Chip) : (canvasRetire c).chans = c.chans := by
  refine foldl_keeps (fun c e => ?_) _ c
  have hbufs (l : List (List Word × Nat)) (c : Chip) : (l.foldl (fun c b => drop b.2 c) c).chans = c.chans := foldl_keeps (fun _ _ => drop_chans _ _) _ _
  dsimp only; split
  · exact hbufs _ _
  · refine Eq.trans (foldl_keeps (g := Chip.chans) (fun c l => ?_) e.2.layers _) (hbufs _ _)
    split <;> simp

@[simp] theorem retireEpoch_chans (c : Chip) : (retireEpoch c).chans = c.chans := by
  have haudio (d : Chip) : (audioRetire d).chans = d.chans := rfl
  have hkeys (d : Chip) : (keySweep d).chans = d.chans := rfl
  simp [retireEpoch, haudio, hkeys]

/-- The last work of a draining epoch retires it, which touches no channel. -/
@[simp] theorem settle_chans (c : Chip) : (settle c).chans = c.chans := by
  unfold settle; split
  · exact retireEpoch_chans c
  · rfl

end Sys2Proof.Machine
end

section
/-!
SUPPORT. Channels: what a write of their registers does once it gets through, and what starting, moving, completing and aborting a
descriptor leave of the channel and of memory (R474 to R489).
-/
namespace Sys2Proof.Machine
open Sys2Proof

/-! Tables of channels. -/

/-- What a channel becomes depends on what it holds alone. -/
theorem modChan_congr {ch : Nat} {f g : Chan → Chan} {c : Chip} (h : f (getChan c ch) = g (getChan c ch)) : modChan ch f c = modChan ch g c :=
  congrArg (fun x => { c with chans := tput c.chans ch x }) h

@[simp] theorem getChan_modChan_same (ch : Nat) (f : Chan → Chan) (c : Chip) : getChan (modChan ch f c) ch = f (getChan c ch) := by
  simp [getChan, modChan]

theorem getChan_congr {c d : Chip} (h : d.chans = c.chans) (ch : Nat) : getChan d ch = getChan c ch := congrArg (tget Chan.zero · ch) h

@[simp] theorem getChan_settle (c : Chip) (ch : Nat) : getChan (settle c) ch = getChan c ch := getChan_congr (settle_chans c) ch

/-- The shadow waits while a descriptor is active. -/
theorem handOver_active {x : Chan} {e : Nat} (h : x.active = true) : handOver e x = x := if_pos (.inl h)

/-- A shadow without ARM is not taken. -/
theorem handOver_unarmed {x : Chan} {e : Nat} (h : x.arm = false) : handOver e x = x := if_pos (.inr (.inl (by rw [h]; rfl)))

/-! Register writes (R479, R480, R489). -/

/-- The operator can reach the channels' registers: the block's domain is on and its lock is open. -/
def chanOpen (c : Chip) (fn : Nat) : Prop := bar2Reach c fn = true ∧ domOn c 9 = true ∧ locked c 5 = false

/-- Address of register `off` of a channel. -/
def chanReg (ch off : Nat) : Nat := 0x500000 + 0x100 * ch + off

theorem chanReg_block {ch off : Nat} (hc : ch < 64) (ho : off < 0x100) : chanReg ch off / 0x100000 = 5 := by unfold chanReg; omega

theorem b2Turned_chanReg {fn ch off : Nat} {v : Word} {c : Chip} (h : chanOpen c fn) (hc : ch < 64) (ho : off < 0x100) :
    b2Turned fn (0x500000 + 0x100 * ch + off) true v c = none := by
  obtain ⟨hr, hd, hl⟩ := h
  have hblock := chanReg_block hc ho
  have hdom : blockDomains (chanReg ch off) = [9] := by rw [blockDomains, hblock]; rfl
  exact b2Turned_none hr (blockOff_single hdom hd) (by rw [← chanReg, hblock, hl]; rfl)

/-- A register that the operator may write on every channel takes the write. -/
theorem dmaWrite_open {fn ch off : Nat} {v : Word} {c : Chip} {m : Mem} (f : Chip → Mem → Chip × List MemOp) (h : chanOpen c fn) (hc : ch < 64)
    (ho : off < 0x100) : dmaWrite fn ch off false v f c m = f c m := by
  simp [dmaWrite, hc, b2Turned_chanReg h hc ho]

theorem directChan_lt {ch : Nat} (h : directChan ch = true) : ch < 64 := (of_decide_eq_true h).2

/-- A register of a direct channel takes the write. -/
theorem dmaWrite_direct {fn ch off : Nat} {v : Word} {c : Chip} {m : Mem} (f : Chip → Mem → Chip × List MemOp) (h : chanOpen c fn)
    (hc : directChan ch = true) (ho : off < 0x100) : dmaWrite fn ch off true v f c m = f c m := by
  simp [dmaWrite, hc, directChan_lt hc, b2Turned_chanReg h (directChan_lt hc) ho]

/-- A write of the shadow set outside the hand-over cycle takes effect on the channel alone. -/
theorem shadowWrite_open {s : State} {fn ch off : Nat} {v : Word} {g : Chan → Chan} (h : chanOpen s.chip fn) (hc : directChan ch = true)
    (ho : off < 0x100) (hg : shadowApply s.chip.gx.current off v (getChan s.chip ch) = g (getChan s.chip ch)) :
    actMem s (shadowWrite fn ch off v false) = .next (onChip s (modChan ch g s.chip)) :=
  actMem_onChip ((dmaWrite_direct _ h hc ho).trans (congrArg (·, []) (modChan_congr hg)))

/-- ARM while a descriptor is active waits (R480). -/
theorem shadowApply_arm {e : Nat} {x : Chan} (h : x.active = true) : shadowApply e 0x40 1 x = { x with arm := true, taken := false } :=
  handOver_active h

/-- DISARM takes ARM back (R481). -/
theorem shadowApply_disarm (e : Nat) (x : Chan) : shadowApply e 0x40 2 x = { x with arm := false } := rfl

/-- A shadow word is written while ARM is 0 and otherwise sets BUSY (R481). -/
theorem shadowApply_word {e w : Nat} {v : Word} {x : Chan} (hw : w < 8) : shadowApply e (0x20 + 4 * w) v x =
    if x.arm then { x with busy := true } else { x with sh := tput x.sh w (shadowMask w v) } := by
  have hctrl : 0x20 + 4 * w ≠ 0x40 := by omega
  have hidx : (0x20 + 4 * w - 0x20) / 4 = w := by omega
  rw [shadowApply, if_neg hctrl, hidx]

theorem exec_shadowWordWrite {s : State} {fn ch w : Nat} {v : Word} (h : chanOpen s.chip fn) (hc : directChan ch = true) (hw : w < 8) :
    exec (.shadowWordWrite fn ch w v false) s = .next (onChip s (modChan ch (fun x =>
      if x.arm then { x with busy := true } else { x with sh := tput x.sh w (shadowMask w v) }) s.chip)) := by
  show actMem s (shadowWrite fn ch (0x20 + 4 * (w % 8)) v false) = _
  rw [Nat.mod_eq_of_lt hw]
  exact shadowWrite_open h hc (by omega) (shadowApply_word hw)

/-- The write held in the hand-over cycle is applied once ARM is 0 (R481). -/
theorem exec_dmaHeldWriteApply {s : State} {ch w : Nat} {v : Word} (hw : w < 8) (hh : (getChan s.chip ch).heldWrite = some (0x20 + 4 * w, v))
    (ha : (getChan s.chip ch).arm = false) : exec (.dmaHeldWriteApply ch) s =
      .next (onChip s (modChan ch (fun x => { x with heldWrite := none, sh := tput x.sh w (shadowMask w v) }) s.chip)) := by
  show execDmaHeldWriteApply ch s = _
  refine act_onChip ?_
  simp only [hh]
  exact modChan_congr ((shadowApply_word hw).trans (by simp [ha]))

/-- The head of the completion queue takes the value where no record waits (R482). -/
theorem exec_dmaCqHeadWrite {s : State} {fn ch : Nat} {v : Word} (h : chanOpen s.chip fn) (hc : directChan ch = true)
    (hs : (getChan s.chip ch).stalled = none) : exec (.dmaCqHeadWrite fn ch v) s =
      .next (onChip s (settle (modChan ch (fun x => { x with cqHead := v.toNat }) s.chip))) := by
  refine actMem_onChip ((dmaWrite_direct _ h hc (by decide)).trans ?_)
  simp [settleMem, cqHeadWrite, hs]

/-- PAUSE on a channel without an active descriptor shows PAUSED at once (R479). -/
theorem exec_dmaPause_idle {s : State} {fn ch : Nat} (h : chanOpen s.chip fn) (hc : ch < 64) (ha : (getChan s.chip ch).active = false) :
    exec (.dmaPause fn ch) s = .next (onChip s (modChan ch (fun x => { x with pause := true, paused := true }) s.chip)) :=
  actMem_onChip ((dmaWrite_open _ h hc (by decide)).trans (congrArg (·, []) (modChan_congr (by simp [ha]))))

theorem exec_dmaResume_active {s : State} {fn ch : Nat} (h : chanOpen s.chip fn) (hc : ch < 64) (ha : (getChan s.chip ch).active = true) :
    exec (.dmaResume fn ch) s = .next (onChip s (modChan ch (fun x => { x with pause := false, paused := false }) s.chip)) :=
  actMem_onChip ((dmaWrite_open _ h hc (by decide)).trans (congrArg (·, []) (modChan_congr (handOver_active ha))))

/-! Moving bytes (R477 to R479). -/

theorem readSpace_chans (m : Mem) (c : Chip) (sp fn a n : Nat) (h : List Byte) : (readSpace m c sp fn a n h).2.2.chans = c.chans := by
  unfold readSpace; split
  · rfl
  · exact List.foldlRecOn (motive := fun p : List Byte × List Nat × Chip => p.2.2.chans = c.chans) _ _ rfl
      fun p hp x _ => (memRead_chans m x.1 x.2 p.2.2).trans hp

theorem writeSpace_chans (m : Mem) (c : Chip) (sp fn a : Nat) (data : List Byte) (bad : List Nat) :
    (writeSpace m c sp fn a data bad).1.chans = c.chans := by
  unfold writeSpace; split
  · exact foldl_keeps (fun c o => emit_chans (.hostPoison fn (a + o)) c) bad _
  · exact List.foldlRecOn (motive := fun p : Nat × Chip × List MemOp => p.2.1.chans = c.chans) _ _ rfl
      fun p hp x _ => (memWrite_chans m x.1 _ false p.2.1).trans hp

/-- A channel that has moved `n` bytes of its descriptor: its active registers go on by them, and its outcome may change. -/
def Chan.movedBy (x : Chan) (n : Nat) (o : DmaResult) : Chan :=
  { x with actSrc := if x.act.op = 1 then x.actSrc else spaceAdd x.act.srcSpace x.actSrc n,
           actDst := spaceAdd x.act.dstSpace x.actDst n, actLen := x.actLen - n, outcome := o }

theorem getChan_moveBytes (ch n : Nat) (hs hd : List Byte) (c : Chip) (m : Mem) :
    ∃ o, getChan (moveBytes ch n hs hd c m).1 ch = (getChan c ch).movedBy n o := by
  have hnext {d : Chip} {f : Chan → Chan} (o : DmaResult) (hf : f (getChan c ch) = (getChan c ch).movedBy n o) (h : d.chans = c.chans) :
      ∃ o, getChan (modChan ch f d) ch = (getChan c ch).movedBy n o :=
    ⟨o, by rw [getChan_modChan_same, getChan_congr h, hf]⟩
  unfold moveBytes; dsimp only
  by_cases hfill : (getChan c ch).act.op = 1
  · rw [if_pos hfill]
    exact hnext _ rfl (writeSpace_chans _ _ _ _ _ _ _)
  · rw [if_neg hfill]
    by_cases hcopy : (getChan c ch).act.op = 0
    · rw [if_pos hcopy]
      exact hnext _ rfl ((writeSpace_chans _ _ _ _ _ _ _).trans (readSpace_chans _ _ _ _ _ _ _))
    · rw [if_neg hcopy]
      exact hnext _ rfl ((readSpace_chans _ _ _ _ _ _ _).trans (readSpace_chans _ _ _ _ _ _ _))

/-- A pause leaves the bytes still to be moved, in whole units of 16 (R479). -/
theorem exec_dmaPaused {s : State} {ch n : Nat} {hs hd : List Byte} (hc : ch < 64) (ha : (getChan s.chip ch).active = true)
    (hst : (getChan s.chip ch).started = true) (hp : (getChan s.chip ch).pause = true) (hnp : (getChan s.chip ch).paused = false) :
    ∃ t o, exec (.dmaPaused ch n hs hd) s = .next t ∧
      getChan t.chip ch = { (getChan s.chip ch).movedBy (min (n / 16 * 16) (getChan s.chip ch).actLen) o with paused := true } := by
  obtain ⟨o, ho⟩ := getChan_moveBytes ch (min (n / 16 * 16) (getChan s.chip ch).actLen) hs hd s.chip s.mem
  refine ⟨_, o, rfl, ?_⟩
  simp only [dmaPaused, hc, ha, hst, hp, hnp, and_self, if_true, Bool.false_eq_true, not_false_eq_true, getChan_modChan_same, ho]

/-- A range of device memory that is one piece without marks is read as its bytes, and nothing else happens. -/
theorem readSpace_onePiece {m : Mem} {c : Chip} {sp fn a n p : Nat} {h : List Byte} (hsp : sp ≠ 1) (hp : spacePieces c sp fn a n = some [(p, n)])
    (hf : anyFrozen c = false) (hm : markedIn m p n = []) : readSpace m c sp fn a n h = (m.bytes p n, [], c) := by
  simp [readSpace, hsp, hp, memRead_clean hf hm]

theorem writeSpace_onePiece {m : Mem} {c : Chip} {sp fn a p : Nat} {data : List Byte} (hsp : sp ≠ 1)
    (hp : spacePieces c sp fn a data.length = some [(p, data.length)]) :
    (writeSpace m c sp fn a data []).2 = (memWrite m p data false c).1 := by
  simp [writeSpace, hsp, hp, poisonWords]

@[simp] theorem length_bytes (m : Mem) (a n : Nat) : (m.bytes a n).length = n := by simp [Mem.bytes]

theorem getD_bytes {m : Mem} {a n i : Nat} (h : i < n) : (m.bytes a n).getD i 0 = m.byte (a + i) := by simp [Mem.bytes, h]

/-- A copy between two buffers, each one piece, is one write of what the source holds (R477). -/
theorem moveBytes_copy {ch n ps pd : Nat} {hs hd : List Byte} {c : Chip} {m : Mem} (hop : (getChan c ch).act.op = 0)
    (hsrc : (getChan c ch).act.srcSpace = 0) (hdst : (getChan c ch).act.dstSpace = 0) (hf : anyFrozen c = false)
    (hps : spacePieces c 0 (getChan c ch).act.func (getChan c ch).actSrc n = some [(ps, n)])
    (hpd : spacePieces c 0 (getChan c ch).act.func (getChan c ch).actDst n = some [(pd, n)]) (hm : markedIn m ps n = []) :
    (moveBytes ch n hs hd c m).2 = (memWrite m pd (m.bytes ps n) false c).1 := by
  have hread := readSpace_onePiece (h := hs) (by decide) hps hf hm
  have hwrite := writeSpace_onePiece (m := m) (c := c) (sp := 0) (data := m.bytes ps n) (by decide) (by rw [length_bytes]; exact hpd)
  simp only [moveBytes, hop, hsrc, hdst, hread, if_true]
  exact hwrite

/-- The bytes after a copy: each at its place, and every other one as before. -/
theorem memCopy_bytes {c : Chip} {m : Mem} {ps pd n : Nat} (hm : m.wf = true) (hf : anyFrozen c = false) :
    (∀ i < n, (m.apply (memWrite m pd (m.bytes ps n) false c).1).byte (pd + i) = m.byte (ps + i)) ∧
      ∀ x, x < pd ∨ pd + n ≤ x → (m.apply (memWrite m pd (m.bytes ps n) false c).1).byte x = m.byte x := by
  rcases Nat.eq_zero_or_pos n with rfl | hn
  · exact ⟨fun i hi => absurd hi (Nat.not_lt_zero i), fun _ _ => rfl⟩
  · have hne : m.bytes ps n ≠ [] := List.length_pos_iff.1 (by rwa [length_bytes])
    obtain ⟨hin, hout⟩ := memWrite_bytes (d := pd) (data := m.bytes ps n) hm hf hne
    rw [length_bytes] at hin hout
    exact ⟨fun i hi => (hin i hi).trans (getD_bytes hi), hout⟩

/-! Completion (R476, R482). -/

/-- A channel whose descriptor has completed with a result. -/
def Chan.completed (r : DmaResult) (x : Chan) : Chan :=
  { x with active := false, started := false, actLen := x.act.length - r.bytes,
           results := if x.cmd ≠ 0 ∨ x.task ≠ 0 then x.results ++ [r] else x.results }

theorem completeDesc_records (ch : Nat) (c : Chip) (m : Mem) :
    ∃ r d, d.chans = c.chans ∧ completeDesc ch c m = writeRecord ch r (modChan ch (Chan.completed r) d) m := by
  refine ⟨_, _, ?_, rfl⟩
  split <;> rfl

theorem writeRecord_none {ch : Nat} {r : DmaResult} {c : Chip} {m : Mem} (h : (getChan c ch).act.record = false) :
    writeRecord ch r c m = (chanNext ch c, []) :=
  if_pos (.inl (by rw [h]; rfl))

/-- A descriptor without RECORD completes and writes no memory. -/
theorem completeDesc_noRecord {ch : Nat} {c : Chip} {m : Mem} (h : (getChan c ch).act.record = false) :
    ∃ r d, d.chans = c.chans ∧ completeDesc ch c m = (chanNext ch (modChan ch (Chan.completed r) d), []) := by
  obtain ⟨r, d, hd, hcomp⟩ := completeDesc_records ch c m
  have hrec : (getChan (modChan ch (Chan.completed r) d) ch).act.record = false := by
    rw [getChan_modChan_same, getChan_congr hd]; exact h
  exact ⟨r, d, hd, hcomp.trans (writeRecord_none hrec)⟩

/-- A channel that serves no command and no task, with ARM 0, has nothing to go on with. -/
theorem getChan_chanNext_idle {ch : Nat} {c : Chip} (hc : (getChan c ch).cmd = 0) (ht : (getChan c ch).task = 0) (ha : (getChan c ch).arm = false) :
    getChan (chanNext ch c) ch = getChan c ch := by
  simp [chanNext, hc, ht, handOver_unarmed ha]

/-- The channel after its last descriptor, of no command and no task and without a record. -/
theorem completeDesc_idle {ch : Nat} {c : Chip} {m : Mem} (hr : (getChan c ch).act.record = false) (hc : (getChan c ch).cmd = 0)
    (ht : (getChan c ch).task = 0) (ha : (getChan c ch).arm = false) :
    (∃ r, getChan (completeDesc ch c m).1 ch = (getChan c ch).completed r) ∧ (completeDesc ch c m).2 = [] := by
  obtain ⟨r, d, hd, hcomp⟩ := completeDesc_noRecord (m := m) hr
  have hchan : getChan (modChan ch (Chan.completed r) d) ch = (getChan c ch).completed r := by rw [getChan_modChan_same, getChan_congr hd]
  rw [hcomp]
  refine ⟨⟨r, ?_⟩, rfl⟩
  rw [getChan_chanNext_idle (by rw [hchan]; exact hc) (by rw [hchan]; exact ht) (by rw [hchan]; exact ha), hchan]

/-- ABORT of a paused descriptor of no command and no task ends it with GX_E_DMA_ABORTED (R479). -/
theorem exec_dmaAbort_paused {s : State} {fn ch : Nat} (h : chanOpen s.chip fn) (hc : ch < 64) (ha : (getChan s.chip ch).active = true)
    (hst : (getChan s.chip ch).started = true) (hp : (getChan s.chip ch).paused = true) (hr : (getChan s.chip ch).act.record = false)
    (hcmd : (getChan s.chip ch).cmd = 0) (ht : (getChan s.chip ch).task = 0) (harm : (getChan s.chip ch).arm = false) :
    ∃ t, exec (.dmaAbort fn ch) s = .next t ∧ (getChan t.chip ch).active = false ∧
      (getChan t.chip ch).outcome = { (getChan s.chip ch).outcome with status := 0x0A05 } ∧ t.mem = s.mem := by
  obtain ⟨⟨r, hchan⟩, hops⟩ := completeDesc_idle (ch := ch) (m := s.mem)
    (c := modChan ch (fun x => { x with outcome := { x.outcome with status := 0x0A05 } }) (modChan ch (fun x => { x with abort := true }) s.chip))
    (by simpa using hr) (by simpa using hcmd) (by simpa using ht) (by simpa using harm)
  refine ⟨_, rfl, ?_⟩
  simp only [dmaWrite_open _ h hc (show 0 < 0x100 by decide), settleMem, abortChan, hp, ha, hst, and_self, if_true, getChan_settle, hchan, hops,
    Mem.apply_nil]
  simp [Chan.completed]

/-- A copy between two buffers, each one piece, completes with every byte moved to its place (R477). -/
theorem exec_dmaDescriptorDone_copies {s : State} {ch ps pd : Nat} {hs hd : List Byte} (hc : ch < 64) (hmem : MemInv s) (hf : anyFrozen s.chip = false)
    (ha : (getChan s.chip ch).active = true) (hst : (getChan s.chip ch).started = true) (hnp : (getChan s.chip ch).paused = false)
    (hop : (getChan s.chip ch).act.op = 0) (hsrc : (getChan s.chip ch).act.srcSpace = 0) (hdst : (getChan s.chip ch).act.dstSpace = 0)
    (hr : (getChan s.chip ch).act.record = false)
    (hps : spacePieces s.chip 0 (getChan s.chip ch).act.func (getChan s.chip ch).actSrc (getChan s.chip ch).actLen = some [(ps, (getChan s.chip ch).actLen)])
    (hpd : spacePieces s.chip 0 (getChan s.chip ch).act.func (getChan s.chip ch).actDst (getChan s.chip ch).actLen = some [(pd, (getChan s.chip ch).actLen)])
    (hm : markedIn s.mem ps (getChan s.chip ch).actLen = []) :
    ∃ t, exec (.dmaDescriptorDone ch hs hd) s = .next t ∧ (∀ i < (getChan s.chip ch).actLen, t.mem.byte (pd + i) = s.mem.byte (ps + i)) ∧
      ∀ x, x < pd ∨ pd + (getChan s.chip ch).actLen ≤ x → t.mem.byte x = s.mem.byte x := by
  have hmove := moveBytes_copy (hs := hs) (hd := hd) hop hsrc hdst hf hps hpd hm
  obtain ⟨o, hchan⟩ := getChan_moveBytes ch (getChan s.chip ch).actLen hs hd s.chip s.mem
  have hrec : (getChan (moveBytes ch (getChan s.chip ch).actLen hs hd s.chip s.mem).1 ch).act.record = false := by rw [hchan]; exact hr
  obtain ⟨r, d, -, hcomp⟩ := completeDesc_noRecord (m := s.mem.apply (moveBytes ch (getChan s.chip ch).actLen hs hd s.chip s.mem).2) hrec
  rw [hmove] at hcomp
  have hbytes := memCopy_bytes (ps := ps) (pd := pd) (n := (getChan s.chip ch).actLen) hmem hf
  refine ⟨_, rfl, ?_⟩
  simp only [hc, if_true, settleMem, descDone, ha, hst, hnp, Bool.false_eq_true, not_false_eq_true, and_self, hcomp, List.append_nil, hmove]
  exact hbytes

/-! Start (R474 to R477). -/

/-- The next descriptor of a command's chain is taken. -/
theorem fetchDesc_chain {ch : Nat} {c : Chip} {m : Mem} {d : DmaDesc} {rest : List DmaDesc} (ha : (getChan c ch).active = false)
    (hp : (getChan c ch).pause = false) (hpd : (getChan c ch).paused = false) (hq : (getChan c ch).cqFull = false)
    (hch : (getChan c ch).chain = d :: rest) :
    fetchDesc ch c m = loadDesc ch d false (modChan ch (fun x => { x with chain := rest }) c) := by
  simp [fetchDesc, ha, hp, hpd, hq, hch]

/-- A descriptor that no reset has cut off enters the active set as it stands, its outcome still good. -/
theorem getChan_loadDesc {ch : Nat} {c : Chip} {d : DmaDesc} (hcut : (getChan c ch).cut = []) : getChan (loadDesc ch d false c) ch =
    { (getChan c ch).load c.gx.current d ((descWords d).getD 0 0) with sh := wordsPut [] 0 (descWords d), taken := true } := by
  simp [loadDesc, hcut, fetchStatus, Chan.load]

/-- The checks of a descriptor look at no channel. -/
theorem checkDesc_loadDesc (ch : Nat) (d e : DmaDesc) (f : Chan → Chan) (c : Chip) :
    checkDesc (loadDesc ch e false (modChan ch f c)) d = checkDesc c d := rfl

/-- The next descriptor of a command that passes its checks becomes active and starts, with nothing of it moved. -/
theorem exec_dmaDescriptorStart_begins {s : State} {ch : Nat} {d : DmaDesc} {rest : List DmaDesc} (hc : ch < 64)
    (ha : (getChan s.chip ch).active = false) (hp : (getChan s.chip ch).pause = false) (hpd : (getChan s.chip ch).paused = false)
    (hq : (getChan s.chip ch).cqFull = false) (hch : (getChan s.chip ch).chain = d :: rest) (hcut : (getChan s.chip ch).cut = [])
    (hok : checkDesc s.chip d = 0) (hl : d.length ≠ 0) :
    ∃ t, exec (.dmaDescriptorStart ch) s = .next t ∧ (getChan t.chip ch).active = true ∧ (getChan t.chip ch).started = true ∧
      (getChan t.chip ch).act = d ∧ (getChan t.chip ch).actLen = d.length ∧ t.mem = s.mem := by
  have hload := getChan_loadDesc (ch := ch) (c := modChan ch (fun x => { x with chain := rest }) s.chip) (d := d) (by simpa using hcut)
  refine ⟨_, rfl, ?_⟩
  simp only [hc, if_true, settleMem, descStart, fetchDesc_chain ha hp hpd hq hch, hload, Chan.load, getChan_modChan_same, hp, Bool.not_true,
    Bool.false_eq_true, or_self, if_false, ne_eq, not_true_eq_false, checkDesc_loadDesc, hok, hl, getChan_settle, Mem.apply_nil, and_self]

/-! GX_DMA_SUBMIT (R474). -/

/-- A draw picks a member of a list that is not empty. -/
theorem drawn_mem {l : List Nat} (n : Nat) (h : l ≠ []) : ∃ x ∈ l, l[n % (if l.length = 0 then 1 else l.length)]? = some x := by
  have hpos := List.length_pos_iff.2 h
  have hlt : n % (if l.length = 0 then 1 else l.length) < l.length := by rw [if_neg hpos.ne']; exact Nat.mod_lt _ hpos
  exact ⟨_, List.getElem_mem hlt, List.getElem?_eq_getElem hlt⟩

theorem dmaSubmit_idle {c : Chip} (x : Ctx) (h : idleChans c ≠ []) : ∃ ch ∈ idleChans c, dmaSubmit x c =
    modChan ch (fun y => { y with cmd := x.k + 1, chain := submitDescs x, results := [] }) (draw c).2 := by
  obtain ⟨ch, hmem, hget⟩ := drawn_mem (draw c).1 h
  exact ⟨ch, hmem, by simp only [dmaSubmit, hget]⟩

theorem exec_gxDmaSubmit_idle {s : State} {r : CmdRef} (h : Served 0x0A02 r s) (hlo : 1 ≤ bf (bodyAt r s) 0 0 5) (hhi : bf (bodyAt r s) 0 0 5 ≤ 16)
    (hidle : idleChans s.chip ≠ []) : ∃ t ch, exec (.gxDmaSubmit r) s = .next t ∧ ch ∈ idleChans s.chip ∧
      (getChan t.chip ch).cmd = slotKey r.fn r.slot + 1 ∧ (getChan t.chip ch).chain = submitDescs (ctxAt r s) ∧ (slotAt r t).taken = true ∧
      t.mem = s.mem := by
  obtain ⟨ch, hmem, hsub⟩ := dmaSubmit_idle (c := took r s) (ctxAt r s) hidle
  generalize hd : modChan ch _ (draw (took r s)).2 = d at hsub
  have hslot : getSlot d (slotKey r.fn r.slot) = { slotAt r s with taken := true } := by subst hd; exact getSlot_took r s
  have hbusy : (getSlot d (slotKey r.fn r.slot)).st ≠ .progress := by rw [hslot]; show (slotAt r s).st ≠ _; rw [served_busy h]; decide
  have hfields : firstBad [(outside (bf (bodyAt r s) 0 0 5) 1 16, 0)] = none := by rw [outside_false hlo hhi]; rfl
  have hrun : exec (.gxDmaSubmit r) s = .next (onChip s d) := by
    show execGxDmaSubmit r s = _
    exact act_onChip (by rw [serve_served h hfields, hsub, cancelAt_of_not_progress _ _ hbusy])
  refine ⟨_, ch, hrun, hmem, ?_, ?_, ?_, rfl⟩
  · subst hd; rw [onChip_chip, getChan_modChan_same]; rfl
  · subst hd; rw [onChip_chip, getChan_modChan_same]
  · show (getSlot d (slotKey r.fn r.slot)).taken = true; rw [hslot]

end Sys2Proof.Machine
end

section
/-!
SUPPORT. Mapping and unmapping of window pages (R80, R81), and the obligation about the shadow set, submission and the window.
-/
namespace Sys2Proof.Machine
open Sys2Proof

/-! Commands that also write memory. -/

theorem serveMem_fst (op : Nat) (r : CmdRef) (fields : List Word → Option Nat) (run : Ctx → Chip → Chip) (ops : Ctx → Chip → List MemOp) (c : Chip) :
    (serveMem op r fields run ops c).1 = serve op r fields run c := by
  unfold serveMem; dsimp only; split <;> rfl

/-- What such a command writes to memory: what its own part says of its context, or nothing. -/
theorem serveMem_snd {op : Nat} {r : CmdRef} {s : State} (fields : List Word → Option Nat) (run : Ctx → Chip → Chip) (ops : Ctx → Chip → List MemOp)
    (h : Served op r s) :
    (serveMem op r fields run ops s.chip).2 = ops (ctxAt r s) s.chip ∨ (serveMem op r fields run ops s.chip).2 = [] := by
  obtain ⟨-, -, -, -, -, -, hext, -⟩ := h
  have hbody : (slotAt r s).bodyWith (slotAt r s).extension = bodyAt r s := by simp [Slot.extension, hext, bodyAt, Slot.body]
  unfold serveMem; dsimp only; split
  · exact .inl (congrArg (fun b => ops (ctxOf _ _ b) s.chip) hbody)
  · exact .inr rfl

theorem serveMem_ends {op : Nat} {r : CmdRef} {s : State} {fields : List Word → Option Nat} {run : Ctx → Chip → Chip} {ops : Ctx → Chip → List MemOp}
    {res : Res} {c : Chip} (h : Served op r s) (hf : fields (bodyAt r s) = none) (hr : run (ctxAt r s) (took r s) = (ctxAt r s).done res c) :
    (serveMem op r fields run ops s.chip).1 = (ended r res c s).chip := by
  rw [serveMem_fst]; exact (act_chip (serve_ends h hf hr)).symm

/-! One page. -/

theorem pageOf_isSome {c : Chip} {fn page : Nat} : (pageOf c fn page).isSome = true ↔ ∃ e ∈ c.pools.pages, e.1 = fn * 65536 + page := by
  simp [pageOf, List.find?_isSome]

/-- What mapping a page does to chip and window: nothing where it is mapped or no page is free, and otherwise one more entry. -/
theorem mapPage_cases (fn page : Nat) (p : Chip × List MemOp) :
    (((pageOf p.1 fn page).isSome = true ∨ freePages p.1 = []) ∧ (mapPage fn page p).1 = p.1) ∨
      ∃ g, (mapPage fn page p).1.pools.pages = (fn * 65536 + page, g) :: p.1.pools.pages ∧
        (mapPage fn page p).1.pools.windowBytes = p.1.pools.windowBytes ∧ (mapPage fn page p).1.host = p.1.host := by
  by_cases hm : (pageOf p.1 fn page).isSome = true
  · exact .inl ⟨.inl hm, by simp [mapPage, hm]⟩
  by_cases hf : freePages p.1 = []
  · exact .inl ⟨.inr hf, by simp [mapPage, hf]⟩
  · obtain ⟨g, -, hget⟩ := drawn_mem (draw p.1).1 hf
    refine .inr ⟨g, ?_⟩
    simp only [mapPage, hm, hget]
    exact ⟨rfl, rfl, rfl⟩

@[simp] theorem mapPage_host (fn page : Nat) (p : Chip × List MemOp) : (mapPage fn page p).1.host = p.1.host := by
  rcases mapPage_cases fn page p with ⟨-, h⟩ | ⟨g, -, -, h⟩
  · rw [h]
  · exact h

/-- A page that is mapped stays mapped. -/
theorem mapPage_keeps {fn page q : Nat} {p : Chip × List MemOp} (h : (pageOf p.1 fn q).isSome = true) :
    (pageOf (mapPage fn page p).1 fn q).isSome = true := by
  rcases mapPage_cases fn page p with ⟨-, hc⟩ | ⟨g, hpages, -, -⟩
  · rw [hc]; exact h
  · obtain ⟨e, he, hk⟩ := pageOf_isSome.1 h
    exact pageOf_isSome.2 ⟨e, by rw [hpages]; exact List.mem_cons_of_mem _ he, hk⟩

theorem mapPage_maps {fn page : Nat} {p : Chip × List MemOp} (h : freePages p.1 ≠ []) : (pageOf (mapPage fn page p).1 fn page).isSome = true := by
  rcases mapPage_cases fn page p with ⟨hm | hf, hc⟩ | ⟨g, hpages, -, -⟩
  · rw [hc]; exact hm
  · exact absurd hf h
  · exact pageOf_isSome.2 ⟨_, by rw [hpages]; exact List.mem_cons_self, rfl⟩

/-- One more mapped page takes at most one free page. -/
theorem freePages_cons {c d : Chip} {e : Nat × Nat} (hp : d.pools.pages = e :: c.pools.pages) (hw : d.pools.windowBytes = c.pools.windowBytes) :
    (freePages c).length ≤ (freePages d).length + 1 := by
  have hnodup : (freePages c).Nodup := List.Nodup.filter _ List.nodup_range
  have herase : freePages d = (freePages c).erase e.2 := by
    rw [hnodup.erase_eq_filter]
    simp only [freePages, hp, hw, List.any_cons, List.filter_filter]
    refine List.filter_congr fun p _ => ?_
    rw [Bool.not_or, Bool.and_comm, bne, BEq.comm, Bool.and_comm]
  rw [herase, List.length_erase]
  split <;> omega

theorem freePages_mapPage (fn page : Nat) (p : Chip × List MemOp) : (freePages p.1).length ≤ (freePages (mapPage fn page p).1).length + 1 := by
  rcases mapPage_cases fn page p with ⟨-, hc⟩ | ⟨g, hpages, hw, -⟩
  · rw [hc]; exact Nat.le_succ _
  · exact freePages_cons hpages hw

/-! All pages of a command. -/

theorem mapPages_keep {fn q : Nat} (l : List Nat) {p : Chip × List MemOp} (h : (pageOf p.1 fn q).isSome = true) :
    (pageOf (l.foldl (fun p page => mapPage fn page p) p).1 fn q).isSome = true := by
  induction l generalizing p with
  | nil => exact h
  | cons a l ih => exact ih (mapPage_keeps h)

/-- With free pages enough, every page of the list comes to be mapped. -/
theorem mapPages_map {fn : Nat} (l : List Nat) {p : Chip × List MemOp} (h : l.length ≤ (freePages p.1).length) :
    ∀ q ∈ l, (pageOf (l.foldl (fun p page => mapPage fn page p) p).1 fn q).isSome = true := by
  induction l generalizing p with
  | nil => simp
  | cons a l ih =>
    have hfree : freePages p.1 ≠ [] := List.length_pos_iff.1 (Nat.lt_of_lt_of_le (Nat.succ_pos _) h)
    have hrest : l.length ≤ (freePages (mapPage fn a p).1).length := Nat.le_of_succ_le_succ (h.trans (freePages_mapPage fn a p))
    intro q hq
    rcases List.mem_cons.1 hq with rfl | hq
    · exact mapPages_keep l (mapPage_maps hfree)
    · exact ih hrest q hq

theorem mapPages_host (fn : Nat) (l : List Nat) (p : Chip × List MemOp) : (l.foldl (fun p page => mapPage fn page p) p).1.host = p.1.host := by
  induction l generalizing p with
  | nil => rfl
  | cons a l ih => exact (ih _).trans (mapPage_host fn a p)

/-! GX_WINDOW_MAP. -/

theorem windowMapped_host (x : Ctx) (c : Chip) : (windowMapped x c).1.host = c.host := mapPages_host _ _ _

theorem getSlot_congr {c d : Chip} (h : d.host = c.host) (k : Nat) : getSlot d k = getSlot c k := by rw [getSlot, h]; rfl

theorem slotAt_congr (r : CmdRef) {s t : State} (h : t.chip = s.chip) : slotAt r t = slotAt r s := congrArg (getSlot · (slotKey r.fn r.slot)) h

theorem pageOf_congr {c d : Chip} (h : d.pools = c.pools) (fn page : Nat) : pageOf d fn page = pageOf c fn page := by rw [pageOf, h]; rfl

/-- The command finds every page that it names inside the function's BAR4. -/
theorem windowMap_inside {x : Ctx} {c : Chip} (h : ∀ p ∈ windowPagesOf x.body, (p + 1) * pageBytes ≤ bar4Bytes c x.fn) :
    (windowPagesOf x.body).any (fun p => decide (bar4Bytes c x.fn < (p + 1) * pageBytes)) = false := by
  simpa using h

/-- What the command writes to memory: zeros into pages last mapped to another function. -/
def windowOps (x : Ctx) (c : Chip) : List MemOp := if bit (bw x.body 8) 0 then [] else (windowMapped x c).2

theorem exec_gxWindowMap_serves (r : CmdRef) (s : State) :
    exec (.gxWindowMap r) s = actMem s (fun c _ => serveMem 0x0A03 r noFields windowMap windowOps c) := rfl

theorem windowMap_maps {x : Ctx} {c : Chip} (h : ∀ p ∈ windowPagesOf x.body, (p + 1) * pageBytes ≤ bar4Bytes c x.fn)
    (hu : bit (bw x.body 8) 0 = false) (hf : (windowPagesOf x.body).length ≤ (freePages c).length) :
    windowMap x c = x.done (Res.ok []) (windowMapped x c).1 := by
  have henough : ¬ (freePages c).length < ((windowPagesOf x.body).filter (fun p => (pageOf c x.fn p).isNone)).length :=
    Nat.not_lt.2 ((List.length_filter_le _ _).trans hf)
  simp [windowMap, windowMap_inside h, hu, henough]

theorem windowMap_unmaps {x : Ctx} {c : Chip} (h : ∀ p ∈ windowPagesOf x.body, (p + 1) * pageBytes ≤ bar4Bytes c x.fn)
    (hu : bit (bw x.body 8) 0 = true) : windowMap x c = x.done (Res.ok []) { c with pools := { c.pools with
      pages := c.pools.pages.filter (fun e => !(e.1 / 65536 == x.fn && (windowPagesOf x.body).contains (e.1 % 65536))) } } := by
  simp [windowMap, windowMap_inside h, hu]

theorem exec_gxWindowMap_maps {s : State} {r : CmdRef} (h : Served 0x0A03 r s)
    (hin : ∀ p ∈ windowPagesOf (bodyAt r s), (p + 1) * pageBytes ≤ bar4Bytes s.chip r.fn) (hu : bit (bw (bodyAt r s) 8) 0 = false)
    (hf : (windowPagesOf (bodyAt r s)).length ≤ (freePages s.chip).length) :
    ∃ t, exec (.gxWindowMap r) s = .next t ∧ (slotAt r t).st = .done ∧ (slotAt r t).status = 0 ∧
      ∀ p ∈ windowPagesOf (bodyAt r s), (pageOf t.chip r.fn p).isSome = true := by
  have hfn := ctxAt_fn h
  have hrun := windowMap_maps (x := ctxAt r s) (c := took r s) (by rw [hfn]; exact hin) hu hf
  have hslot := getSlot_ended (res := Res.ok []) h (getSlot_congr (windowMapped_host (ctxAt r s) (took r s)) (slotKey r.fn r.slot))
  have hend := serveMem_ends (fields := noFields) (ops := windowOps) h rfl hrun
  refine ⟨_, exec_gxWindowMap_serves r s, ?_, ?_, fun p hp => ?_⟩
  · rw [slotAt_congr r hend, hslot]
  · rw [slotAt_congr r hend, hslot]; rfl
  · have hmapped : (pageOf (windowMapped (ctxAt r s) (took r s)).1 (ctxAt r s).fn p).isSome = true := mapPages_map _ hf p hp
    rw [hfn] at hmapped
    exact (congrArg (fun c => (pageOf c r.fn p).isSome) hend).trans ((congrArg Option.isSome (pageOf_congr (finish_pools _ _ _) r.fn p)).trans hmapped)

theorem exec_gxWindowMap_unmaps {s : State} {r : CmdRef} (h : Served 0x0A03 r s)
    (hin : ∀ p ∈ windowPagesOf (bodyAt r s), (p + 1) * pageBytes ≤ bar4Bytes s.chip r.fn) (hu : bit (bw (bodyAt r s) 8) 0 = true) :
    ∃ t, exec (.gxWindowMap r) s = .next t ∧ t.mem = s.mem ∧ t.chip.pools.pages = s.chip.pools.pages.filter (fun e =>
      !(e.1 / 65536 == r.fn && (windowPagesOf (bodyAt r s)).contains (e.1 % 65536))) := by
  have hfn := ctxAt_fn h
  have hrun := windowMap_unmaps (x := ctxAt r s) (c := took r s) (by rw [hfn]; exact hin) hu
  have hend := serveMem_ends (fields := noFields) (ops := windowOps) h rfl hrun
  have hops : (serveMem 0x0A03 r noFields windowMap windowOps s.chip).2 = [] :=
    (serveMem_snd noFields windowMap windowOps h).elim (fun hsnd => hsnd.trans (if_pos hu)) id
  refine ⟨_, exec_gxWindowMap_serves r s, congrArg s.mem.apply hops, ?_⟩
  rw [hfn] at hend
  exact (congrArg (fun c : Chip => c.pools.pages) hend).trans (congrArg Pools.pages (finish_pools _ _ _))

/-- Settles O16, clause by clause: what each register write, each step of a descriptor and each of the two commands leaves. -/
theorem shadowAndSubmit : Obligations.ShadowAndSubmit := by
  unfold Obligations.ShadowAndSubmit
  refine ⟨?arm, ?disarm, ?word, ?held, ?head, ?submit, ?map, ?unmap, ?start, ?done, ?pause, ?paused, ?resume, ?abort⟩
  case arm => exact fun s fn ch hr hd hl hc ha => shadowWrite_open ⟨hr, hd, hl⟩ hc (by decide) (shadowApply_arm ha)
  case disarm => exact fun s fn ch hr hd hl hc => shadowWrite_open ⟨hr, hd, hl⟩ hc (by decide) (shadowApply_disarm _ _)
  case word => exact fun s fn ch w v hr hd hl hc hw => exec_shadowWordWrite ⟨hr, hd, hl⟩ hc hw
  case held => exact fun s ch w v hw hh ha => exec_dmaHeldWriteApply hw hh ha
  case head => exact fun s fn ch v hr hd hl hc hs => exec_dmaCqHeadWrite ⟨hr, hd, hl⟩ hc hs
  case submit => exact fun s r h hlo hhi hidle => exec_gxDmaSubmit_idle h hlo hhi hidle
  case map => exact fun s r h hin hu hf => exec_gxWindowMap_maps h hin hu hf
  case unmap => exact fun s r h hin hu => exec_gxWindowMap_unmaps h hin hu
  case start =>
    exact fun s ch d rest hc ha hp hpd hq hch hcut hok hl => exec_dmaDescriptorStart_begins hc ha hp hpd hq hch hcut hok hl
  case done =>
    intro s ch ps pd hs hd hc hmem hf ha hst hnp hop hsrc hdst hr hps hpd hm
    obtain ⟨t, hrun, hbytes, -⟩ := exec_dmaDescriptorDone_copies (hs := hs) (hd := hd) hc hmem hf ha hst hnp hop hsrc hdst hr hps hpd hm
    exact ⟨t, hrun, hbytes⟩
  case pause => exact fun s fn ch hc hr hd hl ha => exec_dmaPause_idle ⟨hr, hd, hl⟩ hc ha
  case paused =>
    intro s ch n hs hd hc ha hst hp hnp
    obtain ⟨t, o, hrun, hchan⟩ := exec_dmaPaused (n := n) (hs := hs) (hd := hd) hc ha hst hp hnp
    refine ⟨t, hrun, by rw [hchan], ?_⟩
    rw [hchan]
    show (getChan s.chip ch).actLen - min (n / 16 * 16) (getChan s.chip ch).actLen = _
    omega
  case resume => exact fun s fn ch hc hr hd hl ha => exec_dmaResume_active ⟨hr, hd, hl⟩ hc ha
  case abort =>
    intro s fn ch hc hr hd hl ha hst hp hrec hcmd ht harm
    obtain ⟨t, hrun, hoff, hout, hmem⟩ := exec_dmaAbort_paused ⟨hr, hd, hl⟩ hc ha hst hp hrec hcmd ht harm
    exact ⟨t, hrun, hoff, by rw [hout], hmem⟩

end Sys2Proof.Machine
end

section
/-!
SUPPORT. Staging (R100, R110 to R114): how a transactional command joins the open transaction of its session, how one with images does once
they are fetched, what either answers where no transaction is open, and the two obligations about it.
-/
namespace Sys2Proof.Machine
open Sys2Proof

/-! Commands whose own part ends them under another body than the one that firmware took. -/

theorem taken_ends_as {op n : Nat} {b m : List Word} {r : CmdRef} {s : State} {fields : List Word → Option Nat} {run : Ctx → Chip → Chip}
    {res : Res} {c : Chip} (h : Takes op n b r s) (hf : fields b = none)
    (hr : run (ctxWith b r s) (tookIn n r s) = (ctxWith m r s).done res c) :
    act s (serve op r fields run) = .next (endedWith m r res c s) := by
  rw [act, serve_taken h hf, hr]
  show Host.Outcome.next { s with chip := cancelAt (slotKey r.fn r.slot) (finish (slotKey r.fn r.slot) _ c) } = _
  rw [cancelAt_finish]; rfl

/-- A body brought to a number of words reads as before in them. -/
theorem bw_words {k off : Nat} (h : off < 4 * k) (b : List Word) : bw (words k b) off = bw b off := by
  have hk : off / 4 < k := by omega
  simp only [bw, words, List.getD_eq_getElem?_getD, List.getElem?_take, hk, if_true]
  rcases Nat.lt_or_ge (off / 4) b.length with hb | hb
  · rw [List.getElem?_append_left hb]
  · rw [List.getElem?_append_right hb, List.getElem?_eq_none hb, List.getElem?_replicate]
    split <;> rfl

/-! Joining. -/

/-- What a command that joins a transaction as `x` ends with (R112, R113). -/
def joinedRes (t : Txn) (x : Staged) (g : Cfg) : Res :=
  (Res.ok [wd t.staged.length]).withObj x.obj (if x.create then 0 else ((g.obj x.obj).getD .none).version)

/-- The transaction with one more command, of a number of bytes. -/
def Txn.add (t : Txn) (x : Staged) (bytes : Nat) : Txn := { staged := t.staged ++ [x], bytes := t.bytes + bytes }

/-- A transaction has room for a command of a number of bytes (R114). -/
structure Txn.Room (t : Txn) (bytes : Nat) : Prop where
  count : t.staged.length < 4096
  size : t.bytes + bytes ≤ 2097152

theorem joins_eq (b : List Word) (s : State) (r : CmdRef) (n : Nat) (t : Txn) (x : Staged) (c : Chip) :
    joins b s r n t x c = endedWith b r (joinedRes t x (cfg s.chip)) (setTxn n (some (t.add x (txnShare r s))) c) s := rfl

theorem Ctx.stageWith_open {stage : Ctx → List Staged → Chip → Staging} {x : Ctx} {t : Txn} {e : Staged} {c d : Chip} (ht : x.txn c = some t)
    (hr : t.Room (stagedBytes x c)) (hs : stage x t.staged c = .ok (e, d)) :
    x.stageWith stage c = x.done (joinedRes t e (cfg c)) (setTxn x.session (some (t.add e (stagedBytes x c))) d) := by
  have hroom : ¬ (4096 ≤ t.staged.length ∨ 2097152 < t.bytes + stagedBytes x c) := by
    have := hr.count
    have := hr.size
    omega
  simp only [Ctx.stageWith, ht, hs, if_neg hroom]
  rfl

@[simp] theorem cfg_tookIn (n : Nat) (r : CmdRef) (s : State) : cfg (tookIn n r s) = cfg s.chip := by
  unfold tookIn touchSession; split <;> rfl

theorem getSlot_tookIn_same (n : Nat) (r : CmdRef) (s : State) : getSlot (tookIn n r s) (slotKey r.fn r.slot) = { slotAt r s with taken := true } :=
  (getSlot_tookIn n _ r s).trans (getSlot_took r s)

theorem stagedBytes_tookIn (b : List Word) (n : Nat) (r : CmdRef) (s : State) : stagedBytes (ctxWith b r s) (tookIn n r s) = txnShare r s := by
  have hslot : getSlot (tookIn n r s) (ctxWith b r s).k = { slotAt r s with taken := true } := getSlot_tookIn_same n r s
  rw [stagedBytes, hslot]
  rfl

/-- Firmware has taken a command in a session whose open transaction has room for it. -/
structure MayJoin (n : Nat) (b : List Word) (r : CmdRef) (s : State) (t : Txn) : Prop where
  session : (ctxWith b r s).session = n
  opened : (ctxWith b r s).txn (tookIn n r s) = some t
  room : t.Room (txnShare r s)

/-- What a command takes with it into the transaction does not hang on the body under which it is staged. -/
theorem mayJoin_of_takes {op n : Nat} {b : List Word} (m : List Word) {r : CmdRef} {s : State} {ses : Session} {t : Txn} (h : Takes op n b r s)
    (hs : heldSession s.chip r.fn n = some ses) (ht : ses.txn = some t) (hl : t.staged.length < 4096) (hb : t.bytes + txnShare r s ≤ 2097152) :
    MayJoin n m r s t :=
  ⟨(ctxWith_session h : (ctxWith b r s).session = n), (txn_tookIn h hs ht : (ctxWith b r s).txn _ = some t), hl, hb⟩

theorem MayJoin.stageWith {stage : Ctx → List Staged → Chip → Staging} {n : Nat} {b : List Word} {r : CmdRef} {s : State} {t : Txn} {x : Staged}
    {c : Chip} (h : MayJoin n b r s t) (hx : stage (ctxWith b r s) t.staged (tookIn n r s) = .ok (x, c)) :
    (ctxWith b r s).stageWith stage (tookIn n r s) =
      (ctxWith b r s).done (joinedRes t x (cfg s.chip)) (setTxn n (some (t.add x (txnShare r s))) c) := by
  rw [Ctx.stageWith_open h.opened (by rw [stagedBytes_tookIn]; exact h.room) hx, stagedBytes_tookIn, cfg_tookIn, h.session]

/-- A row that stages its command under the check of its fields does what `Stages` says. -/
theorem stages_of_serve {op : Nat} {fields : List Word → Option Nat} {stage : Ctx → List Staged → Chip → Staging}
    {run : CmdRef → State → Host.Outcome State Fault Refusal} (hrun : ∀ r s, run r s = act s (serve op r fields fun x c => x.stageWith stage c)) :
    Stages op fields stage run := by
  intro s r n b ses t x c h hs ht hf hl hb hx
  rw [hrun, joins_eq]
  exact taken_ends h hf ((mayJoin_of_takes b h hs ht hl hb).stageWith hx)

/-! Images (R100, R341). -/

/-- No image is left to be fetched once there are as many words as all of them have. -/
theorem withImages_next_none (wants : List (Nat × Nat)) (n : Nat) (h : (wants.map (fun w => (w.2 + 3) / 4)).sum ≤ n) :
    Ctx.withImages.next (fun n => (n + 3) / 4) wants n = none := by
  induction wants generalizing n with
  | nil => rfl
  | cons w l ih =>
    simp only [List.map_cons, List.sum_cons] at h
    rw [Ctx.withImages.next, if_pos (by omega)]
    exact ih _ (by omega)

theorem withImages_fetched {b : List Word} {n : Nat} {r : CmdRef} {s : State} {wants : List (Nat × Nat)} (run : List Word → Chip → Chip)
    (h : (wants.map (fun w => (w.2 + 3) / 4)).sum ≤ (fetched r s).length) :
    (ctxWith b r s).withImages wants run (tookIn n r s) = run (fetched r s) (tookIn n r s) := by
  have hslot : getSlot (tookIn n r s) (ctxWith b r s).k = { slotAt r s with taken := true } := getSlot_tookIn_same n r s
  have hnext : Ctx.withImages.next (fun n => (n + 3) / 4) wants (fetched r s).length = none := withImages_next_none wants _ h
  unfold Ctx.withImages
  rw [hslot]
  dsimp only
  split
  case h_1 => rfl
  case h_2 w hw => exact nomatch hnext.symm.trans hw

theorem MayJoin.stageImages {stage : Ctx → List Staged → Chip → Staging} {k n : Nat} {b more : List Word} {r : CmdRef} {s : State} {t : Txn}
    {x : Staged} {c : Chip} {wants : List (Nat × Nat)} {make : List Word → Except Res (List Word)} (h : MayJoin n (words k b ++ more) r s t)
    (hpre : { ctxWith b r s with body := words k b }.preStage stage (tookIn n r s) = none)
    (hgot : (wants.map (fun w => (w.2 + 3) / 4)).sum ≤ (fetched r s).length) (hmake : make (fetched r s) = .ok more)
    (hx : stage (ctxWith (words k b ++ more) r s) t.staged (tookIn n r s) = .ok (x, c)) :
    (ctxWith b r s).stageImages k wants make stage (tookIn n r s) =
      (ctxWith (words k b ++ more) r s).done (joinedRes t x (cfg s.chip)) (setTxn n (some (t.add x (txnShare r s))) c) := by
  have hpre' : { ctxWith b r s with body := words k (ctxWith b r s).body }.preStage stage (tookIn n r s) = none := hpre
  rw [Ctx.stageImages, hpre']
  dsimp only
  rw [withImages_fetched _ hgot, hmake]
  exact h.stageWith hx

/-- A row whose own part comes to staging with images does what `StagesImages` says. -/
theorem stagesImages_of_serve {op k : Nat} {fields own : List Word → Option Nat} {wants : List Word → List (Nat × Nat)}
    {make : Ctx → Chip → List Word → Except Res (List Word)} {stage : Ctx → List Staged → Chip → Staging} {part : Ctx → Chip → Chip}
    {run : CmdRef → State → Host.Outcome State Fault Refusal} (hrun : ∀ r s, run r s = act s (serve op r own part))
    (hfields : ∀ b, fields b = none → own b = none)
    (hpart : ∀ x c, fields x.body = none → part x c = x.stageImages k (wants x.body) (make x c) stage c) :
    StagesImages op k fields wants make stage run := by
  intro s r n b more ses t x c h hs ht hf hpre hgot hmake hl hb hx
  rw [hrun, joins_eq]
  refine taken_ends_as h (hfields b hf) ?_
  rw [hpart _ _ hf]
  exact (mayJoin_of_takes _ h hs ht hl hb).stageImages hpre hgot hmake hx

theorem gxLayerSet_stages : StagesImages 0x0701 16 layerFields layerWants (fun _ _ w => .ok w) stageLayer (fun r s => exec (.gxLayerSet r) s) :=
  stagesImages_of_serve (fun _ _ => rfl) (fun _ h => h) fun _ _ _ => rfl

theorem none_of_ite_some {α : Type} {p : Prop} [Decidable p] {v : α} {o : Option α} (h : (if p then some v else o) = none) : ¬ p ∧ o = none := by
  split at h
  · exact nomatch h
  · exact ⟨‹_›, h⟩

theorem gxBeaconSet_stages : StagesImages 0x0704 8 (fun b => if bit (bw b 8) 0 then some 8 else beaconFields b)
    (fun b => [(bcAddr b, beaconBytes (bcW b) (bcH b))]) beaconMake stageBeacon (fun r s => exec (.gxBeaconSet r) s) :=
  stagesImages_of_serve (fun _ _ => rfl) (fun _ h => (none_of_ite_some h).2) fun _ _ h => if_neg (none_of_ite_some h).1

theorem gxProgramLoad_stages : StagesImages 0x0900 5 (fun b => if programBadLength (bw b 16) then some 16 else firstBad [(bd b 8 % 8 != 0, 8)])
    (fun b => [(bd b 8, bw b 16)]) (fun x _ w => programMake (bw x.body 16) w) stageProgram (fun r s => exec (.gxProgramLoad r) s) :=
  stagesImages_of_serve (fun _ _ => rfl) (fun _ h => (none_of_ite_some h).2) fun _ _ h => if_neg (none_of_ite_some h).1

/-- A beacon that is removed has no field out of range. -/
theorem beaconFields_removed {b : List Word} (h : bit (bw b 8) 0 = true) : beaconFields b = none := by
  simp [beaconFields, firstBad, h]

/-- The removal of a beacon needs no image. -/
theorem exec_gxBeaconSet_removes {s : State} {r : CmdRef} {n : Nat} {b : List Word} {ses : Session} {t : Txn} {x : Staged} {c : Chip}
    (h : Takes 0x0704 n b r s) (hs : heldSession s.chip r.fn n = some ses) (ht : ses.txn = some t) (hb : bit (bw b 8) 0 = true)
    (hl : t.staged.length < 4096) (hsz : t.bytes + txnShare r s ≤ 2097152)
    (hx : stageBeacon { ctxWith b r s with body := words 9 b } t.staged (tookIn n r s) = .ok (x, c)) :
    exec (.gxBeaconSet r) s = .next (joins (words 9 b) s r n t x c) := by
  have hpart : beaconSet (ctxWith b r s) (tookIn n r s) = (ctxWith (words 9 b) r s).stageWith stageBeacon (tookIn n r s) := if_pos hb
  rw [joins_eq]
  refine taken_ends_as h (beaconFields_removed hb) ?_
  rw [hpart]
  exact (mayJoin_of_takes _ h hs ht hl hsz).stageWith hx

/-- Settles O36: each row is service of its opcode with its check and its staging, and so does what `Stages` or `StagesImages` says. -/
theorem stagedCommandsJoin : Obligations.StagedCommandsJoin := by
  refine ⟨stages_of_serve fun _ _ => rfl, stages_of_serve fun _ _ => rfl, stages_of_serve fun _ _ => rfl, stages_of_serve fun _ _ => rfl,
    stages_of_serve fun _ _ => rfl, stages_of_serve fun _ _ => rfl, stages_of_serve fun _ _ => rfl, stages_of_serve fun _ _ => rfl,
    stages_of_serve fun _ _ => rfl, stages_of_serve fun _ _ => rfl, stages_of_serve fun _ _ => rfl, stages_of_serve fun _ _ => rfl,
    stages_of_serve fun _ _ => rfl, stages_of_serve fun _ _ => rfl, stages_of_serve fun _ _ => rfl, stages_of_serve fun _ _ => rfl,
    stages_of_serve fun _ _ => rfl, stages_of_serve fun _ _ => rfl, gxLayerSet_stages, stages_of_serve fun _ _ => rfl, gxBeaconSet_stages,
    stages_of_serve fun _ _ => rfl, gxProgramLoad_stages, stages_of_serve fun _ _ => rfl,
    fun s r n b ses t x c h hs ht hb hl hsz hx => exec_gxBeaconSet_removes h hs ht hb hl hsz hx⟩

/-! No open transaction (R110). -/

theorem Ctx.stageWith_closed {stage : Ctx → List Staged → Chip → Staging} {x : Ctx} {c : Chip} (ht : x.txn c = none) (ha : x.autoCommit = false) :
    x.stageWith stage c = x.done (Res.err 0x0104) c := by
  simp [Ctx.stageWith, ht, ha]

theorem Ctx.preStage_closed {stage : Ctx → List Staged → Chip → Staging} {x : Ctx} {c : Chip} (ht : x.txn c = none) (ha : x.autoCommit = false) :
    x.preStage stage c = some (Res.err 0x0104) := by
  simp [Ctx.preStage, ht, ha]

/-- A command with images is refused before any is fetched. -/
theorem Ctx.stageImages_closed {stage : Ctx → List Staged → Chip → Staging} {x : Ctx} {c : Chip} (ht : x.txn c = none) (ha : x.autoCommit = false)
    (k : Nat) (wants : List (Nat × Nat)) (make : List Word → Except Res (List Word)) :
    x.stageImages k wants make stage c = x.done (Res.err 0x0104) c := by
  rw [Ctx.stageImages, Ctx.preStage_closed (x := { x with body := words k x.body }) ht ha]

/-- A result tells the same object under a body that is cut or padded behind its second word. -/
theorem Ctx.done_words {x : Ctx} {k : Nat} (hk : 2 ≤ k) (res : Res) (c : Chip) :
    { x with body := words k x.body }.done res c = x.done res c := by
  have hid : namedId x.op (words k x.body) = namedId x.op x.body := by
    unfold namedId bf
    rw [bw_words (show 0 < 4 * k by omega), bw_words (show 4 < 4 * k by omega)]
  simp only [Ctx.done, Ctx.naming, hid]
  rfl

theorem beaconSet_closed {x : Ctx} {c : Chip} (ht : x.txn c = none) (ha : x.autoCommit = false) :
    beaconSet x c = x.done (Res.err 0x0104) c := by
  by_cases hb : bit (bw x.body 8) 0 = true
  · have hpart : beaconSet x c = { x with body := words 9 x.body }.stageWith stageBeacon c := if_pos hb
    rw [hpart, Ctx.stageWith_closed (x := { x with body := words 9 x.body }) ht ha]
    exact Ctx.done_words (by decide) _ _
  · exact (if_neg hb).trans (Ctx.stageImages_closed ht ha _ _ _)

theorem layerSet_closed {x : Ctx} {c : Chip} (ht : x.txn c = none) (ha : x.autoCommit = false) : layerSet x c = x.done (Res.err 0x0104) c :=
  Ctx.stageImages_closed ht ha _ _ _

theorem programLoad_closed {x : Ctx} {c : Chip} (hl : programBadLength (bw x.body 16) = false) (ht : x.txn c = none) (ha : x.autoCommit = false) :
    programLoad x c = x.done (Res.err 0x0104) c :=
  (if_neg (Bool.eq_false_iff.1 hl)).trans (Ctx.stageImages_closed ht ha _ _ _)

/-- Each transactional command ends with GX_E_NO_TXN where no transaction is open and AUTO_COMMIT is 0 (R110). -/
theorem stagingRows_closed {s : State} {r : CmdRef} {n : Nat} {b : List Word}
    {row : Nat × (List Word → Option Nat) × (CmdRef → State → Host.Outcome State Fault Refusal)} (hrow : row ∈ stagingRows)
    (h : Takes row.1 n b r s) (hb : row.2.1 b = none) (hn : (heldSession s.chip r.fn n).bind (·.txn) = none)
    (ha : (slotAt r s).autoCommit = false) : row.2.2 r s = .next (endedWith b r (Res.err 0x0104) (tookIn n r s) s) := by
  have ht : (ctxWith b r s).txn (tookIn n r s) = none := by rw [Ctx.txn_ctxWith h]; exact no_txn_tookIn hn
  have ha' : (ctxWith b r s).autoCommit = false := ha
  obtain ⟨row', hrow', rfl⟩ | rfl | rfl | rfl : (∃ a ∈ stagedRows, (a.1, a.2.1, a.2.2.2) = row) ∨ row = _ ∨ row = _ ∨ row = _ := by
    simpa only [stagingRows, List.mem_append, List.mem_map, List.mem_cons, List.not_mem_nil, or_false] using hrow
  case inl =>
    dsimp only at h hb ⊢
    rw [stagedRows_serve row' hrow']
    exact taken_ends h hb (Ctx.stageWith_closed ht ha')
  case inr.inl => exact taken_ends h hb (layerSet_closed ht ha')
  case inr.inr.inl => exact taken_ends h hb (beaconSet_closed ht ha')
  case inr.inr.inr =>
    obtain ⟨hl, hb'⟩ := none_of_ite_some hb
    exact taken_ends h hb' (programLoad_closed (Bool.eq_false_iff.2 hl) ht ha')

theorem exec_gxTxnBegin_refused {s : State} {r : CmdRef} {n : Nat} {b : List Word} {ses : Session} (h : Takes 0x0102 n b r s)
    (hs : heldSession s.chip r.fn n = some ses) (ht : ses.txn.isSome = true) :
    exec (.gxTxnBegin r) s = .next (endedWith b r (Res.err 0x0103) (tookIn n r s) s) := by
  refine taken_ends h rfl ?_
  rw [txnBegin, ctxWith_fn h, ctxWith_session h, heldSession_tookIn hs]
  exact if_pos ht

/-- A command that names no session finds none. -/
theorem served_noSession {op : Nat} {r : CmdRef} {s : State} (h : Served op r s) : heldSession (took r s) (ctxAt r s).fn (ctxAt r s).session = none := by
  rw [ctxAt_fn h]
  obtain ⟨-, -, -, -, -, -, -, hses, hheld, -⟩ := h
  rw [show (ctxAt r s).session = 0 from hses]
  exact hheld

theorem exec_gxTxnBegin_noSession {s : State} {r : CmdRef} (h : Served 0x0102 r s) :
    exec (.gxTxnBegin r) s = .next (replied r (Res.err 0x0101) s) := by
  refine serve_ends h rfl ?_
  rw [txnBegin, served_noSession h]

theorem exec_gxTxnCommit_closed {s : State} {r : CmdRef} {n : Nat} {b : List Word} (h : Takes 0x0103 n b r s)
    (hn : (heldSession s.chip r.fn n).bind (·.txn) = none) :
    exec (.gxTxnCommit r) s = .next (endedWith b r (Res.err 0x0104) (tookIn n r s) s) := by
  refine taken_ends h rfl ?_
  rw [txnCommit, Ctx.txn_ctxWith h, no_txn_tookIn hn]

/-- Settles O37: GX_TXN_BEGIN by what its session holds, the transactional commands by `stagingRows_closed`. -/
theorem transactionsOfSessions : Obligations.TransactionsOfSessions :=
  ⟨fun _ _ _ _ _ h hs ht => exec_gxTxnBegin_opens h hs ht, fun _ _ _ _ _ h hs ht => exec_gxTxnBegin_refused h hs ht,
    fun _ _ h => exec_gxTxnBegin_noSession h, fun _ _ _ _ _ hrow h hb hn ha => stagingRows_closed hrow h hb hn ha,
    fun _ _ _ _ h hn => exec_gxTxnCommit_closed h hn⟩
end Sys2Proof.Machine
end

section
/-!
SUPPORT. GX_LEG_BULK_CREATE (R106): how it is under way, and why the obligation about the general commands fails.
-/
namespace Sys2Proof.Machine
open Sys2Proof

/-- A command that firmware has taken in a session or with an extension, and that is under way in steps after its first, without a mark. -/
theorem taken_steps {op k n : Nat} {b : List Word} {r : CmdRef} {s : State} {fields : List Word → Option Nat} {run : Ctx → Chip → Chip}
    {w : List Nat} (h : Takes op k b r s) (hf : fields b = none) (hc : (slotAt r s).cancel = false)
    (hr : run (ctxWith b r s) (tookIn k r s) = progress (slotKey r.fn r.slot) n w (tookIn k r s)) :
    act s (serve op r fields run) = .next (onChip s (progress (slotKey r.fn r.slot) n w (tookIn k r s))) := by
  have hmark : (getSlot (progress (slotKey r.fn r.slot) n w (tookIn k r s)) (slotKey r.fn r.slot)).cancel = false := by
    rw [getSlot_progress, getSlot_tookIn_same]; exact hc
  refine act_onChip ?_
  rw [serve_taken h hf, hr]
  exact if_neg fun a => Bool.eq_false_iff.1 hmark a.2

theorem bulkFields_inRange {b : List Word} (hlo : 1 ≤ bf b 0 0 13) (hhi : bf b 0 0 13 ≤ 4096) (ha : bd b 8 % 8 = 0) : bulkFields b = none := by
  simp [bulkFields, firstBad, outside_false hlo hhi, ha]

/-- Without a session it keeps its count, its result address and the words of its extension, and has prepared no leg. -/
theorem exec_gxLegBulkCreate_begins {s : State} {r : CmdRef} {b : List Word} (h : Takes 0x0305 0 b r s) (hs : heldSession s.chip r.fn 0 = none)
    (hlo : 1 ≤ bf b 0 0 13) (hhi : bf b 0 0 13 ≤ 4096) (ha : bd b 8 % 8 = 0) (hx : 32 * bf b 0 0 13 ≤ (slotAt r s).extension.length)
    (hc : (slotAt r s).cancel = false) :
    exec (.gxLegBulkCreate r) s = .next (onChip s (progress (slotKey r.fn r.slot) 0
      (0 :: bf b 0 0 13 :: bd b 8 :: (slotAt r s).extension.map (·.toNat)) (tookIn 0 r s))) := by
  have hslot : getSlot (tookIn 0 r s) (ctxWith b r s).k = { slotAt r s with taken := true } := getSlot_tookIn_same 0 r s
  have htxn : (ctxWith b r s).txn (tookIn 0 r s) = none := by
    rw [Ctx.txn_ctxWith h]; exact no_txn_tookIn (by rw [hs]; rfl)
  refine taken_steps h (bulkFields_inRange hlo hhi ha) hc ?_
  rw [bulkBegin, hslot, htxn]
  exact if_neg (Nat.not_lt.2 hx)

/-- A bulk command of one leg whose slot body is of 17 bytes, so that its extension, which begins with the word 1, follows in the middle of
a word (R99, R100). -/
def bulkSlot : Slot :=
  { Slot.zero with
    st := .busy
    tag := 7
    opAtCapture := true
    fetch := .got (1 :: List.replicate 31 0)
    words := wordsPut [] 0 [wd (7 * 2 ^ 16), 0x10305, wd (2 ^ 16 * 17), 128, 0, 0, 0, 0, 1] }

/-- A device in service with every domain on, where that command waits in slot 0 of function 0. -/
def bulkWaits : State :=
  { State.reset with chip := putSlot 0 bulkSlot { Chip.reset with
      pwr := { Power.reset with phase := .service, on := 0xFFFFFF }
      host := { HostIf.reset with
        links := [(0, { perst := false, up := true, speed := 5, width := 16, refclk := true })]
        fns := [(0, { Fn.zero with enable := true, ready := true, busMaster := true })] } } }

/-- Its body with its extension. -/
def bulkWords : List Word := bulkSlot.bodyWith (1 :: List.replicate 31 0)

theorem bulkWaits_takes : Takes 0x0305 0 bulkWords ⟨0, 0⟩ bulkWaits :=
  ⟨by decide, by decide, by decide, by decide, by decide, by decide, .inr ⟨by decide, _, rfl, rfl⟩, by decide, .inl rfl, by decide, by decide⟩

/-- The words behind the slot body are not those of the extension: its bytes stand one byte further up. -/
theorem bulkWords_drop : (bulkWords.drop 5).map (·.toNat) ≠ bulkSlot.extension.map (·.toNat) := by decide

/-- Refutes O40: where BODY_BYTES is no multiple of 4, the entries that GX_LEG_BULK_CREATE keeps are the words of its extension, and not the
words behind its slot body, into which the extension's bytes are shifted. -/
theorem not_generalCommands : ¬ Obligations.GeneralCommands := by
  unfold Obligations.GeneralCommands
  rintro ⟨-, -, -, -, -, -, hbulk, -⟩
  obtain ⟨t, ht, -, -, hwork, -⟩ := hbulk bulkWaits ⟨0, 0⟩ bulkWords bulkWaits_takes rfl (by decide) (by decide) (by decide) (by decide) (by decide) rfl
  rw [exec_gxLegBulkCreate_begins bulkWaits_takes rfl (by decide) (by decide) (by decide) (by decide) rfl] at ht
  cases ht
  have hlen : (bodyAt ⟨0, 0⟩ bulkWaits).length = 5 := by decide
  rw [slotAt, onChip_chip, getSlot_progress, hlen] at hwork
  exact bulkWords_drop (congrArg (List.drop 3) hwork).symm
end Sys2Proof.Machine
end

section
/-!
SUPPORT. The memory commands (R510, R511, R520) and the last step of a repair, and the two obligations about them.
-/
namespace Sys2Proof.Machine
open Sys2Proof

/-! Commands that end at once. -/

theorem exec_gxMemErrors_keeps {s : State} {r : CmdRef} (h : Served 0x0B01 r s) (hu : bf (bodyAt r s) 0 0 5 < 24) (ha : bd (bodyAt r s) 8 % 8 = 0)
    (hk : bit (bw (bodyAt r s) 0) 8 = false) :
    exec (.gxMemErrors r) s = .next (ended r (Res.ok [])
      (emit (.hostWrite r.fn (bd (bodyAt r s) 8) (memErrorWords (getSub s.chip (bf (bodyAt r s) 0 0 5)))) (took r s)) s) := by
  have hfields : firstBad [(unaligned8 (bodyAt r s) 8, 8)] = none := by simp [firstBad, unaligned8, ha]
  have hbody : (ctxAt r s).body = bodyAt r s := rfl
  refine serve_ends h hfields ?_
  simp only [memErrors, hbody, ctxAt_fn h, hk, if_neg (Nat.not_le.2 hu), Bool.false_eq_true, if_false]
  rfl

theorem freezeRead_aligned {b : List Word} (h : bd b 0 % 8 = 0) : firstBad [(unaligned8 b 0, 0)] = none := by
  simp [firstBad, unaligned8, h]

theorem exec_gxMemFreezeRead_some {s : State} {r : CmdRef} {f : FreezeRec} (h : Served 0x0B04 r s) (ha : bd (bodyAt r s) 0 % 8 = 0)
    (hf : s.chip.dram.freeze = some f) :
    exec (.gxMemFreezeRead r) s =
      .next (ended r (Res.ok [1]) (emit (.hostWrite r.fn (bd (bodyAt r s) 0) (freezeWords f)) (took r s)) s) := by
  have hf' : (took r s).dram.freeze = some f := hf
  refine serve_ends h (freezeRead_aligned ha) ?_
  rw [hf', ctxAt_fn h]
  rfl

theorem exec_gxMemFreezeRead_none {s : State} {r : CmdRef} (h : Served 0x0B04 r s) (ha : bd (bodyAt r s) 0 % 8 = 0)
    (hf : s.chip.dram.freeze = none) : exec (.gxMemFreezeRead r) s = .next (replied r (Res.ok [0]) s) := by
  have hf' : (took r s).dram.freeze = none := hf
  refine serve_ends h (freezeRead_aligned ha) ?_
  rw [hf']

/-! Commands in steps. -/

/-- A chip that differs from the one that has taken the command in its DRAM alone. -/
def tookDram (f : Dram → Dram) (r : CmdRef) (s : State) : Chip := { took r s with dram := f s.chip.dram }

/-- A command that firmware serves, that changes the DRAM's record and is under way in steps after its first, without a mark. -/
theorem serve_under_way {op n : Nat} {r : CmdRef} {s : State} {run : Ctx → Chip → Chip} {w : List Nat} {f : Dram → Dram} (h : Served op r s)
    (hc : (slotAt r s).cancel = false)
    (hr : run (ctxAt r s) (took r s) = progress (slotKey r.fn r.slot) n w (tookDram f r s)) :
    ∃ t, act s (serve op r noFields run) = .next t ∧ (slotAt r t).st = .progress ∧ (slotAt r t).fraction = n % 4096 ∧ (slotAt r t).work = w ∧
      t.chip.dram = f s.chip.dram ∧ t.mem = s.mem := by
  have hslot : slotAt r (onChip s (progress (slotKey r.fn r.slot) n w (tookDram f r s))) = _ :=
    getSlot_progress (slotKey r.fn r.slot) n w (tookDram f r s)
  refine ⟨_, act_onChip (serve_steps h rfl hc hr rfl), ?_, ?_, ?_, rfl, rfl⟩ <;> rw [hslot]

/-- GX_MEM_PPR on a row that may be repaired (R520). -/
theorem memPpr_begins {x : Ctx} {c : Chip} (hr : pprRange c x.body = true) (hb : c.dram.busy = false)
    (hf : (getSub c (bf x.body 0 0 5)).st ≠ 3)
    (hp : (getSub c (bf x.body 0 0 5)).ppr.contains (bf x.body 0 8 1 * 8 + bf x.body 0 12 3) = false) :
    memPpr x c = progress x.k 2048 [bf x.body 0 0 5, bf x.body 0 8 1, bf x.body 0 12 3, bf x.body 0 16 2, bf x.body 4 0 17]
      { c with dram := { c.dram with busy := true,
                                     pausedBank := some (bf x.body 0 0 5, bf x.body 0 8 1 * 32 + 4 * bf x.body 0 12 3 + bf x.body 0 16 2) } } := by
  simp only [memPpr, hr, hb, hf, hp, Bool.not_true, Bool.false_eq_true, if_false]

/-- A buffer that GX_MEM_TEST takes: of pools P2 to P7 and of the operator's own (R510). -/
structure Testable (c : Chip) (h : Nat) : Prop where
  current : current c h = true
  pool : 2 ≤ handlePool h
  owner : (getBuf c h).owner = identity (operatorFn c) 0
  idle : c.dram.busy = false

theorem memTest_begins {x : Ctx} {c : Chip} (h : Testable c (bw x.body 0))
    (hf : frozenIn c (bufAddr c (bw x.body 0)) (poolBytes (handlePool (bw x.body 0))) = []) :
    memTest x c = progress x.k 0 [bw x.body 0, 0, 0, 2 ^ 64 - 1] { c with dram := { c.dram with busy := true } } := by
  obtain ⟨hcur, hpool, howner, hidle⟩ := h
  simp [memTest, hcur, hpool, howner, hidle, hf]

theorem memTest_frozen {x : Ctx} {c : Chip} (h : Testable c (bw x.body 0))
    (hf : frozenIn c (bufAddr c (bw x.body 0)) (poolBytes (handlePool (bw x.body 0))) ≠ []) :
    memTest x c = x.done (Res.err 0x0B01) c := by
  obtain ⟨hcur, hpool, howner, hidle⟩ := h
  simp [memTest, hcur, hpool, howner, hidle, hf]

/-- Settles O14: the commands that end by what they answer, those in steps by `serve_under_way`. -/
theorem memoryCommands : Obligations.MemoryCommands := by
  refine ⟨fun s r h => serve_ends h rfl rfl, fun s r h hu ha hk => exec_gxMemErrors_keeps h hu ha hk, ?ppr, ?test,
    fun s r f h ha hf => exec_gxMemFreezeRead_some h ha hf, fun s r h ha hf => exec_gxMemFreezeRead_none h ha hf, ?frozen⟩
  case ppr =>
    intro s r h hc hr hb hf hp
    obtain ⟨t, hrun, hst, hfrac, -, hdram, hmem⟩ := serve_under_way (n := 2048) (f := fun d => { d with
      busy := true
      pausedBank := some (bf (bodyAt r s) 0 0 5, bf (bodyAt r s) 0 8 1 * 32 + 4 * bf (bodyAt r s) 0 12 3 + bf (bodyAt r s) 0 16 2) }) h hc
      (memPpr_begins (x := ctxAt r s) (c := took r s) hr hb hf hp)
    exact ⟨t, hrun, hst, hfrac, by rw [hdram], by rw [hdram], hmem⟩
  case test =>
    intro s r h hc hcur hpool howner hidle hf
    obtain ⟨t, hrun, hst, -, hwork, hdram, hmem⟩ := serve_under_way (n := 0) (f := fun d => { d with busy := true }) h hc
      (memTest_begins (x := ctxAt r s) (c := took r s) ⟨hcur, hpool, howner, hidle⟩ hf)
    exact ⟨t, hrun, hst, hwork, by rw [hdram], hmem⟩
  case frozen =>
    intro s r h hcur hpool howner hidle hf
    exact serve_ends h rfl (memTest_frozen (x := ctxAt r s) (c := took r s) ⟨hcur, hpool, howner, hidle⟩ hf)

/-! The last step of a repair (R520, R521). -/

@[simp] theorem getSub_modSub_same (u : Nat) (f : Sub → Sub) (c : Chip) : getSub (modSub u f c) u = f (getSub c u) := by
  simp [getSub, modSub]

/-- The chip once a row is repaired: the repair is recorded, it has taken one of its bank group, and the bank goes on. -/
def repaired (u rank bg bank row : Nat) (c : Chip) : Chip :=
  modSub u (fun x => { x with ppr := x.ppr ++ [rank * 8 + bg] })
    { c with dram := { c.dram with busy := false, pausedBank := none, repairMap := c.dram.repairMap ++ [(u, rank, bg, bank, row)] } }

/-- The step ends its command OK, and raises MEM_REPAIRED beside the repair. -/
theorem memPprStep_repairs (k : Nat) {u rank bg bank row : Nat} {c : Chip} (h : (getSub c u).st ≠ 3) : ∃ res d,
    memPprStep k [u, rank, bg, bank, row] c = finish k res d ∧ res.status = 0 ∧ d.dram = (repaired u rank bg bank row c).dram ∧
      (∃ e ∈ d.mgmt.incoming, e.code = 0xB07) ∧ d.host = c.host :=
  ⟨_, _, if_neg h, rfl, rfl, ⟨_, List.mem_append_right _ List.mem_cons_self, rfl⟩, rfl⟩

theorem powerMark_of_not_progress {k : Nat} {c : Chip} (h : (getSlot c k).st ≠ .progress) : powerMark k c = c := if_neg fun a => h a.1

/-- When it is its turn, a step that ends its command is all that happens. -/
theorem commandStep_ends {k : Nat} {c d : Chip} {m : Mem} {res : Res} (hup : firmwareUp c = true) (hr : (getFn c (k / 64)).ready = true)
    (hst : (getSlot c k).st = .progress) (hfetch : (getSlot c k).fetch = .idle) (hline : firstInLine c k (getSlot c k).turn = true)
    (hmark : (getSlot c k).cancel = false) (hop : (getSlot c k).op ≠ 0x0B03) (ho : (getSlot d k).open_ = true)
    (hstep : slotStep k (getSlot c k) c = finish k res d) : commandStep k c m = (finish k res d, []) := by
  have hdone : (getSlot (finish k res d) k).st ≠ .progress := by rw [getSlot_finish_same k res d ho]; exact fun h => nomatch h
  have hfinal : finalMarked (getSlot c k) = false := by simp [finalMarked, hmark]
  simp [commandStep, hup, hr, hst, hfetch, hline, hop, hfinal, hstep, powerMark_of_not_progress hdone]

/-- Settles O27: the step is `memPprStep`, which repairs the row and ends the command. -/
theorem repairCompletes : Obligations.RepairCompletes := by
  intro s r u rank bg bank row hup hready hslot hst hop hfetch hmark hline hwork hsub
  have hfn : slotKey r.fn r.slot / 64 = r.fn := by unfold slotKey; omega
  obtain ⟨res, d, hpart, hok, hdram, hevent, hhost⟩ := memPprStep_repairs (slotKey r.fn r.slot) (rank := rank) (bg := bg) (bank := bank) (row := row) hsub
  have hslotOf : getSlot d (slotKey r.fn r.slot) = slotAt r s := congrArg (fun x : HostIf => tget Slot.zero x.slots _) hhost
  have hopen : (getSlot d (slotKey r.fn r.slot)).open_ = true := by rw [hslotOf, Slot.open_, hst]; rfl
  have hstep : slotStep (slotKey r.fn r.slot) (slotAt r s) s.chip = finish (slotKey r.fn r.slot) res d := by
    rw [slotStep, hop, hwork]; exact hpart
  have hrun : commandStep (slotKey r.fn r.slot) s.chip s.mem = (finish (slotKey r.fn r.slot) res d, []) :=
    commandStep_ends hup (by rw [hfn]; exact hready) hst hfetch hline hmark (by rw [← slotAt, hop]; decide) hopen hstep
  have hended : slotAt r (onChip s (finish (slotKey r.fn r.slot) res d)) = _ := getSlot_finish_same _ res d hopen
  have hleft : (finish (slotKey r.fn r.slot) res d).dram = (repaired u rank bg bank row s.chip).dram := (finish_dram ..).trans hdram
  have hppr : getSub (finish (slotKey r.fn r.slot) res d) u = getSub (repaired u rank bg bank row s.chip) u :=
    congrArg (fun x : Dram => tget Sub.zero x.subs u) hleft
  refine ⟨_, actMem_onChip hrun, by rw [hended], by rw [hended, hok], ?_, ?_, ?_, ?_, ?_, rfl⟩ <;> rw [onChip_chip]
  · rw [hleft]; rfl
  · rw [hppr, repaired, getSub_modSub_same]; rfl
  · rw [hleft]; rfl
  · rw [hleft]; rfl
  · rw [finish_mgmt]; exact hevent
end Sys2Proof.Machine
end

section
/-!
SUPPORT. Media ports (R132 to R140): what the shared updates leave of the table of logical ports, and the obligation about bring-up.
-/
namespace Sys2Proof.Machine
open Sys2Proof

@[simp] theorem onChip_mem (s : State) (c : Chip) : (onChip s c).mem = s.mem := rfl

/-! The table of logical ports. -/

/-- What a logical port becomes depends on what it holds alone. -/
theorem modLport_congr {lp : Nat} {f g : LPort → LPort} {c : Chip} (h : f (getLport c lp) = g (getLport c lp)) : modLport lp f c = modLport lp g c :=
  congrArg (fun x => { c with net := { c.net with lports := tput c.net.lports lp x } }) h

@[simp] theorem getLport_modLport_same (lp : Nat) (f : LPort → LPort) (c : Chip) : getLport (modLport lp f c) lp = f (getLport c lp) := by
  simp [getLport, modLport]

theorem getLport_modLport_other {lp j : Nat} (f : LPort → LPort) (c : Chip) (h : lp ≠ j) : getLport (modLport lp f c) j = getLport c j :=
  tget_tmod_other _ _ _ _ h

theorem getLport_congr {c d : Chip} (h : d.net = c.net) (lp : Nat) : getLport d lp = getLport c lp :=
  congrArg (fun n : Net4 => tget LPort.zero n.lports lp) h

@[simp] theorem getLport_raise (i k : Nat) (fn : Option Nat) (o d lp : Nat) (c : Chip) : getLport (raise i k fn o d c) lp = getLport c lp := rfl

@[simp] theorem getLport_waitLocal (n lp : Nat) (c : Chip) : getLport (waitLocal n c) lp = getLport c lp := rfl

/-- The logical ports of the media ports are not the twin link (R550). -/
theorem ne_twinLport {lp : Nat} (h : lp < 8) : lp ≠ twinLport := Nat.ne_of_lt h

/-! Events. -/

/-- An event joins those on their way to the collector (R20, R610). -/
theorem raise_incoming (i k : Nat) (fn : Option Nat) (o d : Nat) (c : Chip) :
    ∃ e, (raise i k fn o d c).mgmt.incoming = c.mgmt.incoming ++ [e] ∧ e.code = k ∧ e.object = o % 2 ^ 32 :=
  ⟨_, rfl, rfl, rfl⟩

/-- The same for an event of a logical port of a media port. -/
theorem raise_incoming_lport (i k : Nat) (fn : Option Nat) (d : Nat) (c : Chip) {lp : Nat} (h : lp < 8) :
    ∃ e, (raise i k fn lp d c).mgmt.incoming = c.mgmt.incoming ++ [e] ∧ e.code = k ∧ e.object = lp := by
  have hraised := raise_incoming i k fn lp d c
  rwa [Nat.mod_eq_of_lt (by omega)] at hraised

theorem raisePortLink_eq {lp : Nat} (h : lp < 8) (c : Chip) :
    raisePortLink lp c = raise (portIsland lp) 0x201 none lp (b2n (getLport c lp).linkUp + 2 * (getLport c lp).st.code) c :=
  if_neg (ne_twinLport h)

/-! Bring-up (R137). -/

theorem linkUp_of_st {p : LPort} {b : Bool} (h : p.st = if b then .upFallback else .up) : p.linkUp = true := by
  cases b <;> simp [LPort.linkUp, h]

/-- A port whose training has failed: it waits, or goes on with FEC alignment on its fallback preset. -/
def LPort.trainFailed (p : LPort) (fallback lanes now : Nat) : LPort :=
  if fallback = 0 then
    { p with trainFails := min (p.trainFails + 1) 0xFFFF, failLanes := lanes, st := .waiting, deadline := now + retryWaitNs p.retries,
             retries := p.retries + 1 }
  else
    { p with trainFails := min (p.trainFails + 1) 0xFFFF, failLanes := lanes, aligning := true, onFallback := true, deadline := now + 10000000 }

/-- Training that has not converged in its time fails. -/
theorem trainingTimeout_fails {lp : Nat} {lanes : BitVec 4} {c : Chip} (hst : (getLport c lp).st = .training)
    (ha : (getLport c lp).aligning = false) :
    trainingTimeout lp lanes c =
      raise (portIsland lp) 0x202 none lp (lanes.toNat + 2 ^ 16 * min ((getLport c lp).trainFails + 1) 0xFFFF)
        (modLport lp (fun p => p.trainFailed (lpFallback c lp) lanes.toNat (localNs (waitLocal p.deadline c)))
          (waitLocal (getLport c lp).deadline c)) := by
  have hrun : ¬ ¬ ((getLport c lp).st = .training ∧ ¬ (getLport c lp).aligning = true) := by simp [hst, ha]
  refine (if_neg hrun).trans (congrArg _ (modLport_congr ?_))
  simp only [LPort.trainFailed, getLport_waitLocal, ne_eq, ite_not]

/-- A restart of a logical port that may run. -/
theorem getLport_restartLport_enabled {lp : Nat} {c : Chip} (he : lpEnabled c lp = true) (hd : domOn c (portIsland lp) = true) :
    getLport (restartLport lp c) lp = bringUp (lpMedia c lp) (localNs c) (getLport c lp) := by
  rw [restartLport, getLport_modLport_same, he, hd]
  rfl

/-! FEC watch (R138). -/

/-- The counts of one second join those of the port. -/
def LPort.counting (p : LPort) (corrected uncorrectable corrSymbols : Nat) : LPort :=
  { p with corrCw := min (p.corrCw + corrected) ctrMax, uncorrCw := min (p.uncorrCw + uncorrectable) ctrMax,
           corrSym := min (p.corrSym + corrSymbols) ctrMax }

/-- A second above the limit on a port that is not degraded yet. -/
theorem fecWindow_degrades {lp co un cs n : Nat} {c : Chip} (hup : (getLport c lp).linkUp = true) (hbad : 24 * n < cs * 100000)
    (hd : (getLport c lp).fecDegraded = false) :
    fecWindow lp co un cs n c = raise (portIsland lp) 0x203 none lp cs
      (modLport lp (fun p => { p.counting co un cs with fecDegraded := true, fecGoodS := 0 }) c) := by
  simp only [fecWindow, hup, hbad, hd, not_true_eq_false, if_true, if_false, Bool.false_eq_true]
  exact congrArg _ (modLport_congr rfl)

/-- A second below the re-arm value: the tenth one in a row clears the mark. -/
theorem fecWindow_good {lp co un cs n : Nat} {c : Chip} (hup : (getLport c lp).linkUp = true) (hgood : cs * 100000 < 10 * n) :
    fecWindow lp co un cs n c = modLport lp (fun p => { p.counting co un cs with
      fecGoodS := p.fecGoodS + 1, fecDegraded := p.fecDegraded && decide (p.fecGoodS + 1 < 10) }) c := by
  have hnot : ¬ 24 * n < cs * 100000 := by omega
  simp only [fecWindow, hup, hnot, hgood, not_true_eq_false, if_true, if_false]
  exact modLport_congr rfl

/-- Settles O8: each row finds the port in the step that it ends and moves it on to the next. -/
theorem portBringUp : Obligations.PortBringUp := by
  unfold Obligations.PortBringUp
  refine ⟨fun s lp hst => act_onChip (if_pos hst), fun s lp hst ha => act_onChip (if_pos ⟨hst, by simp [ha]⟩), ?lock, ?fail, ?fallback, ?retry,
    ?degraded, ?clear⟩
  case lock =>
    intro s lp hst ha hlp
    have hport := getLport_modLport_same lp (fun p => { p with
      st := if p.onFallback then .upFallback else .up, aligning := false, retries := 0, localFault := false, remoteFault := false }) s.chip
    refine ⟨_, act_onChip ((if_pos ⟨hst, ha⟩).trans (raisePortLink_eq hlp _)), ?_, ?_, ?_, raise_incoming_lport _ _ _ _ _ hlp, rfl, rfl⟩ <;>
      rw [onChip_chip, getLport_raise, hport]
    exact linkUp_of_st rfl
  case fail =>
    intro s lp lanes hst ha hlp hf
    refine ⟨_, act_onChip (trainingTimeout_fails hst ha), ?_, ?_, ?_, ?_, le_localNs_waitLocal _ _, raise_incoming_lport _ _ _ _ _ hlp, rfl⟩ <;>
      rw [onChip_chip, getLport_raise, getLport_modLport_same, getLport_waitLocal, LPort.trainFailed, if_pos hf]
    rfl
  case fallback =>
    intro s lp lanes hst ha hf
    refine ⟨_, act_onChip (trainingTimeout_fails hst ha), ?_, ?_, ?_, rfl⟩ <;>
      rw [onChip_chip, getLport_raise, getLport_modLport_same, LPort.trainFailed, if_neg hf]
    exact hst
  case retry =>
    intro s lp hst he hd hm
    have hport : getLport (restartLport lp (waitLocal (getLport s.chip lp).deadline s.chip)) lp = _ := getLport_restartLport_enabled he hd
    have hmedia : lpMedia (waitLocal (getLport s.chip lp).deadline s.chip) lp = 0 := hm
    refine ⟨_, act_onChip (if_pos hst), ?_, ?_, le_localNs_waitLocal _ _, rfl⟩ <;> rw [onChip_chip, hport, hmedia] <;> rfl
  case degraded =>
    intro s lp co un cs n hup hbad hd
    refine ⟨_, act_onChip (fecWindow_degrades hup hbad hd), ?_, ?_, raise_incoming _ _ _ _ _ _, rfl⟩ <;>
      rw [onChip_chip, getLport_raise, getLport_modLport_same]
    rfl
  case clear =>
    intro s lp co un cs n hup hgood hn
    have hten : ¬ (getLport s.chip lp).fecGoodS + 1 < 10 := by omega
    refine ⟨_, act_onChip (fecWindow_good hup hgood), ?_, rfl, rfl⟩
    rw [onChip_chip, getLport_modLport_same, decide_eq_false hten, Bool.and_false]
end Sys2Proof.Machine
end

section
/-!
SUPPORT. Links that go down (R139, R249, R638): what is left of the logical port, of the others and of the events, and the obligation about
port clocks and the commands of the ports.
-/
namespace Sys2Proof.Machine
open Sys2Proof

/-! Packets dropped for a link. -/

/-- From `c` to `d` the ports and tables of ingress have not moved, and no event is lost. -/
structure PortsKept (c d : Chip) : Prop where
  net : d.net = c.net
  log : c.mgmt.incoming <+: d.mgmt.incoming

theorem PortsKept.trans {a b c : Chip} (x : PortsKept a b) (y : PortsKept b c) : PortsKept a c := ⟨y.net.trans x.net, x.log.trans y.log⟩

theorem Books.portsKept {c d : Chip} (h : Books c d) : PortsKept c d := ⟨h.net, h.log⟩

theorem PortsKept.refl (c : Chip) : PortsKept c c := (Books.refl c).portsKept

theorem PortsKept.of_flushLeg (lp l pos : Nat) (c : Chip) : PortsKept c (flushLeg lp l pos c) :=
  have emptied : PortsKept c (modLeg l (fun r => { r with q0 := [], q1 := [], q2 := [], q3 := [], tag := none }) c) :=
    ⟨rfl, (Books.refl c).log⟩
  emptied.trans ((((Books.of_dropPkts _ _).trans (Books.of_bump _ _ _ _ _)).trans (Books.of_bump _ _ _ _ _)).portsKept)

theorem PortsKept.of_flushPort (lp : Nat) (c : Chip) : PortsKept c (flushPort lp c) :=
  List.foldlRecOn (motive := PortsKept c) _ _ (.refl c) fun d h l _ => h.trans (of_flushLeg lp l 4 d)

theorem PortsKept.of_raisePortLink (lp : Nat) (c : Chip) : PortsKept c (raisePortLink lp c) := by
  unfold raisePortLink
  dsimp only
  split
  · exact .refl c
  · exact (Books.of_raise ..).portsKept

/-! A link that goes down. -/

/-- No link is up at the port, whose counts of links lost, faults and clock are as they were. -/
structure LPort.Restarted (p q : LPort) : Prop where
  linkUp : q.linkUp = false
  linkDowns : q.linkDowns = p.linkDowns
  localFault : q.localFault = p.localFault
  remoteFault : q.remoteFault = p.remoteFault
  clockLost : q.clockLost = p.clockLost

theorem LPort.restarted_bringUp (p : LPort) (media now : Nat) : p.Restarted (bringUp media now p) := by
  unfold bringUp
  split
  · exact ⟨rfl, rfl, rfl, rfl, rfl⟩
  · split <;> exact ⟨rfl, rfl, rfl, rfl, rfl⟩

theorem restarted_restartLport (lp : Nat) (c : Chip) : (getLport c lp).Restarted (getLport (restartLport lp c) lp) := by
  rw [restartLport, getLport_modLport_same]
  split
  · exact LPort.restarted_bringUp _ _ _
  · exact ⟨rfl, rfl, rfl, rfl, rfl⟩

/-- A link that is up goes down, and is counted. -/
theorem linkDown_up {lp : Nat} {c : Chip} (h : (getLport c lp).linkUp = true) :
    linkDown lp c = flushPort lp (raisePortLink lp (restartLport lp
      (modLport lp (fun p => { p with linkDowns := min (p.linkDowns + 1) ctrMax }) c))) := if_pos h

/-- What is left of a port whose link was up. -/
theorem restarted_linkDown_up {lp : Nat} {c : Chip} (h : (getLport c lp).linkUp = true) :
    LPort.Restarted { getLport c lp with linkDowns := min ((getLport c lp).linkDowns + 1) ctrMax } (getLport (linkDown lp c) lp) := by
  rw [linkDown_up h, getLport_congr ((PortsKept.of_raisePortLink ..).trans (.of_flushPort ..)).net]
  have counted := restarted_restartLport lp (modLport lp (fun p => { p with linkDowns := min (p.linkDowns + 1) ctrMax }) c)
  rwa [getLport_modLport_same] at counted

/-- Whether it was up or not, no link is up afterwards, and its clock is as it was. -/
theorem linkDown_down (lp : Nat) (c : Chip) :
    (getLport (linkDown lp c) lp).clockLost = (getLport c lp).clockLost ∧ (getLport (linkDown lp c) lp).linkUp = false := by
  by_cases h : (getLport c lp).linkUp = true
  · exact ⟨(restarted_linkDown_up h).clockLost, (restarted_linkDown_up h).linkUp⟩
  · rw [linkDown, if_neg h]
    exact ⟨(restarted_restartLport lp c).clockLost, (restarted_restartLport lp c).linkUp⟩

/-- The other ports stay as they are. -/
theorem getLport_linkDown_other {lp j : Nat} (c : Chip) (h : lp ≠ j) : getLport (linkDown lp c) j = getLport c j := by
  unfold linkDown
  split
  · rw [getLport_congr ((PortsKept.of_raisePortLink ..).trans (.of_flushPort ..)).net, restartLport, getLport_modLport_other _ _ h,
      getLport_modLport_other _ _ h]
  · exact getLport_modLport_other _ _ h

theorem linkDown_ports (lp : Nat) (c : Chip) : (linkDown lp c).net.ports = c.net.ports := by
  unfold linkDown
  split
  · rw [((PortsKept.of_raisePortLink ..).trans (.of_flushPort ..)).net]
    rfl
  · rfl

/-- It raises PORT_LINK. -/
theorem linkDown_raises {lp : Nat} {c : Chip} (h : (getLport c lp).linkUp = true) (hlp : lp < 8) :
    ∃ e ∈ (linkDown lp c).mgmt.incoming, e.code = 0x201 ∧ e.object = lp := by
  rw [linkDown_up h, raisePortLink_eq hlp]
  generalize restartLport lp _ = d
  obtain ⟨e, hlog, hcode, hobj⟩ := raise_incoming_lport (portIsland lp) 0x201 none (b2n (getLport d lp).linkUp + 2 * (getLport d lp).st.code) d hlp
  exact ⟨e, (PortsKept.of_flushPort lp _).log.subset (hlog ▸ List.mem_append_right _ List.mem_cons_self), hcode, hobj⟩

/-! A run over logical ports. -/

/-- Steps that each bring their own port to a property and leave the other ports alone bring every port of a list to it. -/
theorem foldl_lports {P : LPort → Prop} {f : Chip → Nat → Chip} (own : ∀ c lp, P (getLport (f c lp) lp))
    (other : ∀ c lp j, lp ≠ j → getLport (f c lp) j = getLport c j) (l : List Nat) (c : Chip) (j : Nat) (h : P (getLport c j) ∨ j ∈ l) :
    P (getLport (l.foldl f c) j) := by
  induction l generalizing c with
  | nil => simpa using h
  | cons x l ih =>
    refine ih (f c x) ?_
    by_cases hx : x = j
    · exact .inl (hx ▸ own c x)
    · rw [other c x j hx]
      exact h.imp_right fun hj => (List.mem_cons.1 hj).resolve_left (Ne.symm hx)

/-- A port loses its reference clock (R638). -/
def clockOff (c : Chip) (lp : Nat) : Chip := linkDown lp (modLport lp (fun p => { p with clockLost := true }) c)

/-- The reference clock of a port is back. -/
def clockOn (c : Chip) (lp : Nat) : Chip :=
  if (getLport c lp).clockLost then restartLport lp (modLport lp (fun p => { p with clockLost := false }) c) else c

theorem clockOff_own (c : Chip) (lp : Nat) : (getLport (clockOff c lp) lp).clockLost = true ∧ (getLport (clockOff c lp) lp).linkUp = false := by
  have h := linkDown_down lp (modLport lp (fun p => { p with clockLost := true }) c)
  rwa [getLport_modLport_same] at h

theorem clockOff_other (c : Chip) (lp j : Nat) (h : lp ≠ j) : getLport (clockOff c lp) j = getLport c j :=
  (getLport_linkDown_other _ h).trans (getLport_modLport_other _ _ h)

theorem clockOn_own (c : Chip) (lp : Nat) : (getLport (clockOn c lp) lp).clockLost = false := by
  unfold clockOn
  split
  · have h := (restarted_restartLport lp (modLport lp (fun p => { p with clockLost := false }) c)).clockLost
    rwa [getLport_modLport_same] at h
  · next h => exact Bool.eq_false_iff.2 h

theorem clockOn_other (c : Chip) (lp j : Nat) (h : lp ≠ j) : getLport (clockOn c lp) j = getLport c j := by
  unfold clockOn
  split
  · exact (getLport_modLport_other _ _ h).trans (getLport_modLport_other _ _ h)
  · rfl

theorem clockOn_host (c : Chip) (lp : Nat) : (clockOn c lp).host = c.host := by
  unfold clockOn
  split <;> rfl

theorem clockOff_all {l : List Nat} {lp : Nat} {c : Chip} (h : lp ∈ l) :
    (getLport (l.foldl clockOff c) lp).clockLost = true ∧ (getLport (l.foldl clockOff c) lp).linkUp = false :=
  foldl_lports (P := fun p => p.clockLost = true ∧ p.linkUp = false) clockOff_own clockOff_other l c lp (.inr h)

theorem clockOn_all {l : List Nat} {lp : Nat} {c : Chip} (h : lp ∈ l) : (getLport (l.foldl clockOn c) lp).clockLost = false :=
  foldl_lports (P := fun p => p.clockLost = false) clockOn_own clockOn_other l c lp (.inr h)

theorem exec_netRefclkLoss (s : State) {m : Nat} (h : m < 2) :
    exec (.netRefclkLoss m) s = .next (onChip s ((portLports m).foldl clockOff s.chip)) := by
  show act s (fun c => if m < 2 then (portLports m).foldl clockOff c else c) = _
  exact act_onChip (if_pos h)

theorem exec_netRefclkReturn (s : State) {m : Nat} (h : m < 2) :
    exec (.netRefclkReturn m) s = .next (onChip s ((portLports m).foldl clockOn s.chip)) := by
  show act s (fun c => if m < 2 then (portLports m).foldl clockOn c else c) = _
  exact act_onChip (if_pos h)

/-! GX_PORT_CONFIG (R134). -/

/-- The settings of a media port that the command gives. -/
def portCfgOf (b : List Word) : PortCfg :=
  { split := bf b 0 1 2, media := bf b 0 3 2, tsCorr := bit (bw b 0) 5, mtu := bf b 4 0 14, fallback := bf b 8 0 4, stunRate := bf b 12 0 21 }

theorem configLport_ports (m : Nat) (b : List Word) (resplit : Bool) (c : Chip) (k : Nat) :
    (configLport m b resplit k c).net.ports = c.net.ports := by
  unfold configLport
  dsimp only
  split
  · split
    · exact linkDown_ports _ _
    · rfl
  · split
    · split
      · exact linkDown_ports _ _
      · rfl
    · rfl

/-- While no leg uses a logical port of the media port, the command takes effect. -/
theorem portConfig_unused {x : Ctx} {c : Chip} (h : ∀ k < 4, (cfg c).usesLport (4 * bf x.body 0 0 1 + k) = false) :
    ∃ d, portConfig x c = x.done (Res.ok []) d ∧ getPort d (bf x.body 0 0 1) = portCfgOf x.body := by
  have hany : ∀ p : Nat → Bool, ¬ (List.range 4).any (fun k => p k && (cfg c).usesLport (4 * bf x.body 0 0 1 + k)) = true := fun p =>
    Bool.eq_false_iff.1 (List.any_eq_false.2 fun k hk => by simp [h k (List.mem_range.1 hk)])
  refine ⟨_, if_neg ?_, ?_⟩
  · rintro (⟨-, hused⟩ | hused)
    · exact hany (fun _ => true) hused
    · exact hany _ hused
  · rw [getPort, foldl_keeps (g := fun d : Chip => d.net.ports) (configLport_ports _ _ _)]
    exact tget_tput_same _ _ _ _

/-- Settles O9: a fault and a lost clock by what is left of a link that goes down, GX_PORT_CONFIG by what is left of the settings. -/
theorem portClockAndCommands : Obligations.PortClockAndCommands := by
  unfold Obligations.PortClockAndCommands
  refine ⟨?fault, ?loss, ?back, ?config, fun s r h => serve_ends h rfl rfl⟩
  case fault =>
    intro s lp lf rf hup hlp
    have hup' : (getLport (modLport lp (fun p => { p with localFault := lf, remoteFault := rf }) s.chip) lp).linkUp = true := by
      rw [getLport_modLport_same]; exact hup
    obtain ⟨hdown, hcount, hlocal, hremote, -⟩ := restarted_linkDown_up hup'
    rw [getLport_modLport_same] at hcount hlocal hremote
    exact ⟨_, act_onChip (if_pos ⟨hup, ne_twinLport hlp⟩), hdown, hcount, hlocal, hremote, linkDown_raises hup' hlp, onChip_mem _ _⟩
  case loss =>
    refine fun s m hm => ⟨_, exec_netRefclkLoss s hm, fun lp hlp => ?_, onChip_mem _ _⟩
    rw [onChip_chip]
    exact clockOff_all hlp
  case back =>
    refine fun s m hm => ⟨_, exec_netRefclkReturn s hm, fun lp hlp => ?_, onChip_mem _ _, ?_⟩ <;> rw [onChip_chip]
    · exact clockOn_all hlp
    · exact foldl_keeps (g := Chip.host) clockOn_host _ _
  case config =>
    intro s r h hf hused
    obtain ⟨d, hrun, hport⟩ := portConfig_unused (x := ctxAt r s) (c := took r s) hused
    exact ⟨d, serve_ends h hf hrun, hport⟩
end Sys2Proof.Machine
end

section
/-!
SUPPORT. Ingress (R135 to R165): what the MAC does with a frame by its verdict and what the parser takes from a FIFO, and the obligation
about them.
-/
namespace Sys2Proof.Machine
open Sys2Proof

/-! The MAC and steering (R135, R136, R144, R145). -/

/-- The port has counted a frame that its MAC accepts. -/
def accepted (lp : Nat) (c : Chip) : Chip := modLport lp (fun q => { q with framesRx := min (q.framesRx + 1) ctrMax }) c

theorem macReceive_refused {lp : Nat} {f : Frame} {c : Chip} (hup : lportUp c lp = true) (hd : macDrops c lp f = true) :
    macReceive lp f c = countPort lp 2 (modLport lp (fun q => { q with framesDropped := min (q.framesDropped + 1) ctrMax }) c) := by
  simp [macReceive, hup, hd]

/-- An accepted frame goes where its steering says, which the count of the port leaves alone. -/
theorem macReceive_accepted {lp : Nat} {f : Frame} {c : Chip} (hup : lportUp c lp = true) (hd : macDrops c lp f = false)
    (hh : handedOver c lp f = none) :
    macReceive lp f c = (steer c (cfg c) lp f).elim (countPort lp 1 (accepted lp c)) (fun e => fifoPut e.1 (stamped c lp e.2 f) (accepted lp c)) := by
  have hh' : handedOver (accepted lp c) lp f = none := hh
  rw [accepted] at hh'
  simp only [macReceive, hup, hd, hh', Bool.not_true, Bool.false_eq_true, if_false]
  cases steer c (cfg c) lp f <;> rfl

theorem macReceive_steered {lp p a : Nat} {f : Frame} {c : Chip} (hup : lportUp c lp = true) (hd : macDrops c lp f = false)
    (hh : handedOver c lp f = none) (hs : steer c (cfg c) lp f = some (p, a)) :
    macReceive lp f c = fifoPut p (stamped c lp a f) (accepted lp c) := by
  rw [macReceive_accepted hup hd hh, hs, Option.elim_some]

theorem macReceive_unmatched {lp : Nat} {f : Frame} {c : Chip} (hup : lportUp c lp = true) (hd : macDrops c lp f = false)
    (hh : handedOver c lp f = none) (hs : steer c (cfg c) lp f = none) : macReceive lp f c = countPort lp 1 (accepted lp c) := by
  rw [macReceive_accepted hup hd hh, hs, Option.elim_none]

/-! The parser (R145, R165, R189). -/

/-- The pipeline may take a frame from its FIFO: neither its replication queue nor its miss queue is full. -/
structure MayParse (c : Chip) (p : Nat) : Prop where
  repl : (getPipe c p).repl.length < 4096
  entry : (getPipe c p).entry = []
  miss : (missq c p).length < 512

/-- The chip once a pipeline has taken the front of its FIFO. -/
def fifoLeft (p : Nat) (rest : List FifoFrame) (c : Chip) : Chip := modPipe p (fun q => { q with fifo := rest }) c

theorem packetParse_takes {p head : Nat} {sb : Bool} {bad : List Nat} {f : FifoFrame} {rest : List FifoFrame} {c : Chip}
    (hq : (getPipe c p).fifo = f :: rest) (h : MayParse c p) :
    packetParse p false sb bad head c =
      if f.poison then countIng p 11 (fifoLeft p rest c) else parseFrame (cfg c) p head bad f true sb (fifoLeft p rest c) := by
  obtain ⟨hrepl, hentry, hmiss⟩ := h
  have hroom : ¬ (4096 ≤ (getPipe c p).repl.length ∨ (getPipe c p).entry ≠ []) := by
    rintro (hfull | hwait)
    · omega
    · exact hwait hentry
  simp only [packetParse, hq, if_neg hroom, if_neg (Nat.not_le.2 hmiss), Bool.false_or]
  rfl

/-- An ARP request for an active address is answered by its port. -/
theorem parseFrame_arp {g : Cfg} {p head ip : Nat} {bad : List Nat} {f : FifoFrame} {fresh sb : Bool} {c : Chip} (hn : f.frame.net = .arp ip)
    (ha : (addrByIp c g f.lport ip f.frame.vlans).isSome = true) :
    parseFrame g p head bad f fresh sb c = sendOwn f.lport (.announce ip false) 64 c := by
  simp only [parseFrame, otherIn, hn, ha, if_true]

/-- A port that is up sends the frame at once, outside the leg hierarchy, and counts it. -/
theorem sendOwn_up {lp n : Nat} {b : EgBody} {c : Chip} (h : lportUp c lp = true) :
    sendOwn lp b n c = emit (.frame lp 0 (EgPkt.plain b n c.gx.current)) (countTx lp c) := if_pos h

@[simp] theorem getPipe_modPipe_same (p : Nat) (f : Pipe → Pipe) (c : Chip) : getPipe (modPipe p f c) p = f (getPipe c p) := by
  simp [getPipe, modPipe, modNet]

/-- Settles O41: the MAC by its verdict and by the room in the FIFO, the parser by what it takes from the FIFO. -/
theorem framesAreTakenIn : Obligations.FramesAreTakenIn := by
  unfold Obligations.FramesAreTakenIn
  refine ⟨?room, ?full, fun s lp f hup hd => act_onChip (macReceive_refused hup hd),
    fun s lp f hup hd hh hs => act_onChip (macReceive_unmatched hup hd hh hs), ?parse, ?arp⟩
  case room => exact fun s lp p a f hup hd hh hs hroom => act_onChip ((macReceive_steered hup hd hh hs).trans (if_neg (Nat.not_lt.2 hroom)))
  case full => exact fun s lp p a f hup hd hh hs hfull => act_onChip ((macReceive_steered hup hd hh hs).trans (if_pos hfull))
  case parse => exact fun s p head sb bad f rest hq hr he hm => act_onChip (packetParse_takes hq ⟨hr, he, hm⟩)
  case arp =>
    intro s p head ip f rest hq hr he hm hp hn ha hup
    have ha' : (addrByIp (fifoLeft p rest s.chip) (cfg s.chip) f.lport ip f.frame.vlans).isSome = true := ha
    have hup' : lportUp (fifoLeft p rest s.chip) f.lport = true := hup
    have hrun : packetParse p false false [] head s.chip = _ :=
      (packetParse_takes hq ⟨hr, he, hm⟩).trans ((if_neg (Bool.eq_false_iff.1 hp)).trans ((parseFrame_arp hn ha').trans (sendOwn_up hup')))
    refine ⟨_, act_onChip hrun, ?_, rfl, rfl, rfl, rfl, onChip_mem _ _⟩
    exact congrArg Pipe.fifo (getPipe_modPipe_same p (fun q => { q with fifo := rest }) s.chip)
end Sys2Proof.Machine
end

section
/-!
SUPPORT. The commands of ingress and of the forwarder (R162 to R164, R200, R224, R226, R536): what each answers and sets, and the obligation
about them.
-/
namespace Sys2Proof.Machine
open Sys2Proof

/-- A leg whose port's MTU holds the datagram sends it through its control queue. -/
theorem tunnelSend_fits {x : Ctx} {c : Chip} {o : Obj} (ht : idType (bw x.body 0) = tLeg) (hn : x.names (cfg c) (bw x.body 0) = some o)
    (hm : udpFrame ((cfg c).legAddrCard (idIndex (bw x.body 0))) (bf x.body 4 0 14) ≤ (getPort c ((cfg c).legLport (idIndex (bw x.body 0)) / 4)).mtu) :
    tunnelSend x c = x.done (Res.ok []) (enqueue (cfg c) (idIndex (bw x.body 0)) 1
      (EgPkt.plain (.dtls (bf x.body 4 0 14) ((x.body.drop 2).take ((bf x.body 4 0 14 + 3) / 4)))
        (udpFrame ((cfg c).legAddrCard (idIndex (bw x.body 0))) (bf x.body 4 0 14)) (cfg c).epoch) c) :=
  (Ctx.withObj_named ht hn).trans (if_neg (Nat.not_lt.2 hm))

/-- The size of the cache changes while no source keeps packets in it. -/
theorem fwdConfig_taken {x : Ctx} {c : Chip}
    (h : bf x.body 0 0 6 = c.fwd.cacheGib ∨ ∀ i ∈ (cfg c).indexes tSource, srcRtxDepth ((cfg c).body tSource i) = 0) :
    fwdConfig x c = x.done (Res.ok []) (modFwd (fun w => { w with cacheGib := bf x.body 0 0 6, holdoffMs := bf x.body 4 0 9 }) c) := by
  refine if_neg ?_
  rintro ⟨hgib, hkeeps⟩
  obtain ⟨i, hi, hdepth⟩ := List.any_eq_true.1 hkeeps
  exact h.elim hgib fun hnone => by simp [hnone i hi] at hdepth

/-- Settles O46: each command on the branch that its hypotheses leave. -/
theorem forwarderCommands : Obligations.ForwarderCommands := by
  unfold Obligations.ForwarderCommands
  refine ⟨?tunnel, ?ptp, fun s r o h ht hn hm => serve_ends h rfl (tunnelSend_fits ht hn hm),
    fun s r o h ht hn => serve_ends h rfl (Ctx.withObj_named ht hn), fun s r h hf hk => serve_ends h hf (fwdConfig_taken hk),
    fun s r h => serve_ends h rfl rfl, fun s r h => serve_ends h rfl rfl⟩
  case tunnel =>
    intro s r h hf hz
    rw [← ctxAt_fn h]
    exact serve_ends h hf (if_neg (Bool.eq_false_iff.1 hz))
  case ptp => exact fun s r h hf hz => serve_ends h hf (if_neg (Bool.eq_false_iff.1 hz))
end Sys2Proof.Machine
end

section
/-!
SUPPORT. Run-time state of key slots (R183, R184, R192): what counting a use of a slot, or closing it, leaves of the chip.
-/
namespace Sys2Proof.Machine
open Sys2Proof

/-- From `c` to `d` only the run-time state of key slots and the events have moved. -/
def SlotsOnly (c d : Chip) : Prop := ∃ k m, d = { c with net := { c.net with keySlots := k }, mgmt := m }

namespace SlotsOnly

theorem refl (c : Chip) : SlotsOnly c c := ⟨_, _, rfl⟩

theorem trans {a b c : Chip} (h : SlotsOnly a b) (k : SlotsOnly b c) : SlotsOnly a c := by
  obtain ⟨_, _, rfl⟩ := h
  obtain ⟨_, _, rfl⟩ := k
  exact ⟨_, _, rfl⟩

theorem tx {c d : Chip} (h : SlotsOnly c d) : d.net.tx = c.net.tx := by obtain ⟨_, _, rfl⟩ := h; rfl
theorem dkc {c d : Chip} (h : SlotsOnly c d) : d.net.dkc = c.net.dkc := by obtain ⟨_, _, rfl⟩ := h; rfl
theorem deriving_ {c d : Chip} (h : SlotsOnly c d) : d.net.deriving_ = c.net.deriving_ := by obtain ⟨_, _, rfl⟩ := h; rfl
theorem fwd {c d : Chip} (h : SlotsOnly c d) : d.fwd = c.fwd := by obtain ⟨_, _, rfl⟩ := h; rfl
theorem eg {c d : Chip} (h : SlotsOnly c d) : d.eg = c.eg := by obtain ⟨_, _, rfl⟩ := h; rfl

theorem of_modKey (o : Nat) (b : List Word) (f : KeySlot → KeySlot) (c : Chip) : SlotsOnly c (modKey o b f c) := ⟨_, _, rfl⟩

theorem of_raise (i k : Nat) (fn : Option Nat) (o d : Nat) (c : Chip) : SlotsOnly c (raise i k fn o d c) := ⟨_, _, rfl⟩

theorem of_slotUnusable (g : Cfg) (p o : Nat) (b : List Word) (c : Chip) : SlotsOnly c (slotUnusable g p o b c) := by
  unfold slotUnusable
  split
  · exact refl c
  · exact (of_modKey _ _ _ _).trans (of_raise _ _ _ _ _ _)

theorem of_setUnusable (set : Nat) (c : Chip) : SlotsOnly c (setUnusable set c) :=
  List.foldlRecOn _ _ (refl c) fun _ h _ _ => h.trans (of_slotUnusable _ _ _ _ _)

/-- An event that is raised in one case only. -/
theorem ite_raise {p : Prop} [Decidable p] {c d : Chip} (h : SlotsOnly c d) (i k : Nat) (fn : Option Nat) (o n : Nat) :
    SlotsOnly c (if p then raise i k fn o n d else d) := by
  split
  · exact h.trans (of_raise _ _ _ _ _ _)
  · exact h

theorem of_keyLevels (g : Cfg) (p o : Nat) (b : List Word) (k : Nat) (s r : Bool) (c : Chip) : SlotsOnly c (keyLevels g p o b k s r c) :=
  ((of_modKey _ _ _ c).ite_raise _ _ _ _ _).ite_raise _ _ _ _ _

theorem of_countUse (g : Cfg) (p o : Nat) (b : List Word) (k : Nat) (s r : Bool) (c : Chip) : SlotsOnly c (countUse g p o b k s r c) :=
  (of_modKey _ _ _ c).trans (of_keyLevels _ _ _ _ _ _ _ _)

end SlotsOnly
end Sys2Proof.Machine
end

section
/-!
SUPPORT. Send indices (R176, R177, R181, R218): what the index state of an SSRC holds once protection has given a packet its index, and the
obligation about it.
-/
namespace Sys2Proof.Machine
open Sys2Proof

/-! The index of a sequence number. -/

/-- The index that a sequence number stands for has the number as its low 16 bits. -/
theorem indexOf_mod {seq : Nat} (next : Nat) (h : seq < 65536) : indexOf next seq % 65536 = seq := by
  simp only [indexOf]
  split
  · omega
  · split <;> omega

/-- The number of the index just before the next one stands for that index. -/
theorem indexOf_succ {i seq : Nat} (h : i % 65536 = seq) : indexOf (i + 1) seq = i := by
  have hback : (seq + 65536 - (i + 1) % 65536) % 65536 = 65535 := by omega
  simp only [indexOf, hback]
  rw [if_neg (by omega), if_neg (by omega)]
  omega

/-- Once the next index has moved beyond the index of a number, the number still stands for that index. -/
theorem indexOf_beyond {seq : Nat} (next : Nat) (h : seq < 65536) : indexOf (max next (indexOf next seq + 1)) seq = indexOf next seq := by
  rcases Nat.lt_or_ge (indexOf next seq) next with hlate | hnew
  · rw [max_eq_left hlate]
  · rw [max_eq_right (Nat.le_succ_of_le hnew)]
    exact indexOf_succ (indexOf_mod next h)

/-! The index state of an SSRC (R176). -/

/-- The state that an SSRC of a leg has or begins with. -/
def txState (g : Cfg) (c : Chip) (l ssrc : Nat) : TxSsrc :=
  (findTx c l ssrc).getD (TxSsrc.new (g.key (mkKey tLeg l) 0) ssrc (localNs c))

theorem nextIndex_eq (g : Cfg) (c : Chip) (l ssrc : Nat) : nextIndex g c l ssrc = (txState g c l ssrc).next := by
  unfold nextIndex txState
  cases findTx c l ssrc <;> rfl

/-- A refill changes the tokens and their instant alone (R180). -/
theorem refillTx_eq (t : TxSsrc) (now : Nat) : ∃ a b, refillTx t now = { t with tok := a, tokRtcp := b, refillNs := now } := ⟨_, _, rfl⟩

theorem refillTx_ssrc (t : TxSsrc) (now : Nat) : (refillTx t now).ssrc = t.ssrc := by
  obtain ⟨_, _, h⟩ := refillTx_eq t now; rw [h]

theorem refillTx_next (t : TxSsrc) (now : Nat) : (refillTx t now).next = t.next := by
  obtain ⟨_, _, h⟩ := refillTx_eq t now; rw [h]

theorem txState_ssrc (g : Cfg) (c : Chip) (l ssrc : Nat) : (txState g c l ssrc).ssrc = ssrc := by
  unfold txState
  cases h : findTx c l ssrc with
  | none => rfl
  | some t => exact beq_iff_eq.1 (List.find?_some (p := fun u : TxSsrc => u.ssrc == ssrc) h)

/-- The first entry of an SSRC after its entries are replaced, or the new one is put behind the others. -/
theorem find?_ssrc_replaced (t : TxSsrc) (old : List TxSsrc) :
    (if old.any (fun u => u.ssrc == t.ssrc) then old.map (fun u => if u.ssrc == t.ssrc then t else u) else old ++ [t]).find?
      (fun u => u.ssrc == t.ssrc) = some t := by
  split
  next hany =>
    induction old with
    | nil => simp at hany
    | cons u old ih =>
      by_cases hu : u.ssrc = t.ssrc
      · simp [hu]
      · have hrest : old.any (fun u => u.ssrc == t.ssrc) = true := by simpa [hu] using hany
        simpa [hu] using ih hrest
  next hnone =>
    have hold : old.find? (fun u => u.ssrc == t.ssrc) = none := by simpa using hnone
    simp [List.find?_append, hold]

theorem findTx_putTx {l ssrc : Nat} {t : TxSsrc} (c : Chip) (h : t.ssrc = ssrc) : findTx (putTx l t c) l ssrc = some t := by
  subst h
  simp only [findTx, getTx, putTx, modNet_net, tget_tput_same]
  exact find?_ssrc_replaced t (getTx c l)

theorem findTx_countUse (g : Cfg) (p o : Nat) (b : List Word) (k : Nat) (s r : Bool) (c : Chip) (l ssrc : Nat) :
    findTx (countUse g p o b k s r c) l ssrc = findTx c l ssrc := by
  unfold findTx getTx
  rw [(SlotsOnly.of_countUse g p o b k s r c).tx]

/-! Protection. -/

/-- The state of an SSRC once it has given an SRTP packet an index: the next index is beyond, and the index is kept while the next one is at
most 128 above it; `tok` is what is left of the tokens. -/
def TxSsrc.gives (t : TxSsrc) (tok i : Nat) : TxSsrc :=
  { t with tok := tok, next := max t.next (i + 1), sent := (i :: t.sent).filter (fun j => decide (max t.next (i + 1) ≤ j + 128)) }

theorem gives_ssrc (t : TxSsrc) (tok i : Nat) : (t.gives tok i).ssrc = t.ssrc := rfl
theorem gives_next (t : TxSsrc) (tok i : Nat) : (t.gives tok i).next = max t.next (i + 1) := rfl

theorem mem_sent_gives {t : TxSsrc} {tok i : Nat} (h : (t.gives tok i).next ≤ i + 128) : i ∈ (t.gives tok i).sent :=
  List.mem_filter.2 ⟨List.mem_cons_self, decide_eq_true h⟩

/-- What protection that gives an SRTP packet an index leaves: the state of the SSRC with the index given, and its use counted. -/
theorem protect_gives {g : Cfg} {p l ssrc seq i : Nat} {c c' : Chip} (h : protect g p l ssrc (some seq) c = (some i, c')) :
    i = indexOf (nextIndex g c l ssrc) seq ∧ i < 2 ^ 48 ∧
      ∃ tok, c' = countUse g p (mkKey tLeg l) (g.key (mkKey tLeg l) 0) 0 true false
        (putTx l ((refillTx (txState g c l ssrc) (localNs c)).gives tok i) c) := by
  rw [nextIndex_eq]
  unfold protect at h
  simp only [Option.isNone_some, Bool.false_eq_true, if_false] at h
  split at h
  · simp at h
  split at h
  · simp at h
  split at h
  · simp at h
  next hin =>
    obtain ⟨hi, hc⟩ := Prod.mk.inj h
    obtain rfl := Option.some.inj hi
    exact ⟨rfl, Nat.lt_of_not_le hin, _, hc.symm⟩

/-- The index state of the SSRC from then on: the next index is beyond the one given, which is kept while it is near. -/
theorem findTx_protect {g : Cfg} {p l ssrc seq i : Nat} {c c' : Chip} (h : protect g p l ssrc (some seq) c = (some i, c')) :
    ∃ t, findTx c' l ssrc = some t ∧ t.next = max (nextIndex g c l ssrc) (i + 1) ∧ (t.next ≤ i + 128 → i ∈ t.sent) := by
  obtain ⟨-, -, tok, rfl⟩ := protect_gives h
  exact ⟨_, (findTx_countUse ..).trans (findTx_putTx c (by rw [gives_ssrc, refillTx_ssrc, txState_ssrc])),
    by rw [nextIndex_eq, gives_next, refillTx_next], mem_sent_gives⟩

/-- Settles O43: by what protection leaves in the state of the SSRC, where the number still stands for the index it got. -/
theorem indexIsNeverTakenTwice : Obligations.IndexIsNeverTakenTwice := by
  unfold Obligations.IndexIsNeverTakenTwice
  intro g p l ssrc seq i c c' hseq h
  obtain ⟨hi, hlt, -⟩ := protect_gives h
  obtain ⟨t, hfind, hnext, hsent⟩ := findTx_protect h
  have hafter : nextIndex g c' l ssrc = max (nextIndex g c l ssrc) (i + 1) := by rw [← hnext, nextIndex, hfind]
  have hagain : indexOf t.next seq = i := by rw [hnext, hi]; exact indexOf_beyond _ hseq
  refine ⟨hlt, hi ▸ indexOf_mod _ hseq, hi, hafter ▸ le_max_left _ _, hafter ▸ le_max_right _ (i + 1), ?_⟩
  simp only [wasSent, hfind, hagain, Bool.or_eq_true, List.contains_iff_mem, decide_eq_true_eq]
  exact (Nat.lt_or_ge (i + 128) t.next).symm.imp_left hsent

end Sys2Proof.Machine
end

section
/-!
SUPPORT. Derivations that end, GX_KEY_STATUS and GX_CRYPTO_COUNTERS (R175, R178, R188, R189): what a derivation that no packet waits for leaves,
what the commands answer, and the obligation about them.
-/
namespace Sys2Proof.Machine
open Sys2Proof

/-! The end of a derivation (R189). -/

/-- From `c` to `d` no waiting packet has moved, and nothing beyond the miss queues. -/
structure MissKept (c d : Chip) : Prop where
  net : d.net = c.net
  fwd : d.fwd = c.fwd
  legs : d.eg.legs = c.eg.legs
  miss : ∀ p, missq d p = missq c p

/-- A set that no packet of a pipeline waits for releases none. -/
theorem releaseMiss_none {set p : Nat} {c : Chip} (h : ∀ m ∈ missq c p, m.setKey ≠ set) : MissKept c (releaseMiss set p c) := by
  have hwait : (missq c p).filter (fun m => m.setKey == set) = [] := by simpa using h
  have hstay : (missq c p).filter (fun m => m.setKey != set) = missq c p := by simpa using h
  have hrel : releaseMiss set p c = modMissq p (fun q => q.filter (fun m => m.setKey != set)) c := by
    simp only [releaseMiss, hwait, List.foldl_nil]
  rw [hrel]
  refine ⟨rfl, rfl, rfl, fun q => ?_⟩
  by_cases hq : p = q
  · subst hq; exact (tget_tmod_same _ _ _ _).trans hstay
  · exact tget_tmod_other _ _ _ _ hq

/-- The same over several pipelines. -/
theorem releaseMiss_all_none {set : Nat} {l : List Nat} {c : Chip} (h : ∀ p ∈ l, ∀ m ∈ missq c p, m.setKey ≠ set) :
    MissKept c (l.foldl (fun c p => releaseMiss set p c) c) :=
  List.foldlRecOn l _ ⟨rfl, rfl, rfl, fun _ => rfl⟩ fun d hd p hp => by
    obtain ⟨hnet, hfwd, hlegs, hmiss⟩ := hd
    obtain ⟨hnet', hfwd', hlegs', hmiss'⟩ := releaseMiss_none (c := d) (set := set) (p := p) (hmiss p ▸ h p hp)
    exact ⟨hnet'.trans hnet, hfwd'.trans hfwd, hlegs'.trans hlegs, fun q => (hmiss' q).trans (hmiss q)⟩

/-- The cache once a derivation has ended: with the set where the slot's entry unwraps (R188). -/
def cacheDerived (set : Nat) (c : Chip) : List (Nat × Derived) :=
  match derivedOf c set with
  | some d => dkcInsert set d c.net.dkc
  | none => c.net.dkc

/-- The chip once a derivation is no longer in flight. -/
def derivationLanded (set : Nat) (c : Chip) : Chip := modNet (fun n => { n with deriving_ := n.deriving_.filter (· != set) }) c

/-- The chip once the set has come in, or the slot has been closed where its entry does not unwrap. -/
def derivationSettled (set : Nat) (c : Chip) : Chip :=
  match derivedOf c set with
  | some d => cacheSet set d (derivationLanded set c)
  | none => setUnusable set (derivationLanded set c)

/-- Apart from slots that are closed, the cache and the record of derivations alone have moved. -/
theorem derivationSettled_slotsOnly (set : Nat) (c : Chip) :
    SlotsOnly (modNet (fun n => { n with dkc := cacheDerived set c }) (derivationLanded set c)) (derivationSettled set c) := by
  unfold derivationSettled cacheDerived
  cases derivedOf c set with
  | some d => exact SlotsOnly.refl _
  | none => exact SlotsOnly.of_setUnusable set (derivationLanded set c)

theorem missq_derivationSettled (set p : Nat) (c : Chip) : missq (derivationSettled set c) p = missq c p := by
  unfold missq; rw [(derivationSettled_slotsOnly set c).eg]; rfl

theorem deriveDone_inFlight {set : Nat} {c : Chip} (h : c.net.deriving_.contains set = true) :
    deriveDone set false c = (List.range 4).foldl (fun c p => releaseMiss set p c) (derivationSettled set c) := by
  unfold deriveDone
  rw [h]
  rfl

/-- An alternate key that is held is erased at the end of RX_OVERLAP (R175). -/
theorem alternateExpire_held {obj : Nat} {c : Chip} (h : (tget RxSet.zero c.net.rxSets obj).alt ≠ []) :
    alternateExpire obj c =
      modNet (fun n => { n with rxSets := tdel n.rxSets obj }) (waitSvc (tget RxSet.zero c.net.rxSets obj).altEnd c) :=
  if_neg h

/-! GX_KEY_STATUS. -/

/-- The block of NEXT: the alternate key while it is held (R175). -/
def nextBlock (c : Chip) (obj : Nat) : List Word :=
  if (tget RxSet.zero c.net.rxSets obj).alt = [] then keyBlock c obj ((cfg c).key obj 2) false 0
  else keyBlock c obj (tget RxSet.zero c.net.rxSets obj).alt true 0

theorem keyStatus_leg {x : Ctx} {c : Chip} {o : Obj} (ht : idType (bw x.body 0) = tLeg) (hn : x.names (cfg c) (bw x.body 0) = some o) :
    keyStatus x c = x.done (Res.ok
      (keyBlock c (idKey (bw x.body 0)) ((cfg c).key (idKey (bw x.body 0)) 0) false (tget [] c.net.counted (idIndex (bw x.body 0))).length ++
        keyBlock c (idKey (bw x.body 0)) ((cfg c).key (idKey (bw x.body 0)) 1) false 0 ++ nextBlock c (idKey (bw x.body 0)) ++
        ((tget [] c.net.counted (idIndex (bw x.body 0))).take 16).flatMap (ssrcEntry (cfg c) c (idIndex (bw x.body 0))) ++
        List.replicate (4 * (16 - (tget [] c.net.counted (idIndex (bw x.body 0))).length)) 0)) c := by
  simp only [keyStatus, ht, true_or, if_true, hn, beq_self_eq_true]
  rfl

/-- A source has no send slot and counts no SSRC values. -/
theorem keyStatus_source {x : Ctx} {c : Chip} {o : Obj} (ht : idType (bw x.body 0) = tSource)
    (hn : x.names (cfg c) (bw x.body 0) = some o) :
    keyStatus x c = x.done (Res.ok
      (List.replicate 8 0 ++ keyBlock c (idKey (bw x.body 0)) ((cfg c).key (idKey (bw x.body 0)) 1) false 0 ++
        nextBlock c (idKey (bw x.body 0)) ++ List.replicate 64 0)) c := by
  have hleg : (tSource == tLeg) = false := rfl
  simp only [keyStatus, ht, or_true, if_true, hn, hleg, Bool.false_eq_true, if_false, List.take_nil, List.flatMap_nil, List.append_nil,
    List.length_nil]
  rfl

/-- Settles O42: the derivation by what no packet that waits leaves to do, each command by what it answers. -/
theorem cipherCommands : Obligations.CipherCommands := by
  unfold Obligations.CipherCommands
  refine ⟨?derive, fun s obj h => act_onChip (alternateExpire_held h), fun s r o h ht hn => serve_ends h rfl (keyStatus_leg ht hn),
    fun s r o h ht hn => serve_ends h rfl (keyStatus_source ht hn), fun s r h => serve_ends h rfl rfl⟩
  case derive =>
    intro s set hset hwait
    have hslots := derivationSettled_slotsOnly set s.chip
    obtain ⟨hnet, hfwd, hlegs, hmiss⟩ := releaseMiss_all_none (c := derivationSettled set s.chip) (set := set) (l := List.range 4) fun p hp =>
      missq_derivationSettled set p s.chip ▸ hwait p (List.mem_range.1 hp)
    refine ⟨onChip s _, act_onChip (deriveDone_inFlight hset), ?cache, ?flight, ?missq, ?fwd, ?legs, onChip_mem _ _⟩
    all_goals rw [onChip_chip]
    case cache => rw [hnet, hslots.dkc]; rfl
    case flight => rw [hnet, hslots.deriving_]; simp [derivationLanded]
    case missq => exact fun p => (hmiss p).trans (missq_derivationSettled set p s.chip)
    case fwd => rw [hfwd, hslots.fwd]; rfl
    case legs => rw [hlegs, hslots.eg]; rfl

end Sys2Proof.Machine
end

section
/-!
SUPPORT. The score of an audio source (R220): one packet moves it an eighth of the way to its target, and the obligation about it.
-/
namespace Sys2Proof.Machine
open Sys2Proof

/-- What the score of an audio source moves toward at a packet, in steps of 1/256 (R220). -/
def scoreTarget (d : BitVec 64) : Nat := if dVad d then (127 - dLevel d) * 256 else 0

theorem eighth_of_le {m n : Nat} (h : m ≤ n) : ((n : Int) - m).tdiv 8 = ((n - m) / 8 : Nat) := by
  rw [← Int.ofNat_sub h]; rfl

theorem eighth_of_ge {m n : Nat} (h : n ≤ m) : ((n : Int) - m).tdiv 8 = -((m - n) / 8 : Nat) := by
  rw [← neg_sub, Int.neg_tdiv, eighth_of_le h]

/-- Nothing is cut off: an audio level has 7 bits, and an eighth of the way never leads below 0. -/
theorem scoreStep_eq (score : Nat) (d : BitVec 64) : (scoreStep score d : Int) = score + ((scoreTarget d : Int) - score).tdiv 8 := by
  have hlevel : dLevel d < 2 ^ 7 := bits_lt _ _ _
  have htarget : (if dVad d then (127 - (dLevel d : Int)) * 256 else 0) = (scoreTarget d : Int) := by
    unfold scoreTarget
    split <;> omega
  simp only [scoreStep, htarget]
  rcases Nat.le_total score (scoreTarget d) with h | h
  · rw [eighth_of_le h]; omega
  · rw [eighth_of_ge h]; omega

/-- From below, the score rises by an eighth of the difference, rounded down. -/
theorem scoreStep_of_le {score : Nat} {d : BitVec 64} (h : score ≤ scoreTarget d) : scoreStep score d = score + (scoreTarget d - score) / 8 := by
  have hstep := scoreStep_eq score d
  rw [eighth_of_le h] at hstep
  omega

/-- From above, it falls by an eighth of the difference, rounded down. -/
theorem scoreStep_of_ge {score : Nat} {d : BitVec 64} (h : scoreTarget d ≤ score) : scoreStep score d = score - (score - scoreTarget d) / 8 := by
  have hstep := scoreStep_eq score d
  rw [eighth_of_ge h] at hstep
  omega

/-- Beyond 7 steps from its target the score comes nearer by a step at least, and within them it stays within them. -/
theorem scoreStep_nears {score above below : Nat} {d : BitVec 64} (hhi : score ≤ scoreTarget d + 7 + above)
    (hlo : scoreTarget d ≤ score + 7 + below) :
    scoreStep score d ≤ scoreTarget d + 7 + (above - 1) ∧ scoreTarget d ≤ scoreStep score d + 7 + (below - 1) := by
  rcases Nat.le_total score (scoreTarget d) with h | h
  · rw [scoreStep_of_le h]; omega
  · rw [scoreStep_of_ge h]; omega

/-- After `k` packets of one target, what the score lay away from it has shrunk by `k` steps, down to 7. -/
theorem scoreStep_iterate_nears (score : Nat) (d : BitVec 64) (k : Nat) :
    (scoreStep · d)^[k] score ≤ scoreTarget d + 7 + (score - scoreTarget d - k) ∧
      scoreTarget d ≤ (scoreStep · d)^[k] score + 7 + (scoreTarget d - score - k) := by
  induction k with
  | zero => rw [Function.iterate_zero_apply]; omega
  | succ k ih =>
    rw [Function.iterate_succ_apply', ← Nat.sub_sub _ k 1, ← Nat.sub_sub _ k 1]
    exact scoreStep_nears ih.1 ih.2

/-- Settles O44: by the step from below and from above, and by induction over the packets of one target. -/
theorem speakerScore : Obligations.SpeakerScore := by
  unfold Obligations.SpeakerScore
  intro d v hv
  obtain rfl : v = scoreTarget d := hv
  refine ⟨fun score => scoreStep_eq score d, fun score h => ?below, fun score h => ?above, fun score => ?settles⟩
  case below => rw [scoreStep_of_le h]; omega
  case above => rw [scoreStep_of_ge h]; omega
  case settles =>
    refine ⟨(score - scoreTarget d) + (scoreTarget d - score), fun k hk => ?_⟩
    obtain ⟨hhi, hlo⟩ := scoreStep_iterate_nears score d k
    omega

end Sys2Proof.Machine
end

section
/-!
SUPPORT. Congestion reports (R238, R534): the report that falls due and the arrival times in it, and the obligation about the rows of the
forwarder, which gives those times otherwise.
-/
namespace Sys2Proof.Machine
open Sys2Proof

theorem waitSvc_utcOffset (n : Nat) (c : Chip) : (waitSvc n c).time.utcOffset = c.time.utcOffset := by
  unfold waitSvc; dsimp only; split <;> rfl

/-- The chip once the report of a source falls due: its numbers are taken, and the next report is set. -/
def ccfbTaken (i : Nat) (c : Chip) : Chip :=
  modSrc i (fun x => { x with ccfb := [], ccfbDue := svc (waitSvc (getSrc c i).ccfbDue c) + ccfbMs ((cfg c).ccfbCard i) * 1000000 })
    (waitSvc (getSrc c i).ccfbDue c)

theorem ccfbTaken_gx (i : Nat) (c : Chip) : (ccfbTaken i c).gx = c.gx := waitSvc_gx _ _

/-- A service time less the UTC offset (R534). -/
def utcNs (c : Chip) (ns : Nat) : Nat := ((ns : Int) - c.time.utcOffset * 1000000000).toNat

/-- The report of a source's numbers that falls due, with each arrival as `clock` gives it. -/
def ccfbReport (i : Nat) (clock : Nat → Nat) (c : Chip) : Rtcp :=
  .ccfb (srcSsrc ((cfg c).body tSource i)) (utcNs c (svc (waitSvc (getSrc c i).ccfbDue c)))
    ((getSrc c i).ccfb.map (fun e => { seq := e.1, received := true, arrivalNs := clock e.2.1, ecn := e.2.2 }))

/-- A report of at most 1,024 numbers takes the UTC offset off its own instant and off each arrival. -/
theorem ccfbTimer_reports {i : Nat} {c : Chip} (hen : ccfbEn ((cfg c).ccfbCard i) = true) (hlen : (getSrc c i).ccfb.length ≤ 1024) :
    ccfbTimer i c = sendFeedback i (ccfbReport i (utcNs c) c) (ccfbTaken i c) := by
  have hcfg : cfg (waitSvc (getSrc c i).ccfbDue c) = cfg c := cfg_congr (waitSvc_gx _ _)
  have hsrc : getSrc (waitSvc (getSrc c i).ccfbDue c) i = getSrc c i := by rw [getSrc, waitSvc_fwd]; rfl
  have hdrop : (getSrc c i).ccfb.length - 1024 = 0 := Nat.sub_eq_zero_of_le hlen
  simp only [ccfbTimer, hen, Bool.not_true, Bool.false_eq_true, if_false, hcfg, hsrc, waitSvc_utcOffset, if_neg (Nat.not_lt.2 hlen), hdrop,
    List.drop_zero]
  rfl

/-- A device in service at 100 s of service time, with UTC 37 s behind it. The report of source 3 is due, with one number that arrived at
99 s; it goes out on leg 2, whose send key is not derived yet. -/
def reportDue : State :=
  { State.reset with chip := { Chip.reset with
      gx := { Guxus.reset with bank1 := { Cfg.empty with
        epoch := 1
        objs := [(mkKey tSource 3, { Obj.none with gen := 1, body := [0, 0, 0, 0, 0, 0, 0, wd (mkId tLeg 1 2)] }),
          (mkKey tLeg 2, { Obj.none with gen := 1 })]
        cards := [(cardKey 0x0210 (mkKey tLeg 2) 0, [1, 0, 0, 0]), (cardKey 0x0401 (mkKey tSource 3) 0, [0, 0, 1])] } }
      net := { Net4.reset with cryUnits := 0xFFFFF }
      fwd := { Fwd.reset with sources := [(3, { SourceRun.zero with ccfb := [(7, 99000000000, 0)], ccfbDue := 100000000000 })] }
      time := { TimeBase.reset with a := { Dom.zero with t := 100000000000 * 2 ^ 32 }, utcOffset := 37 } } }

/-- The RTCP of a packet that waits for a derived set. -/
def rtcpOf : MissWork → List Rtcp
  | .tx { pkt := { body := .srtcp _ items, .. }, .. } => items
  | _ => []

/-- The RTCP of the packets in the miss queue of a pipeline. -/
def rtcpWaiting (c : Chip) (p : Nat) : List (List Rtcp) := (missq c p).map (rtcpOf ·.work)

theorem rtcpWaiting_missWait (p set e : Nat) (w : MissWork) (c : Chip) : rtcpWaiting (missWait p set e w c) p = rtcpWaiting c p ++ [rtcpOf w] := by
  have hqueue : missq (missWait p set e w c) p = missq c p ++ [{ setKey := set, epoch := e, work := w }] :=
    tget_tmod_same [] c.eg.missq p (· ++ [({ setKey := set, epoch := e, work := w } : MissPkt)])
  rw [rtcpWaiting, hqueue, List.map_append]
  rfl

/-- RTCP of a leg whose derived set is missing waits in the miss queue, while that has room (R189). -/
theorem rtcpWaiting_sendRtcp {g : Cfg} {l p set : Nat} {c d : Chip} (ssrc : Nat) (items : List Rtcp) (hpipe : g.legPipe l = p)
    (hset : sendSet g p l true true false c = (some (.inl set), d)) (hroom : (missq d p).length < 512) :
    rtcpWaiting (sendRtcp g l ssrc items c) p = rtcpWaiting d p ++ [items] := by
  simp only [sendRtcp, sendJob, hpipe, Option.isNone_none, hset, if_pos hroom]
  exact rtcpWaiting_missWait _ _ _ _ _

/-- What is told about a source goes out on its feedback leg, behind an empty RR and the CNAME where the leg has no RSIZE (R230). -/
theorem sendFeedback_fed {g : Cfg} {i id l : Nat} {c : Chip} (r : Rtcp) (hcfg : cfg c = g) (hfed : srcFeedback (g.body tSource i) = id)
    (hind : idIndex id = l) (hleg : g.idAt tLeg l = id) (hid : id ≠ 0) (hsize : legRsize (g.body tLeg l) = false) :
    sendFeedback i r c =
      sendRtcp g l (legReport (g.body tLeg l)) [.rr [], .sdes (legCnameLen (g.body tLeg l)) (legCname (g.body tLeg l)), r] c := by
  simp only [sendFeedback, hcfg, hfed, hind, hleg, hid, hsize, ne_eq, not_true, or_self, if_false, Bool.false_eq_true]

/-- That leg's set for SRTCP is missing, and nothing waits for one yet. -/
theorem reportDue_misses : ∃ set d, sendSet (cfg reportDue.chip) 0 2 true true false (ccfbTaken 3 reportDue.chip) = (some (.inl set), d) ∧
    missq d 0 = [] :=
  ⟨setOf (mkKey tLeg 2) [1, 0, 0, 0] true, _, rfl, rfl⟩

/-- On that device what source 3 reports waits for the derived set of the leg. -/
theorem reportDue_waits (r : Rtcp) : rtcpWaiting (sendFeedback 3 r (ccfbTaken 3 reportDue.chip)) 0 = [[.rr [], .sdes 0 [], r]] := by
  obtain ⟨set, d, hset, hempty⟩ := reportDue_misses
  have hcname : (cfg reportDue.chip).body tLeg 2 = [] := by decide
  rw [sendFeedback_fed (id := mkId tLeg 1 2) (l := 2) r (cfg_congr (ccfbTaken_gx 3 reportDue.chip)) (by decide) (by decide) (by decide)
      (by decide) (by decide), rtcpWaiting_sendRtcp _ _ (by decide) hset (by rw [hempty]; decide), rtcpWaiting, hempty, hcname]
  rfl

/-- Refutes O45: where UTC_OFFSET is not 0, a congestion report gives each arrival less the offset, as it gives its own instant, and not the
service time of the arrival: 62 s and not 99 s, in a report of 63 s. -/
theorem not_forwarderRows : ¬ Obligations.ForwarderRows := by
  unfold Obligations.ForwarderRows
  rintro ⟨-, -, -, -, -, -, -, hccfb, -⟩
  have hnext := hccfb reportDue 3 (by decide) (by decide)
  have hchip : sendFeedback 3 (ccfbReport 3 id reportDue.chip) (ccfbTaken 3 reportDue.chip) = ccfbTimer 3 reportDue.chip :=
    act_chip (f := ccfbTimer 3) hnext
  rw [ccfbTimer_reports (by decide) (by decide)] at hchip
  have hwaits := congrArg (rtcpWaiting · 0) hchip
  simp only [reportDue_waits] at hwaits
  exact absurd hwaits (by decide)

end Sys2Proof.Machine
end

section
/-!
SUPPORT. The change of a gate list (R258 to R260): which lists a latch refuses, when a list takes over and what is then in operation, and the
two obligations about it.
-/
namespace Sys2Proof.Machine
open Sys2Proof

/-! Refusals (R260). -/

theorem outside_of {v lo hi : Nat} (h : v < lo ∨ hi < v) : outside v lo hi = true := by simpa [outside] using h

/-- A length, a cycle time, base nanoseconds or an interval out of range makes the list one that a latch refuses (R258, R260). -/
theorem adminBad_of_outOfRange {p : EgPort}
    (h : p.admLen = 0 ∨ 256 < p.admLen ∨ p.admCycle < 1000 ∨ 1000000000 < p.admCycle ∨ 999999999 < p.admNs ∨
      ∃ i < p.admLen, (tget 0 p.adm (2 * i + 1)).toNat < 100 ∨ 1000000000 < (tget 0 p.adm (2 * i + 1)).toNat) :
    p.adminBad = true := by
  have hinterval (i : Nat) (hi : i < p.admLen)
      (hv : (tget 0 p.adm (2 * i + 1)).toNat < 100 ∨ 1000000000 < (tget 0 p.adm (2 * i + 1)).toNat) :
      p.admin.entries.any (fun e => outside e.2 100 1000000000) = true :=
    List.any_eq_true.2 ⟨_, List.mem_map_of_mem (List.mem_range.2 hi), outside_of hv⟩
  unfold EgPort.adminBad
  rcases h with hlen | hlen | hcycle | hcycle | hns | ⟨i, hi, hv⟩
  · simp [outside_of (lo := 1) (hi := 256) (.inl (by omega : p.admLen < 1))]
  · simp [outside_of (lo := 1) (.inr hlen)]
  · simp [outside_of (hi := 1000000000) (.inl hcycle)]
  · simp [outside_of (lo := 1000) (.inr hcycle)]
  · simp [hns]
  · simp [hinterval i hi hv]

theorem gateChange_refused {lp : Nat} {c : Chip} (hb : (getEgPort c lp).adminBad = true) :
    gateChange lp c = modEgPort lp (fun p => { p with configError := true }) c :=
  if_pos hb

theorem adminWrite_busy {fn lp off : Nat} {v : Word} {c : Chip} (hp : (getEgPort c lp).pend = true) :
    adminWrite fn lp off v c = modEgPort lp (fun p => { p with adminBusy := true }) c :=
  if_pos hp

theorem gateCancel_late {lp : Nat} {c : Chip} (hp : (getEgPort c lp).pend = true) (ht : (getEgPort c lp).changeNs ≤ svc c) :
    gateCancel lp c = gateTakeover lp c :=
  if_pos ⟨hp, ht⟩

/-! The takeover (R259). -/

/-- What is in operation after a takeover, and what it tells. -/
theorem gateTakeover_operates {lp : Nat} {c : Chip} (hp : (getEgPort c lp).pend = true) :
    (getEgPort (gateTakeover lp c) lp).oper = (getEgPort c lp).pendList ∧ (getEgPort (gateTakeover lp c) lp).operValid = true ∧
      (getEgPort (gateTakeover lp c) lp).pend = false ∧ (gateTakeover lp c).time = (waitSvc (getEgPort c lp).changeNs c).time ∧
      ∃ e, (gateTakeover lp c).mgmt.incoming = c.mgmt.incoming ++ [e] ∧ e.code = 0x404 := by
  rw [gateTakeover_pending hp]
  obtain ⟨e, hlog, hcode, -⟩ := raise_incoming (portIsland lp) 0x404 none lp
    ((getEgPort c lp).pendList.entries.length + 2 ^ 32 * ((getEgPort c lp).changeNs % 1000000000))
    (modEgPort lp (fun p => { p with oper := (getEgPort c lp).pendList, operValid := true, pend := false })
      (waitSvc (getEgPort c lp).changeNs c))
  refine ⟨?_, ?_, ?_, rfl, e, hlog.trans (by simp), hcode⟩ <;> simp

/-! The takeover time of a base that has passed (R259). -/

/-- Cycles after the base at which a list takes over that must do so at `least` or later. -/
def takeoverCycles (q : GateList) (least : Nat) : Nat := (least - q.base + q.cycle - 1) / q.cycle

/-- It is the least number of cycles that reaches the time. -/
theorem takeoverCycles_le_iff {q : GateList} (hc : 0 < q.cycle) {least n : Nat} :
    takeoverCycles q least ≤ n ↔ least ≤ q.base + n * q.cycle := by
  rw [takeoverCycles, ← Nat.ceilDiv_eq_add_pred_div, ceilDiv_le_iff_le_mul hc, Nat.mul_comm, Nat.sub_le_iff_le_add']

/-- A list whose base is less than 10 µs ahead becomes pending at a later cycle, with LATE_BASE and its event. -/
theorem gateChange_late {lp : Nat} {c : Chip} (hb : (getEgPort c lp).adminBad = false)
    (ht : (getEgPort c lp).admin.base < svc c + 10000) :
    gateChange lp c = raise (portIsland lp) 0x403 none lp (takeoverCycles (getEgPort c lp).admin (svc c + 10000))
      (modEgPort lp (fun p =>
        { p with pend := true, pendList := p.admin, lateBase := true,
                 changeNs := p.admin.base + takeoverCycles p.admin (svc c + 10000) * p.admCycle }) c) := by
  dsimp only [gateChange]
  rw [if_neg (by simp [hb]), if_neg (Nat.not_le.2 ht)]
  exact congrArg _ (modEgPort_congr rfl)

theorem getEgPort_gateChange_late {lp : Nat} {c : Chip} (hb : (getEgPort c lp).adminBad = false)
    (ht : (getEgPort c lp).admin.base < svc c + 10000) :
    getEgPort (gateChange lp c) lp =
      { getEgPort c lp with
        pend := true, pendList := (getEgPort c lp).admin, lateBase := true,
        changeNs := (getEgPort c lp).admin.base +
          takeoverCycles (getEgPort c lp).admin (svc c + 10000) * (getEgPort c lp).admCycle } := by
  rw [gateChange_late hb ht, getEgPort_raise, getEgPort_modEgPort_same]

/-- GATE_LATE_BASE is raised. -/
theorem gateChange_late_event {lp : Nat} {c : Chip} (hb : (getEgPort c lp).adminBad = false)
    (ht : (getEgPort c lp).admin.base < svc c + 10000) :
    ∃ e, (gateChange lp c).mgmt.incoming = c.mgmt.incoming ++ [e] ∧ e.code = 0x403 := by
  rw [gateChange_late hb ht]
  obtain ⟨e, hlog, hcode, -⟩ := raise_incoming (portIsland lp) 0x403 none lp (takeoverCycles (getEgPort c lp).admin (svc c + 10000)) _
  exact ⟨e, hlog, hcode⟩

/-- A latch takes no list without a cycle. -/
theorem admCycle_pos {p : EgPort} (h : p.adminBad = false) : 0 < p.admCycle := by
  by_contra hc
  exact Bool.false_ne_true (h ▸ adminBad_of_outOfRange (.inr (.inr (.inl (by omega)))))

/-- Settles O49: a refused latch and a write while a change is pending by their branches, a cancel by which of it and the takeover time came
first. -/
theorem gateLatchRefused : Obligations.GateLatchRefused := by
  unfold Obligations.GateLatchRefused
  refine ⟨?refused, ?busy, ?early, ?late⟩
  case refused =>
    exact fun s fn lp h hbad => act_onChip ((egWrite_open _ h (by decide)).trans (gateChange_refused (adminBad_of_outOfRange hbad)))
  case busy => exact fun s fn lp off v h hp ho => exec_gateAdminWrite h (by omega) (adminWrite_busy hp)
  case early => exact fun s fn lp h ht => act_onChip ((egWrite_open _ h (by decide)).trans (gateCancel_early ht))
  case late =>
    intro s fn lp h hp ht
    obtain ⟨hoper, hvalid, hpend, -, -⟩ := gateTakeover_operates hp
    exact ⟨_, act_onChip ((egWrite_open _ h (by decide)).trans (gateCancel_late hp ht)), hoper, hvalid, hpend, rfl⟩

/-- Settles O50: a latch by whether its base lies 10 µs ahead, with the least number of cycles that does where it does not, and the takeover
by what is in operation after it. -/
theorem gateListsTakeOver : Obligations.GateListsTakeOver := by
  unfold Obligations.GateListsTakeOver
  refine ⟨?onTime, ?late, ?takeover, fun p => ⟨rfl, rfl⟩⟩
  case onTime => exact fun s fn lp h hb ht => act_onChip ((egWrite_open _ h (by decide)).trans (gateChange_onTime hb ht))
  case late =>
    intro s fn lp h hb ht
    have hcycles (n : Nat) := takeoverCycles_le_iff (q := (getEgPort s.chip lp).admin) (least := svc s.chip + 10000) (n := n) (admCycle_pos hb)
    refine ⟨_, takeoverCycles (getEgPort s.chip lp).admin (svc s.chip + 10000), act_onChip (egWrite_open _ h (by decide)), ?_⟩
    rw [onChip_chip, getEgPort_gateChange_late hb ht]
    exact ⟨rfl, rfl, rfl, (hcycles _).1 le_rfl, fun m hm => Nat.not_le.1 (mt (hcycles m).2 (Nat.not_le.2 hm)), rfl, rfl,
      gateChange_late_event hb ht, rfl⟩
  case takeover =>
    intro s lp hp
    obtain ⟨hoper, hvalid, hpend, htime, hevent⟩ := gateTakeover_operates hp
    exact ⟨_, act_onChip rfl, hoper, hvalid, hpend, htime, hevent, rfl⟩

end Sys2Proof.Machine
end

section
/-!
SUPPORT. Egress (R236, R249 to R264, R535, R538): when a port may choose, what becomes of the frame it has chosen, and what the commands of
egress do, and the obligation about them.
-/
namespace Sys2Proof.Machine
open Sys2Proof

/-! The choice (R252, R254). -/

/-- Nothing keeps a port from choosing whose link is up, which sends nothing, and which has no PTP message waiting and no bucket below zero. -/
theorem not_held_back {c : Chip} {lp : Nat} (hup : lportUp c lp = true) (hsel : (getEgPort c lp).sel = none)
    (hptp : (c.eg.ptpOut.all fun x => x.lport != lp) = true) (hbucket : (getEgPort c lp).rateMbps = 0 ∨ 0 ≤ (getEgPort c lp).bucket) :
    ¬ (!lportUp c lp || (getEgPort c lp).sel.isSome || (c.eg.ptpOut.any fun x => x.lport == lp) ||
      ((getEgPort c lp).rateMbps != 0 && decide ((getEgPort c lp).bucket < 0))) = true := by
  have hnone : (c.eg.ptpOut.any fun x => x.lport == lp) = false := by simpa using hptp
  rcases hbucket with hrate | hbucket
  · simp [hup, hsel, hnone, hrate]
  · simp [hup, hsel, hnone, Int.not_lt.2 hbucket]

/-! Departure (R236, R249, R516, R538). -/

section
variable {lp l cls : Nat} {k : EgPkt} {p : Bool} {c : Chip}

theorem frameTransmit_leaves (hsel : (getEgPort c lp).sel = some (l, cls, k)) (hup : lportUp c lp = true) (hk : k.poison = false) :
    frameTransmit lp false c = countEg lp l 0 1 (countEg lp l 1 k.bytes (drop k.buf (recordSent lp l cls k
      (countTx lp (emit (.frame lp (l + 1) k) (modEgPort lp (fun p => { p with sel := none }) c)))))) := by
  simp only [frameTransmit, hsel, hup, hk, Bool.not_true, Bool.or_false, Bool.false_eq_true, if_false]

theorem frameTransmit_poisoned (hsel : (getEgPort c lp).sel = some (l, cls, k)) (hup : lportUp c lp = true) (hk : (p || k.poison) = true) :
    frameTransmit lp p c = countEg lp l 12 1 (drop k.buf (modEgPort lp (fun p => { p with sel := none }) c)) := by
  simp only [frameTransmit, hsel, hup, hk, Bool.not_true, Bool.false_eq_true, if_false, if_true]

theorem frameTransmit_linkDown (hsel : (getEgPort c lp).sel = some (l, cls, k)) (hdown : lportUp c lp = false) :
    frameTransmit lp p c = countEg lp l 4 1 (drop k.buf (modEgPort lp (fun p => { p with sel := none }) c)) := by
  simp only [frameTransmit, hsel, hdown, Bool.not_false, if_true]

theorem frameTransmit_ptp {x : PtpOut} (hsel : (getEgPort c lp).sel = none) (hx : c.eg.ptpOut.find? (fun x => x.lport == lp) = some x)
    (hup : lportUp c lp = true) :
    frameTransmit lp p c = finish x.slot (Res.ok (ptpStamps c lp x.event))
      (countTx lp (emit (.frame lp 0 (EgPkt.plain (.ptp x.bytes x.data) x.frame c.gx.current))
        (modEg (fun e => { e with ptpOut := e.ptpOut.filter (· != x) }) c))) := by
  simp only [frameTransmit, hsel, hx, hup, Bool.not_true, Bool.false_eq_true, if_false]

end

/-! Launch times and buckets (R253, R264). -/

theorem launchReached_head {l cls : Nat} {k : EgPkt} {q : List EgPkt} {c : Chip} (hq : (getLeg c l).queue cls = k :: q)
    (hen : (getEgPort c ((legCfg c l).legLport l)).launchEn = true) : launchReached l cls c = waitSvc k.launchNs c := by
  simp only [launchReached, hq, hen, if_true]

/-- A leg with packets queued and a rate has a bucket that recovers. -/
theorem not_idle_leg {r : LegRun} (hq : r.queued ≠ []) (hr : r.rate ≠ 0) : ¬ (r.queued.isEmpty = true ∨ r.rate = 0) :=
  not_or.2 ⟨mt List.isEmpty_iff.1 hq, hr⟩

/-! GX_PTP_SEND (R535, R538). -/

/-- The message that a GX_PTP_SEND puts behind the others. -/
def ptpMessage (x : Ctx) (a : List Word) : PtpOut :=
  ⟨addrLport a, x.k, bit (bw x.body 0) 12, udpFrame a (bf x.body 4 0 11), bf x.body 4 0 11, (x.body.drop 8).take ((bf x.body 4 0 11 + 3) / 4)⟩

/-- What is left once the message waits and counts in its port's rate. -/
def ptpQueued (x : Ctx) (a : List Word) (w : RateWin) (c : Chip) : Chip :=
  modEg (fun e => { e with ptpOut := e.ptpOut ++ [ptpMessage x a] })
    (modTime (fun t => { t with txWin := tput t.txWin (addrLport a) w }) c)

theorem ptpSend_queues {x : Ctx} {c : Chip} {a : List Word} {w : RateWin} (ha : (cfg c).addr (bf x.body 0 0 12) = some a)
    (hact : addrActive c (cfg c) (bf x.body 0 0 12) = true) (hup : lportUp c (addrLport a) = true) (hlo : 34 ≤ bf x.body 4 0 11)
    (hhi : bf x.body 4 0 11 ≤ 1024) (hmtu : udpFrame a (bf x.body 4 0 11) ≤ (getPort c (addrLport a / 4)).mtu)
    (hw : (tget RateWin.zero c.time.txWin (addrLport a)).take (localNs c) 1024 = some w) : ptpSend x c = ptpQueued x a w c := by
  have hlen : ¬ (bf x.body 4 0 11 < 34 ∨ 1024 < bf x.body 4 0 11 ∨ (getPort c (addrLport a / 4)).mtu < udpFrame a (bf x.body 4 0 11)) := by
    omega
  simp only [ptpSend, ha, hact, hup, hlen, hw, Bool.not_true, Bool.or_self, Bool.false_eq_true, if_false]
  rfl

/-- The command is not over while its message waits. -/
theorem ptpQueued_slot_busy {op : Nat} {r : CmdRef} {s : State} (x : Ctx) (a : List Word) (w : RateWin) (h : Served op r s) :
    (getSlot (ptpQueued x a w (took r s)) (slotKey r.fn r.slot)).st = .busy := by
  show (getSlot (took r s) (slotKey r.fn r.slot)).st = .busy
  rw [getSlot_took]
  exact served_busy h

/-! GX_EGRESS_COUNTERS. -/

/-- The counters of a scope answer, and start again from 0 where RESET asks for it (R615). -/
def egressRead (x : Ctx) (scope : Nat) (c : Chip) : Chip :=
  x.done (Res.ok (ctrWords c 0x0403 scope 14)) (if bit (bw x.body 8) 0 then ctrClear 0x0403 scope 14 c else c)

theorem egressCounters_port {x : Ctx} {c : Chip} (hb : bit (bw x.body 0) 0 = false) (hop : x.operator = true) (hi : bw x.body 4 < 8) :
    egressCounters x c = egressRead x (bw x.body 4) c := by
  simp only [egressCounters, hb, hop, Nat.not_le.2 hi, Bool.not_true, Bool.false_eq_true, if_false]
  rfl

theorem egressCounters_leg {x : Ctx} {c : Chip} {o : Obj} (hb : bit (bw x.body 0) 0 = true) (ht : idType (bw x.body 4) = tLeg)
    (hn : x.names (cfg c) (bw x.body 4) = some o) : egressCounters x c = egressRead x (scope2 (idIndex (bw x.body 4))) c :=
  (if_pos hb).trans (Ctx.withObj_named ht hn)

/-- Settles O48: each row and command on the branch that its hypotheses leave. -/
theorem egressRows : Obligations.EgressRows := by
  unfold Obligations.EgressRows
  refine ⟨?select, fun s lp l cls k hsel hup hk => act_onChip (frameTransmit_leaves hsel hup hk),
    fun s lp l cls k p hsel hup hk => act_onChip (frameTransmit_poisoned hsel hup hk),
    fun s lp l cls k p hsel hdown => act_onChip (frameTransmit_linkDown hsel hdown),
    fun s lp p x hsel hx hup => act_onChip (frameTransmit_ptp hsel hx hup),
    fun s l cls k q hq hen => act_onChip (launchReached_head hq hen), ?recover, ?ptp,
    fun s r h hb hop hi => serve_ends h rfl (egressCounters_port hb hop hi),
    fun s r o h hb ht hn => serve_ends h rfl (egressCounters_leg hb ht hn)⟩
  case select =>
    rintro s lp bad c0 c1 c2 rfl rfl hup hsel hptp hbucket rfl
    exact act_onChip (if_neg (not_held_back hup hsel hptp hbucket))
  case recover =>
    rintro s l lp r rfl rfl hq hr
    exact act_onChip (if_neg (not_idle_leg hq hr))
  case ptp =>
    intro s r a w h ha hact hup hlo hhi hmtu hw
    have hrun : serve 0x0C02 r noFields ptpSend s.chip = ptpQueued (ctxAt r s) a w (took r s) := by
      rw [serve_served h rfl, ptpSend_queues (x := ctxAt r s) (c := took r s) ha hact hup hlo hhi hmtu hw]
      exact cancelAt_of_not_progress _ _ (by rw [ptpQueued_slot_busy _ _ _ h]; decide)
    exact ⟨_, act_onChip hrun, rfl, ptpQueued_slot_busy _ _ _ h, rfl, rfl⟩

end Sys2Proof.Machine
end

section
/-!
SUPPORT. Audio (R272 to R300): when a block starts and where, what the tasks and the fabric do with it, and what the commands of audio do, and
the obligation about them.
-/
namespace Sys2Proof.Machine
open Sys2Proof

/-! The grid (R272, R274, R275). -/

/-- Without a move the next block starts at the next boundary, or at the last one that has passed. -/
theorem blockStart_onGrid {c : Chip} (hon : domOn c 11 = true) (hbegun : c.aud.begun = true) (hstay : c.aud.newOrigin = none) :
    blockStart c = releaseAudio
      { waitSvc (blockNs c.aud (max (c.aud.block + 1) (gridIndex c.aud (svc c) / 480))) c with
        aud := { c.aud with block := max (c.aud.block + 1) (gridIndex c.aud (svc c) / 480),
                            lastStart := blockNs c.aud (max (c.aud.block + 1) (gridIndex c.aud (svc c) / 480)), begun := true } } := by
  simp only [blockStart, hon, hbegun, hstay, Bool.not_true, Bool.false_eq_true, if_false, if_true]

/-- The first block from 10 ms after the last start on, on a grid with origin `o`. -/
def movedBlock (o : Nat) (a : Audio) : Int := (((a.lastStart + 10000000 : Nat) : Int) - o + 9999999) / 10000000

/-- What audio holds once it is renumbered to the grid with origin `o`. -/
def movedAudio (o : Nat) (a : Audio) : Audio := { renumber (movedBlock o a - (a.block + 1)) a with origin := o, newOrigin := none }

/-- After a move the next block starts at a boundary of the new grid, and the move is told. -/
theorem blockStart_moved {c : Chip} {o cause : Nat} {shift : Int} (hon : domOn c 11 = true) (hbegun : c.aud.begun = true)
    (hmove : c.aud.newOrigin = some (o, cause, shift)) :
    blockStart c = releaseAudio (gridMoved cause shift
      { waitSvc (blockNs (movedAudio o c.aud) (movedBlock o c.aud)) c with
        aud := { movedAudio o c.aud with block := movedBlock o c.aud, lastStart := blockNs (movedAudio o c.aud) (movedBlock o c.aud) } }) := by
  simp only [blockStart, hon, hbegun, hmove, Bool.not_true, Bool.false_eq_true, if_false, if_true]
  rfl

/-- An edge within 100 ms of the last one that counted does not count. -/
theorem syncEdge_tooSoon {c : Chip} (n : Nat) (hedge : c.aud.lastEdge ≠ 0) (hsoon : svc c < c.aud.lastEdge - 1 + 100000000) :
    syncEdge n c = c :=
  if_neg fun h => h.2.2.elim hedge (Nat.not_le.2 hsoon)

/-! Blocks (R286, R293, R295). -/

theorem inputRow_runs {l slot : Nat} {c : Chip} (hrun : fwRunning c fwAudIn l = some slot)
    (hin : auIn ((cfgAt c (getTask c slot).epoch).audio l) = true) (hsame : sameObj c (cfgAt c (getTask c slot).epoch) tLeg l = true)
    (hnew : (getIn c l).done ≠ some (workBlock c)) :
    inputRow l false c = fwFinish slot (inputBlock (cfgAt c (getTask c slot).epoch) l c) := by
  simp only [inputRow, hrun, hin, hsame, hnew, Bool.not_true, Bool.false_eq_true, or_self, if_false]

theorem mixSelect_runs {grp slot : Nat} {c : Chip} (hrun : fwRunning c fwMix grp = some slot) (hgrp : (cfg c).has tGroup grp = true) :
    mixSelect grp c = fwFinish slot (chooseMix (cfg c) grp (workBlock c) c) := by
  simp only [mixSelect, hrun, hgrp, Bool.not_true, Bool.false_eq_true, if_false]

theorem outputRow_runs {m : Bool} {i slot : Nat} {c : Chip} (hrun : fwRunning c (if m then fwMaster else fwAudOut) i = some slot) :
    outputRow m i c = fwFinish slot (outputBlock m i c) := by
  simp only [outputRow, hrun]

@[simp] theorem getMix_modMix_same (grp : Nat) (f : MixRun → MixRun) (c : Chip) : getMix (modMix grp f c) grp = f (getMix c grp) := by
  simp [getMix, modMix, modAud]

/-- The fabric's work on a group ends with the block's mark. -/
theorem mixed_mixBlock {grp : Nat} {c : Chip} (bad : List Nat) (hbegun : c.aud.begun = true) (hon : domOn c 11 = true)
    (hgrp : (cfg c).has tGroup grp = true) (hnew : (getMix c grp).mixed ≠ some (workBlock c)) (hgoes : stopped c (cfg c) tGroup grp = false) :
    (getMix (mixBlock grp bad c) grp).mixed = some (workBlock c) := by
  simp only [mixBlock, hbegun, hon, hgrp, hnew, hgoes, Bool.not_true, Bool.false_eq_true, or_self, if_false, getMix_modMix_same]

/-! Coefficient profiles (R289). -/

/-- The chip whose coefficient profile `p` is another one. -/
def putProfile (p : Nat) (q : Profile) : Chip → Chip := modAud (fun a => { a with profiles := tput a.profiles p q })

@[simp] theorem putProfile_profiles (p : Nat) (q : Profile) (c : Chip) : (putProfile p q c).aud.profiles = tput c.aud.profiles p q := rfl

@[simp] theorem putProfile_mgmt (p : Nat) (q : Profile) (c : Chip) : (putProfile p q c).mgmt = c.mgmt := rfl

/-- A profile once its swap at grid index `n` has taken effect, while the tasks work on block `blk`. -/
def Profile.swapped (q : Profile) (n blk : Int) : Profile :=
  { q with activeB := !q.activeB, pend := none, swaps := q.swaps.filter (fun e => decide (480 * blk < e.1)) ++ [(n, q.active)] }

theorem swapTakes_pending {p : Nat} {n : Int} {c : Chip} (hpend : (tget Profile.zero c.aud.profiles p).pend = some n) :
    swapTakes p c = raise 29 0x505 none p (unsigned 64 n)
      (putProfile p ((tget Profile.zero c.aud.profiles p).swapped n (workBlock c)) (waitSvc (gridNs c.aud n) c)) := by
  simp only [swapTakes, hpend]
  rfl

/-- A profile whose inactive bank is another image. -/
def Profile.load (q : Profile) (toB : Bool) (image : List Int) : Profile := if toB then { q with bankB := image } else { q with bankA := image }

theorem coefLoad_inactive {x : Ctx} {c : Chip} (hpend : (tget Profile.zero c.aud.profiles (bf x.body 0 0 6)).pend = none)
    (hbank : bit (bw x.body 0) 8 ≠ (tget Profile.zero c.aud.profiles (bf x.body 0 0 6)).activeB) :
    coefLoad x c = x.done (Res.ok [wd (b2n (tget Profile.zero c.aud.profiles (bf x.body 0 0 6)).activeB)])
      (putProfile (bf x.body 0 0 6)
        ((tget Profile.zero c.aud.profiles (bf x.body 0 0 6)).load (bit (bw x.body 0) 8) (bankImage x.body 8)) c) :=
  (if_neg (by simp [hpend])).trans (if_neg hbank)

/-- A swap in the next 10 s is armed for the index that the command names. -/
theorem coefSwap_ahead {x : Ctx} {c : Chip} (hpend : (tget Profile.zero c.aud.profiles (bf x.body 0 0 6)).pend = none)
    (hahead : gridIndex c.aud (svc c) < bd x.body 8) (hnear : (bd x.body 8 : Int) ≤ gridIndex c.aud (svc c) + 480000) (hat : bd x.body 8 ≠ 0) :
    coefSwap x c = x.done (Res.ok (wd2 (unsigned 64 (bd x.body 8)) ++ [wd 0]))
      (putProfile (bf x.body 0 0 6) { tget Profile.zero c.aud.profiles (bf x.body 0 0 6) with pend := some (bd x.body 8 : Int) } c) := by
  simp only [coefSwap, hpend, hat, Int.not_lt.2 hnear, Int.not_le.2 hahead, Option.isSome_none, decide_false, Bool.and_false, Bool.false_eq_true,
    or_self, if_false]
  rfl

/-! The other commands (R275, R285, R300, R615). -/

/-- The event that a GX_DTMF_SEND starts on its leg's output (R285). -/
def dtmfEvent (b : List Word) : DtmfPlay := ⟨bf b 4 0 4, bf b 4 8 6, (bf b 8 0 16 + 9) / 10, bit (bw b 8) 16, 0, 0, 0⟩

theorem dtmfSend_starts {x : Ctx} {c : Chip} {o : Obj} (ht : idType (bw x.body 0) = tLeg) (hn : x.names (cfg c) (bw x.body 0) = some o)
    (hout : auOut ((cfg c).audio (idIndex (bw x.body 0))) = true)
    (hway : auEventSource ((cfg c).audio (idIndex (bw x.body 0))) ≠ 0 ∨ bit (bw x.body 8) 16 = true)
    (hidle : (getOut c (idIndex (bw x.body 0))).dtmf = none) :
    dtmfSend x c = x.done (Res.ok []) (modOut (idIndex (bw x.body 0)) (fun o => { o with dtmf := some (dtmfEvent x.body) }) c) := by
  have hsends : ¬ ((!auOut ((cfg c).audio (idIndex (bw x.body 0)))) = true ∨
      (auEventSource ((cfg c).audio (idIndex (bw x.body 0))) = 0 ∧ (!bit (bw x.body 8) 16) = true)) := by
    rcases hway with hsource | hinband
    · simp [hout, hsource]
    · simp [hout, hinband]
  rw [dtmfSend, Ctx.withObj_named ht hn]
  simp only [hsends, hidle, Option.isSome_none, Bool.false_eq_true, if_false]
  rfl

theorem audioSync_sets {x : Ctx} {c d : Chip} (hset : bit (bw x.body 0) 1 = true)
    (hd : d = setOrigin (if bit (bw x.body 0) 2 then svc c else bd x.body 8 * 1000000000 + bw x.body 16) 1
      (modAud (fun a => { a with syncPinEn := bit (bw x.body 0) 0 }) c)) :
    audioSync x c = x.done (Res.ok (wd2 (d.aud.origin / 1000000000) ++ [wd (d.aud.origin % 1000000000)])) d := by
  subst hd
  simp only [audioSync, hset, if_true]

/-- Of a group, the master output has a meter, and there is no input. -/
theorem meterRead_group {x : Ctx} {c : Chip} {o : Obj} (ht : idType (bw x.body 0) = tGroup) (hn : x.names (cfg c) (bw x.body 0) = some o) :
    meterRead x c = x.done (Res.ok (Meter.zero.words ++ (getMaster c (idIndex (bw x.body 0))).meter.words ++
      wd2 (unsigned 64 (getMaster c (idIndex (bw x.body 0))).meter.block))) c := by
  have hleg : ¬ tGroup = tLeg := by decide
  simp only [meterRead, ht, if_true, Ctx.withObj_named ht hn, hleg, false_and, if_false]

theorem audioCounters_device {x : Ctx} {c : Chip} (hscope : bf x.body 0 0 2 = 2) (hop : x.operator = true) :
    audioCounters x c = x.done (Res.ok ((List.range 12).flatMap (fun i => wd2 (min ctrMax (ctr c 0x0509 scopeDev i)))))
      (if bit (bw x.body 8) 0 then ctrClear 0x0509 scopeDev 12 c else c) := by
  simp only [audioCounters, hscope, hop, if_true, audioScopes, List.map_cons, List.map_nil, List.sum_singleton, List.foldl_cons, List.foldl_nil]

/-- Settles O54: each row and command on the branch that its hypotheses leave. -/
theorem audioRows : Obligations.AudioRows := by
  unfold Obligations.AudioRows
  refine ⟨?start, ?moved, fun s n hpin hhigh hedge => act_onChip (if_pos ⟨hpin, hhigh, hedge⟩),
    fun s n _ hedge hsoon => act_onChip (syncEdge_tooSoon n hedge hsoon), ?input,
    fun s grp slot hrun hgrp => act_onChip (mixSelect_runs hrun hgrp),
    fun s grp bad hbegun hon hgrp hnew hgoes => ⟨_, rfl, mixed_mixBlock bad hbegun hon hgrp hnew hgoes, rfl⟩,
    fun s m i slot hrun => act_onChip (outputRow_runs hrun), ?takes, ?dtmf, ?load, ?swap, ?sync,
    fun s r o h ht hn => serve_ends h rfl (meterRead_group ht hn), ?counters⟩
  case start =>
    rintro s b hon hbegun hstay rfl
    exact act_onChip (blockStart_onGrid hon hbegun hstay)
  case moved =>
    rintro s b o cause shift a hon hbegun hmove rfl rfl
    exact act_onChip (blockStart_moved hon hbegun hmove)
  case input =>
    rintro s l slot g hrun hin rfl hsame hnew
    exact act_onChip (inputRow_runs hrun hin hsame hnew)
  case takes =>
    intro s p n hpend
    obtain ⟨e, hraised, hcode, -⟩ := raise_incoming 29 0x505 none p (unsigned 64 n)
      (putProfile p ((tget Profile.zero s.chip.aud.profiles p).swapped n (workBlock s.chip)) (waitSvc (gridNs s.chip.aud n) s.chip))
    exact ⟨_, act_onChip (swapTakes_pending hpend), tget_tput_same .., ⟨e, hraised.trans (by simp), hcode⟩, rfl⟩
  case dtmf =>
    rintro s r o d h ht hn hlo hhi hout hway hidle rfl
    exact serve_ends h (by rw [dtmfFields, outside_false hlo hhi]; rfl) (dtmfSend_starts ht hn hout hway hidle)
  case load =>
    rintro s r q q2 h hprofile rfl hpend hbank rfl
    exact serve_ends h (by simp [coefFields, firstBad, hprofile]) (coefLoad_inactive hpend hbank)
  case swap =>
    rintro s r q h rfl hpend hahead hnear hat
    exact serve_ends h rfl (coefSwap_ahead hpend hahead hnear hat)
  case sync =>
    rintro s r c h hns hset hc
    exact serve_ends h (by simp [audioSyncFields, firstBad, hns]) (audioSync_sets hset hc)
  case counters =>
    rintro s r h hscope hop
    exact serve_ends h (by simp [firstBad, hscope]) (audioCounters_device hscope hop)

end Sys2Proof.Machine
end

section
/-!
SUPPORT. Engines (R398 to R425): what the shared updates of an engine, a cluster and a program's record leave, and how a bundle of one word
that may issue on the primary set ends.
-/
namespace Sys2Proof.Machine
open Sys2Proof

/-! Tables of engines, clusters and programs. -/

theorem getEng_congr {c d : Chip} (h : d.eng = c.eng) (e : Nat) : getEng d e = getEng c e :=
  congrArg (fun n : Engines => tget Engine.zero n.engines e) h

@[simp] theorem getEng_putEng_same (e : Nat) (x : Engine) (c : Chip) : getEng (putEng e x c) e = x := tget_tput_same _ _ _ _

@[simp] theorem getEng_modEng_same (e : Nat) (f : Engine → Engine) (c : Chip) : getEng (modEng e f c) e = f (getEng c e) :=
  getEng_putEng_same _ _ _

@[simp] theorem getEng_modCluster (cl e : Nat) (f : Cluster → Cluster) (c : Chip) : getEng (modCluster cl f c) e = getEng c e := rfl

@[simp] theorem getEng_modProg (i e : Nat) (f : ProgRun → ProgRun) (c : Chip) : getEng (modProg i f c) e = getEng c e := rfl

@[simp] theorem getCluster_modCluster_same (cl : Nat) (f : Cluster → Cluster) (c : Chip) :
    getCluster (modCluster cl f c) cl = f (getCluster c cl) := tget_tmod_same _ _ _ _

theorem getCluster_modCluster_other {cl k : Nat} (f : Cluster → Cluster) (c : Chip) (h : cl ≠ k) :
    getCluster (modCluster cl f c) k = getCluster c k := tget_tmod_other _ _ _ _ h

@[simp] theorem getCluster_putEng (e cl : Nat) (x : Engine) (c : Chip) : getCluster (putEng e x c) cl = getCluster c cl := rfl

@[simp] theorem getCluster_draw (cl : Nat) (c : Chip) : getCluster (draw c).2 cl = getCluster c cl := rfl

@[simp] theorem modEng_time (e : Nat) (f : Engine → Engine) (c : Chip) : (modEng e f c).time = c.time := rfl
@[simp] theorem modEng_mgmt (e : Nat) (f : Engine → Engine) (c : Chip) : (modEng e f c).mgmt = c.mgmt := rfl
@[simp] theorem modProg_sched (i : Nat) (f : ProgRun → ProgRun) (c : Chip) : (modProg i f c).sched = c.sched := rfl
@[simp] theorem modProg_time (i : Nat) (f : ProgRun → ProgRun) (c : Chip) : (modProg i f c).time = c.time := rfl

/-! Sets of an engine. -/

@[simp] theorem Engine.set_putSet_same (x : Engine) (sh : Bool) (u : USet) : (x.putSet sh u).set sh = u := by cases sh <;> rfl

@[simp] theorem set_modEng_putSet (e : Nat) (sh : Bool) (u : USet) (c : Chip) :
    (getEng (modEng e (fun x => x.putSet sh u) c) e).set sh = u := by simp

/-- A page that is wanted touches the instruction memory alone. -/
theorem wantPage_eq (p : Nat × Nat × Nat) (x : Engine) : ∃ ps ls, wantPage p x = { x with pages := ps, loading := ls } := by
  unfold wantPage
  split
  · exact ⟨_, _, rfl⟩
  · split <;> exact ⟨_, _, rfl⟩

@[simp] theorem wantPage_prim (p : Nat × Nat × Nat) (x : Engine) : (wantPage p x).prim = x.prim := by
  obtain ⟨_, _, h⟩ := wantPage_eq p x; rw [h]
@[simp] theorem wantPage_shad (p : Nat × Nat × Nat) (x : Engine) : (wantPage p x).shad = x.shad := by
  obtain ⟨_, _, h⟩ := wantPage_eq p x; rw [h]
@[simp] theorem wantPage_mem (p : Nat × Nat × Nat) (x : Engine) : (wantPage p x).mem = x.mem := by
  obtain ⟨_, _, h⟩ := wantPage_eq p x; rw [h]

/-! A bundle of one word on the primary set. -/

/-- What a bundle of the primary set finds besides its set. -/
def bundleEnv (c : Chip) (e : Nat) : UEnv := { shadow := false, engine := e, ns := svc c % 2 ^ 48, free := Config.fresh c.free }

/-- The memories that a bundle finds. -/
def bundleMem (c : Chip) (e : Nat) : UMem := { loc := (getEng c e).mem, shr := (getCluster c (e / 32)).shared }

/-- The engine at the issue of a bundle: its page moves to the front. -/
def engAtIssue (c : Chip) (e : Nat) : Engine := wantPage (getEng c e).prim.page (getEng c e)

/-- The chip once a bundle has made `u` of the primary set and `m` of the memories. -/
def bundleLeft (e : Nat) (u : USet) (m : UMem) (c : Chip) : Chip :=
  modCluster (e / 32) (fun cl => { cl with shared := m.shr })
    (putEng e { engAtIssue c e with prim := u, mem := m.loc } (draw c).2)

/-- The chip at the exception of a bundle that has found `u` as its set. -/
def bundleTrapped (e : Nat) (u : USet) (c : Chip) : Chip := putEng e { engAtIssue c e with prim := u } (draw c).2

/-- A set that has reached END with a status. -/
def USet.ended (u : USet) (status : Nat) : USet := { u with stall := .ending, status := status, exc := 0 }

/-- How a bundle whose effect on the set `u0` is `r` ends (R404, R419, R425). -/
def bundleEnds (e : Nat) (u0 : USet) (r : UStep) (c : Chip) : Chip :=
  match r.out with
  | .next => bundleLeft e (r.set.advance 1) r.mem c
  | .stall w => putEng e { engAtIssue c e with prim := { u0 with stall := w } } c
  | .exc cause detail bad => exception e false cause detail bad (bundleTrapped e u0 c)
  | .fin st => leaveSet e false (bundleLeft e (r.set.ended st) r.mem c)

/-- An instruction of the scalar slot that may issue alone has its own effect and no other. -/
theorem issue_alone {s : State} {e : Nat} {i : UIns} (h : engRuns s e i) (hi : i.isMul = false) :
    issue e i none s.chip = bundleEnds e (engSet s e) (uScalar (bundleEnv s.chip e) i (engSet s e) (bundleMem s.chip e)) s.chip := by
  obtain ⟨hmay, hprim, hlegal⟩ := h
  have hmem : bundleMem s.chip e = { loc := (engAtIssue s.chip e).mem, shr := (getCluster s.chip (e / 32)).shared } := by
    simp [bundleMem, engAtIssue]
  rw [hmem]
  simp only [issue, hmay, hprim, Engine.set, Engine.putSet, wantPage_prim, hlegal, uBundle, hi, Bool.not_true, Bool.false_eq_true, if_false,
    Option.isSome_none]
  rfl

/-- An instruction that lets its bundle issue leaves the set that it has made, and its memories. -/
theorem issue_next {s : State} {e : Nat} {i : UIns} {u : USet} {m : UMem} (h : engRuns s e i) (hi : i.isMul = false)
    (hu : uScalar (bundleEnv s.chip e) i (engSet s e) (bundleMem s.chip e) = ⟨.next, u, m⟩) :
    issue e i none s.chip = bundleLeft e (u.advance 1) m s.chip := by
  rw [issue_alone h hi, hu]; rfl

@[simp] theorem getEng_bundleLeft (e : Nat) (u : USet) (m : UMem) (c : Chip) :
    getEng (bundleLeft e u m c) e = { engAtIssue c e with prim := u, mem := m.loc } := by simp [bundleLeft]

@[simp] theorem shared_bundleLeft (e : Nat) (u : USet) (m : UMem) (c : Chip) : (getCluster (bundleLeft e u m c) (e / 32)).shared = m.shr := by
  simp [bundleLeft]

@[simp] theorem bundleLeft_sched (e : Nat) (u : USet) (m : UMem) (c : Chip) : (bundleLeft e u m c).sched = c.sched := rfl

/-- The bundle has issued as `issuedAs` says. -/
theorem issuedAs_bundleLeft (s : State) (e : Nat) (u : USet) (m : UMem) :
    issuedAs s (onChip s (bundleLeft e (u.advance 1) m s.chip)) e u := by
  refine ⟨?_, ?_, rfl, rfl⟩ <;> simp [engAtIssue]

/-- A bundle that leaves the memories as they were has written none of any cluster. -/
theorem issuedQuiet_bundleLeft (s : State) (e : Nat) (u : USet) :
    issuedQuiet s (onChip s (bundleLeft e (u.advance 1) (bundleMem s.chip e) s.chip)) e u := by
  refine ⟨issuedAs_bundleLeft s e u _, by simp [bundleMem], fun cl => ?_⟩
  by_cases hcl : e / 32 = cl
  · subst hcl; simp [bundleMem]
  · simp [bundleLeft, getCluster_modCluster_other _ _ hcl]

/-- The row of an instruction that lets its bundle issue and writes no memory. -/
theorem issue_quiet {s : State} {e : Nat} {i : UIns} {u : USet} (h : engRuns s e i) (hi : i.isMul = false)
    (hu : uScalar (bundleEnv s.chip e) i (engSet s e) (bundleMem s.chip e) = ⟨.next, u, bundleMem s.chip e⟩) :
    ∃ t, act s (issue e i none) = .next t ∧ issuedQuiet s t e u :=
  ⟨_, act_onChip (issue_next h hi hu), issuedQuiet_bundleLeft s e u⟩

end Sys2Proof.Machine
end

section
/-!
SUPPORT. Instructions of the scalar slot that reach a memory or a transfer (R403, R414 to R419), and the obligation about the slot.
-/
namespace Sys2Proof.Machine
open Sys2Proof

section
variable {v : UEnv} {s : USet} {m : UMem} {k : Nat} {d : Int} {r : URange} {a : Nat}

/-- A 32-bit load of a clean word (R405, R415). -/
theorem uLoad_word (t : Nat) (hat : (s.address k (.offset d) 4).1.toNat = a) (ha : a % 4 = 0) (hr : urange v.shadow s a 4 = some r)
    (hclean : (m.word r a).poison = false) :
    uLoad v t k (.offset d) 2 false s m = ⟨.next, s.result (.g t) (BitVec.ofNat 64 ((m.word r a).get a 4)) 3 false, m⟩ := by
  have hlow : (m.word r a).get a 4 % 2 ^ 32 = (m.word r a).get a 4 := Nat.mod_mod _ _
  simp only [uLoad, show 2 ^ 2 = 4 from rfl, hat, access, ha, hr, hclean, hlow, Bool.false_eq_true, false_and, if_true, if_false,
    show ¬ 2 = 3 by decide]
  rfl

/-- A 32-bit store replaces its bytes in the word (R415). -/
theorem uStore_word (t : Nat) (hat : (s.address k (.offset d) 4).1.toNat = a) (ha : a % 4 = 0) (hr : urange v.shadow s a 4 = some r) :
    uStore v t k (.offset d) 2 s m = ⟨.next, s, m.put r a ((m.word r a).set a 4 (s.rg t).toNat)⟩ := by
  simp only [uStore, show 2 ^ 2 = 4 from rfl, hat, access, ha, hr, if_true, if_false, show ¬ 2 = 3 by decide, Nat.add_zero]
  rfl

/-- An atomic addition reads the old word and stores the sum (R414). -/
theorem uAtomic_add (t : Nat) (hat : (s.address k (.offset d) 4).1.toNat = a) (ha : a % 4 = 0)
    (hr : urange v.shadow s a 4 = some .shared) (hclean : (m.word .shared a).poison = false) :
    uAtomic v 0 t k (.offset d) s m =
      ⟨.next, s.result (.g t) ((wd ((m.word .shared a).get a 4)).setWidth 64) 3 false,
        m.put .shared a ((m.word .shared a).set a 4 (wd ((m.word .shared a).get a 4) + s.rg t).toNat)⟩ := by
  simp only [uAtomic, hat, access, ha, hr, hclean, Bool.false_eq_true, if_true, if_false]
  rfl

/-- A range below the shadow set's part of local memory is local to the primary set (R400). -/
theorem urange_local {n : Nat} (h : a + n ≤ 0xE000) : urange false s a n = some .local_ := by simp [urange, h]

/-- The transfer that the two words of a descriptor describe (R416). -/
def xferOf (w0 w1 : PWord) : Xfer :=
  { tag := bits (w0.get 4 4) 29 3, local_ := w0.get 0 4, length := bits (w0.get 4 4) 0 20, out := bit (w0.get 4 4) 28,
    handle := w1.get 0 4, offset := w1.get 4 4, failed := 0 }

/-- XFER of a clean descriptor while no transfer is outstanding (R416, R417). -/
theorem uXfer_starts {s1 : Nat} (hv : v.shadow = false) (hat : (s.rg s1).toNat = a) (ha : a % 16 = 0) (hin : a + 16 ≤ 0xE000)
    (hclean : (m.word .local_ a).poison = false) (hclean8 : (m.word .local_ (a + 8)).poison = false) (hidle : s.open_ = []) :
    uXfer v s1 s m = ⟨.next, { s with xfers := s.xfers ++ [xferOf (m.word .local_ a) (m.word .local_ (a + 8))] }, m⟩ := by
  simp [uXfer, hv, hat, ha, urange_local hin, hclean, hclean8, hidle, xferOf]

/-- Without transfers WAIT passes (R417). -/
theorem uWait_passes {mask : Nat} (h : s.xfers = []) : uWait mask s m = ⟨.next, s, m⟩ := by simp [uWait, USet.open_, h]

/-- With no transfer outstanding FENCE passes (R419). -/
theorem uFence_passes (h : s.open_ = []) : uFence s m = ⟨.next, s, m⟩ := if_pos h

end

/-- Settles O32: each instruction lets its bundle issue with the set and the memories that it makes. -/
theorem engineScalar : Obligations.EngineScalar := by
  unfold Obligations.EngineScalar
  refine ⟨fun s e d s1 op v h => issue_quiet h rfl rfl, ?load, ?store, ?atomic, ?xfer, fun s e m h hx => issue_quiet h rfl (uWait_passes hx),
    fun s e h hx => issue_quiet h rfl (uFence_passes hx), fun s e cond s1 off h => issue_quiet h rfl rfl,
    fun s e s1 link h => issue_quiet h rfl rfl, fun s e h => issue_quiet h rfl rfl, fun s e d h => issue_quiet h rfl rfl,
    fun s e s1 h => issue_quiet h rfl rfl⟩
  case load => exact fun s e x k d h ha hr hclean => issue_quiet h rfl (uLoad_word (m := bundleMem s.chip e) (r := .local_) x rfl ha hr hclean)
  case store =>
    intro s e x k d h ha hr
    refine ⟨_, act_onChip (issue_next h rfl (uStore_word x rfl ha hr)), issuedAs_bundleLeft .., ?_, fun w hw => ?_⟩
    all_goals rw [onChip_chip, getEng_bundleLeft]
    · exact tget_tput_same ..
    · exact tget_tput_other _ _ _ (Ne.symm hw)
  case atomic =>
    intro s e x k d h ha hr hclean
    have hadds := issue_next h rfl (uAtomic_add (m := bundleMem s.chip e) x rfl ha hr hclean)
    refine ⟨_, act_onChip hadds, ⟨_, issuedAs_bundleLeft .., List.length_append⟩, ?_⟩
    rw [onChip_chip, shared_bundleLeft]
    exact tget_tput_same ..
  case xfer =>
    intro s e s1 h ha hin hclean hclean8 hidle
    have hnext : ((engSet s e).rg s1).toNat / 8 + 1 = (((engSet s e).rg s1).toNat + 8) / 8 := by omega
    rw [hnext] at hclean8 ⊢
    obtain ⟨t, hrow, hquiet⟩ := issue_quiet h rfl (uXfer_starts (m := bundleMem s.chip e) rfl rfl ha hin hclean hclean8 hidle)
    exact ⟨t, _, hrow, hquiet, rfl, by simp [xferOf, PWord.get, UMem.word, bundleMem]⟩

end Sys2Proof.Machine
end

section
/-!
SUPPORT. The end of a program on an engine (R419, R421, R425, R426, R430, R431): what an exception and an END leave of the engine and of the task,
and how the tasks of an engine end that fails or retires.
-/
namespace Sys2Proof.Machine
open Sys2Proof

/-! Tasks that a unit has done with. -/

theorem SchedOnly.eng {c d : Chip} (h : SchedOnly c d) : d.eng = c.eng := by obtain ⟨_, _, _, _, rfl⟩ := h; rfl

theorem SchedOnly.time {c d : Chip} (h : SchedOnly c d) : d.time = c.time := by obtain ⟨_, _, _, _, rfl⟩ := h; rfl

theorem getTask_congr {c d : Chip} (h : d.sched = c.sched) (n : Nat) : getTask d n = getTask c n :=
  congrArg (fun x : Sched => tget Task.zero x.tasks n) h

@[simp] theorem getEng_unitDone (n st : Nat) (exc : BitVec 64) (aov sat : Bool) (c : Chip) (e : Nat) :
    getEng (unitDone n st exc aov sat c) e = getEng c e := getEng_congr (SchedOnly.of_unitDone n st exc aov sat c).eng e

@[simp] theorem unitDone_time (n st : Nat) (exc : BitVec 64) (aov sat : Bool) (c : Chip) : (unitDone n st exc aov sat c).time = c.time :=
  (SchedOnly.of_unitDone n st exc aov sat c).time

/-- A running task of a unit that has done with it (R439). -/
theorem getTask_unitDone {n st : Nat} {exc : BitVec 64} {aov sat : Bool} {c : Chip} (h : (getTask c n).st = .running) :
    getTask (unitDone n st exc aov sat c) n = { getTask c n with done := true, status := st, exc := exc, aov := aov, sat := sat } := by
  rw [unitDone, if_pos h]
  exact tget_tput_same ..

/-! A set that becomes idle. -/

/-- The engine whose set has become idle (R423). -/
def Engine.freed (x : Engine) (sh : Bool) : Engine := { (x.putSet sh .zero) with inShadow := if sh then false else x.inShadow }

@[simp] theorem Engine.freed_putSet (x : Engine) (sh : Bool) (u : USet) : (x.putSet sh u).freed sh = x.freed sh := by cases sh <;> rfl

@[simp] theorem getEng_freeSet (e : Nat) (sh : Bool) (c : Chip) : getEng (freeSet e sh c) e = (getEng c e).freed sh := by
  simp only [freeSet, getEng_modCluster, getEng_modEng_same, Engine.freed]

@[simp] theorem freeSet_time (e : Nat) (sh : Bool) (c : Chip) : (freeSet e sh c).time = c.time := rfl

/-! Exceptions (R425, R426). -/

/-- The exception word of a cause is not 0, which stands for none. -/
theorem excWord_ne_zero {cause : Nat} {dslot : Bool} {pc : Word} (h : cause % 16 ≠ 0) (detail bad : Nat) (sh : Bool) :
    excWord cause detail bad dslot sh pc ≠ 0 := by
  intro h0
  have hval := congrArg BitVec.toNat h0
  simp only [excWord, BitVec.toNat_ofNat, BitVec.ofNat_eq_ofNat, Nat.zero_mod] at hval
  omega

@[simp] theorem getEng_endFailed (e : Nat) (sh : Bool) (exc : BitVec 64) (c : Chip) : getEng (endFailed e sh exc c) e = (getEng c e).freed sh := by
  simp only [endFailed, getEng_congr (raiseRated_eng ..), getEng_modProg, getEng_unitDone, getEng_freeSet]

@[simp] theorem endFailed_time (e : Nat) (sh : Bool) (exc : BitVec 64) (c : Chip) : (endFailed e sh exc c).time = c.time := by
  simp [endFailed]

/-- A running task that ends with an exception has its word and status 0x8001. -/
theorem getTask_endFailed {e : Nat} {sh : Bool} {exc : BitVec 64} {c : Chip} {u : USet} (hset : (getEng c e).set sh = u)
    (hrun : (getTask c (u.task - 1)).st = .running) :
    getTask (endFailed e sh exc c) (u.task - 1) =
      { getTask c (u.task - 1) with done := true, status := 0x8001, exc := exc, aov := u.aov, sat := u.sat } := by
  subst hset
  simp only [endFailed, getTask_congr (raiseRated_sched ..), getTask_congr (modProg_sched ..)]
  exact getTask_unitDone hrun

/-- The exception word that a set ends with. -/
def USet.excOf (u : USet) (sh : Bool) (cause detail bad : Nat) : BitVec 64 := excWord cause detail bad u.branch.isSome sh u.pc

/-- A set that ends with an exception and has no outstanding transfer. -/
theorem leaveSet_fails {e : Nat} {sh : Bool} {c : Chip} {u : USet} (hset : (getEng c e).set sh = u) (hend : u.stall = .ending)
    (hidle : u.open_ = []) (hexc : u.exc ≠ 0) : leaveSet e sh c = endFailed e sh u.exc c := by
  simp only [leaveSet, hset, hend, hidle, hexc, ne_eq, not_true_eq_false, not_false_eq_true, or_self, if_true, if_false]

/-- A set that an exception stops, with the word of R426. -/
def USet.trapped (u : USet) (sh : Bool) (cause detail bad : Nat) : USet := { u with stall := .ending, exc := u.excOf sh cause detail bad }

/-- An exception of a set without outstanding transfers ends its task at once. -/
theorem exception_idle {e cause : Nat} {sh : Bool} {c : Chip} {u : USet} (hset : (getEng c e).set sh = u) (hidle : u.open_ = [])
    (hcause : cause % 16 ≠ 0) (detail bad : Nat) :
    exception e sh cause detail bad c =
      endFailed e sh (u.excOf sh cause detail bad) (modEng e (fun x => x.putSet sh (u.trapped sh cause detail bad)) c) := by
  subst hset
  exact leaveSet_fails (u := ((getEng c e).set sh).trapped sh cause detail bad) (set_modEng_putSet ..) rfl hidle (excWord_ne_zero hcause _ _ _)

/-! What the engine, its task and the local time are after such an exception. -/

theorem getEng_exception {e cause : Nat} {sh : Bool} {c : Chip} {u : USet} (hset : (getEng c e).set sh = u) (hidle : u.open_ = [])
    (hcause : cause % 16 ≠ 0) (detail bad : Nat) : getEng (exception e sh cause detail bad c) e = (getEng c e).freed sh := by
  simp [exception_idle hset hidle hcause]

theorem exception_time {e cause : Nat} {sh : Bool} {c : Chip} {u : USet} (hset : (getEng c e).set sh = u) (hidle : u.open_ = [])
    (hcause : cause % 16 ≠ 0) (detail bad : Nat) : (exception e sh cause detail bad c).time = c.time := by
  simp [exception_idle hset hidle hcause]

theorem getTask_exception {e cause : Nat} {sh : Bool} {c : Chip} {u : USet} (hset : (getEng c e).set sh = u) (hidle : u.open_ = [])
    (hcause : cause % 16 ≠ 0) (hrun : (getTask c (u.task - 1)).st = .running) (detail bad : Nat) :
    getTask (exception e sh cause detail bad c) (u.task - 1) =
      { getTask c (u.task - 1) with done := true, status := 0x8001, exc := u.excOf sh cause detail bad, aov := u.aov, sat := u.sat } := by
  rw [exception_idle hset hidle hcause]
  exact getTask_endFailed (u := u.trapped sh cause detail bad) (set_modEng_putSet ..) hrun

/-! END (R419, R421). -/

/-- A set that has reached END with no transfer left becomes idle, and its task has the status. -/
theorem leaveSet_completes {e : Nat} {sh : Bool} {c : Chip} {u : USet} (hset : (getEng c e).set sh = u) (hend : u.stall = .ending)
    (hnone : u.xfers = []) (hexc : u.exc = 0) :
    leaveSet e sh c =
      modProg u.program (fun p => { p with completed := p.completed + 1 }) (unitDone (u.task - 1) u.status 0 u.aov u.sat (freeSet e sh c)) := by
  simp only [leaveSet, hset, hend, hnone, hexc, USet.open_, List.filter_nil, ne_eq, not_true_eq_false, or_self, if_false]

theorem getEng_completed {e : Nat} {sh : Bool} {c : Chip} {u : USet} (hset : (getEng c e).set sh = u) (hend : u.stall = .ending)
    (hnone : u.xfers = []) (hexc : u.exc = 0) : getEng (leaveSet e sh c) e = (getEng c e).freed sh := by
  rw [leaveSet_completes hset hend hnone hexc, getEng_modProg, getEng_unitDone, getEng_freeSet]

theorem getTask_completed {e : Nat} {sh : Bool} {c : Chip} {u : USet} (hset : (getEng c e).set sh = u) (hend : u.stall = .ending)
    (hnone : u.xfers = []) (hexc : u.exc = 0) (hrun : (getTask c (u.task - 1)).st = .running) :
    getTask (leaveSet e sh c) (u.task - 1) =
      { getTask c (u.task - 1) with done := true, status := u.status, exc := 0, aov := u.aov, sat := u.sat } := by
  rw [leaveSet_completes hset hend hnone hexc, getTask_congr (modProg_sched ..)]
  exact getTask_unitDone hrun

/-- END (R421). -/
theorem issue_end {s : State} {e s1 : Nat} (h : engRuns s e (.end_ s1)) :
    issue e (.end_ s1) none s.chip =
      leaveSet e false (bundleLeft e ((engSet s e).ended (((engSet s e).rg s1).toNat % 65536)) (bundleMem s.chip e) s.chip) := issue_alone h rfl

/-- BREAK (R425). -/
theorem issue_break {s : State} {e code : Nat} (h : engRuns s e (.break_ code)) :
    issue e (.break_ code) none s.chip = exception e false 6 code 0 (bundleTrapped e (engSet s e) s.chip) := issue_alone h rfl

/-! Engines that fail or retire (R425, R430, R431). -/

/-- A set whose outstanding transfers are cut off. -/
def USet.cut (u : USet) : USet := { u with xfers := u.xfers.filter (fun y => y.failed != 0) }

@[simp] theorem USet.open_cut (u : USet) : u.cut.open_ = [] := by simp [USet.open_, USet.cut]

/-- One set's task of an engine ends with ENGINE_FAULT of a detail. -/
def faultSet (e detail : Nat) (sh : Bool) (c : Chip) : Chip :=
  let u := (getEng c e).set sh
  if u.task = 0 then c
  else exception e sh 7 detail 0 (modEng e (fun x => x.putSet sh u.cut) c)

/-- The task that waits for urgent entry ends likewise. -/
def faultUrgent (e detail : Nat) (c : Chip) : Chip :=
  let u := (getEng c e).urgent
  if u = 0 then c
  else unitDone (u - 1) 0x8001 (excWord 7 detail 0 false true 0) false false (modEng e (fun x => { x with urgent := 0 }) c)

theorem faultTasks_eq (e detail : Nat) (c : Chip) :
    faultTasks e detail c = faultUrgent e detail (faultSet e detail false (faultSet e detail true c)) := rfl

theorem getEng_faultSet (e detail : Nat) (sh : Bool) (c : Chip) :
    getEng (faultSet e detail sh c) e = if ((getEng c e).set sh).task = 0 then getEng c e else (getEng c e).freed sh := by
  unfold faultSet
  dsimp only
  split
  · rfl
  · rw [getEng_exception (set_modEng_putSet ..) (USet.open_cut _) (by decide)]
    simp

@[simp] theorem faultSet_time (e detail : Nat) (sh : Bool) (c : Chip) : (faultSet e detail sh c).time = c.time := by
  unfold faultSet
  dsimp only
  split
  · rfl
  · rw [exception_time (set_modEng_putSet ..) (USet.open_cut _) (by decide), modEng_time]

theorem getEng_faultUrgent (e detail : Nat) (c : Chip) : getEng (faultUrgent e detail c) e = { getEng c e with urgent := 0 } := by
  unfold faultUrgent
  dsimp only
  split
  case isTrue h => rw [← h]
  case isFalse => simp

@[simp] theorem faultUrgent_time (e detail : Nat) (c : Chip) : (faultUrgent e detail c).time = c.time := by
  unfold faultUrgent
  dsimp only
  split <;> simp

@[simp] theorem faultTasks_time (e detail : Nat) (c : Chip) : (faultTasks e detail c).time = c.time := by simp [faultTasks_eq]

/-- Nothing runs any more on an engine whose tasks have ended. -/
theorem getEng_faultTasks (e detail : Nat) (c : Chip) :
    (getEng (faultTasks e detail c) e).prim.task = 0 ∧ (getEng (faultTasks e detail c) e).shad.task = 0 ∧
      (getEng (faultTasks e detail c) e).urgent = 0 ∧ (getEng (faultTasks e detail c) e).retireAt = (getEng c e).retireAt := by
  rw [faultTasks_eq, getEng_faultUrgent, getEng_faultSet, getEng_faultSet]
  by_cases hshad : (getEng c e).shad.task = 0 <;> by_cases hprim : (getEng c e).prim.task = 0 <;>
    simp [Engine.set, hshad, hprim, Engine.freed, Engine.putSet, USet.zero]

/-- 50 ms after its retirement the tasks still on an engine end (R430). -/
theorem retireTimeout_due {e : Nat} {c : Chip} (h : (getEng c e).retireAt ≠ 0) :
    retireTimeout e c = faultTasks e 2 (modEng e (fun x => { x with retireAt := 0 }) (waitLocal (getEng c e).retireAt c)) := if_neg h

/-- Then nothing runs on the engine any more. -/
theorem retireTimeout_idle {e : Nat} {c : Chip} (h : (getEng c e).retireAt ≠ 0) :
    (getEng (retireTimeout e c) e).retireAt = 0 ∧ (getEng (retireTimeout e c) e).prim.task = 0 ∧
      (getEng (retireTimeout e c) e).shad.task = 0 ∧ (getEng (retireTimeout e c) e).urgent = 0 ∧
        (getEng c e).retireAt ≤ localNs (retireTimeout e c) := by
  rw [retireTimeout_due h]
  obtain ⟨hprim, hshad, hurgent, hretire⟩ := getEng_faultTasks e 2
    (modEng e (fun x => { x with retireAt := 0 }) (waitLocal (getEng c e).retireAt c))
  refine ⟨by rw [hretire, getEng_modEng_same], hprim, hshad, hurgent, ?_⟩
  rw [localNs, faultTasks_time]
  exact le_localNs_waitLocal _ _

/-- An engine that runs nothing has no task to end. -/
theorem faultTasks_idle {e : Nat} {c : Chip} (hprim : (getEng c e).prim.task = 0) (hshad : (getEng c e).shad.task = 0)
    (hurgent : (getEng c e).urgent = 0) (detail : Nat) : faultTasks e detail c = c := by
  have hset (sh : Bool) : faultSet e detail sh c = c := if_pos (by cases sh <;> assumption)
  rw [faultTasks_eq, hset, hset]
  exact if_pos hurgent

/-- The time at which a retirement ends an engine's tasks is apart from whether the engine takes tasks. -/
theorem stopped_retireAt (t : Tbl Engine) (k e ns : Nat) :
    (tget Engine.zero (tmod Engine.zero t k (fun x => { x with retireAt := ns })) e).stopped = (tget Engine.zero t e).stopped := by
  by_cases h : k = e
  · subst h; rw [tget_tmod_same]
  · rw [tget_tmod_other _ _ _ _ h]

/-- The Keeper's record of a unit tells no event and lets no engine take tasks again. -/
theorem beginRetire_keeps (cls n trigger e : Nat) (c : Chip) :
    (beginRetire cls n trigger c).mgmt.incoming = c.mgmt.incoming ∧ (getEng (beginRetire cls n trigger c) e).stopped = (getEng c e).stopped := by
  unfold beginRetire
  dsimp only
  split
  · exact ⟨rfl, rfl⟩
  · split
    · exact ⟨rfl, rfl⟩
    · split
      · exact ⟨rfl, rfl⟩
      · split
        · exact ⟨rfl, stopped_retireAt ..⟩
        · exact ⟨rfl, rfl⟩

theorem unitFault_keeps (cls n e : Nat) (c : Chip) :
    (unitFault cls n c).mgmt.incoming = c.mgmt.incoming ∧ (getEng (unitFault cls n c) e).stopped = (getEng c e).stopped := by
  unfold unitFault
  dsimp only
  split
  · exact beginRetire_keeps ..
  · split <;> exact ⟨rfl, rfl⟩

/-- An idle engine that faults is reported, and takes no further task (R425, R431). -/
theorem engineFault_idle {e p : Nat} {c : Chip} (hphys : enginePhys c (e / 32) (e % 32) = some p) (hprim : (getEng c e).prim.task = 0)
    (hshad : (getEng c e).shad.task = 0) (hurgent : (getEng c e).urgent = 0) :
    (getEng (engineFault e c) e).stopped = true ∧ ∃ r ∈ (engineFault e c).mgmt.incoming, r.code = 0x902 := by
  simp only [engineFault, hphys, faultTasks_idle hprim hshad hurgent]
  obtain ⟨r, hraised, hcode, -⟩ := raise_incoming (clusterIsland (e / 32)) 0x902 none (clusterIsland (e / 32)) (p % 64 + 64 * (e % 32)) c
  constructor
  · rw [(unitFault_keeps ..).2, getEng_modEng_same]
  · rw [(unitFault_keeps 0 _ e _).1, modEng_mgmt, hraised]
    exact ⟨r, by simp, hcode⟩

end Sys2Proof.Machine
end

section
/-!
SUPPORT. Transfers, instruction pages and urgent entry (R416 to R418, R422 to R424, R428), and the obligation about the tasks of engines.
-/
namespace Sys2Proof.Machine
open Sys2Proof

/-! Outgoing transfers (R417, R418). -/

/-- A transfer whose checks pass has a length, in whole words. -/
theorem xferCheck_length {c : Chip} {fn : Nat} {sh : Bool} {u : USet} {x : Xfer} (h : xferCheck c fn sh u x = 0) :
    x.length ≠ 0 ∧ x.length % 8 = 0 := by
  by_contra hlen
  have hbad : x.local_ % 8 ≠ 0 ∨ x.length = 0 ∨ x.length % 8 ≠ 0 ∨ (urange sh u x.local_ x.length).isNone = true := by tauto
  simp only [xferCheck, if_pos hbad] at h
  split at h
  · cases h
  · split at h <;> cases h

@[simp] theorem umemRead_length (m : UMem) (r : URange) (a n : Nat) : (umemRead m r a n).1.length = n / 8 * 8 := by
  simp [umemRead, List.length_flatMap, Function.comp_def]

theorem poisonWords_marks (c : Chip) (ws : List Nat) : ∀ o ∈ poisonWords c ws, o.marks = true := by
  intro o ho
  obtain ⟨w, -, ho⟩ := List.mem_flatMap.1 ho
  simp only [List.mem_cons, List.not_mem_nil, or_false] at ho
  rcases ho with rfl | rfl <;> rfl

/-- The words that an outgoing transfer reads of engine memory, as bytes, with the poisoned words. -/
def xferData (c : Chip) (e : Nat) (sh : Bool) (x : Xfer) : List Byte × List Nat :=
  umemRead (bundleMem c e) ((urange sh ((getEng c e).set sh) x.local_ x.length).getD .local_) x.local_ x.length

/-- What an outgoing transfer that passes its checks does to memory. -/
theorem xferComplete_stores {e tag : Nat} {sh : Bool} {c : Chip} {x : Xfer} (m : Mem)
    (hopen : ((getEng c e).set sh).open_.find? (fun y => y.tag == tag) = some x) (hout : x.out = true)
    (hpass : xferCheck c (getTask c (((getEng c e).set sh).task - 1)).fn sh ((getEng c e).set sh) x = 0) :
    (xferComplete e sh tag c m).2 = (memWrite m (bufAddr c x.handle + x.offset) (xferData c e sh x).1 false c).1 ++
      poisonWords c ((xferData c e sh x).2.map (fun i => (bufAddr c x.handle + x.offset) / 8 + i)) := by
  simp only [xferComplete, hopen, hout, hpass, ne_eq, not_true_eq_false, if_true, if_false]
  rfl

/-! Urgent entry (R422 to R424). -/

@[simp] theorem getEng_takeWindow (slot cl size e : Nat) (c : Chip) : getEng (takeWindow slot cl size c).2 e = getEng c e := by
  unfold takeWindow
  dsimp only
  split <;> rfl

@[simp] theorem getEng_retireFlights (l : List InFlight) (now e : Nat) (c : Chip) : getEng (retireFlights l now c).2 e = getEng c e :=
  List.foldlRecOn (motive := fun r : List InFlight × Chip => getEng r.2 e = getEng c e) l _ rfl fun _ hr _ _ => hr

@[simp] theorem getEng_schedCount (pos n e : Nat) (c : Chip) : getEng (schedCount pos n c) e = getEng c e :=
  getEng_congr (SchedOnly.of_schedCount pos n c).eng e

/-- The task that waits for urgent entry on an engine, and its program. -/
def urgentTask (c : Chip) (e : Nat) : Task := getTask c ((getEng c e).urgent - 1)

def urgentProg (c : Chip) (e : Nat) : ProgInfo := progInfo c (urgentTask c e).desc.work (urgentTask c e).desc.etag

/-- The waiting task starts in the shadow set; the primary set keeps all but the times of its results in flight. -/
theorem urgentEntry_enters {e : Nat} {c : Chip} (hwaits : (getEng c e).urgent ≠ 0) (hfree : (getEng c e).shad.task = 0)
    (hslot : (getEng c e).prim.branch = none) (hon : domOn c (clusterDomain (e / 32)) = true)
    (hpages : ∀ p < (urgentProg c e).pages, ((urgentTask c e).desc.work, (urgentProg c e).ver, p) ∈ (getEng c e).pages) :
    ∃ base flight, getEng (urgentEntry e c) e =
      { getEng c e with urgent := 0, inShadow := true, prim := { (getEng c e).prim with flight := flight },
                        shad := startSet ((getEng c e).urgent - 1) (urgentTask c e) (urgentProg c e) base } := by
  have hready : (List.range (urgentProg c e).pages).all
      (fun p => (getEng c e).pages.contains ((urgentTask c e).desc.work, (urgentProg c e).ver, p)) = true := by
    simpa using hpages
  unfold urgentProg urgentTask at hready
  simp only [urgentEntry, hwaits, hfree, hslot, hon, hready, ne_eq, not_true_eq_false, Option.isSome_none, Bool.not_true, Bool.false_eq_true,
    or_self, if_false, getEng_schedCount, getEng_modEng_same, getEng_retireFlights, getEng_takeWindow]
  exact ⟨_, _, rfl⟩

/-! The row of an illegal bundle (R425). -/

theorem illegal_traps {e : Nat} {ws : List Word} {c : Chip} (hprim : (getEng c e).inShadow = false) (htask : (getEng c e).prim.task ≠ 0)
    (hruns : (getEng c e).prim.stall = .run) (hon : domOn c (clusterDomain (e / 32)) = true)
    (hbad : bundleIllegal (getEng c e).prim.branch.isSome ws = true) (hfetch : fetchedAt c (getEng c e).prim ws = true) :
    illegal e ws false c = exception e false 1 0 0 c := by
  simp only [illegal, Engine.set, hprim, htask, hruns, hon, hbad, hfetch, ne_eq, not_true_eq_false, Bool.not_true, Bool.false_eq_true, or_self,
    Bool.and_self, if_true, if_false]

/-- Settles O34: an END or an exception of a set without outstanding transfers ends at once, a transfer's write is one run of bytes, and the
tasks of an engine that fails or retires end set by set. -/
theorem engineTasks : Obligations.EngineTasks := by
  unfold Obligations.EngineTasks
  refine ⟨?end_, ?break_, ?illegal, ?transfer, ?page, ?urgent, ?fault, ?retire⟩
  case end_ =>
    intro s e s1 h hnone hrun
    have hset : (getEng (bundleLeft e ((engSet s e).ended (((engSet s e).rg s1).toNat % 65536)) (bundleMem s.chip e) s.chip) e).set false =
        (engSet s e).ended (((engSet s e).rg s1).toNat % 65536) := congrArg Engine.prim (getEng_bundleLeft ..)
    have htask := getTask_completed hset rfl hnone rfl ((congrArg Task.st (getTask_congr (bundleLeft_sched ..) _)).trans hrun)
    refine ⟨_, act_onChip (issue_end h), ?_, ?_, ?_, rfl⟩
    · rw [onChip_chip, getEng_completed hset rfl hnone rfl]; rfl
    · exact congrArg Task.done htask
    · exact congrArg Task.status htask
  case break_ =>
    intro s e code h hnone hrun
    have hidle : (engSet s e).open_ = [] := by simp [USet.open_, hnone]
    have hset : (getEng (bundleTrapped e (engSet s e) s.chip) e).set false = engSet s e := congrArg Engine.prim (getEng_putEng_same ..)
    have htask := getTask_exception hset hidle (cause := 6) (by decide) hrun code 0
    refine ⟨_, act_onChip (issue_break h), ?_, ?_, ?_, ?_, rfl⟩
    · rw [onChip_chip, getEng_exception hset hidle (by decide)]; rfl
    all_goals rw [onChip_chip, htask]
    rfl
  case illegal =>
    intro s e ws hprim htask hruns hon hidle hbad hfetch hrun
    have hset : (getEng s.chip e).set false = (getEng s.chip e).prim := rfl
    have hended := getTask_exception hset hidle (cause := 1) (by decide) hrun 0 0
    refine ⟨_, act_onChip (illegal_traps hprim htask hruns hon hbad hfetch), ?_, ?_, ?_, rfl⟩
    · rw [onChip_chip, getEng_exception hset hidle (by decide)]; rfl
    all_goals rw [onChip_chip, hended]
    rfl
  case transfer =>
    intro s e tag x hwf hthaw hopen hout hpass
    obtain ⟨hlen, hwords⟩ := xferCheck_length hpass
    have hsize : (xferData s.chip e false x).1.length = x.length := by rw [xferData, umemRead_length]; omega
    have hdata : (xferData s.chip e false x).1 ≠ [] := by
      rw [← List.length_pos_iff, hsize]; omega
    obtain ⟨hin, hother⟩ := memWrite_bytes (d := bufAddr s.chip x.handle + x.offset) hwf hthaw hdata
    have hbyte (a : Nat) : (s.mem.apply (xferComplete e false tag s.chip s.mem).2).byte a =
        (s.mem.apply (memWrite s.mem (bufAddr s.chip x.handle + x.offset) (xferData s.chip e false x).1 false s.chip).1).byte a := by
      rw [xferComplete_stores s.mem hopen hout hpass, Mem.apply_append, Mem.byte, apply_marks_cells (poisonWords_marks _ _)]
      rfl
    rw [hsize] at hin hother
    exact ⟨_, rfl, fun i hi => (hbyte _).trans (hin i hi), fun a ha => (hbyte a).trans (hother a ha)⟩
  case page =>
    intro s e p l hload hroom
    refine act_onChip ?_
    simp only [pageLoaded, modEng, hload, hroom, if_true]
  case urgent =>
    intro s e hwaits hfree hslot hon hpages
    obtain ⟨base, flight, hentered⟩ := urgentEntry_enters hwaits hfree hslot hon hpages
    refine ⟨_, act_onChip rfl, ?_, ?_, ?_, ?_, ?_, rfl⟩ <;> rw [onChip_chip, hentered]
    exact Nat.sub_add_cancel (Nat.pos_of_ne_zero hwaits)
  case fault =>
    intro s e p hon hphys hprim hshad hurgent
    obtain ⟨hstopped, htold⟩ := engineFault_idle hphys hprim hshad hurgent
    exact ⟨onChip s (engineFault e s.chip), act_onChip (if_pos hon), hstopped, htold, rfl⟩
  case retire => exact fun s e hdue =>
    have ⟨hretire, hprim, hshad, hurgent, htime⟩ := retireTimeout_idle hdue
    ⟨onChip s (retireTimeout e s.chip), act_onChip rfl, hretire, hprim, hshad, hurgent, htime, rfl⟩

end Sys2Proof.Machine
end

section
/-!
SUPPORT. What leaves the host interface alone: the retirement of an epoch.
-/
namespace Sys2Proof.Machine
open Sys2Proof

/-! Retirement of an epoch (R38, R40). -/

@[simp] theorem drop_host (h : Nat) (c : Chip) : (drop h c).host = c.host := (Books.of_drop h c).host

theorem dropBufs_host (l : List (List Word × Nat)) (c : Chip) : (l.foldl (fun c b => drop b.2 c) c).host = c.host :=
  foldl_keeps (g := Chip.host) (fun _ _ => drop_host _ _) l c

@[simp] theorem applyReserves_host (c : Chip) : (applyReserves c).host = c.host :=
  (foldl_keeps (fun d p => (Books.of_watermark p d).host) _ _).trans (foldl_keeps (fun _ _ => modUse_host _ _ _ _) _ _)

@[simp] theorem legsRetire_host (c : Chip) : (legsRetire c).host = c.host := by
  show (List.foldl _ c _).host = c.host
  exact foldl_keeps (fun _ _ => (Books.of_dropPkts _ _).host) _ c

@[simp] theorem decSweep_host (i : Nat) (c : Chip) : (decSweep i c).host = c.host :=
  foldl_keeps (g := Chip.host) (fun _ _ => by simp) _ (putDec i _ c)

@[simp] theorem decHold_host (i h : Nat) (up : Bool) (c : Chip) : (decHold i h up c).host = c.host := by
  unfold decHold; dsimp only; split
  · rfl
  · exact decSweep_host i _

@[simp] theorem decodeRetire_host (c : Chip) : (decodeRetire c).host = c.host := by
  refine foldl_keeps (fun c e => ?_) _ c
  dsimp only; split <;> exact decSweep_host e.1 _

@[simp] theorem encodeRetire_host (c : Chip) : (encodeRetire c).host = c.host := by
  refine foldl_keeps (fun c e => ?_) _ c
  exact foldl_keeps (g := Chip.host) (fun _ _ => drop_host _ _) e.2.recs c

@[simp] theorem canvasRetire_host (c : Chip) : (canvasRetire c).host = c.host := by
  refine foldl_keeps (fun c e => ?_) _ c
  dsimp only; split
  · exact dropBufs_host _ _
  · refine Eq.trans (foldl_keeps (g := Chip.host) (fun c l => ?_) e.2.layers _) (dropBufs_host _ _)
    split <;> simp

/-- The last work of a draining epoch retires it, which touches no command slot and no function. -/
@[simp] theorem settle_host (c : Chip) : (settle c).host = c.host := by
  have haudio (d : Chip) : (audioRetire d).host = d.host := rfl
  have hkeys (d : Chip) : (keySweep d).host = d.host := rfl
  unfold settle; split
  · simp [retireEpoch, haudio, hkeys]
  · rfl

end Sys2Proof.Machine
end

section
/-!
SUPPORT. The start of a descriptor, taken or rejected, and the end of a command with its last descriptor (R474 to R477), and the obligation
about descriptors.
-/
namespace Sys2Proof.Machine
open Sys2Proof

/-! Starting a descriptor of a command (R474 to R477). -/

/-- A channel takes the next descriptor of its command: nothing holds it back, and no reset has cut its chain off. -/
structure Chan.TakesNext (x : Chan) (d : DmaDesc) (rest : List DmaDesc) : Prop where
  idle : x.active = false
  pause : x.pause = false
  paused : x.paused = false
  room : x.cqFull = false
  chain : x.chain = d :: rest
  uncut : x.cut = []

/-- A channel with a descriptor of its command's chain in the active set, and the rest of the chain to come. -/
def Chan.fetched (x : Chan) (e : Nat) (d : DmaDesc) (rest : List DmaDesc) : Chan :=
  { x.load e d ((descWords d).getD 0 0) with chain := rest, sh := wordsPut [] 0 (descWords d), taken := true }

section
variable {ch : Nat} {c : Chip} {d : DmaDesc} {rest : List DmaDesc}

theorem getChan_fetchDesc (m : Mem) (h : (getChan c ch).TakesNext d rest) :
    getChan (fetchDesc ch c m) ch = (getChan c ch).fetched c.gx.current d rest := by
  have hload := getChan_loadDesc (ch := ch) (c := modChan ch (fun x => { x with chain := rest }) c) (d := d) (by simpa using h.uncut)
  rw [getChan_modChan_same] at hload
  rw [fetchDesc_chain h.idle h.pause h.paused h.room h.chain]
  exact hload

/-- The chip once the descriptor that a channel takes next has been checked. -/
def startedDesc (ch : Nat) (d : DmaDesc) (m : Mem) (c : Chip) : Chip :=
  modChan ch (fun x => { x with started := true, outcome := { x.outcome with status := checkDesc c d } }) (fetchDesc ch c m)

theorem getChan_startedDesc (m : Mem) (h : (getChan c ch).TakesNext d rest) :
    getChan (startedDesc ch d m c) ch = { (getChan c ch).fetched c.gx.current d rest with
      started := true, outcome := { status := checkDesc c d, poison := false, bytes := 0, mismatch := noMismatch } } := by
  rw [startedDesc, getChan_modChan_same, getChan_fetchDesc m h]; rfl

theorem startedDesc_host (m : Mem) (h : (getChan c ch).TakesNext d rest) : (startedDesc ch d m c).host = c.host := by
  rw [startedDesc, fetchDesc_chain h.idle h.pause h.paused h.room h.chain]; rfl

/-- The descriptor is checked, and it completes at once where it is rejected or moves nothing. -/
theorem descStart_takes (m : Mem) (h : (getChan c ch).TakesNext d rest) : descStart ch c m =
    if checkDesc c d ≠ 0 ∨ d.length = 0 then completeDesc ch (startedDesc ch d m c) m else (startedDesc ch d m c, []) := by
  have hcheck : checkDesc (fetchDesc ch c m) d = checkDesc c d := by
    rw [fetchDesc_chain h.idle h.pause h.paused h.room h.chain]; exact checkDesc_loadDesc ch d d _ c
  simp [descStart, startedDesc, getChan_fetchDesc m h, Chan.fetched, Chan.load, h.pause, hcheck]

end

theorem exec_dmaDescriptorStart {s : State} {ch : Nat} (hc : ch < 64) :
    exec (.dmaDescriptorStart ch) s = actMem s (fun c m => settleMem (descStart ch c m)) := by
  show actMem s (fun c m => if ch < 64 then settleMem (descStart ch c m) else (c, [])) = _
  simp only [hc, if_true]

/-- A descriptor that passes its checks is active and started, of the current epoch, with all of it still to be moved. -/
theorem exec_dmaDescriptorStart_passes {s : State} {ch : Nat} {d : DmaDesc} {rest : List DmaDesc} (hc : ch < 64)
    (h : (getChan s.chip ch).TakesNext d rest) (hok : checkDesc s.chip d = 0) (hl : d.length ≠ 0) :
    ∃ t, exec (.dmaDescriptorStart ch) s = .next t ∧ t.mem = s.mem ∧ getChan t.chip ch =
      { (getChan s.chip ch).fetched s.chip.gx.current d rest with
        started := true, outcome := { status := 0, poison := false, bytes := 0, mismatch := noMismatch } } := by
  have hstart : descStart ch s.chip s.mem = (startedDesc ch d s.mem s.chip, []) := by rw [descStart_takes s.mem h, if_neg (by simp [hok, hl])]
  have hchan := getChan_startedDesc s.mem h
  rw [hok] at hchan
  refine ⟨onChip s (settle (startedDesc ch d s.mem s.chip)), ?_, rfl, ?_⟩
  · rw [exec_dmaDescriptorStart hc]
    exact actMem_onChip (by rw [hstart]; rfl)
  · rw [onChip_chip, getChan_settle, hchan]

/-! The last descriptor of a command (R474, R482). -/

/-- Words put from an index on leave those before it alone. -/
theorem tget_wordsPut_before (l : List Word) (t : Tbl Word) {i j : Nat} (h : j < i) : tget 0 (wordsPut t i l) j = tget 0 t j := by
  induction l generalizing t i with
  | nil => rfl
  | cons w l ih => rw [wordsPut, ih _ (Nat.lt_succ_of_lt h), tget_tput_other _ _ _ (Nat.ne_of_gt h)]

/-- The body of a command's result begins at word 8 of its slot (R101). -/
theorem word_finish_body {k : Nat} {c : Chip} (w : Word) (l : List Word) (h : (getSlot c k).open_ = true) :
    (getSlot (finish k (Res.ok (w :: l)) c) k).word 8 = w.toNat := by
  have hbytes : (Res.ok (w :: l)).bytes ≠ 16 := by simp [Res.bytes, Res.ok]; omega
  rw [getSlot_finish_same _ _ _ h, Slot.word]
  simp only [Res.words, if_neg hbytes]
  exact congrArg BitVec.toNat ((tget_wordsPut_before l _ (by decide)).trans (tget_tput_same _ _ _ _))

/-- A descriptor's status as its checks give it fits its field. -/
theorem checkDesc_lt (c : Chip) (d : DmaDesc) : checkDesc c d < 2 ^ 16 := by
  unfold checkDesc; dsimp only
  repeat' split
  all_goals decide

/-- What a descriptor that has ended tells, with a value of MISMATCH. -/
def Chan.result (x : Chan) (n : Nat) : DmaResult := { x.outcome with mismatch := n }

/-- A status without poison is the first word of a result's entry. -/
theorem toNat_statusWord {status : Nat} (h : status < 2 ^ 16) : (wd (status + 2 ^ 16 * b2n false)).toNat = status :=
  Nat.mod_eq_of_lt (by simp only [b2n, Bool.false_eq_true, if_false]; omega)

/-- A descriptor without RECORD completes with its outcome but for MISMATCH, touches no command slot and writes no memory. -/
theorem completeDesc_outcome {ch : Nat} {c : Chip} (m : Mem) (h : (getChan c ch).act.record = false) : ∃ n d, d.chans = c.chans ∧ d.host = c.host ∧
    completeDesc ch c m = (chanNext ch (modChan ch (Chan.completed ((getChan c ch).result n)) d), []) := by
  have hrec {d : Chip} (r : DmaResult) (hd : d.chans = c.chans) : writeRecord ch r (modChan ch (Chan.completed r) d) m =
      (chanNext ch (modChan ch (Chan.completed r) d), []) :=
    writeRecord_none (by rw [getChan_modChan_same, getChan_congr hd]; exact h)
  unfold completeDesc; dsimp only; split
  · exact ⟨_, (draw c).2, rfl, rfl, hrec _ rfl⟩
  · exact ⟨(getChan c ch).outcome.mismatch, c, rfl, rfl, hrec _ rfl⟩

/-- A channel that has ended its command. -/
def Chan.ended (x : Chan) : Chan := { x with cmd := 0, results := [], active := false, started := false, cut := [] }

/-- With its last descriptor the command ends, with one entry for each descriptor. -/
theorem chanNext_ends {ch : Nat} {c : Chip} (hcmd : (getChan c ch).cmd ≠ 0) (hchain : (getChan c ch).chain = []) : chanNext ch c =
    finish ((getChan c ch).cmd - 1) (Res.ok ((getChan c ch).results.flatMap resultEntry)) (modChan ch Chan.ended c) :=
  if_pos ⟨hcmd, hchain⟩

/-- The last descriptor of a command, without RECORD, ends the command with its result behind those before it. -/
theorem completeDesc_ends {ch : Nat} {c : Chip} (m : Mem) (hrec : (getChan c ch).act.record = false) (hcmd : (getChan c ch).cmd ≠ 0)
    (hchain : (getChan c ch).chain = []) : ∃ n d, d.host = c.host ∧ getChan d ch = ((getChan c ch).completed ((getChan c ch).result n)).ended ∧
      completeDesc ch c m = (finish ((getChan c ch).cmd - 1)
        (Res.ok (((getChan c ch).results ++ [(getChan c ch).result n]).flatMap resultEntry)) d, []) := by
  obtain ⟨n, e, hchans, hhost, hcomp⟩ := completeDesc_outcome m hrec
  have hchan : getChan (modChan ch (Chan.completed ((getChan c ch).result n)) e) ch = (getChan c ch).completed ((getChan c ch).result n) := by
    rw [getChan_modChan_same, getChan_congr hchans]
  have hresults : ((getChan c ch).completed ((getChan c ch).result n)).results = (getChan c ch).results ++ [(getChan c ch).result n] :=
    if_pos (.inl hcmd)
  refine ⟨n, modChan ch Chan.ended (modChan ch (Chan.completed ((getChan c ch).result n)) e), hhost, by rw [getChan_modChan_same, hchan], ?_⟩
  rw [hcomp, chanNext_ends (by rw [hchan]; exact hcmd) (by rw [hchan]; exact hchain), hchan, hresults]
  rfl

/-- The last descriptor of a command, which fails its checks, ends the command with the status they give. -/
theorem exec_dmaDescriptorStart_rejects {s : State} {ch : Nat} {d : DmaDesc} (hc : ch < 64) (h : (getChan s.chip ch).TakesNext d [])
    (hres : (getChan s.chip ch).results = []) (hrec : d.record = false) (hbad : checkDesc s.chip d ≠ 0) (hcmd : (getChan s.chip ch).cmd ≠ 0)
    (hopen : (getSlot s.chip ((getChan s.chip ch).cmd - 1)).open_ = true) :
    ∃ t, exec (.dmaDescriptorStart ch) s = .next t ∧ (getChan t.chip ch).active = false ∧ (getChan t.chip ch).cmd = 0 ∧
      (getSlot t.chip ((getChan s.chip ch).cmd - 1)).st = .done ∧ (getSlot t.chip ((getChan s.chip ch).cmd - 1)).status = 0 ∧
      (getSlot t.chip ((getChan s.chip ch).cmd - 1)).word 8 = checkDesc s.chip d ∧ t.mem = s.mem := by
  have hstarted := getChan_startedDesc s.mem h
  obtain ⟨n, e, hhost, hchan, hcomp⟩ := completeDesc_ends (c := startedDesc ch d s.mem s.chip) (ch := ch) s.mem
    (by rw [hstarted]; exact hrec) (by rw [hstarted]; exact hcmd) (by rw [hstarted]; rfl)
  have hslot (k : Nat) : getSlot e k = getSlot s.chip k := getSlot_congr (hhost.trans (startedDesc_host s.mem h)) k
  have hbefore : ((getChan s.chip ch).fetched s.chip.gx.current d []).results = [] := hres
  have hstart : descStart ch s.chip s.mem = completeDesc ch (startedDesc ch d s.mem s.chip) s.mem := by rw [descStart_takes s.mem h, if_pos (.inl hbad)]
  rw [hcomp, hstarted, hbefore] at hstart
  have hends : (getSlot e ((getChan s.chip ch).cmd - 1)).open_ = true := by rw [hslot]; exact hopen
  refine ⟨onChip s (settle _), (exec_dmaDescriptorStart hc).trans (actMem_onChip (by rw [hstart]; rfl)), ?_, ?_, ?_, ?_, ?_, rfl⟩
  · rw [onChip_chip, getChan_settle, getChan_congr (finish_chans _ _ _), hchan]; rfl
  · rw [onChip_chip, getChan_settle, getChan_congr (finish_chans _ _ _), hchan]; rfl
  all_goals rw [onChip_chip, getSlot_congr (settle_host _)]
  · exact congrArg Slot.st (getSlot_finish_same _ _ _ hends)
  · exact congrArg Slot.status (getSlot_finish_same _ _ _ hends)
  · exact (word_finish_body _ _ hends).trans (toNat_statusWord (checkDesc_lt s.chip d))

/-- Settles O15, clause by clause: a descriptor's start, rejection, copy, pause, resumption and abort. -/
theorem dmaDescriptors : Obligations.DmaDescriptors := by
  unfold Obligations.DmaDescriptors
  refine ⟨?start, ?reject, ?done, ?pause, ?paused, ?resume, ?abort⟩
  case start =>
    intro s ch d rest hc ha hp hpd hq hch hcut hok hl
    obtain ⟨t, hrun, hmem, hchan⟩ := exec_dmaDescriptorStart_passes hc ⟨ha, hp, hpd, hq, hch, hcut⟩ hok hl
    refine ⟨t, hrun, ?_, ?_, ?_, ?_, ?_, ?_, hmem⟩ <;> rw [hchan] <;> rfl
  case reject =>
    exact fun s ch d hc ha hp hpd hq hch hcut hres hrec hbad hcmd hopen =>
      exec_dmaDescriptorStart_rejects hc ⟨ha, hp, hpd, hq, hch, hcut⟩ hres hrec hbad hcmd hopen
  case done =>
    exact fun s ch ps pd hs hd hc hmem hf ha hst hnp hop hsrc hdst hr hps hpd hm =>
      exec_dmaDescriptorDone_copies hc hmem hf ha hst hnp hop hsrc hdst hr hps hpd hm
  case pause => exact fun s fn ch hc hr hd hl ha => exec_dmaPause_idle ⟨hr, hd, hl⟩ hc ha
  case paused =>
    intro s ch n hs hd hc ha hst hp hnp
    obtain ⟨t, o, hrun, hchan⟩ := exec_dmaPaused (n := n) (hs := hs) (hd := hd) hc ha hst hp hnp
    have hleft : (getChan s.chip ch).actLen - min (n / 16 * 16) (getChan s.chip ch).actLen = (getChan s.chip ch).actLen - n / 16 * 16 := by omega
    exact ⟨t, hrun, by rw [hchan], by rw [hchan, ← hleft]; rfl, by rw [hchan]; rfl⟩
  case resume => exact fun s fn ch hc hr hd hl ha => exec_dmaResume_active ⟨hr, hd, hl⟩ hc ha
  case abort =>
    intro s fn ch hc hr hd hl ha hst hp hrec hcmd ht harm
    obtain ⟨t, hrun, hoff, hout, hmem⟩ := exec_dmaAbort_paused ⟨hr, hd, hl⟩ hc ha hst hp hrec hcmd ht harm
    exact ⟨t, hrun, hoff, by rw [hout], by rw [hout], hmem⟩

end Sys2Proof.Machine
end

section
/-!
SUPPORT. Buffers and pools: what a read of a pool, a use or a buffer returns after each update, what an operation of the grant point answers
and leaves (R461 to R470), and the obligation about them and the pool commands.
-/
namespace Sys2Proof.Machine
open Sys2Proof

/-! Accounts: reads after updates. -/

theorem getPool_congr {c d : Chip} (h : d.pools = c.pools) (p : Nat) : getPool d p = getPool c p := by rw [getPool, h]; rfl

@[simp] theorem getUse_modUse_same (i p : Nat) (f : Use → Use) (c : Chip) : getUse (modUse i p f c) i p = f (getUse c i p) := by
  simp [getUse, modUse]

@[simp] theorem getPool_modUse (i p q : Nat) (f : Use → Use) (c : Chip) : getPool (modUse i p f c) q = getPool c q := rfl
@[simp] theorem getBuf_modUse (i p h : Nat) (f : Use → Use) (c : Chip) : getBuf (modUse i p f c) h = getBuf c h := rfl
@[simp] theorem modPool_uses (p : Nat) (f : Pool → Pool) (c : Chip) : (modPool p f c).pools.uses = c.pools.uses := rfl
@[simp] theorem getUse_modPool (i q p : Nat) (f : Pool → Pool) (c : Chip) : getUse (modPool p f c) i q = getUse c i q := rfl
@[simp] theorem getUse_modBuf (i q h : Nat) (f : Buf → Buf) (c : Chip) : getUse (modBuf h f c) i q = getUse c i q := rfl

@[simp] theorem getBuf_modBuf_same (h : Nat) (f : Buf → Buf) (c : Chip) : getBuf (modBuf h f c) h = f (getBuf c h) := by
  simp [getBuf, modBuf]

@[simp] theorem used_modBuf (h : Nat) (f : Buf → Buf) (c : Chip) : (getPool (modBuf h f c) (handlePool h)).used = (getPool c (handlePool h)).used := by
  simp [modBuf]

/-- An update of a pool that leaves its buffers alone leaves each of them alone. -/
theorem getBuf_modPool {h : Nat} {f : Pool → Pool} {c : Chip} (hf : ∀ x, (f x).bufs = x.bufs) : getBuf (modPool (handlePool h) f c) h = getBuf c h := by
  simp [getBuf, hf]

@[simp] theorem getPool_draw (p : Nat) (c : Chip) : getPool (draw c).2 p = getPool c p := rfl
@[simp] theorem getUse_draw (i p : Nat) (c : Chip) : getUse (draw c).2 i p = getUse c i p := rfl

@[simp] theorem getPool_answered (r h p : Nat) (c : Chip) : getPool (answered r h c) p = getPool c p := rfl
@[simp] theorem getUse_answered (r h i p : Nat) (c : Chip) : getUse (answered r h c) i p = getUse c i p := rfl
@[simp] theorem getBuf_answered (r h k : Nat) (c : Chip) : getBuf (answered r h c) k = getBuf c k := rfl

/-- Telling a pool's state changes the state of that pool alone (R466). -/
theorem watermark_same (p : Nat) (c : Chip) : ∃ n, getPool (watermark p c) p = { getPool c p with st := n } := by
  unfold watermark; dsimp only; split
  · exact ⟨_, rfl⟩
  · exact ⟨_, (getPool_congr (ringPauses_pools _ _) p).trans (getPool_modPool_same p _ c)⟩

@[simp] theorem watermark_uses (p : Nat) (c : Chip) : (watermark p c).pools.uses = c.pools.uses := by
  unfold watermark; dsimp only; split
  · rfl
  · rw [ringPauses_pools]; rfl

@[simp] theorem getUse_watermark (p i q : Nat) (c : Chip) : getUse (watermark p c) i q = getUse c i q := by rw [getUse, watermark_uses]; rfl

@[simp] theorem used_watermark (p : Nat) (c : Chip) : (getPool (watermark p c) p).used = (getPool c p).used := by
  obtain ⟨n, h⟩ := watermark_same p c; rw [h]

@[simp] theorem getBuf_watermark (h : Nat) (c : Chip) : getBuf (watermark (handlePool h) c) h = getBuf c h := by
  obtain ⟨n, hn⟩ := watermark_same (handlePool h) c; rw [getBuf, hn]; rfl

@[simp] theorem countResult_pools (i p r : Nat) (c : Chip) : (countResult i p r c).pools = c.pools := by
  unfold countResult; split
  · exact bump_pools _ _ _ _ _
  · rfl

/-! Allocation (R461, R465). -/

theorem fitPool_shared {size : Nat} (h : size ≤ 16384) : fitPool [2, 3] size = some (poolOfSize size) := by
  unfold fitPool poolOfSize
  by_cases hs : size ≤ 2048 <;> simp [poolBytes, hs, h]

/-- An allocation of class 2 is one of the smallest pool of P2 and P3 that holds the size. -/
theorem alloc_shared {size : Nat} (i : Nat) (c : Chip) (h : size ≤ 16384) : alloc i size 2 c = allocIn i (poolOfSize size) c := by
  simp [alloc, fitPool_shared h]

theorem allocIn_granted {i p : Nat} {c : Chip} (h : grantRule c i p = 0) :
    allocIn i p c = (0, (takeBuffer i p c).1, (takeBuffer i p c).2) := if_pos h

theorem allocIn_refused {i p : Nat} {c : Chip} (h : grantRule c i p ≠ 0) :
    allocIn i p c = (grantRule c i p, 0, countResult i p (grantRule c i p) c) := if_neg h

/-- A granted buffer is one more of its pool in use. -/
theorem used_takeBuffer (i p : Nat) (c : Chip) : (getPool (takeBuffer i p c).2 p).used = (getPool c p).used + 1 := by
  simp [takeBuffer]

/-- A granted buffer is charged to the identity. -/
theorem charge_takeBuffer (i p : Nat) (c : Chip) : (getUse (takeBuffer i p c).2 i p).u = (getUse c i p).u + 1 := by
  simp [takeBuffer]

/-! Operations on a handle (R468 to R470). -/

section
variable {c : Chip} {i h d : Nat}

/-- An identity may operate on a handle that names a buffer of its generation and of the identity's own. -/
theorem mayOperate (hcur : current c h = true) (hown : (getBuf c h).owner = i) : (!(current c h && (getBuf c h).owner == i)) = false := by
  simp [hcur, hown]

theorem retain_adds (hcur : current c h = true) (hown : (getBuf c h).owner = i) (hrefs : (getBuf c h).refs < 1048575) :
    retain i h c = (0, modBuf h (fun b => { b with refs := b.refs + 1 }) c) := by
  simp [retain, mayOperate hcur hown, Nat.not_le.2 hrefs]

theorem retain_full (hcur : current c h = true) (hown : (getBuf c h).owner = i) (hrefs : 1048575 ≤ (getBuf c h).refs) : retain i h c = (5, c) := by
  simp [retain, mayOperate hcur hown, hrefs]

theorem release_subtracts (hcur : current c h = true) (hown : (getBuf c h).owner = i) (hrefs : 1 < (getBuf c h).refs) :
    release i h c = (0, modBuf h (fun b => { b with refs := b.refs - 1 }) c) := by
  simp [release, mayOperate hcur hown, Nat.not_le.2 hrefs]

theorem release_returns (hcur : current c h = true) (hown : (getBuf c h).owner = i) (hrefs : (getBuf c h).refs ≤ 1) :
    release i h c = (0, returnBuffer h c) := by
  simp [release, mayOperate hcur hown, hrefs]

theorem handover_moves (hcur : current c h = true) (hown : (getBuf c h).owner = i) (hgrant : grantRule c d (handlePool h) = 0) :
    (handover i h d c).1 = 0 ∧ getBuf (handover i h d c).2 h = { getBuf c h with owner := d } := by
  simp [handover, mayOperate hcur hown, hgrant]

/-- A stale handle is refused by every operation (R469). -/
theorem refused_stale (hcur : current c h = false) :
    retain i h c = refuseHandle i h c ∧ release i h c = refuseHandle i h c ∧ handover i h d c = refuseHandle i h c := by
  simp [retain, release, handover, hcur]

/-- The refusal of a stale handle answers DOUBLE_FREE and takes or returns no buffer. -/
theorem refuseHandle_stale (hcur : current c h = false) : (refuseHandle i h c).1 = 3 ∧
    (getPool (refuseHandle i h c).2 (handlePool h)).bufs = (getPool c (handlePool h)).bufs ∧ (refuseHandle i h c).2.pools.uses = c.pools.uses := by
  have hpools : (refuseHandle i h c).2.pools = (poolSticky (handlePool h) 0 (countResult i (handlePool h) 3 c)).pools := by
    simp [refuseHandle, hcur]
  refine ⟨by simp [refuseHandle, hcur], ?_, by rw [hpools]; simp [poolSticky]⟩
  rw [getPool_congr hpools, poolSticky, getPool_modPool_same, getPool_congr (countResult_pools _ _ _ _)]

end

/-- A buffer whose last reference goes is free. -/
theorem getBuf_returnBuffer (h : Nat) (c : Chip) : getBuf (returnBuffer h c) h = { getBuf c h with refs := 0, used := false } := by
  simp [returnBuffer, getBuf_modPool]

theorem used_returnBuffer (h : Nat) (c : Chip) : (getPool (returnBuffer h c) (handlePool h)).used = (getPool c (handlePool h)).used - 1 := by
  simp [returnBuffer]

/-- Its charge goes back from its owner. -/
theorem charge_returnBuffer (h : Nat) (c : Chip) :
    (getUse (returnBuffer h c) (getBuf c h).owner (handlePool h)).u = (getUse c (getBuf c h).owner (handlePool h)).u - 1 := by
  simp [returnBuffer]

/-! Rows. -/

section
variable {s : State} {d : Chip} {r : Nat}

theorem exec_bufferAlloc {i size cls h : Nat} (hr : alloc i size cls s.chip = (r, h, d)) :
    exec (.bufferAlloc i size cls) s = .next (onChip s (answered r h d)) := by
  show execBufferAlloc i size cls s = _
  exact act_onChip (congrArg (fun x => answered x.1 x.2.1 x.2.2) hr)

theorem exec_bufferRetain {i h : Nat} (hr : retain i h s.chip = (r, d)) : exec (.bufferRetain i h false) s = .next (onChip s (answered r h d)) := by
  show execBufferRetain i h false s = _
  exact act_onChip (congrArg (fun x => answered x.1 h x.2) hr)

theorem exec_bufferFree {i h : Nat} (hr : release i h s.chip = (r, d)) : exec (.bufferFree i h false) s = .next (onChip s (answered r h d)) := by
  show execBufferFree i h false s = _
  exact act_onChip (congrArg (fun x => answered x.1 h x.2) hr)

theorem exec_bufferHandover {i h k : Nat} (hr : handover i h k s.chip = (r, d)) :
    exec (.bufferHandover i h k false) s = .next (onChip s (answered r h d)) := by
  show execBufferHandover i h k false s = _
  exact act_onChip (congrArg (fun x => answered x.1 h x.2) hr)

end

/-- Every operation on a stale handle answers its refusal. -/
theorem exec_stale {s : State} {i h d : Nat} {op : Instr} (hcur : current s.chip h = false)
    (hop : op = .bufferRetain i h false ∨ op = .bufferFree i h false ∨ op = .bufferHandover i h d false) :
    exec op s = .next (onChip s (answered (refuseHandle i h s.chip).1 h (refuseHandle i h s.chip).2)) := by
  obtain ⟨hretain, hrelease, hhandover⟩ := refused_stale (i := i) (d := d) hcur
  rcases hop with rfl | rfl | rfl
  · exact exec_bufferRetain hretain
  · exact exec_bufferFree hrelease
  · exact exec_bufferHandover hhandover

/-! GX_POOL_LAYOUT (R459) and GX_POOL_COUNTERS. -/

theorem poolLayoutFields_none {b : List Word} (h : (layoutShares b).sum = 100) : poolLayoutFields b = none := by
  simp [poolLayoutFields, firstBad, h]

/-- The chip under the window region and the shares that a body names, its pools still as they were. -/
def underLayout (b : List Word) (c : Chip) : Chip :=
  { c with pools := { c.pools with windowBytes := bf b 0 0 10 * 2 ^ 30, shares := layoutShares b } }

/-- The chip whose pools are laid out anew under its layout, with their new states told. -/
def relayPools (c : Chip) : Chip :=
  (List.range 6).foldl (fun c p => watermark (p + 2) c)
    { c with pools := { c.pools with pools := (List.range 8).map fun p => (p, if p < 2 then getPool c p else (getPool c p).relaid (layoutCount c p)) } }

theorem poolLayout_lays {x : Ctx} {c : Chip} (hused : ∀ p, 2 ≤ p → p < 8 → (getPool c p).used = 0) (hpages : c.pools.pages = [])
    (hcap : fixedBytes + bf x.body 0 0 10 * 2 ^ 30 ≤ capBytes c) : poolLayout x c =
      x.done (Res.ok ((List.range 6).map fun i => wd (layoutCount (underLayout x.body c) (i + 2)))) (relayPools (underLayout x.body c)) := by
  have hbusy : ¬ (((List.range 6).any (fun i => decide (0 < (getPool c (i + 2)).used)) || !c.pools.pages.isEmpty) = true) := by
    simp only [hpages, List.isEmpty_nil, Bool.not_true, Bool.or_false, List.any_eq_true, decide_eq_true_eq, not_exists, not_and, List.mem_range]
    intro i hi
    have := hused (i + 2) (by omega) (by omega)
    omega
  rw [poolLayout, if_neg hbusy]
  exact if_neg (Nat.not_lt.2 hcap)

theorem poolLayout_refused {x : Ctx} {c : Chip} {p : Nat} (hlo : 2 ≤ p) (hhi : p < 8) (hused : 0 < (getPool c p).used) :
    poolLayout x c = x.done (Res.err 0x0A07) c := by
  obtain ⟨i, rfl⟩ := Nat.exists_eq_add_of_le' hlo
  have hbusy : (List.range 6).any (fun i => decide (0 < (getPool c (i + 2)).used)) = true :=
    List.any_eq_true.2 ⟨i, List.mem_range.2 (by omega), decide_eq_true hused⟩
  exact if_pos (by rw [hbusy]; rfl)

/-- A function reads the counters of its own identities, the operator those of all. -/
theorem poolCounters_answers {x : Ctx} {c : Chip} (h : x.operator = true ∨ bf x.body 0 0 12 / 16 = x.fn) : poolCounters x c =
    x.done (Res.ok ((List.range 8).flatMap (poolBlock c (bf x.body 0 0 12))))
      (if bit (bw x.body 4) 0 then (List.range 8).foldl (fun c p => ctrClear 0x0A04 (useKey (bf x.body 0 0 12) p) 4 c) c else c) := by
  refine if_neg ?_
  rintro ⟨hop, hfn⟩
  exact h.elim hop hfn

/-- Settles O7, clause by clause: each operation's answer and accounts, and the two commands. -/
theorem bufferOperations : Obligations.BufferOperations := by
  unfold Obligations.BufferOperations
  refine ⟨?granted, ?refused, ?retain, ?full, ?free, ?last, ?handover, ?layout, ?layoutBusy, ?counters, ?stale⟩
  case granted =>
    intro s i size hsize hgrant
    have halloc := (alloc_shared i s.chip hsize).trans (allocIn_granted hgrant)
    refine ⟨_, exec_bufferAlloc halloc, rfl, ?_, ?_, rfl, ?_⟩
    · rw [onChip_chip, getPool_answered, used_takeBuffer]
    · rw [onChip_chip, getUse_answered, charge_takeBuffer]
    · rw [onChip_chip, (Books.of_answered _ _ _).host, (Books.of_takeBuffer _ _ _).host]
  case refused => exact fun s i size hsize hgrant => exec_bufferAlloc ((alloc_shared i s.chip hsize).trans (allocIn_refused hgrant))
  case retain => exact fun s i h hcur hown hrefs => ⟨_, exec_bufferRetain (retain_adds hcur hown hrefs), rfl, getBuf_modBuf_same h _ s.chip, rfl, rfl⟩
  case full => exact fun s i h hcur hown hrefs => exec_bufferRetain (retain_full hcur hown hrefs)
  case free => exact fun s i h hcur hown hrefs => ⟨_, exec_bufferFree (release_subtracts hcur hown hrefs), rfl, getBuf_modBuf_same h _ s.chip, rfl, rfl⟩
  case last =>
    intro s i h hcur hown hrefs
    subst hown
    refine ⟨_, exec_bufferFree (release_returns hcur rfl hrefs), rfl, ?_, rfl, ?_, ?_⟩
    · rw [onChip_chip, getBuf_answered, getBuf_returnBuffer]
    · rw [onChip_chip, getPool_answered, used_returnBuffer]
    · rw [onChip_chip, getUse_answered, charge_returnBuffer]
  case handover =>
    intro s i h d hcur hown hgrant
    obtain ⟨hok, hbuf⟩ := handover_moves hcur hown hgrant
    exact ⟨_, exec_bufferHandover rfl, congrArg (·, h) hok, hbuf, rfl⟩
  case layout =>
    intro s r w c h hsum hused hpages hw hcap hc
    subst hw hc
    exact serve_ends h (poolLayoutFields_none hsum) (poolLayout_lays (x := ctxAt r s) (c := took r s) hused hpages hcap)
  case layoutBusy =>
    exact fun s r p h hsum hlo hhi hused =>
      serve_ends h (poolLayoutFields_none hsum) (poolLayout_refused (x := ctxAt r s) (c := took r s) hlo hhi hused)
  case counters =>
    intro s r i h hi hmay
    subst hi
    exact serve_ends h rfl (poolCounters_answers (by rw [ctxAt_fn h]; exact hmay))
  case stale =>
    intro s i h d op hcur hop
    obtain ⟨hanswer, hbufs, huses⟩ := refuseHandle_stale (i := i) hcur
    exact ⟨_, exec_stale hcur hop, congrArg (·, h) hanswer, hbufs, huses, rfl⟩

end Sys2Proof.Machine
end

section
/-!
SUPPORT. Steps of the block (R526, log 7): which command a step runs, and that every step keeps memory in canonical form.
-/
namespace Sys2Proof.Machine
open Sys2Proof

/-- An answer of any of the three forms leaves memory in canonical form. -/
theorem Form.next_wf {s t : State} {o : Host.Outcome State Fault Refusal} (hf : Form s o) (h : o = .next t) (hm : s.mem.wf = true) :
    t.mem.wf = true := by
  cases hf with
  | chip f => exact act_wf h hm
  | both f => exact actMem_wf h hm
  | stop a => cases h

/-- Settles O2: a step is the idle step, which leaves memory alone, or an answer of one of the three forms. -/
theorem memoryCanonicalKept : Obligations.MemoryCanonicalKept := by
  unfold Obligations.MemoryCanonicalKept
  intro s t hm hstep
  cases hq : s.pending with
  | nil =>
    rw [step_idle s hq] at hstep
    cases hstep
    exact hm
  | cons i rest =>
    rw [step_front s i rest hq] at hstep
    exact (exec_form i { s with pending := rest }).next_wf hstep hm

/-- Settles O1, by the two cases of a step. -/
theorem stepRunsFrontCommand : Obligations.StepRunsFrontCommand := by
  unfold Obligations.StepRunsFrontCommand
  exact ⟨fun c rest s => step_front { s with pending := c :: rest } c rest rfl, step_idle⟩

/-- Settles O3: the reset state lists nothing. -/
theorem memoryCanonicalAtReset : Obligations.MemoryCanonicalAtReset := by
  unfold Obligations.MemoryCanonicalAtReset MemInv
  exact ⟨reset_mem_wf, rfl⟩

end Sys2Proof.Machine
end

section
/-!
SUPPORT. Reads and writes of DRAM (R493 to R500, R510 to R515), and the obligation about them.
-/
namespace Sys2Proof.Machine
open Sys2Proof

/-! Entries of tables and lists that an insertion leaves. -/

theorem mem_tput {α : Type} {t : Tbl α} {i : Nat} {x : α} {e : Nat × α} (h : e ∈ tput t i x) : e = (i, x) ∨ e ∈ t := by
  induction t with
  | nil => exact .inl (List.mem_singleton.1 h)
  | cons a t ih =>
    obtain ⟨k, v⟩ := a
    simp only [tput] at h
    split at h
    · exact (List.mem_cons.1 h).imp_right (List.mem_cons_of_mem _)
    · split at h
      · exact List.mem_cons.1 h
      · rcases List.mem_cons.1 h with rfl | h
        · exact .inr List.mem_cons_self
        · exact (ih h).imp_right (List.mem_cons_of_mem _)

theorem tget_eq_or_mem {α : Type} (d : α) (t : Tbl α) (i : Nat) : tget d t i = d ∨ (i, tget d t i) ∈ t := by
  induction t with
  | nil => exact .inl rfl
  | cons a t ih =>
    obtain ⟨k, v⟩ := a
    simp only [tget]
    split
    · rename_i hk; subst hk; exact .inr List.mem_cons_self
    · exact ih.imp_right (List.mem_cons_of_mem _)

theorem mem_linsert {l : List Nat} {x y : Nat} : y ∈ linsert l x ↔ y = x ∨ y ∈ l := by
  induction l with
  | nil => simp [linsert]
  | cons a l ih =>
    simp only [linsert]
    split
    · rename_i ha; subst ha; simp
    · split
      · simp
      · simp only [List.mem_cons, ih]; tauto

theorem mem_foldl_linsert {x : Nat} (ws l : List Nat) : x ∈ ws.foldl linsert l ↔ x ∈ ws ∨ x ∈ l := by
  induction ws generalizing l with
  | nil => simp
  | cons w ws ih => rw [List.foldl_cons, ih, mem_linsert, List.mem_cons]; tauto

/-! Frozen subchannels (R509, R510). -/

theorem anyFrozen_false_iff {c : Chip} : anyFrozen c = false ↔ ∀ e ∈ c.dram.subs, e.2.st ≠ 3 := by
  simp [anyFrozen]

theorem getSub_thawed {c : Chip} (h : anyFrozen c = false) (u : Nat) : (getSub c u).st ≠ 3 := by
  rcases tget_eq_or_mem Sub.zero c.dram.subs u with hz | hm
  · rw [getSub, hz]; decide
  · exact anyFrozen_false_iff.1 h _ hm

theorem frozen_thawed {c : Chip} (h : anyFrozen c = false) (a : Nat) : frozen c a = false := by
  simp [frozen, getSub_thawed h]

theorem anyFrozen_modSub {u : Nat} {f : Sub → Sub} {c : Chip} (hf : ∀ x, (f x).st = x.st) (h : anyFrozen c = false) :
    anyFrozen (modSub u f c) = false := by
  rw [anyFrozen_false_iff]
  intro e he
  have he : e ∈ tput c.dram.subs u (f (getSub c u)) := he
  rcases mem_tput he with rfl | he
  · rw [hf]; exact getSub_thawed h u
  · exact anyFrozen_false_iff.1 h e he

/-! Requests. -/

/-- From `c` to `d` subchannels have taken requests, and none has frozen or met an error (R497, R498, R502). -/
structure Requested (c d : Chip) : Prop where
  host : d.host = c.host
  out : d.out = c.out
  thawed : anyFrozen c = false → anyFrozen d = false
  ue (u : Nat) : (getSub d u).ue = (getSub c u).ue

namespace Requested

theorem refl (c : Chip) : Requested c c := ⟨rfl, rfl, id, fun _ => rfl⟩

theorem trans {b c d : Chip} (x : Requested b c) (y : Requested c d) : Requested b d :=
  ⟨y.host.trans x.host, y.out.trans x.out, y.thawed ∘ x.thawed, fun u => (y.ue u).trans (x.ue u)⟩

theorem of_modSub {f : Sub → Sub} (u : Nat) (c : Chip) (hst : ∀ x, (f x).st = x.st) (hue : ∀ x, (f x).ue = x.ue) : Requested c (modSub u f c) := by
  refine ⟨rfl, rfl, anyFrozen_modSub hst, fun v => ?_⟩
  by_cases h : u = v
  · subst h; rw [getSub_modSub_same, hue]
  · exact congrArg Sub.ue (tget_tput_other _ _ _ h)

theorem of_draw (c : Chip) : Requested c (draw c).2 := ⟨rfl, rfl, id, fun _ => rfl⟩

theorem of_logDram (u rank : Nat) (c : Chip) : Requested c (logDram u rank c) :=
  ((of_draw c).trans (of_draw _)).trans (of_modSub u _ (fun _ => rfl) fun _ => rfl)

theorem of_requestSub (write : Bool) (rank u : Nat) (c : Chip) : Requested c (requestSub write rank u c) := by
  refine trans ?_ (of_logDram u rank _)
  exact of_modSub u c (fun _ => rfl) fun _ => rfl

theorem of_requestSubs (write : Bool) (a n : Nat) (c : Chip) : Requested c (requestSubs write a n c) :=
  List.foldlRecOn (motive := fun d => Requested c d) _ _ (refl c) fun d hd u _ => by
    split
    · exact hd
    · exact hd.trans (of_requestSub ..)

end Requested

/-! What a read and a write leave of the host interface and of what the device has sent. -/

@[simp] theorem correctedAt_host (a : Nat) (c : Chip) : (correctedAt a c).host = c.host := by
  simp [correctedAt, apply_ite Chip.host]

@[simp] theorem uncorrectableAt_host (a : Nat) (c : Chip) : (uncorrectableAt a c).host = c.host := by
  simp [uncorrectableAt, apply_ite Chip.host]

@[simp] theorem uncorrectableAt_out (a : Nat) (c : Chip) : (uncorrectableAt a c).out = c.out := by
  simp [uncorrectableAt, apply_ite Chip.out]

@[simp] theorem poisonReadAt_host (a : Nat) (c : Chip) : (poisonReadAt a c).host = c.host := by
  simp [poisonReadAt, apply_ite Chip.host]

@[simp] theorem readMark_host (m : Mem) (w : Nat) (bad : List Nat) (c : Chip) : (readMark m w bad c).2.host = c.host := by
  unfold readMark; split
  · simp
  · split <;> simp [apply_ite Chip.host]

@[simp] theorem memWrite_host (m : Mem) (a : Nat) (data : List Byte) (p : Bool) (c : Chip) : (memWrite m a data p c).2.host = c.host := by
  unfold memWrite; dsimp only; split
  · rfl
  · split
    · rfl
    · exact foldl_keeps (fun _ _ => readMark_host _ _ _ _) _ _

/-- An uncorrectable word of DRAM counts on its subchannel (R513). -/
theorem ue_uncorrectableAt {a : Nat} (c : Chip) (h : a < packetBase) :
    (getSub (uncorrectableAt a c) (subOf a)).ue = min ((getSub c (subOf a)).ue + 1) ctrMax := by
  have hdram : ¬ (isPacket a = true) := by simpa [isPacket] using h
  have hraise (i k o d : Nat) (d0 : Chip) : getSub (raise i k none o d d0) (subOf a) = getSub d0 (subOf a) := rfl
  rw [uncorrectableAt, if_neg hdram]
  dsimp only
  split
  · rw [hraise]; simp
  · simp

/-! Writes. -/

/-- A run of bytes and then marks: the bytes of the run read back, and every other one is as before. -/
theorem apply_run_bytes {m : Mem} {l : List MemOp} (d : Nat) (data : List Byte) (hm : m.wf = true) (hl : ∀ o ∈ l, o.marks = true) :
    (∀ i < data.length, (m.apply (.write d data :: l)).byte (d + i) = data.getD i 0) ∧
      ∀ x, x < d ∨ d + data.length ≤ x → (m.apply (.write d data :: l)).byte x = m.byte x := by
  have hcells : (m.apply (.write d data :: l)).cells = Mem.writeBytes m.cells d data := by
    rw [Mem.apply_cons, apply_marks_cells hl]; rfl
  obtain ⟨hrise, -⟩ := (Mem.wf_iff m).1 hm
  constructor
  · intro i hi; rw [Mem.byte, hcells]; exact writeBytes_at data m.cells d i hi hrise
  · intro x hx; rw [Mem.byte, hcells]; exact writeBytes_other data m.cells hx

/-- Words that `n` bytes from `a` touch. -/
def touched (a n : Nat) : List Nat := (List.range ((a + n - 1) / 8 - a / 8 + 1)).map (· + a / 8)

theorem mem_touched {a n i : Nat} (h : i < n) : (a + i) / 8 ∈ touched a n :=
  List.mem_map.2 ⟨(a + i) / 8 - a / 8, List.mem_range.2 (by omega), by omega⟩

theorem memWrite_poisoned {c : Chip} {a : Nat} {data : List Byte} (m : Mem) (hf : anyFrozen c = false) (hn : data ≠ []) :
    memWrite m a data true c = (.write a data :: poisonWords c (touched a data.length), c) := by
  simp only [memWrite, List.length_eq_zero_iff, hn, if_false, if_true, livePieces, hf, Bool.false_eq_true, false_and, List.singleton_append]
  rfl

/-- A word that is poisoned reads so until it is written anew. -/
theorem poison_poisonWords {c : Chip} (hf : anyFrozen c = false) (ws : List Nat) (m : Mem) :
    (m.apply (poisonWords c ws)).poison = ws.foldl linsert m.poison := by
  rw [poisonWords, List.filter_eq_self.2 fun w _ => by rw [frozen_thawed hf]; rfl]
  induction ws generalizing m with
  | nil => rfl
  | cons w ws ih =>
    rw [List.flatMap_cons, Mem.apply_append, ih, List.foldl_cons]
    simp [Mem.applyOp]

/-- A write while no subchannel is frozen stores its bytes and touches no other, and with the poison mark it marks every word of them
(R500, R515). -/
theorem memWrite_stores {c : Chip} {m : Mem} (a : Nat) (data : List Byte) (p : Bool) (hm : m.wf = true) (hf : anyFrozen c = false) :
    (∀ i < data.length, (m.apply (memWrite m a data p c).1).byte (a + i) = data.getD i 0) ∧
      (∀ x, x < a ∨ a + data.length ≤ x → (m.apply (memWrite m a data p c).1).byte x = m.byte x) ∧
      (p = true → ∀ i < data.length, (m.apply (memWrite m a data p c).1).bad (a + i) = true) := by
  by_cases hn : data = []
  · subst hn
    exact ⟨fun i hi => absurd hi (Nat.not_lt_zero i), fun x _ => rfl, fun _ i hi => absurd hi (Nat.not_lt_zero i)⟩
  · cases p with
    | false =>
      obtain ⟨hin, hother⟩ := memWrite_bytes (d := a) hm hf hn
      exact ⟨hin, hother, fun h => nomatch h⟩
    | true =>
      rw [memWrite_poisoned m hf hn]
      obtain ⟨hin, hother⟩ := apply_run_bytes a data hm (poisonWords_marks c (touched a data.length))
      refine ⟨hin, hother, fun _ i hi => ?_⟩
      rw [Mem.bad, List.contains_iff_mem, Mem.apply_cons, poison_poisonWords hf, mem_foldl_linsert]
      exact .inl (mem_touched hi)

theorem exec_dramWrite_inside {s : State} {a : Nat} {data : List Byte} (src : Nat) (p : Bool) (h : a + data.length ≤ capBytes s.chip) :
    exec (.dramWrite src a data p) s = .next { s with
      chip := (memWrite s.mem a data p (requestSubs true a data.length s.chip)).2
      mem := s.mem.apply (memWrite s.mem a data p (requestSubs true a data.length s.chip)).1 } :=
  if_neg (Nat.not_lt.2 h)

/-! Reads. -/

/-- A word with more wrong bits than the code corrects is delivered with its poison mark (R513). -/
theorem memRead_uncorrectable {c : Chip} {m : Mem} {a n w : Nat} (hf : anyFrozen c = false) (hm : markedIn m a n = [w])
    (hclean : m.poison.contains w = false) (hbits : 3 ≤ tget 0 m.flips w) : memRead m a n c = (m.bytes a n, [w], uncorrectableAt (w * 8) c) := by
  simp only [memRead, frozenIn, hf, hm, readMark, hclean, hbits, Bool.false_eq_true, false_and, if_false, if_true, List.contains_nil,
    Bool.not_false, List.filter_true, List.foldl_cons, List.foldl_nil, List.nil_append]

theorem exec_dramRead_inside {s : State} {a n : Nat} {data : List Byte} {ws : List Nat} {d : Chip} (src : Nat) (h : a + n ≤ capBytes s.chip)
    (hr : memRead s.mem a n (requestSubs false a n s.chip) = (data, ws, d)) :
    exec (.dramRead src a n []) s = .next (onChip s (emit (.memData src a data (ws.map (· * 8))) d)) := by
  have hr' : memRead (s.mem.apply (upset [])) a n (requestSubs false a n s.chip) = (data, ws, d) := hr
  refine (if_neg (Nat.not_lt.2 h)).trans (actMem_onChip ?_)
  simp only [hr']
  rfl

/-- Settles O12: subchannels take the request, and then the access is one of `memRead` or `memWrite`. -/
theorem dramReadWrite : Obligations.DramReadWrite := by
  unfold Obligations.DramReadWrite
  refine ⟨?write, ?clean, ?uncorrectable, fun s src a n e h => if_pos h, fun s src a data p h => if_pos h⟩
  case write =>
    intro s src a data p hm hin hf
    have hreq := Requested.of_requestSubs true a data.length s.chip
    obtain ⟨hbytes, hother, hpoison⟩ := memWrite_stores a data p hm (hreq.thawed hf)
    exact ⟨_, exec_dramWrite_inside src p hin, hbytes, hother, hpoison, (memWrite_host ..).trans hreq.host⟩
  case clean =>
    intro s src a n hin hf hm
    have hreq := Requested.of_requestSubs false a n s.chip
    refine ⟨_, exec_dramRead_inside src hin (memRead_clean (hreq.thawed hf) hm), ?_, rfl, hreq.host⟩
    rw [onChip_chip, emit_out, hreq.out]
    rfl
  case uncorrectable =>
    intro s src a hal hin hf hdram hm hclean hbits
    have hreq := Requested.of_requestSubs false a 8 s.chip
    have ha : a / 8 * 8 = a := Nat.div_mul_cancel (Nat.dvd_of_mod_eq_zero hal)
    refine ⟨_, exec_dramRead_inside src hin (memRead_uncorrectable (hreq.thawed hf) hm hclean hbits), ?_, rfl, ?_⟩
    · rw [onChip_chip, emit_out, uncorrectableAt_out, hreq.out, List.map_singleton, ha]
    · rw [onChip_chip, ha, ← hreq.ue]
      exact ue_uncorrectableAt _ hdram

end Sys2Proof.Machine
end

section
/-!
SUPPORT. The time block (R526 to R548): its domains, and the obligations about the selected domain and about the block's commands.
-/
namespace Sys2Proof.Machine
open Sys2Proof

/-! Domains. -/

@[simp] theorem dom_putDom_same (t : TimeBase) (d : Nat) (x : Dom) : (t.putDom d x).dom d = x := by
  unfold TimeBase.putDom TimeBase.dom; split <;> rfl

@[simp] theorem putDom_cyc (t : TimeBase) (d : Nat) (x : Dom) : (t.putDom d x).cyc = t.cyc := by
  unfold TimeBase.putDom; split <;> rfl

/-- The registers of the block answer while the AON domain is on (R24). -/
theorem timeBlock_answers {c : Chip} {addr : Nat} (ha : addr / 0x100000 = 1) (hd : domOn c 0 = true) : blockOff c addr = false :=
  blockOff_single (by simp [blockDomains, ha]) hd

/-- A write to the block through an open lock reaches its register. -/
theorem b2Write_time {c : Chip} {fn addr : Nat} {v : Word} (f : Chip → Chip) (ha : addr / 0x100000 = 1) (hr : bar2Reach c fn = true)
    (hd : domOn c 0 = true) (hl : locked c 1 = false) : b2Write fn addr v f c = f c :=
  b2Write_through f hr (timeBlock_answers ha hd) (ha ▸ hl)

/-! Increments and slews (R527, R529, R533). -/

theorem exec_timeIncWrite {s : State} {fn d : Nat} (lo hi : Word) (hr : bar2Reach s.chip fn = true) (hd : domOn s.chip 0 = true)
    (hl : locked s.chip 1 = false) (h2 : d < 2) : exec (.timeIncWrite fn d lo hi) s = .next (onChip s (setInc d lo hi s.chip)) := by
  have ha : (0x100110 + 0x100 * d) / 0x100000 = 1 := by omega
  refine act_onChip ?_
  rw [if_pos h2, b2Pair_through hr (timeBlock_answers ha hd) (ha ▸ hl)]

theorem setInc_eq (s : State) (d : Nat) (lo hi : Word) :
    onChip s (setInc d lo hi s.chip) =
      onTime s (if incOk (lo.toNat + 2 ^ 32 * bits hi.toNat 0 8) = true
        then s.chip.time.putDom d { s.chip.time.dom d with inc := lo.toNat + 2 ^ 32 * bits hi.toNat 0 8 }
        else { s.chip.time with configError := true }) := by
  unfold setInc; dsimp only; split <;> rfl

theorem exec_slewPpbWrite {s : State} {fn : Nat} (v : Word) (hr : bar2Reach s.chip fn = true) (hd : domOn s.chip 0 = true)
    (hl : locked s.chip 1 = false) : exec (.slewPpbWrite fn v) s = .next (onChip s (setSlew v s.chip)) :=
  act_onChip (b2Write_time _ (by decide) hr hd hl)

/-- A slew within range and against the sign of OFF is taken. -/
theorem setSlew_taken {c : Chip} {v : Word} (hlo : -500000 ≤ v.toInt) (hhi : v.toInt ≤ 500000)
    (hsign : 0 < v.toInt ∧ c.time.off < 0 ∨ v.toInt < 0 ∧ 0 < c.time.off) :
    setSlew v c = { c with time := { c.time with slewPpb := v.toInt, slewStart := localNs c } } := by
  have hrange : ¬ (v.toInt < -500000 ∨ 500000 < v.toInt) := by omega
  have hnonzero : v.toInt ≠ 0 := by omega
  have hagainst : ¬ (c.time.off = 0 ∨ (0 < v.toInt ∧ 0 < c.time.off) ∨ (v.toInt < 0 ∧ c.time.off < 0)) := by omega
  unfold setSlew; dsimp only
  rw [if_neg hrange, if_neg hnonzero, if_neg hagainst]
  rfl

/-- A slew out of range, or with nothing to slew, sets CONFIG_ERROR alone. -/
theorem setSlew_refused {c : Chip} {v : Word} (h : v.toInt < -500000 ∨ 500000 < v.toInt ∨ v.toInt ≠ 0 ∧ c.time.off = 0) :
    setSlew v c = timeError c := by
  unfold setSlew; dsimp only
  by_cases hrange : v.toInt < -500000 ∨ 500000 < v.toInt
  · rw [if_pos hrange]
  · have hnonzero : v.toInt ≠ 0 := by omega
    have hoff : c.time.off = 0 := by omega
    rw [if_neg hrange, if_neg hnonzero, if_pos (.inl hoff)]

theorem clearOffset_slewing {c : Chip} (h : c.time.slewPpb ≠ 0) : (clearOffset c).time.off = 0 ∧ (clearOffset c).time.slewPpb = 0 ∧
    (clearOffset c).host = c.host := by
  unfold clearOffset; dsimp only; rw [if_neg h]; exact ⟨rfl, rfl, rfl⟩

/-! The selected domain (R530 to R532). -/

/-- The chip after a write of TIME_CTRL.SELECT (R531). -/
theorem selectDomain_eq (v : Word) (c : Chip) :
    selectDomain v c = if v.getLsbD 0 = c.time.selB then c else
      raise 0 0xC01 none (b2n (v.getLsbD 0)) (saturate 64 ((c.time.svcFine - (if v.getLsbD 0 then c.time.b else c.time.a).t * 1000000000).tdiv
          (1000000000 * 4294967296)))
        { c with time := { c.time with selB := v.getLsbD 0, slewPpb := 0, off := c.time.svcFine - (if v.getLsbD 0 then c.time.b else c.time.a).t * 1000000000 } } :=
  rfl

theorem exec_timeSelectWrite {s : State} {fn : Nat} (v : Word) (hr : bar2Reach s.chip fn = true) (hd : domOn s.chip 0 = true)
    (hl : locked s.chip 1 = false) : exec (.timeSelectWrite fn v) s = .next (onChip s (selectDomain v s.chip)) :=
  act_onChip (b2Write_time _ (by decide) hr hd hl)

/-- With OFF taken as service time less the new domain, service time has the value it had. -/
theorem svcFine_select (t : TimeBase) (b : Bool) :
    ({ t with selB := b, slewPpb := 0, off := t.svcFine - (if b then t.b else t.a).t * 1000000000 } : TimeBase).svcFine = t.svcFine := by
  show (if b then t.b else t.a).t * 1000000000 + (t.svcFine - (if b then t.b else t.a).t * 1000000000) = t.svcFine
  omega

/-- A step of the domain that is not selected moves its counter (R529). -/
theorem stepDomain_other {c : Chip} {d : Nat} (hok : (c.time.dom d).stepOk = true) (hd : d ≠ c.time.selNum) :
    stepDomain d c = { c with time := c.time.putDom d ((c.time.dom d).stepBy (c.time.dom d).stepOf) } := by
  unfold stepDomain; dsimp only
  rw [if_neg (by simp [hok]), if_pos hd]
  rfl

theorem exec_stepCmdGo {s : State} {fn d : Nat} {v : Word} (hr : bar2Reach s.chip fn = true) (hd : domOn s.chip 0 = true) (h2 : d < 2)
    (hv : v.getLsbD 0 = true) : exec (.stepCmdGo fn d v) s = .next (onChip s (stepDomain d s.chip)) := by
  unfold exec execStepCmdGo
  refine act_onChip ?_
  rw [b2Turned_none hr (timeBlock_answers (by omega) hd) (by simp), if_pos ⟨h2, hv⟩]

/-! Captures (R548). -/

theorem captureRead_domain (fn : Nat) {d : Nat} (hd : d < 2) (c : Chip) :
    captureRead fn (0x100 * d + 0x100) c = emit (.readData fn [wd (clockSec (c.time.dom d).t)])
      { c with time := c.time.putDom d { c.time.dom d with
          capSec := clockSec (c.time.dom d).t, capNs := clockNs (c.time.dom d).t, capFrac := clockFrac (c.time.dom d).t } } := by
  have hidx : (0x100 * d + 0x100) / 0x100 - 1 = d := by omega
  unfold captureRead; dsimp only
  rw [if_neg (by omega), if_pos (by omega), hidx]

/-! Pulses (R539, R540). -/

/-- An edge of the selected polarity within 500 ms of the last accepted one is counted. -/
theorem ppsIn_early {c : Chip} {d : Nat} {falling : Bool} (hd : d < 2) (hen : (c.time.dom d).ppsCtrl.getLsbD 2 = true)
    (hpol : (c.time.dom d).ppsCtrl.getLsbD 3 = falling) (hseen : (c.time.dom d).edgeAt ≠ 0)
    (hsoon : localNs c + 1 < (c.time.dom d).edgeAt + 500000000) :
    ppsIn d falling c = { c with time := c.time.putDom d { c.time.dom d with edgesIgnored := (c.time.dom d).edgesIgnored + 1 } } := by
  unfold ppsIn; dsimp only
  rw [if_neg (not_not_intro ⟨hd, hen, hpol⟩), if_pos ⟨hseen, hsoon⟩]

/-- The first edge of the selected polarity is stamped. -/
theorem ppsIn_first {c : Chip} {d : Nat} {falling : Bool} (hd : d < 2) (hen : (c.time.dom d).ppsCtrl.getLsbD 2 = true)
    (hpol : (c.time.dom d).ppsCtrl.getLsbD 3 = falling) (hfirst : (c.time.dom d).edgeAt = 0) :
    (ppsIn d falling c).time.dom d = { c.time.dom d with
      edgeSec := clockSec (c.time.dom d).t, edgeNs := clockNs (c.time.dom d).t, edgeSvc := svc c % 2 ^ 32, edgeAt := localNs c + 1 } := by
  unfold ppsIn; dsimp only
  rw [if_neg (not_not_intro ⟨hd, hen, hpol⟩), if_neg fun h => h.1 hfirst]
  obtain rfl | rfl : d = 0 ∨ d = 1 := by omega
  all_goals split <;> rfl

/-- An output pulse begins and holds for WIDTH_US. -/
theorem ppsOut_begins {c : Chip} {d : Nat} (hd : d < 2) (hen : (c.time.dom d).ppsCtrl.getLsbD 0 = true) (hidle : (c.time.dom d).pulse = false)
    (hinc : 0 < (c.time.dom d).inc) :
    ((ppsOut d c).time.dom d).pulse = true ∧ ((ppsOut d c).time.dom d).lastPulse = (c.time.dom d).nextPulse ∧
      ((ppsOut d c).time.dom d).pulseEnd = localNs (ppsOut d c) + (c.time.dom d).widthUs * 1000 := by
  unfold ppsOut; dsimp only
  rw [if_neg (not_not_intro ⟨hd, hen, by simp [hidle], hinc⟩)]
  refine ⟨?_, ?_, ?_⟩ <;> simp only [localNs, dom_putDom_same, putDom_cyc]

/-- It ends no earlier than it is due. -/
theorem ppsOutEnd_ends {c : Chip} {d : Nat} (hd : d < 2) (hp : (c.time.dom d).pulse = true) :
    ((ppsOutEnd d c).time.dom d).pulse = false ∧ (c.time.dom d).pulseEnd ≤ localNs (ppsOutEnd d c) := by
  unfold ppsOutEnd; dsimp only
  rw [if_pos ⟨hd, hp⟩]
  have hns (t : TimeBase) (c' : Chip) (x : Dom) : localNs { c' with time := t.putDom d x } = localNs { c' with time := t } :=
    congrArg (· * 5 / 4) (putDom_cyc t d x)
  refine ⟨by simp [modTime], ?_⟩
  rw [modTime, hns]
  exact le_localNs_waitLocal _ c

/-! The obligations. -/

/-- Settles O5: the switch captures OFF so that service time continues without a jump. -/
theorem selectKeepsServiceTime : Obligations.SelectKeepsServiceTime := by
  unfold Obligations.SelectKeepsServiceTime
  intro s fn v hr hd hl hne
  refine ⟨_, exec_timeSelectWrite v hr hd hl, ?_⟩
  rw [onChip_chip, onChip_mem, selectDomain_eq, if_neg hne]
  refine ⟨rfl, svcFine_select s.chip.time _, rfl, rfl, rfl, rfl, ?_, ⟨_, rfl, rfl, ?_, rfl⟩, rfl⟩
  · exact List.length_append
  · exact Nat.mod_eq_of_lt (by cases v.getLsbD 0 <;> decide)

/-- Settles O6: each row is its own function of the time block. -/
theorem timeBlockCommands : Obligations.TimeBlockCommands := by
  unfold Obligations.TimeBlockCommands
  refine ⟨?increment, ?slew, ?slewRefused, ?slewEnd, ?capture, ?early, ?edge, ?pulse, ?pulseEnd, ?step, ?select, ?get⟩
  case increment =>
    intro s fn d lo hi hr hd hl h2
    rw [exec_timeIncWrite lo hi hr hd hl h2, setInc_eq]
  case slew =>
    intro s fn v hr hd hl hlo hhi hsign
    rw [exec_slewPpbWrite v hr hd hl, setSlew_taken hlo hhi hsign]
    rfl
  case slewRefused =>
    intro s fn v hr hd hl hbad
    rw [exec_slewPpbWrite v hr hd hl, setSlew_refused hbad]
    rfl
  case slewEnd =>
    intro s h
    obtain ⟨hoff, hslew, hhost⟩ := clearOffset_slewing h
    exact ⟨_, rfl, hoff, hslew, rfl, hhost⟩
  case capture =>
    intro s fn d hr hd h2
    have ha : 0x100000 + (0x100 * d + 0x100) % 0x100000 = 0x100000 + (0x100 * d + 0x100) := by omega
    refine act_onChip ?_
    rw [ha, b2Read_through _ hr (timeBlock_answers (by omega) hd), captureRead_domain fn h2]
  case early =>
    intro s d falling hd hen hpol hseen hsoon
    exact act_onChip (ppsIn_early hd hen hpol hseen hsoon)
  case edge =>
    intro s d falling hd hen hpol hfirst
    refine ⟨_, rfl, ?_⟩
    rw [ppsIn_first hd hen hpol hfirst]
    exact ⟨rfl, rfl, rfl, rfl, rfl⟩
  case pulse =>
    intro s d hd hen hidle hinc
    obtain ⟨hp, hlast, hend⟩ := ppsOut_begins hd hen hidle hinc
    exact ⟨_, rfl, hp, hlast, hend, rfl⟩
  case pulseEnd =>
    intro s d hd hp
    obtain ⟨hoff, hend⟩ := ppsOutEnd_ends hd hp
    exact ⟨_, rfl, hoff, hend, rfl⟩
  case step =>
    intro s fn d v hr hd h2 hv hok hother
    rw [exec_stepCmdGo hr hd h2 hv, stepDomain_other hok hother]
    exact ⟨_, rfl⟩
  case select =>
    intro s fn v hr hd hl
    rw [exec_timeSelectWrite v hr hd hl, selectDomain_eq]
  case get =>
    intro s r h
    exact serve_ends h rfl rfl

end Sys2Proof.Machine
end

section
/-!
SUPPORT. Upkeep of DRAM and of the SRAM (R502 to R509, R517, R518, R524), and the obligation about them.
-/
namespace Sys2Proof.Machine
open Sys2Proof

/-! Memory operations. -/

/-- A key of a table from which entries were taken by their keys. -/
theorem tget_filter_key {α : Type} (d : α) (p : Nat → Bool) (t : Tbl α) (i : Nat) :
    tget d (t.filter fun e => p e.1) i = if p i then tget d t i else d := by
  induction t with
  | nil => simp
  | cons a t ih =>
    obtain ⟨k, v⟩ := a
    by_cases hk : k = i
    · subst hk
      cases hp : p k with
      | false => simpa [hp] using ih
      | true => simp [hp, tget]
    · cases hp : p k with
      | false => simpa [hp, tget, hk] using ih
      | true => simpa [hp, tget, hk] using ih

/-- Filling a subchannel with zero bytes (R505). -/
theorem byte_zeroSub (m : Mem) (u top a : Nat) : (m.apply [.zeroSub u top]).byte a = if top ≤ a ∨ subOf a ≠ u then m.byte a else 0 := by
  have h := tget_filter_key (0 : Byte) (fun a => decide (top ≤ a ∨ a / 256 % 24 ≠ u)) m.cells a
  simp only [decide_eq_true_eq] at h
  exact h

@[simp] theorem tget_flipPut_same {t : Tbl Nat} {w n : Nat} (h : n ≠ 0) : tget 0 (flipPut t w n) w = n := by
  rw [flipPut, if_neg h, tget_tput_same]

/-! Subchannels. -/

@[simp] theorem getSub_raise (i k : Nat) (fn : Option Nat) (o d : Nat) (c : Chip) (u : Nat) : getSub (raise i k fn o d c) u = getSub c u := rfl

@[simp] theorem getSub_waitLocal (n : Nat) (c : Chip) (u : Nat) : getSub (waitLocal n c) u = getSub c u := rfl

/-- Commands that a subchannel issues are logged and touch nothing else of it (R511). -/
theorem getSub_logDram_same (u rank : Nat) (c : Chip) : ∃ l, getSub (logDram u rank c) u = { getSub c u with cmds := l } :=
  ⟨_, getSub_modSub_same u _ _⟩

/-- Training finds delays and touches nothing else of the subchannel (R505). -/
theorem getSub_trainDelays_same (u : Nat) (c : Chip) : ∃ l, getSub (trainDelays u c) u = { getSub c u with delays := l } :=
  ⟨_, getSub_modSub_same u _ _⟩

/-! Refresh, self-refresh and temperature (R502, R503). -/

/-- The subchannel serves: it is trained and not frozen. -/
theorem serving_cases {u : Nat} {c : Chip} (h : (getSub c u).st = 1 ∨ (getSub c u).st = 2) : (getSub c u).st ≠ 0 ∧ (getSub c u).st ≠ 3 := by
  omega

theorem refreshDue_guard {u : Nat} {c : Chip} (hu : u < 24) (hst : (getSub c u).st = 1 ∨ (getSub c u).st = 2)
    (hsr : (getSub c u).selfRefresh = false) : ¬ (¬ u < 24 ∨ (getSub c u).st = 0 ∨ (getSub c u).st = 3 ∨ (getSub c u).selfRefresh = true) := by
  obtain ⟨h0, h3⟩ := serving_cases hst
  simp [hu, h0, h3, hsr]

theorem debt_refreshDue_issued {u : Nat} {c : Chip} (hu : u < 24) (hst : (getSub c u).st = 1 ∨ (getSub c u).st = 2)
    (hsr : (getSub c u).selfRefresh = false) : (getSub (refreshDue u false c) u).debt = 0 := by
  unfold refreshDue; dsimp only
  rw [if_neg (refreshDue_guard hu hst hsr), if_pos Bool.false_ne_true]
  obtain ⟨l, hlog⟩ := getSub_logDram_same u 0
    (modSub u (fun x => { x with debt := 0, refBank := if (getSub c u).refsb = true then ((getSub c u).refBank + 1) % 4 else (getSub c u).refBank }) c)
  rw [hlog, getSub_modSub_same]

theorem debt_refreshDue_postponed {u : Nat} {c : Chip} (hu : u < 24) (hst : (getSub c u).st = 1 ∨ (getSub c u).st = 2)
    (hsr : (getSub c u).selfRefresh = false) (hall : (getSub c u).refsb = false) (hroom : (getSub c u).debt + 4 < 16) :
    (getSub (refreshDue u true c) u).debt = (getSub c u).debt + 4 := by
  unfold refreshDue; dsimp only
  rw [if_neg (refreshDue_guard hu hst hsr), if_neg (not_not_intro rfl)]
  simp only [hall, Bool.false_eq_true, if_false]
  rw [if_pos hroom, getSub_modSub_same]

theorem selfRefreshIdle_enters {u : Nat} {c : Chip} (hu : u < 24) (hen : (getSub c u).srEn = true) (hsr : (getSub c u).selfRefresh = false)
    (hst : (getSub c u).st = 1 ∨ (getSub c u).st = 2) :
    (getSub (selfRefreshIdle u c) u).selfRefresh = true ∧ (getSub c u).lastReq + (getSub c u).srIdleUs * 1000 ≤ localNs (selfRefreshIdle u c) := by
  unfold selfRefreshIdle; dsimp only
  rw [if_pos ⟨hu, hen, by simp [hsr], hst⟩]
  refine ⟨?_, le_localNs_waitLocal _ c⟩
  rw [getSub_modSub_same]

theorem mr4Poll_hot {u : Nat} {c : Chip} (d : Bool) (v : BitVec 8) (hu : u < 24) (hst : (getSub c u).st = 1 ∨ (getSub c u).st = 2) :
    mr4Poll u d true v c = raise (subIsland u) 0xB08 none u v.toNat
      (modSub u (fun x => { x with double := d || true, events := x.events ||| 4 }) c) := by
  rw [mr4Poll, if_pos ⟨hu, hst⟩]; rfl

/-! Training and retraining (R505 to R509). -/

theorem trainingStep_guard {u : Nat} {c : Chip} (hu : u < 24) (hph : c.pwr.phase = .starting) (h7 : domOn c 7 = true) (h8 : domOn c 8 = true)
    (hst : (getSub c u).st = 0) : ¬ ¬ (u < 24 ∧ c.pwr.phase = .starting ∧ domOn c 7 = true ∧ domOn c 8 = true ∧ (getSub c u).st = 0) :=
  not_not_intro ⟨hu, hph, h7, h8, hst⟩

/-- A step of training passes and is not the last. -/
theorem trainingStep_counts {u : Nat} {c : Chip} (hu : u < 24) (hph : c.pwr.phase = .starting) (h7 : domOn c 7 = true) (h8 : domOn c 8 = true)
    (hst : (getSub c u).st = 0) (hstep : (getSub c u).step < 8) :
    (getSub (trainingStep u true c).1 u).step = (getSub c u).step + 1 ∧ (getSub (trainingStep u true c).1 u).st = 0 ∧
      (trainingStep u true c).2 = [] := by
  have hlast : (getSub c u).step + 1 < 9 := by omega
  unfold trainingStep; dsimp only
  rw [if_neg (trainingStep_guard hu hph h7 h8 hst), if_pos rfl, if_pos hlast, getSub_modSub_same]
  exact ⟨rfl, hst, rfl⟩

/-- The last step of training passes. -/
theorem trainingStep_ends {u : Nat} {c : Chip} (hu : u < 24) (hph : c.pwr.phase = .starting) (h7 : domOn c 7 = true) (h8 : domOn c 8 = true)
    (hst : (getSub c u).st = 0) (hstep : (getSub c u).step = 8) :
    (getSub (trainingStep u true c).1 u).st = 1 ∧ (trainingStep u true c).2 = [.zeroSub u packetBase] := by
  unfold trainingStep; dsimp only
  rw [if_neg (trainingStep_guard hu hph h7 h8 hst), if_pos rfl, if_neg (by omega)]
  obtain ⟨l, htrain⟩ := getSub_trainDelays_same u (modSub u (fun y => { y with step := 9, st := 1, lastReq := localNs c }) c)
  refine ⟨?_, rfl⟩
  rw [htrain, getSub_modSub_same]

theorem retrainInterval_starts {u d : Nat} {c : Chip} (hu : u < 24) (hst : (getSub c u).st = 1) (hidle : (getSub c u).retraining = false)
    (hdrift : (getSub c u).driftPs < d) :
    (getSub (retrainInterval u d c) u).retraining = true ∧ (getSub (retrainInterval u d c) u).lastDrift = d := by
  unfold retrainInterval; dsimp only
  rw [if_pos ⟨hu, .inl hst, by simp [hidle]⟩, getSub_modSub_same]
  exact ⟨by simp [hdrift], rfl⟩

theorem retrainStep_passes {u : Nat} {c : Chip} (hu : u < 24) (hon : (getSub c u).retraining = true) :
    (getSub (retrainStep u true true c) u).retraining = false ∧ (getSub (retrainStep u true true c) u).st = 1 ∧
      (getSub (retrainStep u true true c) u).consecFails = 0 := by
  unfold retrainStep; dsimp only
  rw [if_neg (by simp [hu, hon]), if_pos rfl]
  obtain ⟨l, htrain⟩ := getSub_trainDelays_same u
    (modSub u (fun y => { y with retraining := false, retrains := min ((getSub c u).retrains + 1) 0xFFFF, st := 1, consecFails := 0 }) c)
  rw [htrain, getSub_modSub_same]
  exact ⟨rfl, rfl, rfl⟩

/-- An event that is raised is on its way. -/
theorem exists_mem_raise (i k : Nat) (fn : Option Nat) (o d : Nat) (c : Chip) : ∃ e ∈ (raise i k fn o d c).mgmt.incoming, e.code = k :=
  ⟨_, List.mem_append_right _ List.mem_cons_self, rfl⟩

/-! What a message to the twin and a request of takeover leave (R565). -/

@[simp] theorem twinSend_dram (x : TwinMsg) (c : Chip) : (twinSend x c).dram = c.dram := by unfold twinSend; split <;> rfl
@[simp] theorem twinSend_mgmt (x : TwinMsg) (c : Chip) : (twinSend x c).mgmt = c.mgmt := by unfold twinSend; split <;> rfl

/-- Emptying the queues is bookkeeping but for the queues themselves. -/
theorem books_dropAllQueues (c : Chip) : ∃ legs, Books { c with eg := { c.eg with legs := legs } } (dropAllQueues c) :=
  ⟨_, Books.foldl _ (fun _ (p : EgPkt) => Books.of_drop p.buf _) _ _⟩

@[simp] theorem requestTakeover_dram (c : Chip) : (requestTakeover c).dram = c.dram := by
  unfold requestTakeover; split
  · obtain ⟨_, h⟩ := books_dropAllQueues
      { c with net := { c.net with addrInactive := ((cfg c).addrs.map Prod.fst).foldl linsert c.net.addrInactive }
               twin := { c.twin with silent := true, hbStopped := true } }
    exact (twinSend_dram _ _).trans h.dram
  · rfl

theorem requestTakeover_log (c : Chip) : c.mgmt.incoming <+: (requestTakeover c).mgmt.incoming := by
  unfold requestTakeover; split
  · obtain ⟨_, h⟩ := books_dropAllQueues
      { c with net := { c.net with addrInactive := ((cfg c).addrs.map Prod.fst).foldl linsert c.net.addrInactive }
               twin := { c.twin with silent := true, hbStopped := true } }
    rw [twinSend_mgmt]
    exact h.log
  · exact List.prefix_refl _

/-! Freeze (R509, R511). -/

/-- A subchannel that freezes has its record captured and MEM_FROZEN on its way. -/
theorem freezeSub_freezes {u : Nat} (reason ranks : Nat) {c : Chip} (h : (getSub c u).st ≠ 3) :
    (getSub (freezeSub u reason ranks c) u).st = 3 ∧
      (∃ f, (freezeSub u reason ranks c).dram.freeze = some f ∧ f.sub = u ∧ f.reason = reason ∧ f.parityRanks = ranks) ∧
      ∃ e ∈ (freezeSub u reason ranks c).mgmt.incoming, e.code = 0xB02 := by
  unfold freezeSub; dsimp only
  rw [if_neg h]
  refine ⟨?st, ?record, ?event⟩
  case st =>
    simp only [getSub, requestTakeover_dram, raise_dram, modSub, tget_tmod_same]
  case record =>
    rw [requestTakeover_dram]
    exact ⟨_, rfl, rfl, rfl, rfl⟩
  case event =>
    obtain ⟨e, he, hcode⟩ := exists_mem_raise (subIsland u) 0xB02 none u reason _
    exact ⟨e, (requestTakeover_log _).subset he, hcode⟩

/-- A third failure in a row freezes the subchannel. -/
theorem retrainStep_third {u : Nat} {c : Chip} (hu : u < 24) (hon : (getSub c u).retraining = true) (hfails : (getSub c u).consecFails = 2) :
    ∃ d, retrainStep u true false c = freezeSub u 2 0 d ∧ (getSub d u).st = 2 := by
  unfold retrainStep; dsimp only
  rw [if_neg (by simp [hu, hon]), if_neg Bool.false_ne_true, if_pos (by rw [hfails]; rfl)]
  exact ⟨_, rfl, by rw [getSub_raise, getSub_modSub_same]⟩

/-! Scrubbers and injection (R517, R518, R524). -/

/-- A burst without a word in error moves the scrubber on. -/
theorem scrubBurst_clean {c : Chip} {m : Mem} (hen : c.dram.scrubEn = true) (hserve : inService c = true)
    (hmore : c.dram.scrubPos + 64 < capBytes c) (hlive : frozen c c.dram.scrubPos = false) (hclean : markedIn m c.dram.scrubPos 64 = []) :
    scrubBurst [] c m = ({ c with dram := { c.dram with scrubPos := c.dram.scrubPos + 64 } }, []) := by
  have hcap : 0 < c.dram.capGib := Nat.pos_of_ne_zero fun h => by simp [capBytes, h] at hmore
  have hmarks : markedIn (m.apply (upset [])) c.dram.scrubPos 64 = [] := hclean
  unfold scrubBurst; dsimp only
  rw [if_neg (not_not_intro ⟨hen, hserve, hcap⟩), if_neg (by simp [hlive])]
  simp only [List.filter_nil, hmarks, List.foldl_nil, scrubNext, if_pos hmore]
  rfl

/-- A correctable location outside the clusters, found in two passes in a row, is repaired with the spare. -/
theorem sramFound_repairs {i w n : Nat} {old : List Nat} {c : Chip} (hi : i < 27) (hold : old.contains (i * 2 ^ 20 + w) = true)
    (hnew : c.dram.sramRepairs.contains (i * 2 ^ 20 + w) = false) (ops : List MemOp) :
    sramFound (some n) old (i, w, false) (c, ops) =
      (raise 0 0xB0A none i (n % 65536) { c with dram := { c.dram with sramRepairs := linsert c.dram.sramRepairs (i * 2 ^ 20 + w) } }, ops) := by
  have hmedia : ¬ (30 ≤ i ∧ (i - 30) % 42 < 8) := by omega
  unfold sramFound; dsimp only
  rw [if_neg Bool.false_ne_true, if_neg hmedia, if_pos ⟨hold, by rw [hnew]; rfl⟩, if_neg (fun h => Bool.false_ne_true h.1)]

/-- A pass that repairs its one location. -/
theorem exec_sramScrubPass_repairs {s : State} {i w n : Nat} (hi : i < 27) (hold : s.chip.dram.sramErr.contains (i * 2 ^ 20 + w) = true)
    (hnew : s.chip.dram.sramRepairs.contains (i * 2 ^ 20 + w) = false) : ∃ d, exec (.sramScrubPass [(i, w, false)] (some n)) s =
      .next (onChip s (raise 0 0xB0A none i (n % 65536) d)) ∧ d.mgmt = s.chip.mgmt ∧ d.dram.sramErr = [i * 2 ^ 20 + w] ∧
        d.dram.sramRepairs = linsert s.chip.dram.sramRepairs (i * 2 ^ 20 + w) := by
  refine ⟨{ s.chip with dram := { s.chip.dram with
      sramRepairs := linsert s.chip.dram.sramRepairs (i * 2 ^ 20 + w), sramErr := [i * 2 ^ 20 + w]
      sramPasses := s.chip.dram.sramPasses + 1 } }, ?_, rfl, rfl, rfl⟩
  show execSramScrubPass _ _ s = _
  refine actMem_onChip ?_
  simp only [List.foldl_cons, List.foldl_nil, sramFound_repairs hi hold hnew]
  rfl

/-- An armed write of an injection address stores the error of its mode. -/
theorem injectWrite_armed {v : Nat} {c : Chip} (hal : v % 8 = 0) (hin : v < capBytes c) (harm : c.dram.injArm = true) (hlo : 1 ≤ c.dram.injMode)
    (hhi : c.dram.injMode ≤ 3) :
    injectWrite v c = ({ c with dram := { c.dram with injAddr := v, injArm := false } }, [.poison v false, .flip v c.dram.injMode]) := by
  unfold injectWrite; dsimp only
  rw [if_neg (by simp only [hal, ne_eq, not_true, false_or]; omega), if_neg (not_not_intro harm), if_pos ⟨hlo, hhi⟩]

/-- Settles O13: each row is its own function of the memory controllers. -/
theorem dramUpkeep : Obligations.DramUpkeep := by
  unfold Obligations.DramUpkeep
  refine ⟨?issued, ?postponed, ?selfRefresh, ?hot, ?counts, ?trained, ?drift, ?passes, ?third, ?parity, ?burst, ?sram, ?inject⟩
  case issued =>
    intro s u hu hst hsr
    refine ⟨_, rfl, debt_refreshDue_issued hu hst hsr, rfl, ?_⟩
    show (refreshDue u false s.chip).host = s.chip.host
    unfold refreshDue; dsimp only
    rw [if_neg (refreshDue_guard hu hst hsr)]; rfl
  case postponed =>
    intro s u hu hst hsr hall hroom
    exact ⟨_, rfl, debt_refreshDue_postponed hu hst hsr hall hroom, rfl⟩
  case selfRefresh =>
    intro s u hu hen hsr hst
    obtain ⟨hself, htime⟩ := selfRefreshIdle_enters hu hen hsr hst
    exact ⟨_, rfl, hself, htime, rfl⟩
  case hot =>
    intro s u d v hu hst
    refine ⟨_, act_onChip (mr4Poll_hot d v hu hst), ?_, ⟨_, rfl, rfl, ?_, ?_⟩, rfl⟩
    · rw [onChip_chip, getSub_raise, getSub_modSub_same, Bool.or_true]
    · exact Nat.mod_eq_of_lt (by omega)
    · exact Nat.mod_eq_of_lt (by have := v.isLt; omega)
  case counts =>
    intro s u hu hph h7 h8 hst hstep
    obtain ⟨hcount, hsame, hops⟩ := trainingStep_counts hu hph h7 h8 hst hstep
    exact ⟨_, rfl, hcount, hsame, congrArg s.mem.apply hops⟩
  case trained =>
    intro s u hu hph h7 h8 hst hstep
    obtain ⟨hserve, hops⟩ := trainingStep_ends hu hph h7 h8 hst hstep
    have hbyte (a : Nat) : (s.mem.apply (trainingStep u true s.chip).2).byte a = if packetBase ≤ a ∨ subOf a ≠ u then s.mem.byte a else 0 := by
      rw [hops, byte_zeroSub]
    refine ⟨_, rfl, hserve, fun a ha hlow => ?_, fun a ha => ?_⟩
    · exact (hbyte a).trans (if_neg (by omega))
    · exact (hbyte a).trans (if_pos ha.symm)
  case drift =>
    intro s u d hu hst hidle hdrift
    obtain ⟨hon, hd⟩ := retrainInterval_starts hu hst hidle hdrift
    exact ⟨_, rfl, hon, hd, rfl⟩
  case passes =>
    intro s u hu hon
    obtain ⟨hoff, hst, hfails⟩ := retrainStep_passes hu hon
    exact ⟨_, rfl, hoff, hst, hfails, rfl⟩
  case third =>
    intro s u hu hon hfails
    obtain ⟨d, hd, hst⟩ := retrainStep_third hu hon hfails
    obtain ⟨h3, ⟨f, hf, hsub, hreason, -⟩, hevent⟩ := freezeSub_freezes (u := u) 2 0 (c := d) (by omega)
    exact ⟨_, f, act_onChip hd, h3, hf, hreason, hsub, hevent, rfl⟩
  case parity =>
    intro s u k hu hst
    obtain ⟨h0, h3⟩ := serving_cases hst
    obtain ⟨hfrozen, ⟨f, hf, -, hreason, hranks⟩, -⟩ := freezeSub_freezes 1 k.toNat h3
    exact ⟨_, f, act_onChip (if_pos ⟨hu, h0⟩), hfrozen, hf, hreason, hranks, rfl⟩
  case burst =>
    intro s hen hserve hmore hlive hclean
    exact actMem_onChip (scrubBurst_clean hen hserve hmore hlive hclean)
  case sram =>
    intro s i w n hi hold hnew
    obtain ⟨d, hd, hlog, herr, hrep⟩ := exec_sramScrubPass_repairs (n := n) hi hold hnew
    refine ⟨_, hd, ?_, herr, ⟨_, by rw [← hlog]; rfl, rfl, Nat.mod_eq_of_lt (by omega : i < 2 ^ 32)⟩, rfl⟩
    rw [onChip_chip, raise_dram, hrep]
    exact List.contains_iff_mem.2 (mem_linsert.2 (.inl rfl))
  case inject =>
    intro s fn lo hi _ hr h7 h8 hl hal hin harm hlo hhi
    have hon : blockOff s.chip 0x420020 = false := blockOff_of (by simp [blockDomains, h7, h8])
    have hrow : exec (.injectAddrWrite fn lo hi) s = .next { s with
        chip := (injectWrite (lo.toNat + 2 ^ 32 * hi.toNat) s.chip).1
        mem := s.mem.apply (injectWrite (lo.toNat + 2 ^ 32 * hi.toNat) s.chip).2 } := by
      show execInjectAddrWrite fn lo hi s = _
      rw [execInjectAddrWrite, actMem, b2Pair_through hr hon hl]
    rw [hrow, injectWrite_armed hal hin harm hlo hhi]
    refine ⟨_, rfl, rfl, tget_flipPut_same (by omega), fun a => ?_⟩
    rw [Mem.byte, apply_marks_cells (by simp [MemOp.marks])]
    rfl

end Sys2Proof.Machine
end

section
/-!
SUPPORT. The switch governor, the start credit and VDD_CORE (R577 to R586), and the obligation about them.
-/
namespace Sys2Proof.Machine
open Sys2Proof

/-- A chip whose time base has waited for a time. -/
theorem le_localNs_of_waited {n : Nat} {c d : Chip} (h : d.time = (waitLocal n c).time) : n ≤ localNs d := by
  rw [localNs, h]; exact le_localNs_waitLocal n c

/-! A domain that becomes usable (R577, R583). -/

/-- From `c` to `d` time has not moved, and of the power state neither the domains that are on nor the phase. -/
structure SamePower (c d : Chip) : Prop where
  time : d.time = c.time
  on : d.pwr.on = c.pwr.on
  phase : d.pwr.phase = c.pwr.phase

namespace SamePower

theorem refl (c : Chip) : SamePower c c := ⟨rfl, rfl, rfl⟩

theorem trans {b c d : Chip} (x : SamePower b c) (y : SamePower c d) : SamePower b d :=
  ⟨y.time.trans x.time, y.on.trans x.on, y.phase.trans x.phase⟩

theorem foldl {α : Type} {b c : Chip} {f : Chip → α → Chip} (hc : SamePower b c) (h : ∀ d x, SamePower d (f d x)) (l : List α) :
    SamePower b (l.foldl f c) := by
  induction l generalizing c with
  | nil => exact hc
  | cons x l ih => exact ih (hc.trans (h c x))

theorem of_restartLport (lp : Nat) (c : Chip) : SamePower c (restartLport lp c) := ⟨rfl, rfl, rfl⟩

theorem of_beginRetire (cls n trigger : Nat) (c : Chip) : SamePower c (beginRetire cls n trigger c) := by
  unfold beginRetire; dsimp only
  repeat' split
  all_goals exact ⟨rfl, rfl, rfl⟩

theorem of_applyRecordedRemaps (d : Nat) (c : Chip) : SamePower c (applyRecordedRemaps d c) := by
  unfold applyRecordedRemaps; dsimp only
  apply foldl
  · exact ⟨rfl, rfl, rfl⟩
  · exact fun _ _ => of_beginRetire ..

end SamePower

/-- What starts with a domain leaves every other domain as it is. -/
theorem domainUsable_samePower (d : Nat) (c : Chip) :
    SamePower { c with pwr := { c.pwr with on := c.pwr.on ||| BitVec.ofNat 24 (2 ^ d) } } (domainUsable d c) := by
  unfold domainUsable; dsimp only
  refine SamePower.trans ?_ (SamePower.of_applyRecordedRemaps d _)
  split
  · apply SamePower.foldl
    · exact ⟨rfl, rfl, rfl⟩
    · exact fun _ _ => SamePower.of_restartLport ..
  · split
    · exact ⟨rfl, rfl, rfl⟩
    · split
      · apply SamePower.foldl
        · exact ⟨rfl, rfl, rfl⟩
        · exact fun _ _ => ⟨rfl, rfl, rfl⟩
      · exact ⟨rfl, rfl, rfl⟩

/-- A domain that becomes usable is on (R583). -/
theorem domOn_domainUsable {d : Nat} (hd : d < 24) (c : Chip) : domOn (domainUsable d c) d = true := by
  rw [domOn, (domainUsable_samePower d c).on, BitVec.getLsbD_or, BitVec.getLsbD_ofNat, Nat.testBit_two_pow_self]
  simp [hd]

/-- While the device starts no power-down ends. -/
theorem powerDownEnd_starting {c : Chip} (h : c.pwr.phase = .starting) : powerDownEnd c = c := by
  unfold powerDownEnd
  simp only [h]
  split <;> rfl

/-- The end of a request while the device starts. -/
theorem requestDone_starting {c : Chip} (h : c.pwr.phase = .starting) :
    (requestDone c).pwr.on = c.pwr.on ∧ (requestDone c).pwr.switch = c.pwr.switch ∧ (requestDone c).time = c.time ∧
      (requestDone c).mgmt = c.mgmt := by
  unfold requestDone; dsimp only
  split
  · exact ⟨rfl, rfl, rfl, rfl⟩
  · split
    · refine ⟨?_, ?_, ?_, ?_⟩ <;> simp only [finish_pwr, finish_time, finish_mgmt] <;> rfl
    · rw [powerDownEnd_starting]
      · exact ⟨rfl, rfl, rfl, rfl⟩
      · exact h

/-- A switch that is complete has PWR_SWITCH_DONE on its way, and then its request may end. -/
theorem switchDone_requests (w : Switch) (c : Chip) : ∃ d, switchDone w c = requestDone d ∧ SamePower c d ∧ d.pwr.switch = none ∧
    ∃ e ∈ d.mgmt.incoming, e.code = 0xE01 ∧ e.object = w.dom % 2 ^ 32 := by
  unfold switchDone; dsimp only
  split
  all_goals exact ⟨_, rfl, ⟨rfl, rfl, rfl⟩, rfl, _, List.mem_append_right _ List.mem_cons_self, rfl, rfl⟩

/-- The wake latency ends (R577). -/
theorem domainWoke_waking {w : Switch} {c : Chip} (hs : c.pwr.switch = some w) (hw : w.phase = .wake) :
    domainWoke c = switchDone w (domainUsable w.dom (waitLocal w.deadline c)) := by
  unfold domainWoke; rw [hs]; exact if_pos hw

/-! The governor (R578, R579, R586). -/

theorem switchBegin_next {c : Chip} {d : Nat} {l : List Nat} (hs : c.pwr.switch = none) (hk : c.mgmt.keeperReset = 0) (hr : c.pwr.req.on = d :: l) :
    switchBegin c =
      if 10 < stepAmps d then
        modPwr (fun p => { p with
          switch := some { dom := d, on := true, phase := .lead, startNs := localNs (waitLocal c.pwr.gapEnd c)
                           deadline := localNs (waitLocal c.pwr.gapEnd c) + c.pwr.leadUs * 1000 }
          loadstepN := false, loadstepEnd := 0 }) (waitLocal c.pwr.gapEnd c)
      else beginRamp d true (waitLocal c.pwr.gapEnd c) := by
  have hnext : nextSwitch c = some (d, true) := by unfold nextSwitch; rw [hr]
  unfold switchBegin
  rw [if_neg (by simp [hs, hk]), hnext]
  rfl

theorem loadstepLead_ends {w : Switch} {c : Chip} (hs : c.pwr.switch = some w) (hw : w.phase = .lead) :
    loadstepLead c = beginRamp w.dom w.on (waitLocal w.deadline c) := by
  unfold loadstepLead; rw [hs]; exact if_pos hw

/-- A ramp of a domain that is switched on ends: the wake latency runs on (R578). -/
theorem rampEnd_on {w : Switch} {c : Chip} (hs : c.pwr.switch = some w) (hw : w.phase = .ramp) (hon : w.on = true) :
    (rampEnd c).time = (waitLocal w.deadline c).time ∧
      (rampEnd c).pwr.switch = some { w with phase := .wake, deadline := w.startNs + wakeUs w.dom * 1000 } := by
  have hundo : w.phase ≠ .undo := by rw [hw]; decide
  unfold rampEnd; rw [hs]; dsimp only
  rw [if_pos (.inl hw), if_neg hundo, if_pos hon]
  split <;> exact ⟨rfl, rfl⟩

theorem powerGoodTimeout_late {w : Switch} {c : Chip} (hs : c.pwr.switch = some w) (hw : w.phase = .ramp ∨ w.phase = .wake) (hon : w.on = true) :
    powerGoodTimeout c =
      raise 0 0xE02 none w.dom ((localNs (waitLocal (w.startNs + 2 * rampUs w.dom * 1000) c) - w.startNs) / 1000)
        (modPwr (fun p =>
          { p with
            switch := some { w with on := false, phase := .undo
                                    deadline := localNs (waitLocal (w.startNs + 2 * rampUs w.dom * 1000) c) + rampUs w.dom * 1000 }
            failed := linsert p.failed w.dom, events := p.events ||| 2
            req := { p.req with fault := true, on := lremove p.req.on w.dom } })
          (waitLocal (w.startNs + 2 * rampUs w.dom * 1000) c)) := by
  unfold powerGoodTimeout; rw [hs]; exact if_pos ⟨hon, hw⟩

/-! Start credit and VDD_CORE (R581, R582). -/

/-- Cycles that a unit of a kind waits for its credit. -/
def creditWait (kind : Nat) (c : Chip) : Nat :=
  if unitAmps kind ≤ creditAfter c.pwr.credit (c.time.cyc - c.pwr.creditCyc) then 0
  else ((unitAmps kind - creditAfter c.pwr.credit (c.time.cyc - c.pwr.creditCyc)) * 8 + 24) / 25

theorem startCredit_cyc (kind : Nat) (c : Chip) : (startCredit kind c).time.cyc = c.time.cyc + creditWait kind c := rfl

theorem startCredit_credit (kind : Nat) (c : Chip) :
    (startCredit kind c).pwr.credit = creditAfter c.pwr.credit (c.time.cyc + creditWait kind c - c.pwr.creditCyc) - unitAmps kind := rfl

theorem unitAmps_le (kind : Nat) : unitAmps kind ≤ 200 := by
  unfold unitAmps; split <;> decide

/-- After its wait a unit has the credit that it needs. -/
theorem creditWait_suffices {kind : Nat} {c : Chip} (hcyc : c.pwr.creditCyc ≤ c.time.cyc)
    (hshort : creditAfter c.pwr.credit (c.time.cyc - c.pwr.creditCyc) < unitAmps kind) :
    0 < creditWait kind c ∧ unitAmps kind ≤ creditAfter c.pwr.credit (c.time.cyc + creditWait kind c - c.pwr.creditCyc) := by
  have hmax := unitAmps_le kind
  rw [creditWait, if_neg (Nat.not_le.2 hshort)]
  unfold creditAfter at hshort ⊢
  omega

/-- VDD_CORE moves up by one step. -/
theorem vcoreStep_up {c : Chip} (hon : c.pwr.vcoreOn = true) (hs : c.pwr.switch = none) (hup : c.pwr.mvNow < c.pwr.mvTarget) :
    (vcoreStep c).pwr.mvNow = min (c.pwr.mvNow + 5) c.pwr.mvTarget ∧ (vcoreStep c).time = (waitLocal (c.pwr.vcoreStepNs + 100000) c).time := by
  unfold vcoreStep; dsimp only
  rw [if_neg (by simp [hon, hs, Nat.ne_of_lt hup])]
  exact ⟨by simp [hup], modPwr_time ..⟩

/-- Settles O17: the governor's phases in turn, and then the credit, VDD_CORE and the regulator's alert. -/
theorem powerGovernor : Obligations.PowerGovernor := by
  unfold Obligations.PowerGovernor
  refine ⟨?begins, ?warns, ?lead, ?ramp, ?usable, ?release, ?late, ?credit, ?short, ?vcore, fun _ _ => rfl⟩
  case begins =>
    intro s d l hs hk hr hsmall
    refine ⟨_, act_onChip ((switchBegin_next hs hk hr).trans (if_neg (Nat.not_lt.2 hsmall))), le_localNs_waitLocal _ s.chip, rfl, rfl⟩
  case warns =>
    intro s d l hs hk hr hlarge
    exact ⟨_, act_onChip ((switchBegin_next hs hk hr).trans (if_pos hlarge)), le_localNs_waitLocal _ s.chip, rfl, rfl, rfl⟩
  case lead =>
    intro s w hs hw hon
    refine ⟨_, act_onChip (loadstepLead_ends hs hw), ?_⟩
    rw [hon]
    exact ⟨le_localNs_waitLocal _ s.chip, rfl, rfl⟩
  case ramp =>
    intro s w hs hw hon
    obtain ⟨htime, hswitch⟩ := rampEnd_on hs hw hon
    exact ⟨_, rfl, le_localNs_of_waited htime, rfl, hswitch⟩
  case usable =>
    intro s w hs hw hon hd hph
    have husable := domainUsable_samePower w.dom (waitLocal w.deadline s.chip)
    obtain ⟨d, hdone, hsame, hswitch, e, he, hcode, hobj⟩ := switchDone_requests w (domainUsable w.dom (waitLocal w.deadline s.chip))
    obtain ⟨hdoms, hnone, htime, hlog⟩ := requestDone_starting (hsame.phase.trans (husable.phase.trans hph))
    refine ⟨_, act_onChip ((domainWoke_waking hs hw).trans hdone), ?_, hnone.trans hswitch, ?_, ⟨e, ?_, hcode, ?_⟩, rfl⟩
    · rw [onChip_chip, domOn, hdoms, hsame.on]
      exact domOn_domainUsable hd _
    · exact le_localNs_of_waited (htime.trans (hsame.time.trans husable.time))
    · rw [onChip_chip, hlog]
      exact he
    · rw [hobj, Nat.mod_eq_of_lt (by omega)]
  case release =>
    intro s hlow hend
    exact ⟨_, act_onChip (if_pos ⟨by simp [hlow], hend⟩), rfl, le_localNs_waitLocal _ s.chip, rfl⟩
  case late =>
    intro s w hs hw hon hd
    refine ⟨_, act_onChip (powerGoodTimeout_late hs hw hon), ?_, rfl, le_localNs_waitLocal _ s.chip, ⟨_, rfl, rfl, rfl, rfl⟩, ⟨_, rfl, rfl, ?_⟩, rfl⟩
    · exact List.contains_iff_mem.2 (mem_linsert.2 (.inl rfl))
    · exact Nat.mod_eq_of_lt (by omega : w.dom < 2 ^ 32)
  case credit =>
    intro s k henough
    have hwait : creditWait k s.chip = 0 := if_pos henough
    refine ⟨_, rfl, ?_, rfl, ?_⟩
    · exact (startCredit_cyc k s.chip).trans (by rw [hwait]; rfl)
    · exact (startCredit_credit k s.chip).trans (by rw [hwait]; rfl)
  case short =>
    intro s k hcyc hshort
    obtain ⟨hpos, hsuffices⟩ := creditWait_suffices hcyc hshort
    exact ⟨_, rfl, Nat.lt_add_of_pos_right hpos, rfl, hsuffices⟩
  case vcore =>
    intro s hon hs hup
    obtain ⟨hmv, htime⟩ := vcoreStep_up hon hs hup
    exact ⟨_, rfl, hmv, le_localNs_of_waited htime, rfl⟩

end Sys2Proof.Machine
end

section
/-!
SUPPORT. Resets, the fatal alarm, boot and start-up (R591 to R597, R619, R638), and the obligation about them.
-/
namespace Sys2Proof.Machine
open Sys2Proof

/-! Memory after power-on reset. -/

theorem byte_zero (m : Mem) (a n x : Nat) : (m.apply [.zero a n]).byte x = if x < a ∨ a + n ≤ x then m.byte x else 0 := by
  have h := tget_filter_key (0 : Byte) (fun x => decide (x < a ∨ a + n ≤ x)) m.cells x
  simp only [decide_eq_true_eq] at h
  exact h

theorem byte_clearMemory (m : Mem) {x : Nat} (h : x < 2 * packetBase) : (m.apply clearMemory).byte x = 0 := by
  rw [clearMemory, byte_zero, if_neg (by omega)]

/-! The fatal alarm (R619). -/

@[simp] theorem twinSend_pwr (x : TwinMsg) (c : Chip) : (twinSend x c).pwr = c.pwr := by unfold twinSend; split <;> rfl
@[simp] theorem twinSend_time (x : TwinMsg) (c : Chip) : (twinSend x c).time = c.time := by unfold twinSend; split <;> rfl

/-- A request of takeover leaves power and time alone (R565). -/
theorem requestTakeover_keeps (c : Chip) : (requestTakeover c).pwr = c.pwr ∧ (requestTakeover c).time = c.time := by
  unfold requestTakeover; split
  · obtain ⟨_, h⟩ := books_dropAllQueues
      { c with net := { c.net with addrInactive := ((cfg c).addrs.map Prod.fst).foldl linsert c.net.addrInactive }
               twin := { c.twin with silent := true, hbStopped := true } }
    rw [twinSend_pwr, twinSend_time]
    exact ⟨h.pwr, h.time⟩
  · exact ⟨rfl, rfl⟩

/-- The device has stopped with the fatal alarm for a cause (R619). -/
structure Stopped (cause detail : Nat) (c : Chip) : Prop where
  phase : c.pwr.phase = .fatal
  told : c.mgmt.fatalCause = cause
  foghorn : c.mgmt.foghornN = false
  event : ∃ e ∈ c.mgmt.incoming, e.code = 0xF01 ∧ e.object = cause % 2 ^ 32 ∧ e.detail = detail % 2 ^ 64

theorem stopped_fatalAlarm {cause : Nat} (detail : Nat) (keep : List Nat) (c : Chip) (h : cause ≠ 3) :
    Stopped cause detail (fatalAlarm cause detail keep c) := by
  obtain ⟨e, he, hcode⟩ : ∃ e ∈ (raise 0 0xF01 none cause detail c).mgmt.incoming,
      e.code = 0xF01 ∧ e.object = cause % 2 ^ 32 ∧ e.detail = detail % 2 ^ 64 :=
    ⟨_, List.mem_append_right _ List.mem_cons_self, rfl, rfl, rfl⟩
  exact ⟨if_neg h, rfl, rfl, e, (requestTakeover_log _).subset he, hcode⟩

theorem refclk_fatalAlarm (cause detail : Nat) (keep : List Nat) (c : Chip) : (fatalAlarm cause detail keep c).pwr.refclk = c.pwr.refclk := by
  show (requestTakeover (raise 0 0xF01 none cause detail c)).pwr.refclk = _
  rw [(requestTakeover_keeps _).1, raise_pwr]

/-! Supplies and clocks (R591, R638). -/

/-- A core or memory supply falls in service (R591). -/
theorem exec_pwrgdLoss_serving {rail : Nat} {s : State} (h2 : 2 ≤ rail) (h7 : rail < 7) (hs : inService s.chip = true) :
    exec (.pwrgdLoss rail) s = .next (onChip s (fatalAlarm 2 rail [] (modPwr (fun p => { p with pgLow := linsert p.pgLow rail }) s.chip))) := by
  show execPwrgdLoss rail s = _
  refine actMem_onChip ?_
  unfold pwrgdLoss; dsimp only
  rw [if_neg (Nat.not_le.2 h7), if_neg (Nat.not_lt.2 h2), if_pos hs]

theorem lremove_all {l : List Nat} {x : Nat} (h : ∀ y ∈ l, y = x) : lremove l x = [] := by
  simpa [lremove, List.filter_eq_nil_iff] using h

/-- Once every supply is back a device that a supply stopped starts with cause 4. -/
theorem pwrgdRestore_starts {rail : Nat} (b : Nat) {c : Chip} (hph : c.pwr.phase = .fatal) (hcause : c.mgmt.fatalCause = 2)
    (hlow : ∀ x ∈ c.pwr.pgLow, x = rail) : (pwrgdRestore rail b c).pwr.phase = .starting ∧ (pwrgdRestore rail b c).pwr.cause = 4 ∧
      (pwrgdRestore rail b c).pwr.bootMode = b % 8 := by
  unfold pwrgdRestore; dsimp only
  rw [if_pos ⟨lremove_all hlow, hph, hcause⟩]
  exact ⟨rfl, rfl, rfl⟩

theorem deviceWarmReset_due {b : Nat} {c : Chip} (h : c.pwr.resetAt ≠ 0) :
    (deviceWarmReset b c).pwr.phase = .warmDown ∧ (deviceWarmReset b c).pwr.resetAt = 0 ∧ (deviceWarmReset b c).pwr.bootMode = b % 8 ∧
      (deviceWarmReset b c).time = (waitLocal c.pwr.resetAt c).time := by
  unfold deviceWarmReset; dsimp only
  rw [if_neg h]
  exact ⟨rfl, rfl, rfl, (requestTakeover_keeps _).2⟩

/-! Boot and start-up (R596, R597). -/

theorem bootImage_first {r k g : Bool} {v : Nat} {c : Chip} (hph : c.pwr.phase = .starting) (hstep : c.pwr.step = 4) (hmode : c.pwr.bootMode = 0)
    (htried : c.pwr.tried = []) :
    bootImage r k g v c = if imageFault r k g v = 0 then bootDone c.pwr.activeB false none c
      else modPwr (fun p => { p with tried := [imageFault r k g v] }) c := by
  unfold bootImage; dsimp only
  rw [if_neg (not_not_intro ⟨hph, hstep, .inl hmode, by rw [htried]; decide⟩), htried, if_pos rfl, if_pos rfl]
  simp only [modPwr, htried, List.nil_append]
  rfl

theorem imageFault_good {v : Nat} (h : Config.minSecurityVersion ≤ v) : imageFault true true true v = 0 := if_neg (Nat.not_lt.2 h)

/-- A start-up step that does not end the start is all that happens. -/
theorem exec_startupStepDone {s : State} {ok : Bool} {u : BitVec 20} {d : Chip} (h : startupStep ok u s.chip = d) (hd : d.pwr.phase = .starting) :
    exec (.startupStepDone ok u) s = .next (onChip s d) := by
  have hserve : inService d = false := by simp [inService, hd]
  show execStartupStepDone ok u s = _
  unfold execStartupStepDone
  refine act_onChip ?_
  dsimp only
  rw [h, if_neg (by simp [hserve])]

theorem startupStep_bootMode {u : BitVec 20} {c : Chip} (hph : c.pwr.phase = .starting) (hstep : c.pwr.step = 1) (hmode : c.pwr.bootMode < 4) :
    startupStep true u c = modPwr (fun p => { p with step := 2 }) c := by
  unfold startupStep
  simp only [hph, hstep, ne_eq, not_true, if_false, if_neg (Nat.not_le.2 hmode)]

theorem startupStep_supplies {u : BitVec 20} {c : Chip} (hph : c.pwr.phase = .starting) (hstep : c.pwr.step = 2) (hlow : c.pwr.pgLow = []) :
    startupStep true u c = modPwr (fun p =>
      { p with step := 3, vcoreOn := true, mvNow := 800, mvTarget := 800, req := { PowerCmd.none with on := [1, 9, 10, 2] } }) c := by
  unfold startupStep
  simp only [hph, hstep, hlow, ne_eq, not_true, if_false]
  rfl

/-- The last start-up step puts the device in service and raises START_DONE. -/
theorem startupStep_service {u : BitVec 20} {c : Chip} (hph : c.pwr.phase = .starting) (hstep : c.pwr.step = 11)
    (hon : haveOn c (startDomains c) = true) :
    (startupStep true u c).pwr.phase = .service ∧ (startupStep true u c).pwr.step = 12 ∧ (startupStep true u c).mgmt.foghornN = true ∧
      ∃ e, (startupStep true u c).mgmt.incoming = c.mgmt.incoming ++ [e] ∧ e.code = 0xE04 := by
  unfold startupStep
  simp only [hph, hstep, hon, ne_eq, not_true, if_false, if_true]
  exact ⟨rfl, rfl, rfl, _, rfl, rfl⟩

/-- What firmware does as the device comes into service is apart from power and the Keeper. -/
theorem execStartupStepDone_keeps (ok : Bool) (u : BitVec 20) (s : State) : ∃ c, exec (.startupStepDone ok u) s = .next (onChip s c) ∧
    c.pwr = (startupStep ok u s.chip).pwr ∧ c.mgmt = (startupStep ok u s.chip).mgmt := by
  refine ⟨_, rfl, ?_, ?_⟩
  all_goals dsimp only; split <;> rfl

/-- Settles O18: each reset, clock and start-up row is its own function of the chip. -/
theorem resetsAndStart : Obligations.ResetsAndStart := by
  unfold Obligations.ResetsAndStart
  refine ⟨?powerOn, ?release, ?loss, ?restore, ?clock, ?twinClock, ?warm, ?good, ?bad, ?mode, ?supplies, ?service⟩
  case powerOn =>
    intro s rail hr
    have hrow : exec (.powerOnReset rail) s = .next { s with
        chip := powerOnReset (modPwr (fun p => { p with pgLow := linsert p.pgLow rail }) s.chip), mem := s.mem.apply clearMemory } := by
      show execPowerOnReset rail s = _
      rw [execPowerOnReset, actMem, if_pos hr]
    refine ⟨_, hrow, rfl, ?_, rfl, rfl, rfl, rfl, fun a ha => byte_clearMemory s.mem ha⟩
    exact List.contains_iff_mem.2 (mem_linsert.2 (.inl rfl))
  case release =>
    intro s b hph
    exact ⟨_, act_onChip (if_pos hph), rfl, rfl, rfl, rfl, rfl⟩
  case loss =>
    intro s rail h2 h7 hs
    obtain ⟨hph, hcause, hhorn, e, he, hcode, hobj, hdet⟩ :=
      stopped_fatalAlarm rail [] (modPwr (fun p => { p with pgLow := linsert p.pgLow rail }) s.chip) (by decide : 2 ≠ 3)
    exact ⟨_, exec_pwrgdLoss_serving h2 h7 hs, hph, hcause, hhorn, ⟨e, he, hcode, hobj, hdet.trans (Nat.mod_eq_of_lt (by omega))⟩, rfl⟩
  case restore =>
    intro s rail b hph hcause hlow
    exact ⟨_, rfl, pwrgdRestore_starts b hph hcause hlow⟩
  case clock =>
    intro s
    obtain ⟨hph, hcause, hhorn, -⟩ := stopped_fatalAlarm 0 [] (modPwr (fun p => { p with refclk := false }) s.chip) (by decide : 5 ≠ 3)
    exact ⟨_, rfl, hph, hcause, hhorn, refclk_fatalAlarm .., rfl⟩
  case twinClock =>
    intro s
    exact ⟨_, rfl, rfl, (restarted_restartLport twinLport _).linkUp, rfl⟩
  case warm =>
    intro s b h
    obtain ⟨hph, hdone, hmode, htime⟩ := deviceWarmReset_due h
    exact ⟨_, rfl, hph, hdone, hmode, le_localNs_of_waited htime, rfl⟩
  case good =>
    intro s v hph hstep hmode htried hv
    exact act_onChip ((bootImage_first hph hstep hmode htried).trans (if_pos (imageFault_good hv)))
  case bad =>
    intro s k g v hph hstep hmode htried
    exact act_onChip ((bootImage_first hph hstep hmode htried).trans (if_neg (by simp [imageFault])))
  case mode =>
    intro s u hph hstep hmode
    exact exec_startupStepDone (startupStep_bootMode hph hstep hmode) hph
  case supplies =>
    intro s u hph hstep hlow
    exact exec_startupStepDone (startupStep_supplies hph hstep hlow) hph
  case service =>
    intro s u hph hstep hon
    obtain ⟨c, hc, hpwr, hmgmt⟩ := execStartupStepDone_keeps true u s
    refine ⟨_, hc, ?_⟩
    rw [onChip_chip, hpwr, hmgmt]
    obtain ⟨hserve, hlast, hhorn, hevent⟩ := startupStep_service (u := u) hph hstep hon
    exact ⟨hserve, hlast, hhorn, hevent, rfl⟩

end Sys2Proof.Machine
end

section
/-!
SUPPORT. The power commands (R580, R583, R584, R593, R596), and the obligation about them.
-/
namespace Sys2Proof.Machine
open Sys2Proof

/-! Service. -/

/-- A chip that service has changed outside the slots. -/
theorem took_eq (r : CmdRef) (s : State) : took r s = { s.chip with host := (took r s).host } := rfl

/-- A command that ends has no mark of a power command to act on. -/
theorem powerMark_finish (k : Nat) (r : Res) (c : Chip) : powerMark k (finish k r c) = finish k r c := by
  by_cases h : (getSlot c k).open_ = true
  · refine powerMark_of_not_progress ?_
    rw [getSlot_finish_same k r c h]; simp
  · have hsame : finish k r c = c := if_neg h
    rw [hsame]
    refine powerMark_of_not_progress fun hp => h ?_
    simp [Slot.open_, hp]

/-- A command that has no mark goes on. -/
theorem cancelAt_unmarked {k : Nat} {c : Chip} (h : (getSlot c k).cancel = false) : cancelAt k c = c := by
  unfold cancelAt; dsimp only
  rw [if_neg fun a => Bool.false_ne_true (h.symm.trans a.2)]

/-! GX_POWER_DOMAIN_SET (R583, R584). -/

theorem exec_gxPowerDomainSet {s : State} {r : CmdRef} {d : Chip}
    (h : powerMark (slotKey r.fn r.slot) (serve 0x0E00 r noFields powerSetBoth s.chip) = d) : exec (.gxPowerDomainSet r) s = .next (onChip s d) := by
  subst h; rfl

theorem powerSetBoth_apart {x : Ctx} {c : Chip} (h : bf x.body 0 0 24 &&& bf x.body 4 0 24 = 0) : powerSetBoth x c = powerSet x c :=
  if_neg (not_not_intro h)

/-- A request that names AON or a base domain ends with the domains that are on. -/
theorem powerSet_base {x : Ctx} {c : Chip} (h : ∃ d ∈ maskDomains (bf x.body 0 0 24) ++ maskDomains (bf x.body 4 0 24), isBaseDomain d = true) :
    powerSet x c = x.done { Res.err 0x0E01 with body := [wd c.pwr.on.toNat] } c :=
  if_pos (List.any_eq_true.2 h)

/-- A request that switches on alone goes to the governor. -/
theorem powerSet_on {x : Ctx} {c : Chip}
    (hname : ∀ d ∈ maskDomains (bf x.body 0 0 24) ++ maskDomains (bf x.body 4 0 24), isBaseDomain d = false ∧ c.pwr.failed.contains d = false)
    (hoff : ∀ d ∈ maskDomains (bf x.body 4 0 24), domOn c d = false) (hon : ∃ d ∈ maskDomains (bf x.body 0 0 24), domOn c d = false)
    (hbusy : powerBusy c = false) :
    powerSet x c = modPwr (fun p =>
      { p with req := { PowerCmd.none with cmd := x.k + 1, on := (maskDomains (bf x.body 0 0 24)).filter (fun d => !domOn c d) } }) c := by
  have hbase : (maskDomains (bf x.body 0 0 24) ++ maskDomains (bf x.body 4 0 24)).any isBaseDomain = false :=
    List.any_eq_false.2 fun d hd => by simp [(hname d hd).1]
  have hfailed : (maskDomains (bf x.body 0 0 24) ++ maskDomains (bf x.body 4 0 24)).any (fun d => c.pwr.failed.contains d) = false :=
    List.any_eq_false.2 fun d hd => by rw [(hname d hd).2]; decide
  have hnone : (maskDomains (bf x.body 4 0 24)).filter (fun d => domOn c d) = [] :=
    List.filter_eq_nil_iff.2 fun d hd => by rw [hoff d hd]; decide
  have hsome : (maskDomains (bf x.body 0 0 24)).filter (fun d => !domOn c d) ≠ [] := by
    obtain ⟨d, hd, hlow⟩ := hon
    exact List.ne_nil_of_mem (List.mem_filter.2 ⟨hd, by rw [hlow]; rfl⟩)
  unfold powerSet; dsimp only
  simp only [hbase, hfailed, hnone, hbusy, List.reverse_nil, List.filter_nil, List.foldl_nil, List.contains_nil, Bool.false_eq_true, false_and,
    if_false, if_true]
  exact if_pos (Or.inl hsome)

/-! GX_CLUSTER_CLOCK_SET (R580). -/

/-- One cluster's clock. -/
def setClock (mhz : Nat) (c : Chip) (cl : Nat) : Chip :=
  modPwr (fun p => { p with clkTarget := tput p.clkTarget cl mhz
                            clkNow := if domOn c (clusterDomain cl) then tput p.clkNow cl (clockFor c cl mhz) else p.clkNow }) c

theorem setClocks_eq (mask mhz : Nat) (c : Chip) : setClocks mask mhz c = ((List.range 32).filter fun cl => bit mask cl).foldl (setClock mhz) c := rfl

theorem foldl_setClock_host (mhz : Nat) (h : HostIf) (l : List Nat) (c : Chip) :
    l.foldl (setClock mhz) { c with host := h } = { l.foldl (setClock mhz) c with host := h } := by
  induction l generalizing c with
  | nil => rfl
  | cons cl l ih => exact ih (setClock mhz c cl)

/-- Clocks are set apart from the host interface. -/
theorem setClocks_host (mask mhz : Nat) (h : HostIf) (c : Chip) : setClocks mask mhz { c with host := h } = { setClocks mask mhz c with host := h } :=
  foldl_setClock_host mhz h _ c

/-- Every cluster named takes the target. -/
theorem target_foldl_setClock {mhz cl : Nat} (l : List Nat) (c : Chip) (h : cl ∈ l ∨ tget 0 c.pwr.clkTarget cl = mhz) :
    tget 0 (l.foldl (setClock mhz) c).pwr.clkTarget cl = mhz := by
  induction l generalizing c with
  | nil => exact h.resolve_left (List.not_mem_nil)
  | cons x l ih =>
    refine ih _ ?_
    by_cases hx : x = cl
    · subst hx; exact .inr (tget_tput_same ..)
    · refine h.imp (fun hm => (List.mem_cons.1 hm).resolve_left (Ne.symm hx)) fun ht => ?_
      exact (tget_tput_other 0 c.pwr.clkTarget mhz hx).trans ht

theorem target_setClocks {mask mhz cl : Nat} (c : Chip) (h : cl < 32) (hb : bit mask cl = true) :
    tget 0 (setClocks mask mhz c).pwr.clkTarget cl = mhz :=
  target_foldl_setClock _ c (.inl (List.mem_filter.2 ⟨List.mem_range.2 h, hb⟩))

/-- A setting that leaves the committed work its capacity is taken. -/
theorem clockSet_taken {x : Ctx} {c : Chip} (h : usage c 12 ≤ capacity (setClocks (bw x.body 0) (bf x.body 4 0 11) c) 12) :
    clockSet x c = x.done (Res.ok []) (setClocks (bw x.body 0) (bf x.body 4 0 11) c) :=
  if_neg fun a => Nat.not_lt.2 h a.2

theorem usage_host (c : Chip) (h : HostIf) : usage { c with host := h } 12 = usage c 12 := rfl
theorem capacity_host (c : Chip) (h : HostIf) : capacity { c with host := h } 12 = capacity c 12 := rfl

/-! GX_IMAGE_VERIFY (R596). -/

theorem imageVerify_fetches {x : Ctx} {c : Chip} (h : hostReach c x.fn = true) :
    imageVerify x c = emit (.hostRead x.fn (bd x.body 0) (bw x.body 8))
      (modSlot x.k (fun s => { s with fetch := .waiting (bd x.body 0) (bw x.body 8) }) (progress x.k 1 [bw x.body 8] c)) :=
  if_neg (by simp [h])

/-- The slot of a command that has begun its fetch. -/
theorem getSlot_fetching (k n a b : Nat) (w : List Nat) (o : Out) (c : Chip) :
    getSlot (emit o (modSlot k (fun s => { s with fetch := .waiting a b }) (progress k n w c))) k =
      { getSlot (progress k n w c) k with fetch := .waiting a b } := by
  rw [getSlot_emit, getSlot_modSlot_same]

/-- Settles O19: each command's own part, on the chip that has taken it. -/
theorem powerCommands : Obligations.PowerCommands := by
  unfold Obligations.PowerCommands
  refine ⟨?on, ?base, ?clock, ?reset, ?verify⟩
  case on =>
    intro s r h hapart hname hoff hon hbusy
    have hrun := (powerSetBoth_apart (x := ctxAt r s) (c := took r s) hapart).trans (powerSet_on hname hoff hon hbusy)
    have hslot : (getSlot (powerSetBoth (ctxAt r s) (took r s)) (slotKey r.fn r.slot)).st = .busy := by
      rw [hrun]
      exact (congrArg Slot.st (getSlot_took r s)).trans (served_busy h)
    have hgoes : (getSlot (powerSetBoth (ctxAt r s) (took r s)) (slotKey r.fn r.slot)).st ≠ .progress := by rw [hslot]; decide
    have hrow : powerMark (slotKey r.fn r.slot) (serve 0x0E00 r noFields powerSetBoth s.chip) = powerSetBoth (ctxAt r s) (took r s) := by
      rw [serve_served h rfl, cancelAt_of_not_progress _ _ hgoes, powerMark_of_not_progress hgoes]
    exact ⟨_, exec_gxPowerDomainSet (hrow.trans hrun), rfl, rfl, rfl⟩
  case base =>
    intro s r h hapart hbase
    have hrun := (powerSetBoth_apart (x := ctxAt r s) (c := took r s) hapart).trans (powerSet_base hbase)
    have hrow : powerMark (slotKey r.fn r.slot) (serve 0x0E00 r noFields powerSetBoth s.chip) =
        (ctxAt r s).done { Res.err 0x0E01 with body := [wd (took r s).pwr.on.toNat] } (took r s) := by
      rw [serve_served h rfl, hrun]
      exact (congrArg (powerMark _) (cancelAt_finish ..)).trans (powerMark_finish ..)
    exact exec_gxPowerDomainSet hrow
  case clock =>
    intro s r h hlo hhi hstep huse
    refine ⟨_, serve_ends h ?fields (clockSet_taken ?room), fun cl hcl hb => target_setClocks _ hcl hb⟩
    case fields => simp [firstBad, outside_false hlo hhi, hstep]
    case room =>
      rw [took_eq, usage_host, setClocks_host, capacity_host]
      exact huse
  case reset =>
    intro s r h hkey
    exact serve_ends h (by simp [firstBad, hkey]) rfl
  case verify =>
    intro s r h hlo hhi hreach hmark
    have hrun : imageVerify (ctxAt r s) (took r s) = _ := imageVerify_fetches (by rw [ctxAt_fn h]; exact hreach)
    have hslot := getSlot_fetching (slotKey r.fn r.slot) 1 (bd (bodyAt r s) 0) (bw (bodyAt r s) 8) [bw (bodyAt r s) 8]
      (.hostRead (ctxAt r s).fn (bd (bodyAt r s) 0) (bw (bodyAt r s) 8)) (took r s)
    have hunmarked : (getSlot (imageVerify (ctxAt r s) (took r s)) (slotKey r.fn r.slot)).cancel = false := by
      rw [hrun]
      refine (congrArg Slot.cancel hslot).trans ?_
      rw [getSlot_progress, getSlot_took]
      exact hmark
    have hrow : serve 0x0E10 r (fun b => firstBad [(outside (bw b 8) 1 16777216, 8)]) imageVerify s.chip = imageVerify (ctxAt r s) (took r s) := by
      rw [serve_served h (by simp [firstBad, outside_false hlo hhi]), cancelAt_unmarked hunmarked]
    refine ⟨_, act_onChip (hrow.trans hrun), ?_, ?_, rfl⟩
    · refine (congrArg Slot.st hslot).trans ?_
      rw [getSlot_progress]
    · rw [onChip_chip, emit_out, ctxAt_fn h]
      rfl

end Sys2Proof.Machine
end

section
/-!
SUPPORT. Management requests that act, the Keeper's reset and the boot from the mailbox (R593, R602 to R607, R611, R621, R628), and the
obligations about them and about the commands that read the log and the life counters (R612, R625).
-/
namespace Sys2Proof.Machine
open Sys2Proof

/-! Requests (R602). -/

/-- A free port serves a request that has come whole. -/
theorem mgmtServe_port {s : State} (h : portFree s) (code : Nat) (onBox : Bool) (f : List Word) (run : List Nat → Chip → KRes) :
    mgmtServe code true onBox (.port true f) run s.chip = respond false code (run (f.map BitVec.toNat) s.chip) := by
  obtain ⟨hup, hfree⟩ := h
  simp only [mgmtServe, hup, hfree, Bool.not_true, Bool.false_eq_true, if_false, if_true]

/-- The mailbox's request is served under its code. -/
theorem mgmtServe_box {s : State} {code : Nat} (h : boxHolds s code) (onPort : Bool) (run : List Nat → Chip → KRes) :
    mgmtServe code onPort true .mailbox run s.chip = respond true code (run (boxFields s) s.chip) := by
  obtain ⟨hup, hbusy, hcode⟩ := h
  simp only [mgmtServe, hup, hbusy, hcode, Bool.not_true, Bool.false_eq_true, if_false, true_and, if_true]
  rfl

/-- A request on the port that its row accepts. -/
theorem port_accepts {s : State} {c : Chip} {f : List Word} {run : List Nat → Chip → KRes} (h : portFree s) (code : Nat) (onBox : Bool)
    (hr : run (f.map BitVec.toNat) s.chip = kOk [] c) : act s (mgmtServe code true onBox (.port true f) run) = .next (portAnswer code [] c s) := by
  refine act_onChip ?_
  rw [mgmtServe_port h, hr]

/-! What the requests do. -/

theorem configSet_valid {i v : Nat} {c : Chip} (hv : configValid i v = true) (h2 : i ≠ 2) :
    configSet [i, v] c = kOk [] (modMgmt (fun m => { m with config := tput m.config i v }) c) := by
  have hval : ¬ (!configValid (kf [i, v] 0) (kf [i, v] 1)) = true := by simp [kf, hv]
  exact (if_neg hval).trans (congrArg (kOk []) (if_neg h2))

theorem lampSet_lights {p n sec : Nat} {c : Chip} (hp : p ≤ 5) (hlo : 1 ≤ sec) (hhi : sec ≤ 65535) :
    lampSet [0, p, n, sec] c =
      kOk [] (modMgmt (fun m => { m with lampA := { on := true, pattern := p, n := n, endNs := localNs c + sec * 1000000000 } }) c) := by
  have hok : ¬ (1 < kf [0, p, n, sec] 0 ∨ 6 < kf [0, p, n, sec] 1 ∨ 65535 < kf [0, p, n, sec] 3 ∨
      (kf [0, p, n, sec] 1 = 6 ∧ outside (kf [0, p, n, sec] 2) 1 6 = true)) := by
    simp only [kf, List.getD_cons_zero, List.getD_cons_succ]; omega
  have hon : kf [0, p, n, sec] 3 ≠ 0 := Nat.ne_of_gt hlo
  unfold lampSet; dsimp only
  rw [if_neg hok, if_neg hon]
  rfl

/-- A reset of the Keeper shuts its paths for 20 ms. -/
theorem keeperUp_keeperReset (c : Chip) : keeperUp (keeperReset c) = false := by simp [keeperUp, keeperReset, modMgmt]

theorem exec_keeperReset_port {s : State} (h : portFree s) :
    exec (.keeperReset (.port true [0x4B45])) s = .next (onChip s (keeperReset (respond false 0x11 (kOk [] s.chip)))) := by
  show execKeeperReset (.port true [0x4B45]) s = _
  unfold execKeeperReset
  refine act_onChip ?_
  dsimp only
  rw [mgmtServe_port h]
  exact if_pos ⟨h.1, rfl, by rw [h.2]; rfl, rfl⟩

/-- The Keeper runs again when its reset has lasted its time. -/
theorem keeperResetDone_runs {s : State} (h : s.chip.mgmt.keeperReset ≠ 0) : ∃ c, exec .keeperResetDone s = .next (onChip s c) ∧
    c.mgmt.keeperReset = 0 ∧ c.time = (waitLocal s.chip.mgmt.keeperReset s.chip).time := by
  refine ⟨_, rfl, ?_⟩
  dsimp only
  rw [if_neg h]
  split <;> exact ⟨rfl, rfl⟩

/-- A lamp's override ends when its seconds have passed. -/
theorem lampOverride_ends {s : State} (h : s.chip.mgmt.lampA.on = true) :
    exec (.lampOverrideExpiry 0) s = .next (onChip s (modMgmt (fun m => { m with lampA := .zero }) (waitLocal s.chip.mgmt.lampA.endNs s.chip))) :=
  act_onChip (if_pos h)

/-! The obligations. -/

/-- Settles O29: the path hands the request to its row, and the row does what the request asks. -/
theorem managementActs : Obligations.ManagementActs := by
  unfold Obligations.ManagementActs
  refine ⟨?config, ?lamp, ?lampEnd, ?severity, ?retire, ?reset, ?keeper, ?selfCheck, ?keeperDone, ?chunk, ?end_⟩
  case config =>
    intro s i v h hv h2
    exact port_accepts h 6 false (configSet_valid hv h2)
  case lamp =>
    intro s p n sec h hp hlo hhi
    exact port_accepts h 11 true (lampSet_lights hp hlo hhi)
  case lampEnd =>
    intro s h
    exact ⟨_, lampOverride_ends h, rfl, le_localNs_waitLocal _ s.chip, rfl⟩
  case severity =>
    intro s k v h hk hv
    refine port_accepts h 12 true ?_
    simp only [List.map_cons, List.map_nil, kf, List.getD_cons_zero, List.getD_cons_succ]
    have hset : v.toNat ≠ 15 := by omega
    rw [if_neg (by omega)]
    simp only [hset, if_false]
  case retire =>
    intro s n h hn hst
    refine port_accepts h 13 true ?_
    simp only [List.map_cons, List.map_nil, kf, List.getD_cons_zero, List.getD_cons_succ]
    rw [if_neg (by simp; omega)]
    exact if_neg hst
  case reset =>
    intro s h
    exact port_accepts h 16 true rfl
  case keeper =>
    intro s h
    exact ⟨_, exec_keeperReset_port h, rfl, keeperUp_keeperReset _, rfl⟩
  case selfCheck =>
    intro s h
    exact act_onChip (if_pos h)
  case keeperDone =>
    intro s h
    obtain ⟨c, hc, hdone, htime⟩ := keeperResetDone_runs h
    exact ⟨_, hc, hdone, le_localNs_of_waited htime, rfl⟩
  case chunk =>
    intro s h hwait hroom
    have hrow : exec (.imageChunk .mailbox) s = .next (onChip s (respond true 0x20 (kOk [] (modMgmt (fun m =>
        let img := stageBytes s.chip.mgmt.image (kf (boxFields s) 0)
          ((bytesOf (wordsGet s.chip.mgmt.kmbStage 0 ((kf (boxFields s) 1 % 65536 + 1 + 3) / 4))).take (kf (boxFields s) 1 % 65536 + 1))
        { m with image := img, received := img.length }) s.chip)))) := by
      refine act_onChip ((mgmtServe_box h false _).trans (congrArg (respond true 0x20) ?_))
      dsimp only
      rw [if_neg (by simp [hwait]), if_neg (by omega)]
    exact ⟨_, hrow, rfl, rfl, rfl, rfl⟩
  case end_ =>
    intro s v h hwait hlen hv htried
    have hrow : exec (.imageEnd .mailbox true true v) s = .next (onChip s (respond true 0x21 (kOk []
        (bootDone false true none (modMgmt (fun m => { m with waitImage := false }) s.chip))))) := by
      refine act_onChip ((mgmtServe_box h false _).trans (congrArg (respond true 0x21) ?_))
      rw [if_neg (by simp [hwait]), if_neg (by omega), if_pos (imageFault_good hv), if_pos htried]
    exact ⟨_, hrow, rfl, rfl, rfl, rfl, rfl⟩

/-- Settles O31: the commands end with the ring's head and the life counters. -/
theorem logAndLifeCommands : Obligations.LogAndLifeCommands := by
  unfold Obligations.LogAndLifeCommands
  refine ⟨?log, fun s r h => serve_ends h rfl rfl⟩
  case log =>
    intro s r h hslot hlo hhi hal _
    have hrun : logRead (ctxAt r s) (took r s) = (ctxAt r s).done (Res.ok [(ringOf s.chip (bit (bw (bodyAt r s) 0) 0)).headWord])
        (emit (.hostWrite (ctxAt r s).fn (bd (bodyAt r s) 16) ((ringOf s.chip (bit (bw (bodyAt r s) 0) 0)).read
          (ringSlots (bit (bw (bodyAt r s) 0) 0)) (bf (bodyAt r s) 4 0 16) (bf (bodyAt r s) 8 0 13))) (took r s)) :=
      if_neg (Nat.not_le.2 hslot)
    rw [ctxAt_fn h] at hrun
    exact serve_ends h (by simp [firstBad, outside_false hlo hhi, unaligned8, hal]) hrun

end Sys2Proof.Machine
end

section
/-!
SUPPORT. The session with the twin, heartbeats and takeover (R550 to R566), and the obligation about them.
-/
namespace Sys2Proof.Machine
open Sys2Proof

/-! Protected frames (R552). -/

/-- A frame in the window that has not been seen acts. -/
theorem rxFrame_hears {q : Nat} {s : State} (h : Hears q s) (f : Chip → Chip) : rxFrame q true f s.chip = f (heard q s) := by
  obtain ⟨hses, hwin, hnew⟩ := h
  have hold : ¬ (q + 1024 ≤ s.chip.twin.rxHigh ∨ s.chip.twin.rxSeen.contains q = true) := by
    rw [hnew]; simp only [Bool.false_eq_true, or_false]; omega
  unfold rxFrame; dsimp only
  rw [if_neg (by simp [hses]), if_neg (by simp), if_neg hold]
  rfl

/-- A frame that was seen is dropped. -/
theorem rxFrame_seen {q : Nat} {c : Chip} (hses : c.twin.session = true) (hseen : c.twin.rxSeen.contains q = true) (f : Chip → Chip) :
    rxFrame q true f c = modTw (fun t => { t with dropped := t.dropped + 1, tagFails := 0 }) c := by
  unfold rxFrame; dsimp only
  rw [if_neg (by simp [hses]), if_neg (by simp), if_pos (.inr hseen)]

/-- A frame with a wrong tag is dropped. -/
theorem rxFrame_badTag {q : Nat} {c : Chip} (hses : c.twin.session = true) (hfew : c.twin.tagFails < 15) (f : Chip → Chip) :
    rxFrame q false f c = modTw (fun t => { t with dropped := t.dropped + 1, tagFails := t.tagFails + 1 }) c := by
  unfold rxFrame; dsimp only
  rw [if_neg (by simp [hses]), if_pos (by simp), if_neg (by omega)]

/-! The session (R552, R553). -/

theorem fliuskUp_hello {c : Chip} (hlink : (getLport c twinLport).linkUp = true) (hdom : domOn c 5 = true) (hdown : c.twin.phyUp = false) :
    fliuskUp c = sendHello (modTw (fun t => { t with phyUp := true, session := false, random := (draw c).1 % 2 ^ 64 }) (draw c).2) :=
  if_pos ⟨hlink, hdom, by simp [hdown]⟩

/-- A change of pairing state changes nothing else of the twin's record (R555). -/
theorem setTwinState_twin (st : Nat) (c : Chip) : (setTwinState st c).twin = { c.twin with st := st } := by
  unfold setTwinState
  split
  · rename_i h; subst h; rfl
  · rfl

theorem fliuskHello_refused {serial rnd version num : Nat} {mac b l : Bool} {sp : List (Nat × Nat)} {c : Chip} (hup : c.twin.phyUp = true)
    (hses : c.twin.session = false) (hbad : c.net.pairing = none ∨ mac = false ∨ version ≠ 1) :
    fliuskHello serial rnd version num mac b l sp c =
      pairRefused serial (if c.net.pairing = none then 1 else if mac = false then 2 else 3) c := by
  have hlive : ¬ ((!c.twin.phyUp) = true ∨ c.twin.session = true) := by simp [hup, hses]
  unfold fliuskHello; dsimp only
  rw [if_neg hlive]
  by_cases hsecret : c.net.pairing = none
  · rw [if_pos hsecret, if_pos (by simp [hsecret])]
  · rw [if_neg hsecret, if_neg (by simpa using hsecret)]
    cases mac with
    | false => rfl
    | true => exact if_pos ((hbad.resolve_left hsecret).resolve_left (by simp))

/-- A hello that verifies begins a session. -/
theorem fliuskHello_begins {serial rnd num : Nat} {b : Bool} {c : Chip} (hup : c.twin.phyUp = true) (hses : c.twin.session = false)
    (hsecret : c.net.pairing.isSome = true) : fliuskHello serial rnd 1 num true b false [] c =
      sessionBegin serial rnd (if mySerial < serial then c.twin.sessionNum + 1 else num) b false c := by
  have hlive : ¬ ((!c.twin.phyUp) = true ∨ c.twin.session = true) := by simp [hup, hses]
  unfold fliuskHello; dsimp only
  rw [if_neg hlive, if_neg (by simpa [Option.isSome_iff_ne_none] using hsecret)]
  rfl

/-- The twin's record as a session begins with nothing to send again (R552, R555). -/
theorem sessionBegin_twin {serial rnd num : Nat} {b : Bool} {c : Chip} (hst : c.twin.st ≠ 5) (hfull : c.twin.twinNeedsFull = false)
    (hempty : c.twin.journal = []) :
    ∃ d, sessionBegin serial rnd num b false c = d ∧ d.twin.session = true ∧ d.twin.peerSerial = serial ∧ d.twin.st = (if b then 2 else 3) ∧
      d.twin.txSeq = 0 ∧ d.twin.rxSeen = [] ∧ d.twin.sessionNum = num % 2 ^ 32 := by
  refine ⟨_, rfl, ?_⟩
  unfold sessionBegin; dsimp only
  rw [if_neg (by simp [hfull])]
  simp [hst, setTwinState_twin, modTw, hempty]

/-! Heartbeats (R563, R564). -/

@[simp] theorem waitGrid_twin (n : Nat) (c : Chip) : (waitGrid n c).twin = c.twin := waitSvc_twin ..
@[simp] theorem waitGrid_gx (n : Nat) (c : Chip) : (waitGrid n c).gx = c.gx := waitSvc_gx ..

theorem heartbeatSend_sends {c : Chip} (hserve : inService c = true) (hgo : c.twin.hbStopped = false) (hses : c.twin.session = true) :
    (heartbeatSend c).out = .twin .heartbeat :: c.out ∧ (heartbeatSend c).twin.txSeq = c.twin.txSeq + 1 ∧
      (heartbeatSend c).twin.aliveOut = (if c.twin.ctrl.getLsbD 1 then !c.twin.aliveOut else c.twin.aliveOut) := by
  unfold heartbeatSend; dsimp only
  rw [if_neg (by simp [hserve, hgo]), waitGrid_twin]
  split
  all_goals
    rw [twinSend, if_pos (by simpa [modTw] using hses)]
    simp [modTw, waitGrid]

/-- A window with a heartbeat frame. -/
theorem heartbeatWindow_heard {c : Chip} (hserve : inService c = true) (hframe : c.twin.hbFrame = true) :
    (heartbeatWindow c).twin.missFrame = 0 ∧ (heartbeatWindow c).twin.hbFrame = false ∧ (heartbeatWindow c).twin.hbPin = false ∧
      (heartbeatWindow c).gx = c.gx := by
  unfold heartbeatWindow; dsimp only
  have hrun (p : Nat) : (if c.twin.ctrl.getLsbD 1 = true then min 0 p else 0) ≠ 3 := by split <;> simp
  rw [if_neg (by simp [hserve])]
  simp only [waitGrid_twin, hframe, if_true]
  generalize (if c.twin.hbPin = true then 0 else min 3 (c.twin.missPin + 1)) = p
  rw [if_neg fun a => hrun p a.1, if_neg fun a => absurd a.1 (by decide)]
  split <;> simp [modTw]

/-- The third missed window of a PAIRED device (R564, R566). -/
theorem heartbeatWindow_third {c : Chip} (hserve : inService c = true) (hframe : c.twin.hbFrame = false) (hmiss : c.twin.missFrame = 2)
    (hses : c.twin.session = true) (hpins : c.twin.ctrl.getLsbD 1 = false) (hst : c.twin.st = 3) (hstay : c.twin.twinEjected = false) :
    heartbeatWindow c = takeoverStart 1 (modTw (fun t =>
      { t with hbFrame := false, hbPin := false, missFrame := 3, missPin := if t.hbPin then 0 else min 3 (t.missPin + 1)
               hbMissed := min (t.hbMissed + 1) 0xFFFFFFFF }) (waitGrid 100000 c)) := by
  unfold heartbeatWindow; dsimp only
  rw [if_neg (by simp [hserve])]
  have hpin : c.twin.ctrl[1] = false := hpins
  simp [hframe, hmiss, hses, hpin, hst, hstay, modTw]

/-! Takeover (R566). -/

theorem takeoverWritten_publishes {a : Commit} {c : Chip} (extra : Nat) (ha : c.gx.active = some a) (hstage : a.stage = .writing)
    (hkind : a.kind = .takeover) (hcause : a.cause ≠ 3) (hup : firmwareUp c = true) :
    takeoverWritten extra c = modTw (fun w => { w with taking := w.taking.map (fun x =>
      { x with tAct := (publish a extra c).gx.tActSec * 1000000000 + (publish a extra c).gx.tActNs }) }) (publish a extra c) := by
  unfold takeoverWritten
  simp only [ha]
  rw [if_pos ⟨hup, hstage, hkind⟩, if_neg hcause]

theorem announceRepeat_one {i due : Nat} {c : Chip} (h : c.twin.announce = [(i, due)]) :
    announceRepeat c = announceAddr i (modTw (fun t => { t with announce := [] }) (waitLocal due c)) := by
  unfold announceRepeat
  simp [h, modTw]

theorem takeoverDone_due {x : TakeRun} {c : Chip} (h : c.twin.taking = some x) (ht : x.tAct ≠ 0) :
    takeoverDone c = raise 5 0xD05 none (x.epoch % 2 ^ 32) (x.taken % 2 ^ 32 + 2 ^ 32 * x.dropped)
      (modTw (fun t => { t with taking := none }) (waitSvc (x.tAct + 5000000) c)) := by
  unfold takeoverDone
  simp only [h]
  exact if_neg ht

/-- Settles O58: each row is its own function of the twin's record. -/
theorem twinSession : Obligations.TwinSession := by
  unfold Obligations.TwinSession
  refine ⟨?up, ?loss, ?timer, ?refused, ?begins, ?send, ?beat, ?seen, ?badTag, fun _ => rfl, ?window, ?third, ?request, ?written, ?announce, ?done⟩
  case up =>
    intro s hlink hdom hdown
    exact ⟨_, act_onChip (fliuskUp_hello hlink hdom hdown), rfl, rfl, rfl, rfl⟩
  case loss =>
    intro s hup
    exact act_onChip (if_pos (.inl hup))
  case timer =>
    intro s hup hses
    exact act_onChip (if_pos ⟨hup, by simp [hses]⟩)
  case refused =>
    intro s serial rnd version num mac b l sp hup hses hbad
    exact act_onChip (fliuskHello_refused hup hses hbad)
  case begins =>
    intro s serial rnd num b hup hses hsecret hst hfull hempty
    obtain ⟨d, hd, hnew⟩ := sessionBegin_twin (serial := serial) (rnd := rnd) (b := b)
      (num := if mySerial < serial then s.chip.twin.sessionNum + 1 else num) hst hfull hempty
    obtain ⟨hon, hpeer, hstate, htx, hrx, hnum⟩ := hnew
    exact ⟨_, act_onChip ((fliuskHello_begins hup hses hsecret).trans hd), hon, hpeer, hstate, htx, hrx, hnum, rfl⟩
  case send =>
    intro s hserve hgo hses
    obtain ⟨hout, hseq, halive⟩ := heartbeatSend_sends hserve hgo hses
    exact ⟨_, rfl, hout, hseq, halive, rfl⟩
  case beat =>
    intro s q h
    exact act_onChip (rxFrame_hears h _)
  case seen =>
    intro s q hses hseen
    exact act_onChip (rxFrame_seen hses hseen _)
  case badTag =>
    intro s q hses hfew
    exact act_onChip (rxFrame_badTag hses hfew _)
  case window =>
    intro s hserve hframe
    obtain ⟨hmiss, hclear, hpin, hgx⟩ := heartbeatWindow_heard hserve hframe
    exact ⟨_, rfl, hmiss, hclear, hpin, hgx, rfl⟩
  case third =>
    intro s hserve hframe hmiss hses hpins hst hstay
    exact act_onChip (heartbeatWindow_third hserve hframe hmiss hses hpins hst hstay)
  case request =>
    intro s q seq e h hst
    exact act_onChip ((rxFrame_hears h _).trans (if_pos hst))
  case written =>
    intro s extra a ha hstage hkind hcause hup
    exact act_onChip (takeoverWritten_publishes extra ha hstage hkind hcause hup)
  case announce =>
    intro s i due h
    exact act_onChip (announceRepeat_one h)
  case done =>
    intro s x h ht
    exact act_onChip (takeoverDone_due h ht)

end Sys2Proof.Machine
end

section
/-!
SUPPORT. What leaves the hand-over with the twin alone: the retirement of an epoch, and the stages of a commit under way (R41, R560, R571).
-/
namespace Sys2Proof.Machine
open Sys2Proof

/-! Retirement of an epoch (R38, R40). -/

theorem drop_twin (h : Nat) (c : Chip) : (drop h c).twin = c.twin := (Books.of_drop h c).twin

theorem dropBufs_twin (l : List (List Word × Nat)) (c : Chip) : (l.foldl (fun c b => drop b.2 c) c).twin = c.twin :=
  foldl_keeps (g := Chip.twin) (fun _ _ => drop_twin _ _) l c

theorem applyReserves_twin (c : Chip) : (applyReserves c).twin = c.twin :=
  (foldl_keeps (fun d p => (Books.of_watermark p d).twin) _ _).trans (foldl_keeps (fun _ _ => modUse_twin _ _ _ _) _ _)

theorem legsRetire_twin (c : Chip) : (legsRetire c).twin = c.twin := by
  show (List.foldl _ c _).twin = c.twin
  exact foldl_keeps (fun _ _ => (Books.of_dropPkts _ _).twin) _ c

theorem decSweep_twin (i : Nat) (c : Chip) : (decSweep i c).twin = c.twin :=
  foldl_keeps (g := Chip.twin) (fun _ _ => (drop_twin _ _).trans (drop_twin _ _)) _ (putDec i _ c)

theorem decodeRetire_twin (c : Chip) : (decodeRetire c).twin = c.twin := by
  refine foldl_keeps (fun c e => ?_) _ c
  dsimp only; split <;> exact decSweep_twin e.1 _

theorem encodeRetire_twin (c : Chip) : (encodeRetire c).twin = c.twin := by
  refine foldl_keeps (fun c e => ?_) _ c
  exact foldl_keeps (g := Chip.twin) (fun _ _ => drop_twin _ _) e.2.recs c

theorem decHold_twin (i h : Nat) (up : Bool) (c : Chip) : (decHold i h up c).twin = c.twin := by
  unfold decHold; dsimp only; split
  · rfl
  · exact decSweep_twin i _

theorem canvasRetire_twin (c : Chip) : (canvasRetire c).twin = c.twin := by
  refine foldl_keeps (fun c e => ?_) _ c
  dsimp only; split
  · exact dropBufs_twin _ _
  · refine Eq.trans (foldl_keeps (g := Chip.twin) (fun c l => ?_) e.2.layers _) (dropBufs_twin _ _)
    split <;> simp [decHold_twin]

theorem settle_twin (c : Chip) : (settle c).twin = c.twin := by
  have haudio (d : Chip) : (audioRetire d).twin = d.twin := rfl
  have hkeys (d : Chip) : (keySweep d).twin = d.twin := rfl
  unfold settle; split
  · simp [retireEpoch, applyReserves_twin, canvasRetire_twin, encodeRetire_twin, decodeRetire_twin, legsRetire_twin, haudio, hkeys]
  · rfl

/-! The hand-over under way and the conferences given away. -/

def handed (c : Chip) : List Nat × Option Handover := (c.twin.gone, c.twin.handover)

theorem handed_congr {c d : Chip} (h : d.twin = c.twin) : handed d = handed c := by rw [handed, h, handed]

/-! Records to the twin (R554, R557). -/

@[simp] theorem twinSend_handed (m : TwinMsg) (c : Chip) : handed (twinSend m c) = handed c := by unfold twinSend; split <;> rfl

@[simp] theorem chanSend_handed (k q : Nat) (m : TwinMsg) (c : Chip) : handed (chanSend k q m c) = handed c := by
  unfold chanSend; split
  · exact twinSend_handed ..
  · rfl

@[simp] theorem recNext_handed (k : Nat) (m : TwinMsg) (c : Chip) : handed (recNext k m c) = handed c := chanSend_handed ..

theorem sendSnapshot_handed (c : Chip) : handed (sendSnapshot c) = handed c := by
  unfold sendSnapshot
  refine (foldl_keeps (g := handed) (fun c r => ?_) _ _).trans rfl
  exact chanSend_handed _ _ _ _

theorem snapshotIfMarked_handed (b : Bool) (c : Chip) : handed (snapshotIfMarked b c) = handed c := by
  unfold snapshotIfMarked; split
  · exact sendSnapshot_handed _
  · rfl

theorem journalPut_handed (r : JRec) (c : Chip) : handed (journalPut r c).2 = handed c :=
  (snapshotIfMarked_handed _ _).trans (chanSend_handed _ _ _ _)

/-! Ends of a commit (R121, R560). -/

@[simp] theorem answer_handed (a : Commit) (r : Res) (c : Chip) : handed (answer a r c) = handed c := by
  unfold answer; split
  · split
    · rfl
    · exact handed_congr (finish_twin ..)
  · rfl

@[simp] theorem releaseAsked_handed (a : Commit) (c : Chip) : handed (releaseAsked a c) = handed c := by
  unfold releaseAsked
  exact foldl_keeps (g := handed) (fun _ _ => recNext_handed ..) _ c

@[simp] theorem bulkResult_handed (a : Commit) (ok : Bool) (c : Chip) : handed (bulkResult a ok c) = handed c := by
  unfold bulkResult; split
  · split <;> rfl
  · rfl

@[simp] theorem ticketOutcome_handed (a : Commit) (st status n : Nat) (c : Chip) : handed (ticketOutcome a st status n c) = handed c := by
  unfold ticketOutcome; split <;> rfl

@[simp] theorem endCommit_handed (a : Commit) (c : Chip) : handed (endCommit a c) = handed c := rfl
@[simp] theorem unreserve_handed (a : Commit) (c : Chip) : handed (unreserve a c) = handed c := rfl

theorem failCommit_handed (a : Commit) (st : Nat) (v : Verdict) (c : Chip) : handed (failCommit a st v c) = handed c := by
  unfold failCommit; dsimp only; split <;> simp

/-! Stages of a commit (R33, R120, R560). -/

theorem goJournal_handed (a : Commit) (c : Chip) : handed (goJournal a c) = handed c := by
  unfold goJournal; dsimp only; split
  · rfl
  · split <;> exact journalPut_handed a.record c

theorem goReserve_handed (a : Commit) (c : Chip) : handed (goReserve a c) = handed c := by
  unfold goReserve; split
  · exact recNext_handed ..
  · split
    · simp
    · exact goJournal_handed ..

theorem exposeConfs_handed (a : Commit) (l : List Nat) (c : Chip) : handed (exposeConfs a l c) = handed c := by
  unfold exposeConfs; split <;> rfl

theorem goValidated_handed (a : Commit) (c : Chip) : handed (goValidated a c) = handed c := by
  unfold goValidated; dsimp only; split
  · exact goReserve_handed ..
  · split
    · exact goReserve_handed ..
    · exact (goReserve_handed ..).trans (exposeConfs_handed ..)

theorem reserveAll_twin {l ids : List Nat} {c d : Chip} (h : reserveAll l c = some (ids, d)) : d.twin = c.twin := by
  induction l generalizing ids c with
  | nil => cases h; rfl
  | cons ty l ih =>
    rw [reserveAll] at h
    split at h
    · cases h
    · split at h
      · cases h
      · next hrest =>
        cases h
        exact (ih hrest).trans rfl

theorem restageOne_twin (done : List Staged) (s : Staged) (c : Chip) : (restageOne done s c).2.twin = c.twin := by
  unfold restageOne; dsimp only; split
  · next h => exact reserveAll_twin h
  · rfl

theorem restageFrom_twin (done l : List Staged) (c : Chip) : (restageFrom done l c).2.twin = c.twin := by
  induction l generalizing done c with
  | nil => rfl
  | cons s l ih => exact (ih ..).trans (restageOne_twin ..)

theorem validated_handed (a : Commit) (c : Chip) : handed (validated a c) = handed c := by
  have hstaged : handed (if a.only then c else (restage a.staged c).2) = handed c := by
    split
    · rfl
    · exact handed_congr (restageFrom_twin ..)
  have hverdict (v : Verdict) (b : Commit) (d : Chip) (hd : handed d = handed c) :
      handed (if v.res.status ≠ 0 then failCommit b 2 v d else goValidated { b with next := v.next, stage := .reserve } d) = handed c := by
    split
    · exact (failCommit_handed ..).trans hd
    · exact (goValidated_handed ..).trans hd
  exact hverdict _ _ _ hstaged

theorem validateStep_handed (a : Commit) (c : Chip) : handed (validateStep a c) = handed c := by
  unfold validateStep; dsimp only; split
  · split <;> rfl
  · exact validated_handed a c

/-! The queue while a commit is under way (R41). -/

theorem forceDrain_active (c : Chip) : (forceDrain c).gx.active = c.gx.active := by
  by_cases h : c.gx.draining = 0
  · unfold forceDrain; dsimp only; rw [if_pos h]
  · rw [forceDrain_gx h]

/-- Behind a commit under way nothing is begun, so what the queue does leaves the hand-over alone. -/
theorem releaseHeld_handed {purge : Bool} {c : Chip} (h : c.gx.active ≠ none) : handed (releaseHeld purge c) = handed c := by
  have hsettle : handed (settle c) = handed c := handed_congr (settle_twin c)
  have hact : (settle c).gx.active ≠ none := by rcases settle_gx c with e | e <;> rw [e] <;> exact h
  unfold releaseHeld; dsimp only
  split
  · exact (validateStep_handed ..).trans hsettle
  · exact hsettle
  · next a l _ _ =>
    have hbusy : mayBeginCommit (if a.kind = .takeover ∧ a.cause ≠ 3 then forceDrain (settle c) else settle c) = false := by
      rw [← Bool.not_eq_true, mayBeginCommit_iff]
      rintro ⟨-, -, -, hnone⟩
      split at hnone
      · exact hact (by rwa [forceDrain_active] at hnone)
      · exact hact hnone
    rw [hbusy, Bool.and_false, Bool.false_and, if_neg (by decide)]
    exact hsettle

theorem queueOwn_handed {a : Commit} {c : Chip} (h : c.gx.active ≠ none) : handed (queueOwn a c) = handed c :=
  releaseHeld_handed h

end Sys2Proof.Machine
end

section
/-!
SUPPORT. Journal, mirror, reserve, hand-over and relay records of the twin, and eject (R554 to R573), and the obligation about them.
-/
namespace Sys2Proof.Machine
open Sys2Proof

/-! Numbered records (R554). -/

/-- The next record of a channel acts and is acknowledged. -/
theorem rxRecord_next {q chan seq : Nat} {s : State} (h : Hears q s) (hn : NextRecord chan seq s) (f : Chip → Chip) :
    rxFrame q true (rxRecord chan seq f) s.chip = acked chan seq (f (heardRecord q chan seq s)) :=
  (rxFrame_hears h _).trans (if_pos hn)

/-! The journal (R557, R558). -/

theorem mapKeys_ne_snapshot {r : JRec} (h : ∀ e, r ≠ .snapshot e) (f : List Word → List Word) (e : Nat) : r.mapKeys f ≠ .snapshot e := by
  cases r with
  | snapshot n => exact absurd rfl (h n)
  | _ => exact nofun

/-- A record other than a snapshot is taken in order. -/
theorem journalRecord_of_ne_snapshot {r : JRec} (h : ∀ e, r ≠ .snapshot e) (seq : Nat) (c : Chip) : journalRecord seq r c =
    if seq = c.twin.jRx then
      twinSend (.ack 2 seq none)
        (if (journalTake seq r c).twin.st = 3 ∧ r.applies then queueStandby (journalTake seq r c) else journalTake seq r c)
    else if seq < c.twin.jRx then twinSend (.ack 2 seq none) c
    else c := by
  cases r with
  | snapshot n => exact absurd rfl (h n)
  | _ => rfl

/-- Only a PAIRED device changes its pairing state with a record taken (R559). -/
theorem journalTake_st {c : Chip} (h : c.twin.st ≠ 3) (seq : Nat) (r : JRec) : (journalTake seq r c).twin.st = c.twin.st := by
  unfold journalTake; dsimp only
  rw [if_neg fun a => h a.2]
  rfl

theorem journalRecord_next {seq : Nat} {r : JRec} {c : Chip} (h : ∀ e, r ≠ .snapshot e) (hseq : seq = c.twin.jRx) (hst : c.twin.st ≠ 3) :
    journalRecord seq r c = acked 2 seq (journalTake seq r c) := by
  have hstay : ¬ ((journalTake seq r c).twin.st = 3 ∧ r.applies = true) := fun a => hst (journalTake_st hst seq r ▸ a.1)
  rw [journalRecord_of_ne_snapshot h, if_pos hseq, if_neg hstay, acked]

theorem journalRecord_earlier {seq : Nat} {r : JRec} {c : Chip} (h : ∀ e, r ≠ .snapshot e) (hseq : seq < c.twin.jRx) :
    journalRecord seq r c = acked 2 seq c := by
  rw [journalRecord_of_ne_snapshot h, if_neg (Nat.ne_of_lt hseq), if_pos hseq, acked]

/-- An acknowledgement drops the records it covers, where no commit waits for it. -/
theorem journalAck_drops {chan seq : Nat} {c : Chip} (h : chan = 2 → c.gx.active = none) : ∃ d, journalAck chan seq none c = d ∧
    d.twin.unacked = c.twin.unacked.filter (fun e => !(e.1 == chan && decide (e.2.1 ≤ seq))) ∧
    d.twin.journal = (if chan = 2 then c.twin.journal.filter (fun e => decide (seq < e.1)) else c.twin.journal) ∧ d.gx = c.gx := by
  refine ⟨_, rfl, ?_⟩
  unfold journalAck; dsimp only
  by_cases hchan : chan = 2
  · simp only [if_pos hchan, modTw_gx, h hchan]
    exact ⟨rfl, rfl, trivial⟩
  · simp only [if_neg hchan]
    exact ⟨rfl, rfl, rfl⟩

/-- The commit whose record is acknowledged goes on (R123). -/
theorem journalAck_goes {seq : Nat} {a : Commit} {c : Chip} (ha : c.gx.active = some a) (hstage : a.stage = .journalled) (hseq : a.journal ≤ seq) :
    (journalAck 2 seq none c).gx.active = some { a with stage := .writing } := by
  unfold journalAck
  simp [ha, hstage, hseq, goWrite, modGx]

theorem retransmit_one {chan seq sent : Nat} {m : TwinMsg} {c : Chip} (h : c.twin.unacked = [(chan, seq, m, sent)]) :
    retransmit c = twinSend m.onLink (modTw (fun t => { t with unacked := [(chan, seq, m, localNs (waitLocal (sent + 1000000) c))] })
      (waitLocal (sent + 1000000) c)) := by
  unfold retransmit
  simp [h, modTw]

/-! Mirroring (R562). -/

/-- Within a pass the next leg's record is sent at its instant. -/
theorem mirrorSend_leg {l : Nat} {c : Chip} (hses : c.twin.session = true) (hmore : c.twin.mirrorNext < (mirrorItems (cfg c)).length)
    (hpass : svc c < c.twin.mirrorPass + 100000000) (hitem : (mirrorItems (cfg c))[c.twin.mirrorNext]? = some (true, l)) {d : Chip}
    (hd : d = waitSvc (c.twin.mirrorPass + c.twin.mirrorNext * 100000000 / (mirrorItems (cfg c)).length) c) :
    mirrorSend c = recNext 4 (.mirror (tget 0 c.twin.chanSeq 4 + 1) (mirrorLeg (cfg c) l d))
      (modTw (fun t => { t with mirrorNext := c.twin.mirrorNext + 1 }) d) := by
  have hagain : (decide ((mirrorItems (cfg c)).length ≤ c.twin.mirrorNext) || decide (c.twin.mirrorPass + 100000000 ≤ svc c)) = false := by
    simp [hmore, hpass]
  have hsend : ¬ ((!c.twin.session) = true ∨ (mirrorItems (cfg c)).length = 0) := by
    simp only [hses, Bool.not_true, Bool.false_eq_true, false_or]; omega
  have htwin : d.twin = c.twin := by rw [hd, waitSvc_twin]
  have hcfg : cfg d = cfg c := cfg_congr (by rw [hd, waitSvc_gx])
  unfold mirrorSend; dsimp only
  rw [if_neg hsend, hagain]
  simp only [Bool.false_eq_true, if_false, ← hd, hcfg, hitem]
  simp [modTw, htwin]

/-! Reserves (R560). -/

theorem reserveRelease_held {conf : Nat} {c : Chip} (h : (c.twin.reserves.any (fun e => e.1 == 2 * idKey conf + 1)) = false) :
    reserveRelease conf c = modTw (fun t => { t with reserves := t.reserves.filter (fun e => e.1 != 2 * idKey conf) }) c := by
  unfold reserveRelease; dsimp only
  rw [if_neg (by simp [h])]

theorem reserveAnswer_ok {a : Commit} {c : Chip} (h : awaiting c = some a) (needed avail : Nat) : reserveAnswer true needed avail c =
    goReserve { a with asking := a.asking.drop 1, more := a.more ++ a.asking.take 1 }
      (modTw (fun t => { t with exposed := t.exposed.filter (fun k => !(a.asking.take 1).contains k) }) c) := by
  unfold reserveAnswer
  simp only [h, if_true]

theorem reserveAnswer_short {a : Commit} {c : Chip} (h : awaiting c = some a) (needed avail : Nat) : reserveAnswer false needed avail c =
    failCommit a 2 { res := Res.err 0x000A, kind := 16, needed := needed, avail := avail, next := a.next } c := by
  unfold reserveAnswer
  simp only [h, Bool.false_eq_true, if_false]

theorem reserveTimeout_exposes {a : Commit} {c : Chip} (h : awaiting c = some a) : reserveTimeout c =
    goReserve { a with asking := a.asking.drop 1 } (exposeConfs a (a.asking.take 1) (waitLocal a.deadline c)) := by
  unfold reserveTimeout
  simp only [h]

/-! Hand-over and relay (R571, R572). -/

/-- T_act of the twin with every conference taken, none of them with a service address, while a commit is under way: they are given away,
and relay begins. -/
theorem tActReturn_taken {ids : List (Nat × Nat)} {h : Handover} {c : Chip} (hh : c.twin.handover = some h) (hidle : h.relaying = false)
    (hrelay : h.relay = true) (hcards : h.cards = []) (hsome : h.confs ≠ []) (hids : ∀ k ∈ h.confs, ids.any (fun e => e.1 == (cfg c).keyId k) = true)
    (hact : c.gx.active ≠ none) : handed (tActReturn ids c) = (h.confs.foldl linsert c.twin.gone,
      some { h with relaying := true, lastRelay := localNs c, moved := h.confs.length }) := by
  have hall : h.confs.filter (fun k => ids.any (fun e => e.1 == (cfg c).keyId k)) = h.confs := List.filter_eq_self.2 hids
  unfold tActReturn
  simp only [hh, hidle, hall, hcards, hrelay, Bool.false_eq_true, if_false, if_true]
  rw [if_neg (by simpa using hsome)]
  refine (queueOwn_handed ?_).trans ?_
  · exact hact
  · simp [handed, modTw, modNet]

theorem relayIn_at {f : Frame} {e : Nat × List Word} {c : Chip}
    (h : (cfg c).addrs.find? (fun e => (steerIn [e] (addrLport e.2) f).isSome && addrActive c (cfg c) e.1) = some e) :
    relayIn f c = fifoPut (addrPipe e.2) (stamped c (addrLport e.2) e.1 f) c := by
  unfold relayIn
  simp only [h]

theorem relayEnd_done {h : Handover} {c : Chip} (hh : c.twin.handover = some h) (hrelay : h.relay = true) (hon : h.relaying = true)
    (hcmd : h.cmd ≠ 0) (hst : c.twin.st ≠ 5) : relayEnd c = finish (h.cmd - 1) (handoverResult h) (modTw (fun t => { t with handover := none })
      (waitLocal (min (h.thLocal + c.twin.relayLimit * 1000000) (h.lastRelay + c.twin.relayIdle * 1000000)) c)) := by
  unfold relayEnd handoverDone
  simp [hh, hrelay, hon, hcmd, modTw, hst]

/-! Eject (R573). -/

/-- With nothing held there is nothing to end. -/
theorem endHeld_empty {c : Chip} (h : c.gx.held = []) : endHeld c = c := by
  unfold endHeld
  simp only [h, List.filter_nil, List.foldl_nil, modGx]
  rw [← h]

theorem setTwinState_gx (st : Nat) (c : Chip) : (setTwinState st c).gx = c.gx := by unfold setTwinState; split <;> rfl
theorem setTwinState_pwr (st : Nat) (c : Chip) : (setTwinState st c).pwr = c.pwr := by unfold setTwinState; split <;> rfl

/-- The device as EJECT_REQ_N takes it out of service. -/
def ejecting (c : Chip) : Chip :=
  raise 5 0xD08 none 0 (b2n (c.twin.st == 3)) (setTwinState 5 (modPwr (fun p => { p with phase := .ejecting }) c))

theorem ejecting_phase (c : Chip) : (ejecting c).pwr.phase = .ejecting := by rw [ejecting, raise_pwr, setTwinState_pwr]; rfl
theorem ejecting_twin (c : Chip) : (ejecting c).twin = { c.twin with st := 5 } := by rw [ejecting, raise_twin, setTwinState_twin]; rfl

theorem ejectRequest_idle {c : Chip} (hserve : c.pwr.phase = .service) (hheld : c.gx.held = []) : ejectRequest c =
    match c.twin.handover with
    | some _ => ejecting c
    | none => if c.twin.st == 3 then ejectHandover (ejecting c) else ejectDown (ejecting c) := by
  have hend : endHeld (ejecting c) = ejecting c := endHeld_empty (by rw [ejecting, raise_gx, setTwinState_gx]; exact hheld)
  show (if c.pwr.phase ≠ .service then c else _) = _
  rw [if_neg (by simpa using hserve)]
  show (match (endHeld (ejecting c)).twin.handover with
    | some _ => endHeld (ejecting c)
    | none => if c.twin.st == 3 then ejectHandover (endHeld (ejecting c)) else ejectDown (endHeld (ejecting c))) = _
  rw [hend, ejecting_twin]

theorem ejectBudget_over {c : Chip} (h : 1 < c.twin.ejectEnd) :
    ejectBudget c = modTw (fun t => { t with ejectEnd := 1, hbStopped := true }) (waitLocal c.twin.ejectEnd c) := if_neg (by omega)

/-- Settles O59: each row is its own function of the twin's record. -/
theorem twinRecords : Obligations.TwinRecords := by
  unfold Obligations.TwinRecords
  refine ⟨?next, ?earlier, ?ack, ?goes, ?again, ?mirror, ?mirrored, ?noRing, ?ring, ?asked, ?confirmed, ?short, ?timeout, ?release, ?tact,
    ?relay, ?relayEnd, ?eject, ?ejectDown, ?budget⟩
  case next =>
    intro s q seq r h hseq hr hst
    exact act_onChip ((rxFrame_hears h _).trans (journalRecord_next (mapKeys_ne_snapshot hr _) hseq hst))
  case earlier =>
    intro s q seq r h hseq hr
    exact act_onChip ((rxFrame_hears h _).trans (journalRecord_earlier (mapKeys_ne_snapshot hr _) hseq))
  case ack =>
    intro s q chan seq h hfree
    obtain ⟨d, hd, hunacked, hjournal, hgx⟩ := journalAck_drops (c := heard q s) (seq := seq) hfree
    exact ⟨_, act_onChip ((rxFrame_hears h _).trans hd), hunacked, hjournal, hgx, rfl⟩
  case goes =>
    intro s q seq a h ha hstage hseq
    exact ⟨_, act_onChip (rxFrame_hears h _), journalAck_goes (c := heard q s) ha hstage hseq, rfl⟩
  case again =>
    intro s chan seq sent m h
    exact act_onChip (retransmit_one h)
  case mirror =>
    intro s l c hses hmore hpass hitem hc
    exact act_onChip (mirrorSend_leg hses hmore hpass hitem hc)
  case mirrored =>
    intro s q seq m h hn
    exact act_onChip (rxRecord_next h hn _)
  case noRing =>
    intro s q head w h hnone
    exact act_onChip ((rxFrame_hears h _).trans (if_pos hnone))
  case ring =>
    intro s q head w h hring
    exact act_onChip ((rxFrame_hears h _).trans (if_neg hring))
  case asked =>
    intro s q seq conf u c h hn hc
    subst hc
    exact act_onChip (rxRecord_next h hn _)
  case confirmed =>
    intro s q seq needed avail a h hn ha
    exact act_onChip ((rxRecord_next h hn _).trans (congrArg _ (reserveAnswer_ok (c := heardRecord q 7 seq s) ha needed avail)))
  case short =>
    intro s q seq needed avail a h hn ha
    exact act_onChip ((rxRecord_next h hn _).trans (congrArg _ (reserveAnswer_short (c := heardRecord q 7 seq s) ha needed avail)))
  case timeout =>
    intro s a ha
    exact act_onChip (reserveTimeout_exposes ha)
  case release =>
    intro s q seq conf h hn hnone
    exact act_onChip ((rxRecord_next h hn _).trans (congrArg _ (reserveRelease_held (c := heardRecord q 7 seq s) hnone)))
  case tact =>
    intro s q seq sec ns ids h hears hn hh hidle hrelay hcards hsome hids hact
    have htwin := waitSvc_twin (n := sec * 1000000000 + ns) (c := heardRecord q 7 seq s)
    have hgx := waitSvc_gx (n := sec * 1000000000 + ns) (c := heardRecord q 7 seq s)
    have hgiven := tActReturn_taken (c := waitSvc (sec * 1000000000 + ns) (heardRecord q 7 seq s)) (by rw [htwin]; exact hh) hidle hrelay hcards
      hsome (by rw [cfg_congr hgx]; exact hids) (by rw [hgx]; exact hact)
    obtain ⟨hgone, hover⟩ := Prod.mk.inj ((twinSend_handed (.ack 7 seq none) _).trans hgiven)
    refine ⟨_, act_onChip (rxRecord_next hears hn _), rfl, ?_, _, hover, rfl, rfl, rfl⟩
    rw [htwin] at hgone
    exact hgone
  case relay =>
    intro s q f e h hfind
    exact act_onChip ((rxFrame_hears h _).trans (relayIn_at (c := heard q s) hfind))
  case relayEnd =>
    intro s h hh hrelay hon hcmd hst
    exact act_onChip (relayEnd_done hh hrelay hon hcmd hst)
  case eject =>
    intro s h hserve hst hheld hh
    have hreq := ejectRequest_idle hserve hheld
    rw [hh] at hreq
    refine ⟨_, act_onChip hreq, ejecting_phase _, ?_, ?_, rfl⟩ <;> rw [onChip_chip, ejecting_twin]
    exact hh
  case ejectDown =>
    intro s hserve hst hheld hh hend
    have hpaired : (s.chip.twin.st == 3) = false := by simpa using hst
    have hreq := ejectRequest_idle hserve hheld
    rw [hh] at hreq
    simp only [hpaired, Bool.false_eq_true, if_false, ejecting] at hreq
    exact act_onChip hreq
  case budget =>
    intro s h
    exact act_onChip (ejectBudget_over h)

end Sys2Proof.Machine
end
